-- ==== Sys2Proof/Word.lean ====
section
/-! DEFINITION. The word types of the part and their plainest arithmetic.
Every register is 32 bits wide (R3); the bus moves bytes and words; addresses and counts are plain numbers. -/
namespace Sys2Proof

/-- One 32-bit register or bus word (R3). -/
abbrev Word := BitVec 32
/-- One byte of memory, of a frame or of an image. -/
abbrev Byte := BitVec 8
/-- A flag as a number, for the composition of a status word. -/
def b2n (b : Bool) : Nat := if b then 1 else 0
/-- A number as a register word, modulo 2^32. -/
def wd (n : Nat) : Word := BitVec.ofNat 32 n

end Sys2Proof
end

