-- ==== Sys2Proof/Types.lean ====
section
/-! DEFINITION. The closed sets of names the commands and the state share: bus masters, hosts, directions, blocks, clocks. -/
namespace Sys2Proof

/-- The bus masters, in the order of Table 17.5 (R438). -/
inductive Master where
  | hpa | hpb | dma | seq | img | ste | dly | chk | pair
deriving DecidableEq, Repr

/-- The two host controllers (R429). -/
inductive HostId where
  | a | b
deriving DecidableEq, Repr

/-- A direction of an audio port or of a stream. -/
inductive Dir where
  | rx | tx
deriving DecidableEq, Repr

/-- A PTP domain with a port: A or B (10). -/
inductive Dom where
  | a | b
deriving DecidableEq, Repr

/-- A block that owns faults and registers (Table 1.11); an APT port and a physical cell each count as one. -/
inductive Blk where
  | sys | img | hp | bmx | dma | chk | twc | flc
  | mac (n : Nat) | ste | ptu | rsu | mxe | ldg
  | apt (n : Nat) | pwr | lsp | pair | memc | dly | cell (p : Nat)
deriving DecidableEq, Repr

/-- The clock sources the clock monitor watches (R410). -/
inductive ClkSrc where
  | refclk | ethRefclk | corePll | sysPll | memPll | timePll | powerPll
deriving DecidableEq, Repr

/-- The index of a master in Table 17.5. -/
def Master.idx : Master → Nat
  | .hpa => 0 | .hpb => 1 | .dma => 2 | .seq => 3 | .img => 4 | .ste => 5 | .dly => 6 | .chk => 7 | .pair => 8
/-- The bus master a host acts through. -/
def HostId.master : HostId → Master
  | .a => .hpa | .b => .hpb
/-- The host a bus master carries, if it carries one. -/
def Master.host? : Master → Option HostId
  | .hpa => some .a | .hpb => some .b | _ => none
/-- Host A is 0 and host B is 1 in register offsets (R442). -/
def HostId.idx : HostId → Nat
  | .a => 0 | .b => 1
/-- The direction bit: 0 receive, 1 transmit. -/
def Dir.idx : Dir → Nat
  | .rx => 0 | .tx => 1
/-- Domain A is 0 and domain B is 1. -/
def Dom.idx : Dom → Nat
  | .a => 0 | .b => 1

/-- The base address of a block's register window (Table 1.11, R31). -/
def Blk.base : Blk → Nat
  | .sys => 0x40000000 | .img => 0x40010000 | .hp => 0x40020000 | .bmx => 0x40030000
  | .dma => 0x40040000 | .chk => 0x40050000 | .twc => 0x40060000 | .flc => 0x40070000
  | .mac n => 0x40080000 + n * 0x10000
  | .ste => 0x400C0000 | .ptu => 0x400D0000 | .rsu => 0x400E0000
  | .mxe => 0x40100000 | .ldg => 0x40110000
  | .apt n => 0x40120000 + n * 0x1000
  | .pwr => 0x40140000 | .lsp => 0x40150000 | .pair => 0x40160000 | .memc => 0x40170000 | .dly => 0x40180000
  | .cell p => 0x40200000 + p * 0x1000

/-- The index of a block in table order from SYS as 0 (R403). -/
def Blk.index : Blk → Nat
  | .sys => 0 | .img => 1 | .hp => 2 | .bmx => 3 | .dma => 4 | .chk => 5 | .twc => 6 | .flc => 7
  | .mac n => 8 + n | .ste => 12 | .ptu => 13 | .rsu => 14 | .mxe => 15 | .ldg => 16
  | .apt _ => 17 | .pwr => 18 | .lsp => 19 | .pair => 20 | .memc => 21 | .dly => 22 | .cell _ => 23

/-- The unit byte of a log entry: the port or the cell, otherwise 0 (Table 16.1). -/
def Blk.unit : Blk → Nat
  | .apt n => n
  | .cell p => p
  | _ => 0

/-- What a frame brings in from outside the part: for each receive port direction in service its slot values, and for each sense input the bits sampled in the frame that ended, the first one in bit 0. -/
structure FrameIn where
  slots : List (Nat × List Nat) := []
  sense : List (Nat × Nat) := []
deriving DecidableEq, Repr

/-- A received Ethernet frame, FCS included, with the stamp of its arrival (R218, R273). -/
structure RxFrame where
  bytes : List Byte
  stamp : Nat
deriving DecidableEq, Repr

/-- A level on OC_IN of a channel, from one counter period of the carrier period on, for so many counter periods (R335). -/
structure OcIn where
  ch : Fin 32
  level : Bool
  from_ : Nat
  len : Nat
deriving DecidableEq, Repr

/-- Which of a cell's memories a scrubber reads (R128). -/
inductive ScrubKind where
  | data | prog
deriving DecidableEq, Repr

/-- The cell state registers of R149. -/
inductive CellReg where
  | accLo (a : Fin 4) | accHi (a : Fin 4) | lfsrA | lfsrB | efb (r : Fin 64)
deriving DecidableEq, Repr

/-- Where in a frame CS_N rose too early (R426): while the host was sending, or after its last byte, with the access of the frame. -/
inductive CsPhase where
  | sending
  | afterWrite (addr : Nat) (ws : List Word)
  | afterRead (addr len : Nat)
deriving DecidableEq, Repr

/-- An access of a bus master to a memory. -/
inductive MemAccess where
  | read (addr len : Nat)
  | write (addr : Nat) (bytes : List Byte)
deriving DecidableEq, Repr

/-- What a checkpoint item is about (Table 15.4). Logical cells, banks, players, flows, lines and channels by number. -/
inductive CkKey where
  | run | alarm | health | swap | edits
  | cellWord (l w : Nat) | cellAg (l g : Nat) | cellAcc (l a : Nat) | cellEfb (l r : Nat) | cellLfsr (l : Nat) | cellRet (l k : Nat)
  | entry (bank e : Nat) | param (bank d : Nat) | player (m : Nat) | flow (f : Nat) | line (i : Nat) | lsp (n : Nat) | pwr (n : Nat)
deriving DecidableEq, Repr

/-- One checkpoint item: what it is about, and its values. -/
structure CkItem where
  key : CkKey
  vals : List Int
deriving DecidableEq, Repr

/-- A checkpoint delta as received (R382, R383): its number, whether it arrived whole, its items. -/
structure Delta where
  num : Nat
  ok : Bool
  items : List CkItem
deriving DecidableEq, Repr

/-- A snapshot slice as received (R382, R383): its number in the cycle, 0 to 99, whether it arrived whole, its items. -/
structure Slice where
  num : Nat
  ok : Bool
  items : List CkItem
deriving DecidableEq, Repr

/-- A PTP message as received and parsed (R277 to R282): the MAC and the transport it came by, the header fields, the timestamp
it carries, its receive stamp in units of 2^-32 period, and the fields of its kind. -/
structure PtpMsg where
  mac : Nat := 0
  ieee : Bool := false
  version : Nat := 2
  domain : Nat := 0
  src : Nat := 0
  srcPort : Nat := 1
  seq : Nat := 0
  twoStep : Bool := false
  sec : Nat := 0
  ns : Nat := 0
  corr : Int := 0
  stamp : Nat := 0
  reqId : Nat := 0
  reqPort : Nat := 1
  p1 : Nat := 128
  cls : Nat := 248
  acc : Nat := 254
  var : Nat := 65535
  p2 : Nat := 128
  gm : Nat := 0
  steps : Nat := 0
  utc : Nat := 0
  utcValid : Bool := false
  leap61 : Bool := false
  leap59 : Bool := false
deriving DecidableEq, Repr

/-- The inputs whose edges RSU stamps (R288). -/
inductive RefPin where
  | wck0 | wck1 | tref | pps | port
deriving DecidableEq, Repr

/-- A STATUS frame of the pair link (Table 15.1): wick state, SYS.MODE, UNIT, ARM, CKPT_VALID, health summary; `ok`: its CRC and
sequence number are good (R366). -/
structure PairStatus where
  wick : Nat := 0
  mode : Nat := 0
  unit : Bool := false
  arm : Bool := false
  ckptValid : Bool := false
  health : Nat := 0
  ok : Bool := true
deriving DecidableEq, Repr

/-- How a two-wire transfer ends on the bus (R479, R481): all bytes moved, or a write byte was not acknowledged after so many. -/
inductive TwEnd where
  | ok
  | dataNak (sent : Nat)
deriving DecidableEq, Repr

end Sys2Proof
end

