-- ==== Sys2Proof/Syntax.lean ====
section
/-! DEFINITION. The commands of the part: one constructor per row of spec/opcode_table.json, in its order, with the row's operands. -/
namespace Sys2Proof

/-- The operations and events of the part (spec/opcode_table.json). Each constructor's comment gives the row's rule and what the row says. -/
inductive Instr where
  /-- EVENT_TICK (R21). The chip-wide tick strobe opens a tick, and SYS applies the events sampled in it during the commit phase in the order of precedence. -/
  | eventTick
  /-- FRAME_BOUNDARY (R19). A tick whose number is a multiple of 64 starts a sample frame, at which per-frame blocks act. -/
  | frameBoundary (inp : FrameIn)
  /-- TICK_LO_READ (R33). A read of SYS.TICK_LO returns the tick number [31:0] and captures bits [63:32] for the reading master. -/
  | tickLoRead (m : Master)
  /-- RESET_N_ASSERT (R53). RESET_N falls, the ticks stop, and the pins are held in their reset states. -/
  | resetNAssert
  /-- RESET_N_RELEASE (R54). RESET_N rises, BOOT_SEL is captured, and SEQ starts the boot phases. -/
  | resetNRelease (bootSel : Fin 4)
  /-- PLL_LOCK (R52). The PLLs lock, and SEQ leaves PLL_WAIT. -/
  | pllLock
  /-- RUN_SET (R47). A host request sets RUN, or is refused with a result code. -/
  | runSet (m : Master)
  /-- RUN_CLEAR (R48). A host request clears RUN and starts the ramp-out, or is refused with ALARM_HELD. -/
  | runClear (m : Master)
  /-- ALARM_SET (R49). A host request sets ALARM, which loads the alarm set and the survival limits from the next frame boundary. -/
  | alarmSet (m : Master)
  /-- ALARM_CLEAR (R49). A host request clears ALARM, which reverses the alarm effects from the next frame boundary. -/
  | alarmClear (m : Master)
  /-- OUTPUT_RAMP_END (R46). 4,096 ticks after b the output ramp ends, and PHASE becomes RUNNING or STOPPED. -/
  | outputRampEnd
  /-- DRIVE_EN_RISE (R342). DRIVE_EN rises at the first frame boundary at which every interlock condition holds. -/
  | driveEnRise
  /-- FUSE_PHASE_END (R61). SEQ finishes reading the OTP fuses, checks TRIM_CRC, loads the trims, and SNUFF_N rises. -/
  | fusePhaseEnd
  /-- SRAM_INIT_END (R54). SRAM initialisation ends, and the event log starts cleared. -/
  | sramInitEnd
  /-- FLASH_BOOT_RECORD_READ (R57). At flash boot, SEQ reads SFDP and the BOOT record from the flash, ending WAIT_BOOT. -/
  | flashBootRecordRead (dev : Word)
  /-- INIT_MEM (R58). IMG command INIT_MEM has SEQ check and apply the BOOT record and train the DRAM. -/
  | initMem (m : Master)
  /-- MEM_INIT_END (R69). DRAM initialisation and training end, setting MEM_READY or MEM_FAIL. -/
  | memInitEnd (trainErr : Fin 7) (gib : Nat)
  /-- FLASH_IMAGE_COPY_END (R57). SEQ finishes copying the flash image into slot 0 and starts the loader. -/
  | flashImageCopyEnd
  /-- LOAD_FULL (R74). IMG command LOAD_FULL is admitted and starts a full load, or is refused. -/
  | loadFull (m : Master) (allowUnb : Bool)
  /-- LOAD_PARTIAL (R80). IMG command LOAD_PARTIAL is admitted and starts a partial load of one region, or is refused. -/
  | loadPartial (m : Master) (allowUnb : Bool)
  /-- VERIFY (R75). IMG command VERIFY checks an image in place through CHECKING and applies nothing. -/
  | verify (m : Master) (allowUnb : Bool)
  /-- IMG_ABORT (R88). IMG command ABORT ends a load or verify before APPLYING, or is discarded as moot. -/
  | imgAbort (m : Master)
  /-- IMG_BAD_CMD (R74). An IMG command code of 6 or 7 is refused with BAD_CMD. -/
  | imgBadCmd (m : Master) (code : Fin 2)
  /-- LAT_QUERY (R85). A write of a PATH to IMG.LAT_QUERY looks up the published latency entry in LAT_RESULT. -/
  | latQuery (m : Master) (path : Fin 65536)
  /-- READING_END (R75). The READING stage ends after copying, hashing and checking the records, and AUTH starts. -/
  | readingEnd
  /-- AUTH_END (R71). Key-hash and signature verification end, and CHECKING starts. -/
  | authEnd
  /-- CHECKING_END (R75). The structure, resource, latency and bound checks end, and APPLYING starts. -/
  | checkingEnd
  /-- LOAD_ABORT_END (R88). An aborted load ends within 100 µs with ABORTED and LOAD_FAIL. -/
  | loadAbortEnd
  /-- LOAD_ACCEPT (R77). At the end of APPLYING, in one tick, the new slot becomes active, ACTIVE_ID is set, and LOAD_DONE is posted. -/
  | loadAccept
  /-- PARTIAL_CELLS_HALT (R81). At b1 + 4,096 the selected cells halt and their programs and state are written. -/
  | partialCellsHalt
  /-- PARTIAL_CELLS_RESTART (R81). At the first frame boundary after the writes end, the cells restart and their returns ramp in. -/
  | partialCellsRestart
  /-- PARTIAL_LOAD_DONE (R81). The partial load of a region completes, and the published tables are updated. -/
  | partialLoadDone
  /-- WINDOW_BOUNDARY (R105). At each 2^22-tick window boundary, LDG closes records, resets the measures, and applies TRACK writes. -/
  | windowBoundary
  /-- LDG_REC_SEL (R106). A write of REC_SEL captures a slot's closed record into that master's REC0 to REC3. -/
  | ldgRecSel (m : Master) (j : Fin 4096)
  /-- LDG_WIN_LO_READ (R113). A read of WIN_LO returns the last closed window number and captures its high word. -/
  | ldgWinLoRead (m : Master)
  /-- BOUND_CHECK_DONE (R109). The bound check of a safe-load completes, and LDG posts BOUND_DONE or BOUND_REJECT. -/
  | boundCheckDone
  /-- CELL_BLOCK_START (R130). At cycle 0 of a block, a cell swaps banks, applies pending writes, and runs its schedule to drain. -/
  | cellBlockStart (p : Fin 72)
  /-- CELL_SCRUB (R128). The cell scrubber reads a word in a free slot and rewrites it if corrected. -/
  | cellScrub (p : Fin 72) (kind : ScrubKind)
  /-- CELL_DATA_READ (R145). A bus read of a cell data word returns bits [31:0] and copies bits [39:32] into MEM_HI. -/
  | cellDataRead (m : Master) (p : Fin 72) (w : Fin 16384)
  /-- CELL_DATA_WRITE (R145). A bus write of a cell data word writes 40 bits, taking the high bits from MEM_HI. -/
  | cellDataWrite (m : Master) (p : Fin 72) (w : Fin 16384) (v : Word)
  /-- CELL_INSTR_HI_WRITE (R145). A write to instruction bits [63:32] is staged. -/
  | cellInstrHiWrite (m : Master) (p : Fin 72) (i : Fin 4096) (v : Word)
  /-- CELL_INSTR_LO_WRITE (R146). A write to instruction bits [31:0] writes all 64 bits if no schedule runs, otherwise ACCESS_ERR. -/
  | cellInstrLoWrite (m : Master) (p : Fin 72) (i : Fin 4096) (v : Word)
  /-- CELL_INSTR_LO_READ (R145). A read of instruction bits [31:0] captures bits [63:32]. -/
  | cellInstrLoRead (m : Master) (p : Fin 72) (i : Fin 4096)
  /-- HALT (R150). A cell HALT write stops the schedule from the next block boundary, or is refused. -/
  | halt (m : Master) (p : Fin 72) (on : Bool)
  /-- RETIRE (R170). A cell RETIRE write requests a proactive migration, or is refused. -/
  | retire (m : Master) (p : Fin 72)
  /-- FENCE_CLR (R122). A write of FENCE_CLR to a FENCED cell sets it to TEST for a sweep pass. -/
  | fenceClr (m : Master) (p : Fin 72)
  /-- AG_REGISTER_WRITE (R139). A write to BASE, LEN, STEP or Pj is held pending while a schedule runs, otherwise applied. -/
  | agRegisterWrite (m : Master) (p : Fin 72) (g : Fin 4) (r : Fin 7) (v : Word)
  /-- CELL_STATE_REG_WRITE (R149). A write to an accumulator, LFSR or EFB register takes effect only while no schedule runs. -/
  | cellStateRegWrite (m : Master) (p : Fin 72) (r : CellReg) (v : Word)
  /-- MEM_UE (R172). An uncorrectable data-memory error fences the cell and starts a restorative migration. -/
  | memUe (p : Fin 72)
  /-- PROG_UE (R172). An uncorrectable program-memory error fences the cell and starts a restorative migration. -/
  | progUe (p : Fin 72)
  /-- MIGRATION_LOADED (R170). The shadow's program has been loaded from the image store. -/
  | migrationLoaded
  /-- MIGRATION_COPY_START (R170). At the first block boundary after loading, mirroring and copying start. -/
  | migrationCopyStart
  /-- MIGRATION_COPY_END (R170). The copier has copied every word of the source. -/
  | migrationCopyEnd
  /-- MIGRATION_SHADOW_START (R170). At the next block boundary the remaining state moves, and the shadow starts running and comparing. -/
  | migrationShadowStart
  /-- MIGRATION_SWITCH (R171). After 4,096 compared samples, MXE takes the returns from the shadow, and the source is fenced. -/
  | migrationSwitch
  /-- RESTORE_LOADED (R172). The spare's program and state are loaded, and CONFIGURED becomes 1. -/
  | restoreLoaded (p : Fin 72)
  /-- RESTORE_CELL_START (R172). The new cell starts running at the next block boundary. -/
  | restoreCellStart (p : Fin 72)
  /-- RESTORE_RAMP_END (R172). The 64-sample return ramp ends, and the restorative migration completes. -/
  | restoreRampEnd (p : Fin 72)
  /-- SET (R188). Edit command SET queues a new target gain for a crosspoint. -/
  | set (m : Master)
  /-- REMOVE (R188). Edit command REMOVE queues a ramp to 0 and the release of a crosspoint. -/
  | remove (m : Master)
  /-- XFADE (R188). Edit command XFADE queues a REMOVE and a SET at the same boundary. -/
  | xfade (m : Master)
  /-- SWAP (R190). A SWAP write admits a safe-load, freezes the inactive bank and starts the check, or is refused. -/
  | swap (m : Master) (unb : Bool)
  /-- SWAP_CANCEL (R193). A SWAP_CANCEL write ends a pending swap with CANCELLED, or records MOOT. -/
  | swapCancel (m : Master)
  /-- ALARM_BANK_SWAP (R194). At b + 64 the alarm set is swapped in without a check, invalidating the entries beyond room. -/
  | alarmBankSwap
  /-- MATRIX_TABLE_WRITE (R185). A bus write to a crosspoint table is accepted only to the unfrozen inactive bank outside ALARM. -/
  | matrixTableWrite (m : Master) (bank : Fin 2) (off : Fin 16777216) (v : Word)
  /-- PLAY_START (R199). Player command START arms the player, or is refused. -/
  | playStart (m : Master) (pl : Fin 64) (v : Word)
  /-- PLAY_STOP (R199). Player command STOP returns an armed player to IDLE or starts a stop ramp. -/
  | playStop (m : Master) (pl : Fin 64)
  /-- PLAY_FINISH (R199). Player command FINISH makes the current pass the last. -/
  | playFinish (m : Master) (pl : Fin 64)
  /-- PLAYER_FIRST_SAMPLE (R200). At the start frame an armed player starts playing, recording LATE_ARM if late. -/
  | playerFirstSample (pl : Fin 64)
  /-- PLAYER_DONE (R201). After the last sample of the last pass, the player becomes IDLE with DONE. -/
  | playerDone (pl : Fin 64)
  /-- PLAYER_STOP_RAMP_END (R199). A stopping player's 64-frame ramp ends, and it becomes IDLE with STOPPED. -/
  | playerStopRampEnd (pl : Fin 64)
  /-- LINE_DELAY_WRITE (R205). A LINE_DELAY write is validated and starts a crossfade at the next boundary, is held, or is refused with RANGE. -/
  | lineDelayWrite (m : Master) (i : Fin 1024) (v : Word)
  /-- XFADE_DONE (R205). A delay crossfade of XF frames ends, and any held delay starts a new one. -/
  | xfadeDone (i : Fin 1024)
  /-- LINK_UP (R214). A MAC's link condition has held for 10 ms, and the link comes up. -/
  | linkUp (n : Fin 4)
  /-- LINK_DOWN (R214). The link condition fails, the link goes down, and LINK_LOST fences the MAC. -/
  | linkDown (n : Fin 4) (lock lf rf an : Bool)
  /-- MAC_LINK_TIMEOUT (R225). The link is not up 500 ms after enabling, and LINK_LOST is detected. -/
  | macLinkTimeout (n : Fin 4)
  /-- MAC_FRAME_RECEIVE (R216). A received frame is checked whole and passed to STE, or is discarded and counted. -/
  | macFrameReceive (n : Fin 4) (frame : RxFrame) (codeErr : Bool)
  /-- PAUSE_FRAME (R223). A received PAUSE frame sets the pause timer, or is counted and ignored. -/
  | pauseFrame (n : Fin 4) (quanta : Fin 65536)
  /-- PAUSE_TIMER_EXPIRY (R223). The pause timer reaches 0, and frame selection resumes. -/
  | pauseTimerExpiry (n : Fin 4)
  /-- PAUSE_WATCHDOG (R224). Continuous pause reaches WD_LIMIT, raising PAUSE_BREAK, clearing the timer and starting hold-off. -/
  | pauseWatchdog (n : Fin 4)
  /-- HOLDOFF_END (R224). The pause hold-off ends, and PAUSE frames are obeyed again. -/
  | holdoffEnd (n : Fin 4)
  /-- TX_FRAME_ENQUEUE (R219). A writer hands a frame to a transmit queue, where it is queued or refused. -/
  | txFrameEnqueue (n : Fin 4) (q : Fin 8) (frame : List Byte)
  /-- FRAME_TRANSMIT_END (R221). A frame finishes transmission, and the MAC selects the next frame. -/
  | frameTransmitEnd (n : Fin 4)
  /-- MAC_TX_DISABLE (R228). Clearing TX_EN starts a graceful drain of the transmit queues. -/
  | macTxDisable (m : Master) (n : Fin 4)
  /-- MAC_FORCE (R229). FORCE during a drain discards the queued frames, or sets FORCE_MOOT. -/
  | macForce (m : Master) (n : Fin 4)
  /-- MAC_RX_DISABLE (R230). Clearing RX_EN lets the frame in reception complete and discards later frames. -/
  | macRxDisable (m : Master) (n : Fin 4) (busy : Bool)
  /-- MAC_ENABLE (R230). Setting RX_EN or TX_EN takes effect at once, or when the fence lifts. -/
  | macEnable (m : Master) (n : Fin 4) (rx tx : Bool)
  /-- MAC_TX_IDLE (R228). The drain ends with empty queues, and TX_IDLE is posted. -/
  | macTxIdle (n : Fin 4)
  /-- MAC_CONFIG_WRITE (R234). A write to MAC CFG, address or queue sizes is performed only when idle and valid. -/
  | macConfigWrite (m : Master) (n : Fin 4) (off : Fin 65536) (v : Word)
  /-- MAC_COUNTER_READ (R232). A read of CNT_LO returns counter bits [31:0] and captures the high word. -/
  | macCounterRead (m : Master) (n : Fin 4) (c : Fin 24)
  /-- STAGE (R241). Flow command STAGE checks the staged entry and copies it into a FREE entry, charging its guarantee. -/
  | stage (m : Master) (idx : Fin 8192)
  /-- PUBLISH (R242). Flow command PUBLISH makes a STAGED entry LIVE at the end of the commit phase. -/
  | publish (m : Master) (idx : Fin 8192)
  /-- FLOW_RETIRE (R243). Flow command RETIRE stops matching or ends a transmit flow, making the entry RETIRING. -/
  | flowRetire (m : Master) (idx : Fin 8192)
  /-- DISCARD (R240). Flow command DISCARD returns a STAGED entry's guarantee and frees it. -/
  | discard (m : Master) (idx : Fin 8192)
  /-- FLOW_READ (R240). Flow command READ copies an entry and its counters into the master's staging registers. -/
  | flowRead (m : Master) (idx : Fin 8192)
  /-- STE_FRAME_CLASSIFY (R244). STE takes a frame from a MAC and classifies it to PTU, an audio flow, a host class or discard. -/
  | steFrameClassify (n : Fin 4)
  /-- FLOW_FREED (R243). After its last stored sample plays, a retiring flow becomes FREE. -/
  | flowFreed (f : Fin 8192)
  /-- TX_PACKET_BUILD (R257). A LIVE transmit flow builds a packet every SPP frames and hands it to its queues. -/
  | txPacketBuild (f : Fin 8192)
  /-- PATH_DOWN (R253). A paired MAC has delivered nothing for 16 packet times, setting P_DOWN or S_DOWN. -/
  | pathDown (f : Fin 8192)
  /-- HRX_POP (R258). A write of HRX_POP releases the head host frame. -/
  | hrxPop (m : Master)
  /-- HTX_CMD (R260). An HTX_CMD write hands the master's TXWIN frame to a MAC queue and records the result. -/
  | htxCmd (m : Master) (v : Word)
  /-- STE_RX_DISABLE (R261). Clearing STE RX_EN discards new frames and lets stored packets play out. -/
  | steRxDisable (m : Master)
  /-- STE_TX_DISABLE (R261). Clearing STE TX_EN ends the transmit flows. -/
  | steTxDisable (m : Master)
  /-- STE_FORCE (R261). STE FORCE releases every stored packet at once, or sets FORCE_MOOT. -/
  | steForce (m : Master)
  /-- STE_RX_IDLE (R261). The last stored packet is released, and RX_IDLE is posted. -/
  | steRxIdle
  /-- PTU_CNT_READ (R268). A read of CNT_LO returns the counter low word and captures the high word. -/
  | ptuCntRead (m : Master)
  /-- CNT_MISMATCH (R268). The two counter copies disagree, which snuffs the chip. -/
  | cntMismatch
  /-- TCAP (R272). A TCAP write captures the counter and the three domain times coherently. -/
  | tcap (m : Master)
  /-- UPD (R270). A host UPD applies SET_RATE and SET_STEP to a domain at a tick, or is refused. -/
  | upd (m : Master) (d : Dom)
  /-- PTP_PORT_ENABLE (R284). Setting a domain's EN bit enables its PTP port. -/
  | ptpPortEnable (m : Master) (d : Dom)
  /-- PTP_PORT_DISABLE (R284). Clearing a domain's EN bit makes its PTP port DISABLED. -/
  | ptpPortDisable (m : Master) (d : Dom)
  /-- SYNC_RECEIVE (R280). An accepted Sync, with its Follow_Up if two-step, runs the servo. -/
  | syncReceive (d : Dom) (msg : PtpMsg)
  /-- FOLLOW_UP_RECEIVE (R279). A Follow_Up matching the last two-step Sync is accepted. -/
  | followUpReceive (d : Dom) (msg : PtpMsg)
  /-- DELAY_RESP_RECEIVE (R280). An accepted Delay_Resp updates the mean path delay. -/
  | delayRespReceive (d : Dom) (msg : PtpMsg)
  /-- ANNOUNCE_RECEIVE (R279). An Announce updates the foreign-master table and the best-master choice. -/
  | announceReceive (d : Dom) (msg : PtpMsg)
  /-- DELAY_REQ_RECEIVE (R282). A MASTER_ONLY port receives a Delay_Req. -/
  | delayReqReceive (d : Dom) (msg : PtpMsg)
  /-- DELAY_REQ_SEND (R279). After a random interval, the slave port sends a Delay_Req. -/
  | delayReqSend (d : Dom) (stamp : Nat)
  /-- ANNOUNCE_SEND (R282). The master port sends an Announce every 2^LOG_ANN s. -/
  | announceSend (d : Dom)
  /-- SYNC_SEND (R282). The master port sends a one-step Sync at each multiple of the sync interval. -/
  | syncSend (d : Dom) (stamp : Nat)
  /-- DOMAIN_UPDATE (R270). A servo step or rate is applied to a domain in the tick after its computation. -/
  | domainUpdate (d : Dom)
  /-- SYNC_LOSS (R281). No Sync is accepted for three intervals, and LOCKED clears. -/
  | syncLoss (d : Dom)
  /-- ANN_TIMEOUT (R281). The best master's Announce times out, and it is removed. -/
  | annTimeout (d : Dom)
  /-- REF_QUALIFIED (R290). A reference has qualified for QUAL seconds and goes to ELIGIBLE or WTR. -/
  | refQualified (c : Fin 6)
  /-- WTR_END (R290). A reference's wait-to-restore ends, and it becomes ELIGIBLE. -/
  | wtrEnd (c : Fin 6)
  /-- DISQ_END (R290). A disqualified reference has agreed for WTR seconds and becomes ELIGIBLE. -/
  | disqEnd (c : Fin 6)
  /-- MEASUREMENT_WINDOW_END (R294). At the end of a 1 s window, the rates are estimated and compared, and holdover records are kept. -/
  | measurementWindowEnd
  /-- FIRST_WAIT_END (R295). FIRST_WAIT after the first eligible reference ends the start-up wait with a selection. -/
  | firstWaitEnd
  /-- START_WAIT_END (R295). START_WAIT passes with no eligible reference, and the start-up wait ends in HOLDOVER. -/
  | startWaitEnd
  /-- REFERENCE_EDGE (R288). An edge on WCK_IN, PPS_IN, TREF_10M or a port frame clock is stamped. -/
  | referenceEdge (pin : RefPin) (stamp : Nat)
  /-- RSU_ENABLE (R302). A write of RSU CTRL.EN starts or stops selection. -/
  | rsuEnable (m : Master) (en : Bool)
  /-- APT_START (R316). Setting RX_EN or TX_EN starts a port direction, or is refused. -/
  | aptStart (m : Master) (port : Fin 16) (dir : Dir) (arm : Bool)
  /-- APT_STOP (R318). Clearing EN starts a graceful stop with 32 zero frames, or returns an ARMED direction to IDLE. -/
  | aptStop (m : Master) (port : Fin 16) (dir : Dir)
  /-- APT_FORCE (R318). FORCE on a STOPPING direction stops it at the next frame start, or sets FORCE_MOOT. -/
  | aptForce (m : Master) (port : Fin 16) (dir : Dir)
  /-- APT_CLOCK_START (R317). At D − 2,048 a master direction starts its clocks. -/
  | aptClockStart (port : Fin 16) (dir : Dir)
  /-- APT_DATA_START (R317). At D, or after acquisition, data flows through the unmute ramp and the direction is RUNNING. -/
  | aptDataStart (port : Fin 16) (dir : Dir)
  /-- ASRC_ACQUIRED (R314). Acquisition over enough edges computes ρ. -/
  | asrcAcquired (port : Fin 16) (dir : Dir)
  /-- APT_STOP_END (R318). The zero frames end, clocks stop, and the direction is IDLE. -/
  | aptStopEnd (port : Fin 16) (dir : Dir)
  /-- FRAME_SYNC_EDGE (R319). A slave direction's frame-sync edge is sampled, supervised and used for the frame. -/
  | frameSyncEdge (port : Fin 16) (dir : Dir) (stamp bits : Nat) (slots : List Nat)
  /-- APT_CLOCK_LOST (R319). No frame sync arrives for 4 × E, and the direction mutes with CLK_LOST. -/
  | aptClockLost (port : Fin 16) (dir : Dir)
  /-- APT_RELOCK (R320). A muted direction relocks at a frame boundary after acquisition and unmutes if allowed. -/
  | aptRelock (port : Fin 16) (dir : Dir)
  /-- APT_MASK_WRITE (R311). A mask write is held pending until the next frame start. -/
  | aptMaskWrite (m : Master) (port : Fin 16) (dir : Dir) (v : Word)
  /-- APT_CFG_WRITE (R326). A write to RX_CFG or TX_CFG is performed only while the direction is IDLE. -/
  | aptCfgWrite (m : Master) (port : Fin 16) (dir : Dir) (v : Word)
  /-- CH_START (R339). A CH_START bit enables a channel, or reverses its stop. -/
  | chStart (m : Master) (bits : Word)
  /-- CH_STOP (R340). A CH_STOP bit clears CH_EN and starts a 64-frame ramp-down. -/
  | chStop (m : Master) (bits : Word)
  /-- CH_FORCE (R340). A CH_FORCE bit aborts a stop at the next carrier period, or sets FORCE_MOOT. -/
  | chForce (m : Master) (bits : Word)
  /-- OC_LATCH_RELEASE (R337). A write of 1 to an OC_LATCH bit releases a latched channel. -/
  | ocLatchRelease (m : Master) (bits : Word)
  /-- CH_START_RAMP_END (R339). A channel's start ramp ends, and it is RUNNING. -/
  | chStartRampEnd (n : Fin 32)
  /-- CH_STOP_RAMP_END (R340). A stop ramp ends, the gates go to 0, and the channel is OFF. -/
  | chStopRampEnd (n : Fin 32)
  /-- OC_IN_ASSERT (R335). An asserted OC_IN truncates the carrier period at once. -/
  | ocInAssert (n : OcIn)
  /-- OC_LIMIT (R335). In the tick after a truncation, the limited period is counted and OC_LIMIT raised. -/
  | ocLimit (n : Fin 32)
  /-- OC_SHUTDOWN (R336). 64 limited periods out of 256 shut the channel down, or latch it after retry 8. -/
  | ocShutdown (n : Fin 32)
  /-- OC_RETRY (R337). A shut-down channel's wait ends, and it retries with a start ramp. -/
  | ocRetry (n : Fin 32)
  /-- RETRIES_RESET (R337). After 10 s without shutdown, RETRIES returns to 0. -/
  | retriesReset (n : Fin 32)
  /-- DRV_ALLOW_WRITE (R342). A write of PWR CTRL.DRV_ALLOW changes a DRIVE_EN condition. -/
  | drvAllowWrite (m : Master) (v : Word)
  /-- DRIVE_MISMATCH (R343). The DRIVE_EN readback differs for two ticks, and the chip snuffs. -/
  | driveMismatch
  /-- PWR_CONFIG_WRITE (R346). A write to channel configuration or COEF is performed only when allowed. -/
  | pwrConfigWrite (m : Master) (off : Fin 65536) (v : Word)
  /-- SENSE_LOST (R350). A sense input gives 4D identical bits and is lost. -/
  | senseLost (input : Nat)
  /-- CAL_ZERO (R351). Calibration command ZERO starts a sum of readings with the reference off. -/
  | calZero (m : Master) (v : Word)
  /-- CAL_REF (R351). Calibration command REF starts a sum with the reference on. -/
  | calRef (m : Master) (v : Word)
  /-- CAL_CANCEL (R351). Calibration command CANCEL ends a running sum, or records MOOT. -/
  | calCancel (m : Master)
  /-- CAL_ZERO_DONE (R351). The zero sum of 4,096 readings completes, setting ZERO_DONE. -/
  | calZeroDone
  /-- CAL_REF_DONE (R110). The reference sum completes, and the trims are computed and written. -/
  | calRefDone
  /-- ESTIMATION_BLOCK_END (R353). An estimation block ends, and a valid block yields RES and tmeas. -/
  | estimationBlockEnd (n : Fin 32)
  /-- MODEL_STEP (R355). Every 64 frames, the two-body thermal model steps from the measured power. -/
  | modelStep
  /-- SUPERVISION_BLOCK_END (R360). A 50 ms pilot block ends, and the line is classified and the verdict updated. -/
  | supervisionBlockEnd (n : Fin 32)
  /-- PAIR_LINK_UP (R366). Block lock holds for 1 ms and a partner STATUS arrives, and the link comes up. -/
  | pairLinkUp
  /-- PAIR_LINK_DOWN (R368). Block lock is lost or 100 µs pass without a frame, raising LINK_DOWN. -/
  | pairLinkDown
  /-- STATUS_FRAME_SEND (R366). Every 10 µs, a STATUS frame is sent to the partner. -/
  | statusFrameSend
  /-- STATUS_FRAME_RECEIVE (R366). A partner STATUS frame updates the partner state and health. -/
  | statusFrameReceive (f : PairStatus)
  /-- DELTA_PERIOD_END (R382). Every 1 ms, the holder closes a delta and sends it with a snapshot slice. -/
  | deltaPeriodEnd
  /-- DELTA_RECEIVE (R385). A received delta is applied to the base and the collecting copy, or raises CKPT_LOSS. -/
  | deltaReceive (d : Delta)
  /-- SLICE_RECEIVE (R385). A received snapshot slice is written into the collecting copy. -/
  | sliceReceive (sl : Slice)
  /-- DETAIL_FRAME_RECEIVE (R391). A DETAIL frame updates PDETAIL. -/
  | detailFrameReceive (ws : List Word)
  /-- HANDOVER_REQUEST_RECEIVE (R389). A standby receives REQUEST, and a cold partner starts configuring. -/
  | handoverRequestReceive
  /-- RELEASED_RECEIVE (R389). The partner receives RELEASED with the final delta and prepares to light. -/
  | releasedReceive
  /-- TAKEN_RECEIVE (R389). The former holder receives TAKEN, and HO_RES records DONE. -/
  | takenReceive
  /-- PILOT_SEND (R370). A holding or lighting chip sends a pilot every P and checks the readback. -/
  | pilotSend (readback : Bool)
  /-- PILOT_READ (R369). A valid partner pilot is read, restarting the lease timer. -/
  | pilotRead
  /-- FOREIGN_PULSE (R377). A foreign low on WICK returns a lighting chip to STANDBY or raises WICK_CONFLICT in a holder. -/
  | foreignPulse
  /-- PILOT_GAP (R371). A holder has sent no pilot for L and releases the wick. -/
  | pilotGap
  /-- LEASE_EXPIRY (R374). A standby's lease timer reaches L, and it enters PREPARING. -/
  | leaseExpiry
  /-- GUARD_EXPIRY (R375). The timer reaches L + G, and the chip enters LIGHTING after checking the line. -/
  | guardExpiry (lineHigh : Bool)
  /-- TAKEOVER (R376). After P in LIGHTING without a foreign pulse, the chip takes the wick and clears STANDBY. -/
  | takeover
  /-- COLD_CONFIG_END (R379). Configuration of a cold standby from the image store ends. -/
  | coldConfigEnd
  /-- RESTORE_END (R379). The checkpoint restore of a takeover ends. -/
  | restoreEnd
  /-- ARM (R373). A write of PAIR CTRL.ARM arms or disarms the wick logic. -/
  | arm (m : Master) (v : Word)
  /-- HANDOVER (R388). A HANDOVER write starts a release of the wick, or is refused. -/
  | handover (m : Master)
  /-- HANDOVER_RAMP_END (R389). At b + 4,096 the holder sends the final delta and RELEASED and releases the wick. -/
  | handoverRampEnd
  /-- HANDOVER_TIMEOUT (R389). TAKEN has not arrived L + G + 10 ms after RELEASED, and HO_RES records TIMEOUT. -/
  | handoverTimeout
  /-- PAIR_CFG_WRITE (R396). A write to PAIR CFG is performed only while DISARMED. -/
  | pairCfgWrite (m : Master) (off : Fin 65536) (v : Word)
  /-- SWEEP_PASS_START (R390). Every PASS_MS a lantern-sweep pass starts, or SWEEP_LATE is raised. -/
  | sweepPassStart
  /-- SWEEP_PASS_END (R391). A sweep pass ends, and DETAIL is updated and sent. -/
  | sweepPassEnd (cells macs : List Nat)
  /-- FAULT_DETECTION (R399). A fault source is detected, setting its bit, counting, acting locally and logging. -/
  | faultDetection (b : Blk) (src : Fin 32) (detail : Nat)
  /-- FAULT_CLEAR (R400). A write of 1 to a FAULT_STATUS bit clears it and logs CLEAR unless re-detected. -/
  | faultClear (m : Master) (b : Blk) (v : Word)
  /-- INT_ASSERT (R404). A pending request asserts its interrupt pin once M ticks have passed since the last assertion. -/
  | intAssert (h : HostId)
  /-- LOG_ENTRY_STORE (R406). The log writer stores a queued entry into the frozen area or the ring. -/
  | logEntryStore
  /-- LOG_CLEAR (R407). A LOG_CTRL.CLEAR write resets the log state. -/
  | logClear (m : Master)
  /-- SNUFF (R408). A write of SNUFF_CTRL.SNUFF enters the snuffed state at rank 1. -/
  | snuff (m : Master)
  /-- CLK_LOST (R410). The clock monitor detects a lost or out-of-range clock and forces the safe outputs. -/
  | clkLost (c : ClkSrc)
  /-- CLOCK_RETURN (R410). A lost REFCLK_IN returns, the ticks resume and ALIGNED is cleared. -/
  | clockReturn (c : ClkSrc)
  /-- SNUFF_CAUSE_CLEAR (R413). Writing VALID clears SNUFF_CAUSE. -/
  | snuffCauseClear (m : Master)
  /-- WRITE (R425). Host-port command WRITE writes LEN words and returns a status byte. -/
  | write (h : HostId) (addr : Nat) (ws : List Word)
  /-- READ (R425). Host-port command READ returns a status byte and LEN words. -/
  | read (h : HostId) (addr len : Nat)
  /-- ENTER_QUAD (R421). Host-port command ENTER_QUAD switches the port to 4-4-4. -/
  | enterQuad (h : HostId)
  /-- EXIT_QUAD (R421). Host-port command EXIT_QUAD switches the port to 1-1-1. -/
  | exitQuad (h : HostId)
  /-- RESET_ENABLE (R428). Host-port command RESET_ENABLE arms a port reset. -/
  | resetEnable (h : HostId)
  /-- PORT_RESET (R428). Host-port command PORT_RESET is accepted only after RESET_ENABLE. -/
  | portReset (h : HostId)
  /-- PORT_RESET_APPLY (R428). In the tick after CS_N rises, the port reset clears the host's copies and releases its semaphores. -/
  | portResetApply (h : HostId)
  /-- CS_N_EARLY_RISE (R426). CS_N rises before the frame is complete. -/
  | csNEarlyRise (h : HostId) (phase : CsPhase)
  /-- SEM_ACQUIRE (R431). A host read of SEM[i] acquires a free semaphore. -/
  | semAcquire (m : Master) (i : Fin 64)
  /-- SEM_RELEASE (R432). A holder's write of SEM[i] releases it. -/
  | semRelease (m : Master) (i : Fin 64)
  /-- HOLD_EXPIRED (R433). A semaphore's hold limit is reached, and it is reclaimed. -/
  | holdExpired (i : Fin 64)
  /-- BUS_TIMEOUT (R417). A transaction is not served within 2 µs and ends with TIMEOUT. -/
  | busTimeout (m : Master) (addr : Nat)
  /-- DMA_CHANNEL_START (R456). EN = 1 queues an IDLE or HALTED channel. -/
  | dmaChannelStart (m : Master) (n : Fin 16) (v : Word)
  /-- DMA_CHANNEL_STOP (R456). EN = 0 idles a waiting channel or starts a graceful stop. -/
  | dmaChannelStop (m : Master) (n : Fin 16)
  /-- DMA_FORCE (R456). FORCE on a STOPPING channel aborts it, or sets ABORT_MOOT. -/
  | dmaForce (m : Master) (n : Fin 16)
  /-- DMA_COMPAT_WRITE (R456). A write of DMA CTRL.COMPAT is performed only when all channels are idle or halted. -/
  | dmaCompatWrite (m : Master) (v : Word)
  /-- DMA_CONFIG_WRITE (R458). A write to channel configuration is performed only when IDLE or HALTED. -/
  | dmaConfigWrite (m : Master) (n : Fin 16) (off : Fin 64) (v : Word)
  /-- DESCRIPTOR_FETCH (R448). A fetched descriptor is checked, or halts the channel with PROG_ERR. -/
  | descriptorFetch
  /-- DMA_BURST (R449). The engine completes a read and a write burst of a channel and selects the next burst. -/
  | dmaBurst
  /-- DESCRIPTOR_COMPLETE (R454). A descriptor's writes complete, and the next is fetched or the chain ends with DONE. -/
  | descriptorComplete
  /-- WAIT_LONG (R453). A latency-critical channel's wait reaches its limit, and interleave begins. -/
  | waitLong (n : Fin 16)
  /-- LATE_WRITE_ERROR (R454). Under COMPAT, an error response arrives after its descriptor completed. -/
  | lateWriteError (n : Fin 16) (addr : Nat) (code : Fin 7)
  /-- CHK_START (R461). EN = 1 starts a check-value scan, or is refused with BAD_CFG. -/
  | chkStart (m : Master) (u : Fin 4)
  /-- CHK_SUSPEND (R462). EN = 0 stops a scan gracefully. -/
  | chkSuspend (m : Master) (u : Fin 4)
  /-- CHK_FORCE (R462). FORCE while STOPPING aborts the scan, or sets FORCE_MOOT. -/
  | chkForce (m : Master) (u : Fin 4)
  /-- CHK_STOP_END (R462). The unit is IDLE with SUSPENDED or ABORTED. -/
  | chkStopEnd (u : Fin 4) (done : Nat)
  /-- CHK_CONFIG_WRITE (R462). A write to a unit's configuration is performed only while IDLE. -/
  | chkConfigWrite (m : Master) (u : Fin 4) (off : Fin 64) (v : Word)
  /-- CHK_SCAN_END (R463). A scan ends, and its result is compared or a rescan starts. -/
  | chkScanEnd (u : Fin 4)
  /-- CHK_RESCAN_END (R463). The rescan ends with MATCH and TRANSIENT, or MISMATCH and DATA_MISMATCH. -/
  | chkRescanEnd (u : Fin 4)
  /-- DRAM_ACCESS (R472). MEMC serves a DRAM transaction with page init, ECC correction or an error. -/
  | dramAccess (m : Master) (acc : MemAccess) (ce ue : List Nat)
  /-- DRAM_INIT_DONE (R471). The background initialiser finishes, and INIT_DONE is posted. -/
  | dramInitDone
  /-- DRAM_SCRUB (R473). The DRAM scrubber reads and rewrites corrected words. -/
  | dramScrub (ce ue : List Nat)
  /-- MR4_POLL (R474). Every 1 ms MEMC reads MR4, adjusts refresh and may raise DRAM_HOT. -/
  | mr4Poll (hot : Bool)
  /-- DQS_RETRAIN (R474). Every 100 ms the DQS oscillator retraining runs. -/
  | dqsRetrain
  /-- DRAM_TIMEOUT (R474). A DRAM transaction not completed in 2 µs ends with TIMEOUT. -/
  | dramTimeout (m : Master) (addr : Nat)
  /-- CARAFE_ACCESS (R477). A carafe access is served with ECC, or returns an error for a poisoned word. -/
  | carafeAccess (m : Master) (acc : MemAccess) (ce ue : List Nat)
  /-- CARAFE_SCRUB (R477). The carafe scrubber reads and rewrites corrected words. -/
  | carafeScrub (ce ue : List Nat)
  /-- MEMC_CONFIG_WRITE (R487). A write to MEMC configuration after MEM_READY ends with ACCESS_ERR. -/
  | memcConfigWrite (m : Master) (off : Fin 65536) (v : Word)
  /-- XFER (R479). A write of XFER starts a two-wire transfer, or is refused. -/
  | xfer (m : Master) (k : Fin 2) (v : Word) (resp : List Byte)
  /-- TWC_ENABLE (R483). Enabling a controller runs stuck-bus recovery. -/
  | twcEnable (m : Master) (k : Fin 2)
  /-- TWC_DISABLE (R484). Clearing EN ends the transfer after the byte and a STOP. -/
  | twcDisable (m : Master) (k : Fin 2)
  /-- TWC_FORCE (R484). TWC FORCE aborts a stop, or sets FORCE_MOOT. -/
  | twcForce (m : Master) (k : Fin 2)
  /-- TWC_FIFO_WRITE (R480). A FIFO write pushes 4 bytes to the transmit FIFO. -/
  | twcFifoWrite (m : Master) (k : Fin 2) (v : Word)
  /-- TWC_FIFO_READ (R480). A FIFO read pops 4 bytes from the receive FIFO. -/
  | twcFifoRead (m : Master) (k : Fin 2)
  /-- TWC_TRANSFER_END (R479). A transfer ends, its RESULT is recorded and DONE is posted. -/
  | twcTransferEnd (k : Fin 2) (o : TwEnd)
  /-- NAK_RETRY (R481). After an address NAK wait, the controller retries or ends with ADDR_NAK. -/
  | nakRetry (k : Fin 2)
  /-- ARB_LOST (R482). The controller loses arbitration and stops driving SDA. -/
  | arbLost (k : Fin 2) (byte : Fin 256) (bit : Fin 8)
  /-- ARB_RETRY (R482). After bus-free and backoff, the controller retries, or ends with ARB_FAIL after 8 losses. -/
  | arbRetry (k : Fin 2)
  /-- SCL_STUCK (R478). SCL is held low for 10 ms by another device, and the transfer ends. -/
  | sclStuck (k : Fin 2)
  /-- FIFO_STALL (R480). An empty or full FIFO holds SCL for 10 ms, and the transfer ends with STALL. -/
  | fifoStall (k : Fin 2)
  /-- STUCK_BUS_RECOVERY (R483). SDA low while idle triggers up to 9 clock pulses and a STOP. -/
  | stuckBusRecovery (k : Fin 2) (ok : Bool)
  /-- TWC_CFG_WRITE (R489). A write to a controller's CFG is performed only while IDLE. -/
  | twcCfgWrite (m : Master) (k : Fin 2) (v : Word)
  /-- FLASH_READ (R486). FLC command READ reads flash into the FIFO. -/
  | flashRead (m : Master)
  /-- PROGRAM (R486). FLC command PROGRAM writes the FIFO to flash in pages. -/
  | program (m : Master)
  /-- ERASE_4K (R486). FLC command ERASE_4K erases a 4 KiB sector. -/
  | erase4K (m : Master)
  /-- ERASE_64K (R486). FLC command ERASE_64K erases a 64 KiB block. -/
  | erase64K (m : Master)
  /-- READ_SFDP (R486). FLC command READ_SFDP reads the SFDP tables into the FIFO. -/
  | readSfdp (m : Master)
  /-- READ_ID (R486). FLC command READ_ID reads the device identification. -/
  | readId (m : Master)
  /-- FLC_COMMAND_END (R486). A flash command completes, and DONE is posted. -/
  | flcCommandEnd
  /-- FLASH_TIMEOUT (R486). The write-in-progress bit has not cleared within 10 s. -/
  | flashTimeout
  /-- FLC_DISABLE (R486). Clearing FLC EN ends a command within 2 µs with ABORTED. -/
  | flcDisable (m : Master)
  /-- FLC_FORCE (R414). FLC FORCE aborts a stop, or sets FORCE_MOOT. -/
  | flcForce (m : Master)
  /-- FLC_FIFO_ACCESS (R486). A FIFO access pushes or pops 4 bytes of flash data. -/
  | flcFifoAccess (m : Master) (w : Option Word)
  /-- SUPPLY_UNDERVOLTAGE (R495). A monitored supply falls below its minimum, and the chip acts as if RESET_N were low. -/
  | supplyUndervoltage (vddio : Bool)
  /-- IDCODE (R508). JTAG instruction IDCODE shifts out the identification code. -/
  | idcode
  /-- BYPASS (R508). JTAG instruction BYPASS selects the bypass register. -/
  | bypass
  /-- SAMPLE_PRELOAD (R508). JTAG instruction SAMPLE/PRELOAD captures and loads the boundary register. -/
  | samplePreload (pins load : Nat)
  /-- EXTEST (R508). JTAG instruction EXTEST drives the pins while RESET_N is low. -/
  | extest
  /-- REGISTER_WRITE (R4). A write to a register without a row of its own acts by its access code. -/
  | registerWrite (m : Master) (addr : Nat) (v : Word)
  /-- SUPPLY_RESTORED (R495). All monitored supplies are back in range with RESET_N high, and after 1 ms the chip starts a full boot. -/
  | supplyRestored
  /-- SENSE_INPUT_RESTORED (R350). A lost ISNS_D, VSNS_D or RAIL_D input toggles again, its reading resumes and the SENSE_LOST cause ends. -/
  | senseInputRestored (input : Nat)
  /-- AUTO_NEGOTIATION_COMPLETE (R213). Clause 37 auto-negotiation with a full-duplex partner completes, setting STATUS.AN_DONE and EVT.AN_DONE. -/
  | autoNegotiationComplete (n : Fin 4)
  /-- DMA_REQUEST_ASSERT (R451). A peripheral request line rises while its paced channel waits in WAIT_REQ, and the engine issues the next burst. -/
  | dmaRequestAssert (n : Fin 16)
  /-- HANDOVER_PILOT_WAIT_END (R389). A partner holding RELEASED and the final delta has read no pilot for G and enters LIGHTING. -/
  | handoverPilotWaitEnd
  /-- WAIT_MAX_READ (R444). A read of BMX.WAIT_MAX[t] returns the longest wait and resets it. -/
  | waitMaxRead (m : Master) (t : Fin 6)
  /-- POOL_LOW_READ (R264). A read of STE.POOL_LOW returns the least SH_FREE and resets it to the current SH_FREE. -/
  | poolLowRead (m : Master)
  /-- TW_SCL_RELEASE (R478). Another device releases the SCL line it held low, and the controller sends the STOP that ends the stuck transfer. -/
  | twSclRelease (k : Fin 2)
deriving DecidableEq, Repr

end Sys2Proof
end

