-- ==== Sys2Proof/Decode.lean ====
section
/-! DEFINITION. Words of the opcode table. Its rows are operations and events of the part and give no bits. -/
namespace Sys2Proof

/-- The command a table word spells: no row of the table has an encoding, so a word spells none. -/
def decodeTableWord (_nbits _w : Nat) : Option Instr := none

end Sys2Proof
end

