-- ==== Sys2Proof/Machine/Bits.lean ====
section
/-! DEFINITION. Bit fields, two's complement and byte order: the helpers every block reads its fields with. -/
namespace Sys2Proof.Machine
open Sys2Proof

/-- Bits [lo+n-1:lo] of a word, as a number. -/
def bits (w : Word) (lo n : Nat) : Nat := (w.toNat / 2 ^ lo) % 2 ^ n
/-- Bit i of a word. -/
def bit (w : Word) (i : Nat) : Bool := w.toNat.testBit i
/-- Bits [lo+n-1:lo] of a number of any width. -/
def nbits (x lo n : Nat) : Nat := (x / 2 ^ lo) % 2 ^ n
/-- Bit i of a number. -/
def nbit (x i : Nat) : Bool := x.testBit i
/-- A word composed of fields: each pair is (lowest bit, value). -/
def pack : List (Nat × Nat) → Word
  | [] => 0
  | (lo, v) :: t => wd (v * 2 ^ lo) ||| pack t
/-- The word with bits [lo+n-1:lo] replaced by v. -/
def setBits (w : Word) (lo n v : Nat) : Word :=
  (w &&& ~~~ wd ((2 ^ n - 1) * 2 ^ lo)) ||| wd ((v % 2 ^ n) * 2 ^ lo)
/-- The word with bit i set to b. -/
def setBit (w : Word) (i : Nat) (b : Bool) : Word := setBits w i 1 (b2n b)
/-- A mask of one bit. -/
def bm (i : Nat) : Word := wd (2 ^ i)
/-- The mask of bits [hi:lo]. -/
def mask (hi lo : Nat) : Word := wd (2 ^ (hi + 1) - 2 ^ lo)

/-- The n-bit two's complement value of x. -/
def sInt (n x : Nat) : Int :=
  let y := x % 2 ^ n
  if 2 * y < 2 ^ n then (y : Int) else (y : Int) - (2 ^ n : Nat)
/-- The n-bit two's complement code of v. -/
def uInt (n : Nat) (v : Int) : Nat := (v % ((2 ^ n : Nat) : Int)).toNat
/-- v limited to [lo, hi]. -/
def clampI (lo hi v : Int) : Int := if v < lo then lo else if v > hi then hi else v
/-- v limited to the range of an n-bit signed number. -/
def satS (n : Nat) (v : Int) : Int := clampI (-((2 ^ (n - 1) : Nat) : Int)) ((2 ^ (n - 1) : Nat) - 1 : Int) v
/-- Saturating add of one below a cap. -/
def satInc (cap x : Nat) : Nat := if x < cap then x + 1 else x
/-- Quotient rounded up. -/
def ceilDiv (a b : Nat) : Nat := if b = 0 then 0 else (a + b - 1) / b
/-- Quotient rounded to nearest, halves up. -/
def roundDiv (a b : Nat) : Nat := if b = 0 then 0 else (2 * a + b) / (2 * b)
/-- Integer quotient rounded toward minus infinity. -/
def floorDivI (a b : Int) : Int := Int.fdiv a b

/-- The little-endian number of a list of bytes (03 image fields, 16 log fields). -/
def leNat : List Byte → Nat
  | [] => 0
  | b :: t => b.toNat + 256 * leNat t
/-- The big-endian number of a list of bytes (frames, host-port words). -/
def beNat (l : List Byte) : Nat := l.foldl (fun a b => a * 256 + b.toNat) 0
/-- n bytes of x, least significant first. -/
def leBytes : Nat → Nat → List Byte
  | 0, _ => []
  | n + 1, x => BitVec.ofNat 8 x :: leBytes n (x / 256)
/-- n bytes of x, most significant first. -/
def beBytes (n x : Nat) : List Byte := (leBytes n x).reverse
/-- The first element for which p holds, with its index counted from k. -/
def findIdxFrom {α : Type} (p : α → Bool) : Nat → List α → Option Nat
  | _, [] => none
  | k, a :: t => if p a then some k else findIdxFrom p (k + 1) t
/-- The numbers 0 to n-1. -/
def upto (n : Nat) : List Nat := List.range n

end Sys2Proof.Machine
end

