-- ==== Sys2Proof/Machine/Operands.lean ====
section
/-! DEFINITION. The number formats and the operand forms of the part's arithmetic: samples, coefficients, gains, the
40-bit word layouts, the exact product and its alignment to an accumulator (R91 to R95, R101). -/
namespace Sys2Proof.Machine
open Sys2Proof

/-- The S20, C20 or G20 integer in the low 20 bits of x (Table 4.1). -/
def s20 (x : Nat) : Int := sInt 20 x
/-- The X40 integer of a 40-bit word: xh * 2^20 + xl (R92). -/
def x40 (w : Nat) : Int := sInt 40 w
/-- x0 or c0 of a 40-bit word: bits [19:0] (R92). -/
def lo20 (w : Nat) : Int := sInt 20 w
/-- x1, c1 or xh of a 40-bit word: bits [39:20] (R92). -/
def hi20 (w : Nat) : Int := sInt 20 (w / 2 ^ 20)

/-- The operand pairings of Table 4.2. -/
inductive Pairing where
  | s20c20 | g20s20 | x40c20 | x40x40
deriving DecidableEq, Repr

/-- The aligned product P of an exact integer product, at the accumulator's scale, times 2^k (R94, Table 4.2). -/
def alignProduct (pr : Pairing) (extended : Bool) (k : Nat) (p : Int) : Int :=
  (match pr, extended with
   | .s20c20, false => p
   | .s20c20, true => p * 2 ^ 10
   | .g20s20, false => p * 2 ^ 3
   | .g20s20, true => p * 2 ^ 13
   | .x40c20, false => floorDivI p (2 ^ 20)
   | .x40c20, true => floorDivI p (2 ^ 10)
   | .x40x40, false => floorDivI p (2 ^ 40)
   | .x40x40, true => floorDivI p (2 ^ 30)) * 2 ^ k

/-- The limits of an A56 accumulator (Table 4.1). -/
def a56Max : Int := 2 ^ 55 - 1
def a56Min : Int := -(2 ^ 55)
/-- The saturating adder of R95: the sum, and whether it was limited. -/
def addA56 (acc p : Int) : Int × Bool :=
  let t := acc + p
  if t > a56Max then (a56Max, true) else if t < a56Min then (a56Min, true) else (t, false)

/-- L16 received to S20: N * 16, exact (Table 4.4). -/
def l16ToS20 (x : Nat) : Int := sInt 16 x * 16

/-- rne(a / b): the integer nearest the exact quotient, ties to even (04, Calibration arithmetic). -/
def rneDiv (a b : Int) : Int :=
  if b = 0 then 0
  else
    let (a, b) := if b < 0 then (-a, -b) else (a, b)
    let q := floorDivI a b
    let r := a - q * b
    if 2 * r > b ∨ (2 * r = b ∧ q % 2 = 1) then q + 1 else q

end Sys2Proof.Machine
end

