-- ==== Sys2Proof/Machine/Flags.lean ====
section
/-! DEFINITION. Writeback: the drop counts, the four rounding modes, saturation and the flags a writeback reports, the
dither generator, and the ledger's measures of one writeback (R96 to R101, R104). -/
namespace Sys2Proof.Machine
open Sys2Proof

/-- The writeback targets of Table 4.3. -/
inductive Target where
  | s20 | g20 | x40 | out24 | out16
deriving DecidableEq, Repr

/-- The width w of a target. -/
def Target.width : Target → Nat
  | .s20 => 20 | .g20 => 20 | .x40 => 40 | .out24 => 24 | .out16 => 16
/-- The drop count d of a target at a scale (Table 4.3). The 24-bit and 16-bit outputs exist at normal scale only. -/
def Target.drop : Target → Bool → Int
  | .s20, false => 19 | .s20, true => 29
  | .g20, false => 22 | .g20, true => 32
  | .x40, false => -1 | .x40, true => 9
  | .out24, _ => 15 | .out16, _ => 23

/-- The rounding modes of R97, in the order of their codes. -/
inductive RoundMode where
  | rne | trn | efb | dth
deriving DecidableEq, Repr

/-- The rounding mode of a two-bit code. -/
def RoundMode.ofCode : Nat → RoundMode
  | 0 => .rne | 1 => .trn | 2 => .efb | _ => .dth

/-- One step of a dither LFSR (R99). -/
def lfsrStep (s : Nat) : Nat :=
  let fb := (s / 2 ^ 31 + s / 2 ^ 21 + s / 2 + s) % 2
  (s * 2) % 2 ^ 32 + fb
/-- k steps of a dither LFSR. -/
def lfsrSteps : Nat → Nat → Nat
  | 0, s => s
  | k + 1, s => lfsrSteps k (lfsrStep s)
/-- A draw: 32 steps, and the new content (R99). -/
def lfsrDraw (s : Nat) : Nat := lfsrSteps 32 s
/-- The seed of register a of owner i (R99). -/
def seedA (i : Nat) : Nat := Nat.xor 0x9E3779B9 i
/-- The seed of register b of owner i (R99). -/
def seedB (i : Nat) : Nat := Nat.xor 0x7F4A7C15 (i * 4096)

/-- What a rounding leaves: the raw result q, and the rounding point's new state. -/
structure Rounded where
  q : Int
  e : Nat
  a : Nat
  b : Nat
deriving DecidableEq, Repr

/-- The rounding of R97 with drop count d > 0 and target width w, from the state (e, a, b) of the rounding point. -/
def roundMode (m : RoundMode) (w d : Nat) (v : Int) (e a b : Nat) : Rounded :=
  let D : Int := 2 ^ d
  match m with
  | .rne => ⟨rneDiv v D, e, a, b⟩
  | .trn => ⟨floorDivI v D, e, a, b⟩
  | .efb =>
    let u := v + (e : Int)
    let q := floorDivI u D
    ⟨q, if satS w q = q then (u - q * D).toNat else 0, a, b⟩
  | .dth =>
    let a' := lfsrDraw a
    let b' := lfsrDraw b
    ⟨floorDivI (v + ((a' % 2 ^ d : Nat) : Int) + ((b' % 2 ^ d : Nat) : Int) - 2 ^ (d - 1)) D, e, a', b'⟩

/-- A writeback (R96): the written value, the raw result, whether it saturated, and the rounding point's new state. -/
structure Written where
  value : Int
  raw : Int
  sat : Bool
  e : Nat
  a : Nat
  b : Nat
deriving DecidableEq, Repr

/-- Writeback of accumulator value v at a scale to a target, with a rounding mode and the rounding point's state (R96, R97). -/
def writeback (t : Target) (extended : Bool) (m : RoundMode) (v : Int) (e a b : Nat) : Written :=
  let d := t.drop extended
  let w := t.width
  if d ≤ 0 then
    let q := v * 2 ^ (-d).toNat
    ⟨satS w q, q, decide (satS w q ≠ q), e, a, b⟩
  else
    let r := roundMode m w d.toNat v e a b
    ⟨satS w r.q, r.q, decide (satS w r.q ≠ r.q), r.e, r.a, r.b⟩

/-- The receive conversion of a 24-bit value to S20: d = 4, saturated (R101). -/
def l24ToS20 (m : RoundMode) (x : Nat) (a b : Nat) : Written :=
  let r := roundMode m 20 4 (sInt 24 x) 0 a b
  ⟨satS 20 r.q, r.q, decide (satS 20 r.q ≠ r.q), r.e, r.a, r.b⟩

/-- How many of the bits below the sign equal it, from the top (lrsb of R104), counted over n bits. -/
def lrsbFrom (x : Nat) (sign : Bool) : Nat → Nat
  | 0 => 0
  | n + 1 => if nbit x n == sign then 1 + lrsbFrom x sign n else 0
/-- lrsb(x, w) of R104. -/
def lrsb (x : Int) (w : Nat) : Nat :=
  let u := uInt w x
  lrsbFrom u (nbit u (w - 1)) (w - 1)

/-- The clamped rounding error of R104, in units of 1/256 output LSB. -/
def ledgerEps (v q : Int) (d : Nat) : Int :=
  clampI (-1024) 1023 (if 8 ≤ d then floorDivI (q * 2 ^ d - v) (2 ^ (d - 8)) else (q * 2 ^ d - v) * 2 ^ (8 - d))

end Sys2Proof.Machine
end

