-- ==== Sys2Proof/Machine/CellIsa.lean ====
section
/-! DEFINITION. The instruction set of a DSP cell: the 64-bit encodings of R151 to R162, their field rules, and the
timing of a schedule: issue cycles, slot claims and the cycle count D (R152, R161 to R165). -/
namespace Sys2Proof.Machine
open Sys2Proof

/-- An address specifier (Table 6.3). -/
inductive AddrSpec where
  | none
  | direct (a : Nat)
  | offset (g j : Nat) (o : Int)
  | post (g j : Nat) (m : Option Int)
deriving DecidableEq, Repr

/-- The multiplier pairings (Table 5.5). -/
inductive MacPair where
  | quad | dot2 | par2 | x40c | x40x
deriving DecidableEq, Repr

/-- The writeback forms (Table 5.6). -/
inductive WbForm where
  | pair | x40 | ret
deriving DecidableEq, Repr

/-- A decoded cell instruction (Tables 6.2 to 6.6). -/
inductive CellIns where
  | nop (count : Nat)
  | mac (pair : MacPair) (clr scale : Bool) (k : Nat) (g20 neg : Bool) (a b : Nat) (csel ssrc : Bool)
      (asa : AddrSpec) (frel : Bool) (islot ipair : Nat) (asb : AddrSpec)
  | wb (form : WbForm) (rnd tfmt a b rch rslot : Nat) (frel : Bool) (asb : AddrSpec)
  | acc (aop d s sh : Nat) (tsc : Bool)
  | lda (lfmt : Nat) (scale : Bool) (d : Nat) (asa : AddrSpec)
  | cmp (pd cond : Nat) (zero : Bool) (a b comb : Nat)
  | ag (g j mode srcj val : Nat)
  | loop (count body : Nat)
  | fin
  | reserved
deriving DecidableEq, Repr

/-- The address specifier in 20 bits (Table 6.3). -/
def decodeSpec (x : Nat) : AddrSpec :=
  match nbits x 18 2 with
  | 0 => .none
  | 1 => .direct (nbits x 0 14)
  | 2 => .offset (nbits x 16 2) (nbits x 14 2) (sInt 14 x)
  | _ => .post (nbits x 16 2) (nbits x 14 2) (if nbit x 13 then none else some (sInt 13 x))

/-- The instruction in a 64-bit program word (R151 to R156). -/
def decodeCell (w : Nat) : CellIns :=
  match nbits w 60 4 with
  | 0 => .nop (nbits w 0 12 + 1)
  | 1 =>
    let go (pr : MacPair) : CellIns :=
      .mac pr (nbit w 52) (nbit w 51) (nbits w 49 2) (nbit w 48) (nbit w 47) (nbits w 45 2) (nbits w 43 2) (nbit w 42) (nbit w 41)
        (decodeSpec (nbits w 20 20)) (nbit w 28) (nbits w 25 3) (nbits w 20 5) (decodeSpec (nbits w 0 20))
    match nbits w 53 3 with
    | 0 => go .quad | 1 => go .dot2 | 2 => go .par2 | 3 => go .x40c | 4 => go .x40x | _ => .reserved
  | 2 =>
    let go (f : WbForm) : CellIns :=
      .wb f (nbits w 52 2) (nbits w 50 2) (nbits w 48 2) (nbits w 46 2) (nbits w 40 6) (nbits w 37 3) (nbit w 36) (decodeSpec (nbits w 0 20))
    match nbits w 54 2 with
    | 0 => go .pair | 1 => go .x40 | 2 => go .ret | _ => .reserved
  | 3 => if nbits w 52 4 < 10 then .acc (nbits w 52 4) (nbits w 50 2) (nbits w 48 2) (nbits w 42 6) (nbit w 41) else .reserved
  | 4 => if nbits w 54 2 < 3 then .lda (nbits w 54 2) (nbit w 53) (nbits w 51 2) (decodeSpec (nbits w 20 20)) else .reserved
  | 5 => if nbits w 51 3 < 6 then .cmp (nbits w 54 2) (nbits w 51 3) (nbit w 50) (nbits w 48 2) (nbits w 46 2) (nbits w 44 2) else .reserved
  | 6 => if nbits w 50 2 < 3 then .ag (nbits w 54 2) (nbits w 52 2) (nbits w 50 2) (nbits w 48 2) (nbits w 0 14) else .reserved
  | 7 => .loop (nbits w 44 12 + 1) (nbits w 0 12 + 1)
  | 8 => .fin
  | _ => .reserved

/-- PEN, PINV and PF of a program word (Table 6.1). -/
def insPen (w : Nat) : Bool := nbit w 59
def insPinv (w : Nat) : Bool := nbit w 58
def insPf (w : Nat) : Nat := nbits w 56 2

/-- The reserved bits of a specifier are 0 (Table 6.3). -/
def specOk (x : Nat) : Bool :=
  match nbits x 18 2 with
  | 0 => nbits x 0 18 == 0
  | 1 => nbits x 14 4 == 0
  | _ => true

/-- The field rules of R151 to R162 for one word, for a block length N (R165). A named field that its form does not use is judged only where
a rule judges it (CSEL outside X40C and X40X, RCH, RSLOT and FREL outside RETURN, SH and TSC in the operations that use neither, B of a
comparison with 0, SRCJ outside COPY, PINV and PF with PEN = 0 are free). -/
def insOk (n w : Nat) : Bool :=
  match decodeCell w with
  | .reserved => false
  | .nop _ => !insPen w && nbits w 12 44 == 0
  | .fin => !insPen w && nbits w 0 56 == 0
  | .loop _ _ => !insPen w && nbits w 12 32 == 0
  | .mac pr clr scale _ g20 _ a b csel ssrc _ frel islot _ _ =>
    (clr || !scale) && nbits w 40 1 == 0 && specOk (nbits w 0 20) && nbits w 18 2 != 0 &&
    (if ssrc then nbits w 29 11 == 0 && (frel || decide (islot < n)) else specOk (nbits w 20 20) && nbits w 38 2 != 0) &&
    (match pr with
     | .quad => a == 0 && b == 0
     | .dot2 => (a == 0 && b == 1) || (a == 1 && b == 0) || (a == 2 && b == 3) || (a == 3 && b == 2)
     | .par2 => a != b
     | .x40c => b == 0 && !ssrc && !g20
     | .x40x => b == 0 && !ssrc && !csel && !g20)
  | .wb f rnd tfmt _ b _ rslot frel _ =>
    nbits w 20 16 == 0 && specOk (nbits w 0 20) &&
    (match f with
     | .pair => decide (tfmt < 3) && rnd != 2 && nbits w 18 2 != 0
     | .x40 => tfmt == 0 && rnd != 2 && b == 0 && nbits w 18 2 != 0
     | .ret => tfmt == 0 && b == 0 && nbits w 18 2 == 0 && (frel || decide (rslot < n)))
  | .acc aop _ _ sh _ => nbits w 0 41 == 0 && (decide (sh < 56) || !(aop == 3 || aop == 4))
  | .lda _ _ _ _ => nbits w 40 11 == 0 && nbits w 0 20 == 0 && specOk (nbits w 20 20) && nbits w 38 2 != 0
  | .cmp _ _ _ _ _ _ => nbits w 0 44 == 0
  | .ag _ _ _ _ _ => nbits w 14 34 == 0

/-- A loop in progress: its first and last index, the iterations left, the iterations done. -/
structure LoopSt where
  first : Nat
  last : Nat
  left : Nat
  iter : Nat
deriving DecidableEq, Repr

/-- Where the program goes after the instruction at index i, and the loops then active (R161). -/
def nextIndex (i : Nat) : List LoopSt → Nat × List LoopSt
  | [] => (i + 1, [])
  | l :: rest =>
    if i = l.last then
      if l.left = 0 then nextIndex i rest
      else (l.first, { l with left := l.left - 1, iter := l.iter + 1 } :: rest)
    else (i + 1, l :: rest)

/-- The issue cycles of an instruction (Table 6.2). -/
def issueCycles : CellIns → Nat
  | .nop c => c
  | .fin => 0
  | _ => 1

/-- The slots an instruction issued in cycle n claims, as 2 * cycle + slot (Table 6.2). -/
def slotClaims (n : Nat) : CellIns → List Nat
  | .mac _ _ _ _ _ _ _ _ _ ssrc _ _ _ _ _ => if ssrc then [2 * (n + 1) + 1] else [2 * (n + 1), 2 * (n + 1) + 1]
  | .wb f _ _ _ _ _ _ _ _ => if f = .ret then [] else [2 * (n + 4) + 1]
  | .lda _ _ _ _ => [2 * (n + 1)]
  | _ => []

/-- The schedule of a program: its issue count I and its slot claims, over the expanded loops; none if it does not end (R161, R162). -/
def scheduleFrom (prog : Nat → Nat) (nInstr : Nat) : Nat → Nat → Nat → List LoopSt → List Nat → Option (Nat × List Nat)
  | 0, _, _, _, _ => none
  | fuel + 1, i, cyc, loops, claims =>
    if nInstr ≤ i then none
    else
      let ins := decodeCell (prog i)
      match ins with
      | .fin => if loops = [] ∧ i + 1 = nInstr then some (cyc - 2, claims) else none
      | .loop count body =>
        let l : LoopSt := ⟨i + 1, i + body, count - 1, 0⟩
        if decide (loops.length ≥ 4) || loops.head?.any (fun o => decide (o.last < l.last)) then none
        else scheduleFrom prog nInstr fuel (i + 1) (cyc + 1) (l :: loops) claims
      | _ =>
        let nx := nextIndex i loops
        scheduleFrom prog nInstr fuel nx.1 (cyc + issueCycles ins) nx.2 (slotClaims cyc ins ++ claims)

/-- The schedule of a whole program. -/
def schedule (prog : Nat → Nat) (nInstr : Nat) : Option (Nat × List Nat) := scheduleFrom prog nInstr 32768 0 2 [] []

/-- The budget of R163: min(B(N), 32,767). -/
def cellBudget (n : Nat) (fs48 : Bool) : Nat := min (n * 800000000 / (if fs48 then 48000 else 96000) - 32) 32767

/-- Every run of 256 cycles starting at 0 to D-1 leaves at least 8 slots free (R125). -/
def freeSlotsOk (d : Nat) (claims : List Nat) : Bool :=
  (upto d).all (fun c => decide ((claims.filter (fun x => decide (2 * c ≤ x) && decide (x < 2 * (c + 256)))).length ≤ 504))

/-- A program meets R165 and its header's CYCLES and LATENCY agree with it. -/
def programOk (prog : Nat → Nat) (nInstr n cycles latency : Nat) (fs48 : Bool) : Bool :=
  (n == 1 || n == 2 || n == 4 || n == 8) && decide (2 * n - 1 ≤ latency) &&
  (upto nInstr).all (fun i => insOk n (prog i)) &&
  (match schedule prog nInstr with
   | none => false
   | some (i, claims) =>
     cycles == i + 6 && decide (i + 6 ≤ cellBudget n fs48) && decide claims.Nodup && freeSlotsOk (i + 6) claims)

end Sys2Proof.Machine
end

