-- ==== Sys2Proof/Config.lean ====
section
/-! DEFINITION. What the spec leaves to the chip or leaves open: constants with no body. Nothing in Lean can evaluate them,
so a statement that holds of the model holds for every value they may have. -/
namespace Sys2Proof.Config
open Sys2Proof

/-- A value the spec leaves open; the argument counts the values drawn so far, so that each draw is a fresh one. -/
opaque freeWord : Nat → Word

/-- Whether a ramped sample whose exact value is no integer rounds up: the sample, and the numerator and denominator of its amplitude
(R46, R81, R172). The spec gives the amplitude and no rounding. -/
opaque rampUp : Int → Nat → Nat → Bool
/-- The contents of the boot ROM, by byte offset (Table 1.10). -/
opaque bootRom : Nat → Byte

end Sys2Proof.Config
end

