-- ==== Sys2Proof/Machine/RegMap.lean ====
section
/-! DEFINITION. The register map: for every block of Table 1.11 the rows of its register table, each with its access code
(Table 0.2), the bits a write can change, and the value after RESET_N is released (R7). -/
namespace Sys2Proof.Machine
open Sys2Proof

/-- The access codes of Table 0.2 (R4). -/
inductive Acc where
  | ro | rw | w1c | w1s | wo | rws
deriving DecidableEq, Repr

/-- One row of a register table: `count` registers, `stride` bytes apart from `off`. -/
structure RegRow where
  off : Nat
  stride : Nat
  count : Nat
  acc : Acc
  wmask : Nat
  reset : Nat
deriving DecidableEq, Repr

/-- One register. -/
def r1 (off : Nat) (acc : Acc) (wmask reset : Nat) : RegRow := ⟨off, 4, 1, acc, wmask, reset⟩
/-- A row of registers. -/
def rn (off stride count : Nat) (acc : Acc) (wmask reset : Nat) : RegRow := ⟨off, stride, count, acc, wmask, reset⟩
/-- The fault registers every block holds at the same offsets (R398), for a block whose sources are the bits of m, n of them counted. -/
def faultRows (m n : Nat) : List RegRow :=
  [r1 0x080 .w1c m 0, r1 0x084 .rw m 0, r1 0x088 .rw m 0, rn 0x090 4 n .ro 0 0]
/-- The event registers at their common offsets. -/
def evtRows (m : Nat) : List RegRow := [r1 0x040 .w1c m 0, r1 0x044 .rw m 0, r1 0x048 .rw m 0]

/-- SYS (Tables 1.12, 2.9 and 16.6). -/
def rowsSys : List RegRow :=
  [r1 0x000 .ro 0 0x40320000, r1 0x010 .ro 0 0, r1 0x014 .ro 0 0, r1 0x018 .ro 0 0,
   r1 0x100 .ro 0 0xC, r1 0x104 .rws 0x3 0, r1 0x108 .w1c 0x100 0, r1 0x10C .w1c 0x3F 0,
   r1 0x110 .rw 0x3F 0, r1 0x114 .rw 0x3F 0, r1 0x118 .ro 0 0, r1 0x11C .rws 0x3 0x3] ++ faultRows 0x7 3 ++
  [r1 0x200 .ro 0 0, r1 0x204 .ro 0 0, r1 0x208 .ro 0 0, r1 0x20C .ro 0 0, rn 0x210 4 3 .ro 0 0, rn 0x220 4 3 .ro 0 0,
   r1 0x230 .rw 0xFFFF 0x64, r1 0x234 .rw 0xFFFF 0x64, r1 0x238 .ro 0 0, r1 0x240 .rws 0 0, r1 0x244 .w1c 0x80000000 0,
   r1 0x280 .rw 0 0, r1 0x284 .ro 0 0, r1 0x288 .ro 0 0, r1 0x28C .ro 0 0]
/-- IMG (Table 3.16). -/
def rowsImg : List RegRow :=
  [r1 0x000 .rws 0x107 0, r1 0x004 .rws 0xFFFFFFFF 0, r1 0x008 .rws 0xF 0, r1 0x010 .ro 0 0, r1 0x014 .ro 0 0,
   r1 0x018 .ro 0 0, r1 0x020 .ro 0 0, r1 0x024 .ro 0 0, r1 0x028 .ro 0 0, r1 0x02C .ro 0 0, r1 0x030 .rw 0xFFFF 0,
   r1 0x034 .ro 0 0] ++ evtRows 0x7 ++ faultRows 0x7 3
/-- HPA, HPB and SEM (Table 17.6). -/
def rowsHp : List RegRow :=
  evtRows 0x7 ++ faultRows 0x7 3 ++
  [rn 0x100 0x40 2 .ro 0 0, rn 0x104 0x40 2 .ro 0 0, rn 0x108 0x40 2 .ro 0 0, rn 0x10C 0x40 2 .ro 0 0, rn 0x110 0x40 2 .ro 0 0,
   rn 0x200 4 4 .ro 0 0, rn 0x1000 4 64 .rw 0 0, rn 0x1100 4 64 .ro 0 0, rn 0x1200 4 64 .rws 0xFFFF 0]
/-- BMX (Table 17.10). -/
def rowsBmx : List RegRow :=
  [r1 0x000 .ro 0 0, rn 0x010 4 9 .ro 0 0] ++ faultRows 0x1 1 ++ [rn 0x100 4 6 .ro 0 0]

/-- LDG (Table 4.11). -/
def rowsLdg : List RegRow :=
  [r1 0x000 .rw 0x1F01 0x201, rn 0x004 4 3 .ro 0 0, r1 0x010 .rw 0xFFF 0, rn 0x014 4 4 .ro 0 0, rn 0x028 4 3 .ro 0 0] ++
  evtRows 0x3 ++ faultRows 0x1F 5 ++ [rn 0x4000 4 4096 .rw 0x80000FFF 0]

/-- A physical cell's control registers (Tables 5.11 and 6.16). -/
def rowsCell : List RegRow :=
  [r1 0x000 .rws 0x1 0, r1 0x004 .ro 0 0, r1 0x008 .rw 0x7FFF0000 0, r1 0x00C .ro 0 0, r1 0x010 .rw 0xFFFF 0x40, r1 0x014 .rw 0xFF 0,
   r1 0x018 .ro 0 0, r1 0x020 .ro 0 0, r1 0x024 .w1c 0x3 0, r1 0x028 .rw 0x3 0, r1 0x02C .rw 0x3 0] ++ evtRows 0x1F ++ faultRows 0xFF 8 ++
  [rn 0x100 0x20 4 .rw 0x3FFF 0, rn 0x104 0x20 4 .rw 0x3FFF 0x3FFF, rn 0x108 0x20 4 .rw 0x3FFF 0, rn 0x10C 0x20 4 .rw 0x3FFF 0,
   rn 0x110 0x20 4 .rw 0x3FFF 0, rn 0x114 0x20 4 .rw 0x3FFF 0, rn 0x118 0x20 4 .rw 0x3FFF 0, rn 0x11C 0x20 4 .ro 0 0,
   rn 0x200 8 4 .rw 0xFFFFFFFF 0, rn 0x204 8 4 .rw 0x80FFFFFF 0, r1 0x280 .rw 0xFFFFFFFF 0, r1 0x284 .rw 0xFFFFFFFF 0,
   rn 0x400 4 64 .rw 0x1FFFFFFF 0, rn 0x600 4 64 .ro 0 0]

/-- MXE (Table 7.15). -/
def rowsMxe : List RegRow :=
  [r1 0x000 .rws 0x4 0, rn 0x004 4 4 .ro 0 0, r1 0x020 .rw 0xFFF0FFF 0, r1 0x024 .rw 0xFFFFF 0, r1 0x028 .rw 0x8FFF0FFF 0,
   r1 0x02C .wo 0 0, r1 0x030 .w1c 0x30000 0] ++ evtRows 0x1F ++ faultRows 0x1F 5 ++
  [rn 0x800 4 128 .ro 0 0, rn 0x1000 0x20 64 .rw 0xFF03FF04 0, rn 0x1004 0x20 64 .rw 0xFFFFFFFF 0, rn 0x1008 0x20 64 .rw 0xFFFFFFFF 0,
   rn 0x100C 0x20 64 .ro 0 0, rn 0x1010 0x20 64 .ro 0 0]
/-- DLY (Table 7.18). -/
def rowsDly : List RegRow :=
  [r1 0x004 .ro 0 0] ++ evtRows 0x1 ++ faultRows 0x7 3 ++
  [rn 0x1000 4 1024 .rw 0xFFFFFFF 0, rn 0x2000 4 1024 .ro 0 0, rn 0x3000 4 1024 .ro 0 0, rn 0x4000 4 1024 .ro 0 0]

/-- MACn (Table 8.7). PAIR exists in MAC0 and MAC1 (R215). -/
def rowsMac (n : Nat) : List RegRow :=
  [r1 0x000 .rws 0x3 0, r1 0x004 .ro 0 0x6, r1 0x008 .rws (if n ≤ 1 then 0x3FFF001F else 0x3FFF000F) 0x05F2000C, r1 0x00C .rws 0xFFFFFFFF 0,
   r1 0x010 .rws 0xFFFF 0, r1 0x014 .rws 0xFFFFFFFF 0x04040404, r1 0x018 .rws 0xFFFFFFFF 0x04141404, r1 0x01C .rw 0xFF0FF1 0x000A0141,
   r1 0x020 .rw 0xFFFF 0x3E8] ++ evtRows 0xF ++ faultRows 0x1F 5 ++
  [rn 0x100 4 16 .rw 0xFFFFFFFF 0, rn 0x200 8 24 .ro 0 0, rn 0x204 8 24 .ro 0 0]

/-- STE (Table 9.11). -/
def rowsSte : List RegRow :=
  [r1 0x000 .rws 0x3 0, r1 0x004 .ro 0 0x6, r1 0x008 .rws 0xFF01 0x4001, rn 0x010 4 4 .rws 0xFFFFFFFF 0, r1 0x020 .rw 0x3F3F 0x2222,
   r1 0x030 .wo 0 0, r1 0x034 .ro 0 0, r1 0x038 .ro 0 0] ++ evtRows 0x1F ++ faultRows 0x7F 7 ++
  [rn 0x100 4 8 .rw 0xFFFFFFFF 0, rn 0x120 4 8 .ro 0 0, rn 0x200 4 16 .ro 0 0, rn 0x240 4 3 .ro 0 0, rn 0x250 4 4 .ro 0 0,
   r1 0x300 .rw 0xC000FFFF 0x80000806, rn 0x304 4 15 .rw 0xC000FFFF 0, rn 0x340 4 16 .rw 0xFFFF 0, r1 0x400 .ro 0 0, r1 0x404 .wo 0 0,
   r1 0x408 .ro 0 0, r1 0x410 .wo 0 0, r1 0x414 .ro 0 0, rn 0x8000 4 2304 .ro 0 0, rn 0xC000 4 2304 .rw 0xFFFFFFFF 0]

/-- The registers of a PTU domain (Table 10.6); LINK of domain B resets to 2. -/
def rowsDom (b lnk : Nat) : List RegRow :=
  [r1 b .rws 0x1757F lnk, r1 (b + 0x04) .rw 0xFFFFFFF 0x030001FD, r1 (b + 0x08) .rw 0xFFFFFFFF 0x04000000, r1 (b + 0x0C) .rw 0xFFFFFFFF 0x00400000,
   r1 (b + 0x10) .rw 0xFFFFFFFF 0x000A0064, r1 (b + 0x14) .rw 0xF 0x4, r1 (b + 0x20) .ro 0 0xAAAAAAAB, r1 (b + 0x24) .ro 0 0x411A,
   r1 (b + 0x28) .rw 0xFFFFFFFF 0xAAAAAAAB, r1 (b + 0x2C) .rw 0xFFFF 0x411A, rn (b + 0x30) 4 2 .rw 0xFFFFFFFF 0, r1 (b + 0x38) .wo 0 0,
   rn (b + 0x40) 4 2 .ro 0 0, r1 (b + 0x48) .ro 0 3, rn (b + 0x4C) 4 4 .ro 0 0, r1 (b + 0x60) .rws 0xFFFFFFFF 0xA0FEBBF8,
   r1 (b + 0x64) .rws 0xFFFFFFFF 0x8080FFFF, r1 (b + 0x68) .rws 0x7FFFF 0x00010025, rn (b + 0x6C) 4 2 .rws 0xFFFFFFFF 0, rn (b + 0x80) 4 4 .ro 0 0]
/-- PTU (Table 10.6). -/
def rowsPtu : List RegRow :=
  [r1 0x000 .rws 0x3 0, r1 0x004 .ro 0 0x33, r1 0x010 .ro 0 0, r1 0x014 .ro 0 0, r1 0x018 .wo 0 0, rn 0x020 4 2 .ro 0 0] ++
  evtRows 0x1F ++ faultRows 0xFF 8 ++ [rn 0x0C0 4 8 .rw 0xFFFFFFFF 0] ++ rowsDom 0x100 0x00010000 ++ rowsDom 0x200 0x00012000 ++
  [r1 0x300 .ro 0 0xAAAAAAAB, r1 0x304 .ro 0 0x411A, rn 0x400 0x10 3 .ro 0 0, rn 0x404 0x10 3 .ro 0 0, rn 0x408 0x10 3 .ro 0 0]
/-- RSU (Table 11.6). -/
def rowsRsu : List RegRow :=
  [r1 0x000 .rws 0x1 0, r1 0x004 .ro 0 0x6F, r1 0x008 .rw 0x3FF 0x64, r1 0x00C .rw 0xFFFFFFFF 0x3C03020A, r1 0x010 .rw 0xFFFF 0x7D0,
   r1 0x014 .rw 0xFFFFF 0x3E8, rn 0x018 4 2 .ro 0 0, r1 0x020 .ro 0 0xAAAAAAAB, r1 0x024 .ro 0 0x411A] ++ evtRows 0x7 ++ faultRows 0x3F 6 ++
  [rn 0x100 0x10 6 .rws 0xBFFFFFFF 0x00FEF880, rn 0x104 0x10 6 .ro 0 0, rn 0x108 0x10 6 .ro 0 0, rn 0x200 4 4 .rw 0xC0000007 0,
   r1 0x210 .rw 0xC00003FF 0x64]

/-- APTn (Table 12.5). -/
def rowsApt : List RegRow :=
  [r1 0x000 .rws 0xF 0, r1 0x004 .ro 0 0, r1 0x008 .rw 0xFFFFFFFF 0, r1 0x00C .rw 0xFFFFFFFF 0, r1 0x010 .rws 0x5FFFF 0x40000,
   r1 0x014 .rws 0x67FFF 0x40000, rn 0x018 4 2 .rw 0xFFFFFFFF 0xFFFFFFFF, rn 0x020 4 2 .ro 0 0xFFFFFFFF, rn 0x028 4 2 .rw 0xFFFF1F0F 0x03E81808,
   rn 0x030 4 4 .ro 0 0] ++ evtRows 0x7F ++ faultRows 0xFF 8 ++ [rn 0x100 4 5 .ro 0 0]

/-- PWR (Table 13.5). -/
def rowsPwr : List RegRow :=
  [r1 0x000 .rws 0x1 0, r1 0x004 .ro 0 0, r1 0x008 .ro 0 0, rn 0x00C 4 3 .wo 0 0, rn 0x018 4 2 .w1c 0xFFFFFFFF 0, r1 0x020 .ro 0 0] ++
  evtRows 0x1F ++ faultRows 0xFF 8 ++
  [rn 0x100 0x10 4 .rw 0xFFFFF 0, rn 0x104 0x10 4 .rw 0xFFFFFF 0, rn 0x108 0x10 4 .rw 0x7FFFFF 0, rn 0x10C 0x10 4 .ro 0 0x400000,
   rn 0x200 4 96 .rws 0xFFFFF 0, rn 0x1000 0x20 32 .rws 0x7 0, rn 0x1004 0x20 32 .rws 0x0FFF0FFF 0x029001F4, rn 0x1008 0x20 32 .rws 0xFF0F 0x5002,
   rn 0x100C 0x20 32 .rw 0xFFFFF 0x50040, rn 0x1010 0x20 32 .rw 0x7FFFFF 0x400000, rn 0x1014 0x20 32 .ro 0 0, rn 0x1018 0x20 32 .ro 0 0,
   rn 0x101C 0x20 32 .ro 0 0]
/-- LSP (Table 14.5). -/
def rowsLsp : List RegRow :=
  [r1 0x008 .rws 0xFFFF 0, rn 0x00C 4 2 .rw 0xFFFFFF 0, r1 0x020 .rws 0x1F30 0, r1 0x024 .ro 0 0, rn 0x028 4 3 .rw 0xFFFFF 0, rn 0x034 4 2 .ro 0 0] ++
  evtRows 0xF ++ [rn 0x050 4 2 .ro 0 0] ++ faultRows 0x7F 7 ++
  [rn 0x1000 0x80 32 .rws 0x1F 0, rn 0x1004 0x80 32 .rw 0xFFFFFFFF 0, rn 0x1008 0x80 32 .rw 0xFFFFFF 0, rn 0x100C 0x80 32 .rw 0x7FFFFF 0x400000,
   rn 0x1010 0x80 32 .rw 0xFFFFFF 0, rn 0x1014 0x80 32 .rw 0x7FFFFF 0x400000, rn 0x1018 0x80 32 .rw 0xFFFFF 0, rn 0x101C 0x80 32 .rw 0xFFFFFFFF 0x02800190,
   rn 0x1020 0x80 32 .rw 0xFFFFFFF 0, rn 0x1024 0x80 32 .rw 0xFFFFFF 0, rn 0x1028 0x80 32 .rw 0xFFFFFF 0, rn 0x102C 0x80 32 .rw 0xFFFFFF 0,
   rn 0x1030 0x80 32 .rw 0xFFFFFF 0, rn 0x1034 0x80 32 .rw 0xFFFFFFFF 0, rn 0x1038 0x80 32 .rw 0xFFFFFFFF 0, rn 0x103C 0x80 32 .rw 0xFFFFFFFF 0,
   rn 0x1040 0x80 32 .rw 0xFFFFFFFF 0, rn 0x1044 0x80 32 .rw 0xFFFFFFFF 0, rn 0x1048 0x80 32 .rw 0xFFFFFFFF 0, rn 0x104C 0x80 32 .rw 0xFFFFFFFF 0,
   rn 0x1060 0x80 32 .ro 0 0, rn 0x1064 0x80 32 .ro 0 0, rn 0x1068 0x80 32 .ro 0 0, rn 0x106C 0x80 32 .ro 0 0, rn 0x1070 0x80 32 .ro 0 0,
   rn 0x1074 0x80 32 .ro 0 0x400000, rn 0x1078 0x80 32 .ro 0 0x400000]

/-- DMA (Table 18.8). -/
def rowsDma : List RegRow :=
  [r1 0x000 .rw 0x1 0, r1 0x004 .ro 0 0, r1 0x008 .ro 0 0] ++ evtRows 0xFFFFFFFF ++
  [r1 0x050 .w1c 0xFFFF 0, r1 0x054 .rw 0xFFFF 0, r1 0x058 .rw 0xFFFF 0] ++ faultRows 0x1F 5 ++
  [rn 0x100 0x40 16 .rw 0 0, rn 0x104 0x40 16 .rw 0x03FF010F 0x140000, rn 0x108 0x40 16 .rw 0xFFFF 0x400, rn 0x10C 0x40 16 .rw 0xFFFFFFFF 0,
   rn 0x110 0x40 16 .rw 0xF 0, rn 0x114 0x40 16 .ro 0 0, rn 0x118 0x40 16 .ro 0 0, rn 0x11C 0x40 16 .ro 0 0, rn 0x120 0x40 16 .ro 0 0,
   rn 0x124 0x40 16 .ro 0 0, rn 0x128 0x40 16 .ro 0 0]
/-- CHK (Table 18.13). -/
def rowsChk : List RegRow :=
  evtRows 0xFF ++ faultRows 0xFFFF 16 ++
  [rn 0x100 0x40 4 .rw 0 0, rn 0x104 0x40 4 .rw 0x33 0, rn 0x108 0x40 4 .rw 0xFFFFFFFF 0, rn 0x10C 0x40 4 .rw 0xF 0, rn 0x110 0x40 4 .rw 0xFFFFFFFF 0,
   rn 0x114 0x40 4 .rw 0xFFFFFFFF 0, rn 0x118 0x40 4 .ro 0 0, rn 0x11C 0x40 4 .ro 0 0, rn 0x120 0x40 4 .rw 0xFFFFFFFF 0,
   rn 0x124 0x40 4 .rw 0xFFFFFFFF 0xFFFFFFFF, rn 0x128 0x40 4 .ro 0 0, rn 0x12C 0x40 4 .ro 0 0, rn 0x130 0x40 4 .ro 0 0]
/-- TWC (Table 19.7). -/
def rowsTwc : List RegRow :=
  evtRows 0xF ++ faultRows 0xFF 8 ++
  [rn 0x100 0x40 2 .rw 0x1 0, rn 0x104 0x40 2 .rw 0x0FFF7703 0x0A012201, rn 0x108 0x40 2 .wo 0 0, rn 0x10C 0x40 2 .ro 0 0, rn 0x110 0x40 2 .ro 0 0,
   rn 0x114 0x40 2 .rw 0 0, rn 0x118 0x40 2 .ro 0 0]
/-- FLC (Table 19.8). -/
def rowsFlc : List RegRow :=
  [r1 0x000 .rws 0x5 0, r1 0x004 .wo 0 0, rn 0x008 4 2 .rw 0xFFFFFFF 0, r1 0x010 .rw 0xF0F 0x800, r1 0x014 .ro 0 0, r1 0x018 .ro 0 0, r1 0x01C .rw 0 0] ++
  evtRows 0x3 ++ faultRows 0x3 2
/-- MEMC (Table 19.4). -/
def rowsMemc : List RegRow :=
  [r1 0x004 .ro 0 0, r1 0x008 .rw 0xF 0, r1 0x010 .rw 0xFFFF 0xE10, r1 0x014 .ro 0 0, r1 0x018 .rw 0xFFFFFFFF 0x400040, rn 0x01C 4 2 .ro 0 0,
   r1 0x024 .ro 0 0, r1 0x028 .rw 0xF 0x4] ++ evtRows 0x1 ++ faultRows 0x7F 7 ++
  [rn 0x100 4 2 .rw 0xFFFFFFFF 0, r1 0x108 .rw 0x0FFF0FFF 0, r1 0x10C .rw 0x3F3F 0, r1 0x110 .rw 0x3F3F0777 0]
/-- PAIR (Table 15.9). -/
def rowsPair : List RegRow :=
  [r1 0x000 .rws 0x1 0, r1 0x004 .ro 0 0x40, r1 0x008 .rws 0x3FF 0x14, r1 0x00C .rw 0x1 0, r1 0x010 .ro 0 0x1388, r1 0x014 .ro 0 0, r1 0x018 .ro 0 0,
   r1 0x01C .ro 0 0xFFFFFFFF, rn 0x020 4 6 .ro 0 0] ++ evtRows 0x3F ++ faultRows 0xFF 8 ++ [rn 0x100 4 24 .ro 0 0, rn 0x200 4 24 .ro 0 0]



/-- The rows of a block's register table. -/
def blkRows : Blk → List RegRow
  | .sys => rowsSys | .img => rowsImg | .hp => rowsHp | .bmx => rowsBmx | .dma => rowsDma | .chk => rowsChk
  | .twc => rowsTwc | .flc => rowsFlc | .mac n => rowsMac n | .ste => rowsSte | .ptu => rowsPtu | .rsu => rowsRsu
  | .mxe => rowsMxe | .ldg => rowsLdg | .apt _ => rowsApt | .pwr => rowsPwr | .lsp => rowsLsp | .pair => rowsPair
  | .memc => rowsMemc | .dly => rowsDly | .cell _ => rowsCell

/-- Whether a row holds the register at this offset. -/
def RegRow.holds (r : RegRow) (off : Nat) : Bool :=
  decide (r.off ≤ off) && (off - r.off) % r.stride == 0 && decide ((off - r.off) / r.stride < r.count)
/-- The row of a register, if the offset is occupied (R6). -/
def findRow (rows : List RegRow) (off : Nat) : Option RegRow := rows.find? (fun r => r.holds off)

/-- The block and the offset of a register-space address; none outside every window of Table 1.11 (R30). -/
def regWindow (a : Nat) : Option (Blk × Nat) :=
  if a < 0x40000000 then none
  else
    let w := (a - 0x40000000) / 0x10000
    let off := a % 0x10000
    match w with
    | 0 => some (.sys, off) | 1 => some (.img, off) | 2 => some (.hp, off) | 3 => some (.bmx, off)
    | 4 => some (.dma, off) | 5 => some (.chk, off) | 6 => some (.twc, off) | 7 => some (.flc, off)
    | 8 => some (.mac 0, off) | 9 => some (.mac 1, off) | 10 => some (.mac 2, off) | 11 => some (.mac 3, off)
    | 12 => some (.ste, off) | 13 => some (.ptu, off) | 14 => some (.rsu, off)
    | 16 => some (.mxe, off) | 17 => some (.ldg, off)
    | 18 => some (.apt (off / 0x1000), off % 0x1000)
    | 20 => some (.pwr, off) | 21 => some (.lsp, off) | 22 => some (.pair, off) | 23 => some (.memc, off) | 24 => some (.dly, off)
    | _ =>
      if a < 0x40200000 then none
      else
        let p := (a - 0x40200000) / 0x1000
        if p < 72 then some (.cell p, a % 0x1000) else none

/-- The value a register holds after RESET_N is released (R7); 0 at an unoccupied offset (R6). -/
def regReset (a : Nat) : Word :=
  match regWindow a with
  | none => 0
  | some (b, off) =>
    match findRow (blkRows b) off with
    | none => 0
    | some r => wd r.reset

end Sys2Proof.Machine
end

