-- ==== Sys2Proof/Machine/Tab.lean ====
section
/-! DEFINITION. Sparse tables in one canonical form: the register file, the memories and every numbered unit of the part.
A table is a list of (key, value) pairs with strictly rising keys, and no pair equal to what an unlisted key reads as. -/
namespace Sys2Proof.Machine
open Sys2Proof

/-- A sparse table over numbered places. -/
abbrev Tab (α : Type) := List (Nat × α)

/-- The value at key k; an unlisted key reads d k. -/
def Tab.get {α : Type} (d : Nat → α) : List (Nat × α) → Nat → α
  | [], k => d k
  | (j, v) :: t, k => if k = j then v else Tab.get d t k

/-- The list with v placed at key k, in rising order. -/
def Tab.insert {α : Type} (k : Nat) (v : α) : List (Nat × α) → List (Nat × α)
  | [] => [(k, v)]
  | (j, u) :: t => if k < j then (k, v) :: (j, u) :: t else if k = j then (k, v) :: t else (j, u) :: Tab.insert k v t

/-- The list without key k. -/
def Tab.erase {α : Type} (k : Nat) : List (Nat × α) → List (Nat × α)
  | [] => []
  | (j, u) :: t => if k = j then Tab.erase k t else (j, u) :: Tab.erase k t

/-- The table with v at key k; writing what the unlisted key reads as removes the entry. -/
def Tab.set {α : Type} [DecidableEq α] (d : Nat → α) (t : List (Nat × α)) (k : Nat) (v : α) : List (Nat × α) :=
  if v = d k then Tab.erase k t else Tab.insert k v t

/-- Keys strictly rising, every one above b. -/
def Tab.risingFrom {α : Type} : Nat → List (Nat × α) → Bool
  | _, [] => true
  | b, (j, _) :: t => decide (b ≤ j) && Tab.risingFrom (j + 1) t

/-- The canonical form: keys strictly rising, and no entry equal to what its key reads as when unlisted. -/
def Tab.wf {α : Type} [DecidableEq α] (d : Nat → α) (t : List (Nat × α)) : Bool :=
  Tab.risingFrom 0 t && t.all (fun e => decide (e.2 ≠ d e.1))

end Sys2Proof.Machine
end

