-- ==== Sys2Proof/Machine/State.lean ====
section
/-! DEFINITION. The state of the part as plain data: every register, memory, queue, counter, mode and pin the spec names,
and the queue of commands that wait. Each structure names the chapter and the rules that give its fields; the value after
`:=` is the value at reset. -/
namespace Sys2Proof.Machine
open Sys2Proof

/-! ### SYS: ticks, modes, faults, log (01, 02, 16) -/

/-- SYS.MODE.PHASE (Table 2.10). -/
inductive Phase where
  | stopped | config | rampIn | running | rampOut
deriving DecidableEq, Repr

/-- One host interrupt pin (R404): asserted, the tick its last assertion began, a counted wait, and COAL_CNT's half. -/
structure IntPin where
  asserted : Bool := false
  last : Option Nat := none
  waiting : Bool := false
  coalCnt : Nat := 0
deriving DecidableEq, Repr

/-- One entry of the event log (Table 16.1). -/
structure LogEntry where
  tick : Nat
  seq : Nat
  kind : Nat
  block : Nat
  unit : Nat
  source : Nat
  attr : Nat
deriving DecidableEq, Repr

/-- The event log (R405 to R407): the entries in the writer's queue, the entries stored since the last clear, and the counters. -/
structure Log where
  queue : List LogEntry := []
  seq : Nat := 0
  stored : Nat := 0
  ovw : Nat := 0
  lost : Nat := 0
deriving DecidableEq, Repr

/-- The output ramp of a RUN change, in amplitudes (numerator, denominator): in the frame before its boundary b, and at b (R46, R48). -/
structure OutRamp where
  pre : Nat × Nat := (0, 1)
  g0 : Nat × Nat := (0, 1)
deriving DecidableEq, Repr

/-- SYS (01 R16-R33, 02 R34-R51, 16 R398-R419). Reset: combination code 0x0C, phase STOPPED (R34, R50). -/
structure Sys where
  tick : Nat := 0
  src : Bool := false
  aligned : Bool := false
  fs48 : Bool := false
  tickHi : Tab Word := []
  run : Bool := false
  alarm : Bool := false
  standby : Bool := true
  holdover : Bool := true
  degraded : Bool := false
  maint : Bool := false
  snuffed : Bool := false
  phase : Phase := .stopped
  rampEnd : Option Nat := none
  outRamp : OutRamp := {}
  runStart : Bool := false
  alarmEff : Bool := false
  alarmRose : Bool := false
  runResult : Nat := 0
  alarmResult : Nat := 0
  resTick : Nat := 0
  refused : Bool := false
  alarmMirror : Bool := false
  intA : IntPin := {}
  intB : IntPin := {}
  snuffCause : Word := 0
  log : Log := {}
  detected : List (Nat × Nat) := []
  redetect : List (Blk × Nat) := []
  resetN : Bool := true
  suppliesGood : Bool := true
  frameAt : Option Nat := none
  windowAt : Option Nat := none
  tickLoss : Bool := false
  clockLost : List ClkSrc := []
  monitorDue : Bool := false
deriving DecidableEq, Repr

/-! ### Host ports, semaphores, bus matrix (17) -/

/-- The status codes of Table 17.2 (R424). -/
inductive Code where
  | ok | rwsDenied | accessErr | decodeErr | timeout | notReady | frameErr
deriving DecidableEq, Repr

/-- The answer a bus master got to its last access: its status, and the words a read returned. -/
structure BusResp where
  code : Code := .ok
  words : List Word := []
deriving DecidableEq, Repr

/-- One host port (R420 to R430). -/
structure HPort where
  quad : Bool := false
  resetArmed : Bool := false
  last : Nat := 0
  errAddr : Nat := 0
  frames : Nat := 0
  errs : Nat := 0
  resetDue : Bool := false
  resetAt : Option Nat := none
deriving DecidableEq, Repr

/-- One semaphore: its holder and the tick it was acquired in (R431 to R433). -/
structure Sem where
  owner : Option HostId := none
  since : Nat := 0
deriving DecidableEq, Repr

/-- BMX: the remap, the register slices by 6m + t, the longest waits by target (R439 to R444). -/
structure Bmx where
  remap : Bool := false
  slices : Tab Nat := []
  waitMax : Tab Nat := []
deriving DecidableEq, Repr

/-! ### IMG and SEQ: fuses, boot, images (03) -/

/-- The OTP fuses (R60): fixed on a chip; an unprogrammed part here. -/
structure Fuses where
  step : Nat := 0
  trim : Nat := 0
  keyHash0 : Nat := 0
  keyHash1 : Nat := 0
  keyRevoke : Nat := 0
  secure : Bool := false
  jtagLock : Bool := false
deriving DecidableEq, Repr

/-- Boot phases of Table 3.1 (R54). -/
inductive BootPhase where
  | pllWait | fuse | sramInit | waitBoot | memInit | waitImage | loader | done
deriving DecidableEq, Repr

/-- IMG.STATUS.STATE (Table 3.18). -/
inductive LoadState where
  | empty | reading | auth | checking | applying | ready
deriving DecidableEq, Repr

/-- The load or verify in progress (R74, R75). -/
structure LoadJob where
  partialImg : Bool
  verify : Bool
  allowUnb : Bool
  src : Nat
  len : Nat := 0
  authentic : Bool := false
  aborting : Bool := false
  flash : Bool := false
  unbounded : List Nat := []
  prev : LoadState := .empty
deriving DecidableEq, Repr

/-- The steps of a partial load's application (R81). -/
inductive PartialPhase where
  | waitB1 | rampOut | halted | waitB2 | rampIn | config | starting | modOff | modOn
deriving DecidableEq, Repr

/-- The partial load being applied (R81): its region, selector, where its records lie, its step and the tick that ends it. -/
structure PartialJob where
  kind : Nat
  sel : Nat
  addr : Nat
  len : Nat
  phase : PartialPhase
  due : Nat := 0
  mask : Nat := 0
deriving DecidableEq, Repr

/-- One entry of the published bound table (R86). -/
structure BoundEnt where
  flags : Nat := 0
  bound : Nat := 0
  headroom : Nat := 0
deriving DecidableEq, Repr

/-- One entry of the published latency table (Table 3.13). -/
structure LatEnt where
  src : Nat := 0
  dst : Nat := 0
  total : Nat := 0
deriving DecidableEq, Repr

/-- IMG and SEQ's boot state (R52 to R90). -/
structure Img where
  fuses : Fuses := {}
  boot : BootPhase := .pllWait
  bootSrc : Nat := 0
  flashFallback : Bool := false
  flashTry : Nat := 0
  trimBad : Bool := false
  fuseRead : Bool := false
  memReady : Bool := false
  memFail : Bool := false
  dramGib : Nat := 0
  initBusy : Bool := false
  initRec : List Byte := []
  bootRec : Option (List Byte) := none
  state : LoadState := .empty
  progress : Nat := 0
  slot : Nat := 0
  cold : Bool := false
  partialImg : Bool := false
  auth : Bool := false
  unbounded : Bool := false
  abortMoot : Bool := false
  errCode : Nat := 0
  errRecord : Nat := 0
  errPos : Nat := 0
  activeId : Nat := 0
  accepted : Bool := false
  activeLen : Nat := 0
  job : Option LoadJob := none
  partialJob : Option PartialJob := none
  journal : List (Nat × Nat) := []
  latTab : Tab (Option LatEnt) := []
  boundTab : Tab (Option BoundEnt) := []
  storeCorrupt : Bool := false
  storeFenced : Bool := false
  trims : Tab Nat := []
  doneAt : Option Nat := none
  flashOver : Bool := false
  stale : Bool := false
  needFull : Bool := false
deriving DecidableEq, Repr

/-! ### LDG (04) -/

/-- The running measures of a tracking slot (R104). -/
structure Measures where
  count : Nat := 0
  peak : Nat := 0
  hr : Nat := 19
  sat : Nat := 0
  erre : Nat := 0
deriving DecidableEq, Repr

/-- A closed record (Table 4.13). -/
structure Closed where
  valid : Bool := false
  unb : Bool := false
  headroom : Nat := 0
  peak : Nat := 0
  win : Nat := 0
  sat : Nat := 0
  erre : Nat := 0
  count : Nat := 0
deriving DecidableEq, Repr

/-- A bus master's capture of a closed record (R106). -/
structure RecCap where
  sel : Word := 0
  rec0 : Word := 0
  rec1 : Word := 0
  rec2 : Word := 0
  rec3 : Word := 0
deriving DecidableEq, Repr

/-- LDG (R102 to R114). -/
structure Ldg where
  track : Tab Word := []
  meas : Tab Measures := []
  closed : Tab Closed := []
  lastWin : Nat := 0
  winHi : Tab Word := []
  caps : Tab RecCap := []
  ecc : List Nat := []
  satFrame : Bool := false
  busy : Bool := false
  resFail : Bool := false
  resUnb : Bool := false
  resSafe : Bool := false
  resPath : Nat := 0
  boundSum : Nat := 0
  unbPaths : List Nat := []
  unbNext : List Nat := []
deriving DecidableEq, Repr

/-- The rounding state of one rounding point: the error-feedback state e and the LFSR pair (R98, R99). -/
structure Rnd where
  e : Nat := 0
  a : Nat := 0
  b : Nat := 0
deriving DecidableEq, Repr

/-- The rail filter of a rail group (R111): F in units of 2^-27 once started, and K in UQ2.22. -/
structure Rail where
  started : Bool := false
  f : Int := 0
  k : Nat := 4194304
deriving DecidableEq, Repr

/-! ### Cells and migration (05, 06) -/

/-- Physical cell roles (Table 5.1). -/
inductive Role where
  | unmapped | active | idle | spare | shadow | fenced | test
deriving DecidableEq, Repr

/-- An accumulator: its A56 integer and its scale bit (R93, R135). -/
structure Acc56 where
  val : Int := 0
  ext : Bool := false
deriving DecidableEq, Repr

/-- An address generator (Table 5.7) and the writes that wait for the next block (R139). LEN is held as length minus 1. -/
structure AddrGen where
  base : Nat := 0
  len : Nat := 0x3FFF
  step : Nat := 0
  p : Tab Nat := []
  pendBase : Option Nat := none
  pendLen : Option Nat := none
  pendStep : Option Nat := none
  pendP : Tab (Option Nat) := []
deriving DecidableEq, Repr

/-- The state of a memory word's check bits (R127): correct, correctable, uncorrectable. -/
inductive Ecc where
  | good | ce | ue
deriving DecidableEq, Repr

/-- MIG_STAT.PHASE (Table 6.17). -/
inductive MigPhase where
  | none | queued | loading | copying | shadow | restoring | rampIn
deriving DecidableEq, Repr

/-- MIG_STAT.RESULT (Table 6.17). -/
inductive MigResult where
  | none | done | mismatch | abortedRun | abortedAlarm | spareFailed | promoted | preempted | noSpare
deriving DecidableEq, Repr

/-- MIG_STAT of a physical cell (Table 6.17). -/
structure MigStat where
  phase : MigPhase := .none
  restorative : Bool := false
  partner : Option Nat := none
  result : MigResult := .none
  cmp : Nat := 0
deriving DecidableEq, Repr

/-- One physical cell (R115 to R150): role and mapping, memories, accumulators, generators, banks, rounding state, counters. -/
structure Cell where
  role : Role := .unmapped
  logical : Option Nat := none
  configured : Bool := false
  halt : Bool := false
  ranLast : Bool := false
  sched : Bool := false
  overrunDue : Bool := false
  blockN : Nat := 1
  latency : Nat := 0
  nInstr : Nat := 0
  data : Tab Nat := []
  dataEcc : Tab Ecc := []
  prog : Tab Nat := []
  progEcc : Tab Ecc := []
  accs : Tab Acc56 := []
  ags : Tab AddrGen := []
  inFront : Tab Int := []
  inBack : Tab Int := []
  retFront : Tab Int := []
  retBack : Tab Int := []
  efb : Tab Nat := []
  lfsrA : Nat := 0
  lfsrB : Nat := 0
  cyclesLast : Nat := 0
  cyclesMax : Nat := 0
  ceRun : Nat := 0
  ceCnt : Nat := 0
  dataScrub : Nat := 0
  progScrub : Nat := 0
  dataPass : Nat := 0
  progPass : Nat := 0
  accSatFrame : List Nat := []
  wbSatFrame : List Nat := []
  memHi : Tab Nat := []
  stagedHi : Tab Word := []
  readHi : Tab Word := []
  mig : MigStat := {}
deriving DecidableEq, Repr

/-- The running proactive migration (R170): source, spare, phase, the block boundary bs, the words the copier has yet to read. -/
structure Mig where
  src : Nat
  spare : Nat
  phase : MigPhase
  ce : Bool
  bs : Nat := 0
deriving DecidableEq, Repr

/-- A ramp MXE applies to a logical cell's returns: its first frame, and whether it rises (R81, R172). -/
structure RetRamp where
  start : Nat
  up : Bool
deriving DecidableEq, Repr

/-- The cell fabric: the mapping, the spare order, the migrations (R117 to R122, R169 to R174). -/
structure Fabric where
  map : Tab (Option Nat) := []
  spareOrder : List Nat := []
  mig : Option Mig := none
  queue : List (Nat × Bool) := []
  ramps : Tab (Option RetRamp) := []
  usedSpares : List Nat := []
  tested : List Nat := []
deriving DecidableEq, Repr

/-! ### MXE and DLY (07) -/

/-- A crosspoint entry (Table 7.4) with the ramp in progress: its start gain g0, its length RL, the frames left. -/
structure Xpt where
  valid : Bool := false
  release : Bool := false
  dst : Nat := 0
  src : Nat := 0
  tgt : Int := 0
  cur : Int := 0
  g0 : Int := 0
  rl : Nat := 0
  left : Nat := 0
deriving DecidableEq, Repr

/-- A destination's parameters (Table 7.5), as its three words. -/
structure DestPar where
  w0 : Nat := 0x3F0000
  w4 : Nat := 0
  w8 : Nat := 0
deriving DecidableEq, Repr

/-- A master's edit registers (R188). -/
structure EditRegs where
  e0 : Word := 0
  e1 : Word := 0
  e2 : Word := 0
deriving DecidableEq, Repr

/-- A queued edit (Table 7.7). -/
structure Edit where
  cmd : Nat
  src : Nat
  dst : Nat
  gain : Int
  srcOld : Nat
  ramp : Option Nat
deriving DecidableEq, Repr

/-- The results of SWAP_RES (Table 7.16). -/
inductive SwapResult where
  | none | done | bound | duplicate | busy | alarm | loading | cancelled | preempted | moot
deriving DecidableEq, Repr

/-- A player's state and result (Table 7.16). -/
inductive PlayState where
  | idle | armed | playing | stopping
deriving DecidableEq, Repr
inductive PlayResult where
  | none | done | stopped | moot | busy | badMsg | corrupt | stoppedRun | lateArm | notRun
deriving DecidableEq, Repr

/-- A message player (R199 to R202). -/
structure Player where
  state : PlayState := .idle
  result : PlayResult := .none
  pass : Nat := 0
  pos : Nat := 0
  msg : Nat := 0
  rep : Nat := 0
  start : Nat := 0
  finish : Bool := false
  stopFrame : Nat := 0
  ended : Bool := false
  miss : Bool := false
deriving DecidableEq, Repr

/-- The silence count and the SIL_STAT bit of a destination (R196). -/
structure Sil where
  count : Nat := 0
  silent : Bool := false
deriving DecidableEq, Repr

/-- MXE (R175 to R202, R208). A destination's rounding state that is not listed is its seed (R99). -/
structure Mxe where
  bank0 : Tab Xpt := []
  bank1 : Tab Xpt := []
  par0 : Tab DestPar := []
  par1 : Tab DestPar := []
  srcMap : Tab Nat := []
  dstMap : Tab Nat := []
  bounds : Tab Nat := []
  rnd : Tab Rnd := []
  out : Tab Int := []
  tap : Tab Int := []
  edits : Tab EditRegs := []
  queue : List Edit := []
  active : Nat := 0
  alarmBank : Bool := false
  routeWait : Bool := false
  swapWait : Bool := false
  checking : Bool := false
  boundWait : Bool := false
  swapPending : Bool := false
  swapUnb : Bool := false
  swapDue : Bool := false
  result : SwapResult := .none
  resTick : Nat := 0
  need : Nat := 0
  overflow : Bool := false
  bad : Bool := false
  sil : Tab Sil := []
  evaluating : Bool := false
  alarmLoad : Bool := false
  alarmBack : Bool := false
  alarmDue : Option Nat := none
  openedAt : Option Nat := none
  players : Tab Player := []
  corrupt : List Nat := []
deriving DecidableEq, Repr

/-- A delay line (R203 to R205): its entry, LINE_DELAY, the delay in use and a held one, the crossfade in progress, whether its last frame
has been formed, whether its end is still to be posted, and whether its read for the next frame failed. -/
structure Line where
  valid : Bool := false
  dst : Nat := 0
  xf : Nat := 1
  cap : Nat := 0
  base : Nat := 0
  reg : Nat := 0
  delay : Nat := 0
  held : Option Nat := none
  old : Nat := 0
  xfLeft : Nat := 0
  xfEnd : Bool := false
  xfDone : Bool := false
  miss : Bool := false
  since : Nat := 0
deriving DecidableEq, Repr

/-- DLY: the lines, and each line's output of this frame. -/
structure Dly where
  lines : Tab Line := []
  out : Tab Int := []
deriving DecidableEq, Repr

/-! ### MACs (08) -/

/-- The frame a MAC is transmitting: its queue, its octets, and whether its FCS will end inverted (R220, R231). -/
structure TxCur where
  q : Nat
  frame : List Byte
  bad : Bool := false
deriving DecidableEq, Repr

/-- One MAC (R212 to R236): the line's condition, the enables in effect, fence and drain, the receive buffer, the eight
queues with the tick their head became head, the frame in progress, credit, pause and hold-off, counters, captures. -/
structure Mac where
  link : Bool := false
  lock : Bool := false
  localFault : Bool := false
  remoteFault : Bool := false
  anDone : Bool := false
  rxOn : Bool := false
  txOn : Bool := false
  rxTail : Option Nat := none
  fenced : Bool := false
  draining : Bool := false
  txIdle : Bool := true
  rxIdle : Bool := true
  enabledAt : Option Nat := none
  rx : List RxFrame := []
  txq : Tab (List (List Byte)) := []
  headSince : Tab Nat := []
  cur : Option TxCur := none
  creditAt : Nat := 0
  pauseQ : Nat := 0
  pauseSince : Nat := 0
  heldFrom : Option Nat := none
  heldTime : Nat := 0
  holdoff : Option Nat := none
  cnt : Tab Nat := []
  capHi : Tab Word := []
deriving DecidableEq, Repr

/-! ### STE (09) -/

/-- The states of a flow entry (R237). -/
inductive FlowSt where
  | free | staged | live | retiring
deriving DecidableEq, Repr

/-- Where a packet's granules came from (R256). -/
inductive GSrc where
  | guarantee | own | shared | lent (l : Nat)
deriving DecidableEq, Repr

/-- A stored packet (R249 to R251): its media index, its samples frame by frame, its granules, an uncorrectable error. -/
structure Pkt where
  m64 : Int
  samples : List Nat
  src : GSrc
  n : Nat
  bad : Bool := false
deriving DecidableEq, Repr

/-- A flow entry (Table 9.1) with its phase, its packets, its counters (0 RX_PRI or built, 1 RX_SEC or primary TX_DROP, 2 DUP or
secondary TX_DROP, 3 LATE, 4 EARLY, 5 BAD, 6 DROP, 7 MISSING), its paths, its sequence number, its last packet. -/
structure Flow where
  st : FlowSt := .free
  fe : List Word := []
  phase : Nat := 0
  pkts : List Pkt := []
  gh : Nat := 0
  cnt : Tab Nat := []
  pDown : Bool := false
  sDown : Bool := false
  lastP : Option Nat := none
  lastS : Option Nat := none
  since : Nat := 0
  seq : Nat := 0
  built : Option Nat := none
deriving DecidableEq, Repr

/-- The account of a traffic class (R254 to R256). -/
structure Cls where
  res : Nat := 0
  admitted : Nat := 0
  xr : Nat := 0
  lent : Nat := 0
  shUse : Nat := 0
  floor : Nat := 0
  drop : Nat := 0
deriving DecidableEq, Repr

/-- A stored host frame (R258). -/
structure HostFrame where
  bytes : List Byte
  src : GSrc
  n : Nat
deriving DecidableEq, Repr

/-- A master's result of its last flow command (Table 9.13). -/
structure FtRes where
  result : Nat := 0
  tick : Nat := 0
  cmd : Nat := 0
  idx : Nat := 0
deriving DecidableEq, Repr

/-- STE (R237 to R265). -/
structure Ste where
  rxOn : Bool := false
  txOn : Bool := false
  rxIdle : Bool := true
  txIdle : Bool := true
  txStop : Bool := false
  flows : Tab Flow := []
  stg : Tab (Tab Word) := []
  fts : Tab FtRes := []
  fc : Tab (Tab Word) := []
  cls : Tab Cls := []
  shared : Nat := 0
  shFree : Nat := 0
  poolLow : Nat := 0
  general : Nat := 0
  ctl : List HostFrame := []
  be : List HostFrame := []
  poppedAt : Option Nat := none
  txwin : Tab (Tab Word) := []
  htx : Tab Nat := []
  hist : List (Nat × Tab Int) := []
  rnd : Tab (Nat × Nat) := []
  noFlow : Nat := 0
  badIp : Nat := 0
  convSat : Nat := 0
  ptp : Nat := 0
deriving DecidableEq, Repr

/-! ### PTU (10) -/

/-- A domain's parameters (Table 10.1). -/
structure TimePar where
  anchor : Nat := 0
  base : Nat := 0
  rate : Nat := 71582788266667
deriving DecidableEq, Repr

/-- A master's capture of the counter and the three domain times (R272). -/
structure TCap where
  cnt : Nat := 0
  a : Nat := 0
  b : Nat := 0
  sel : Nat := 0
deriving DecidableEq, Repr

/-- A foreign master (R279): its last Announce, the tick it came in, whether it qualifies. -/
structure Foreign where
  msg : PtpMsg
  heard : Nat
  qualified : Bool
deriving DecidableEq, Repr

/-- A servo result that takes effect in the first tick after its computation (R280). -/
structure ServoUpd where
  step : Int
  rate : Option Nat
  master : Nat × Nat
  due : Nat
deriving DecidableEq, Repr

/-- A domain's PTP port (R277 to R282). -/
structure PtpPort where
  en : Bool := false
  faulty : Bool := false
  locked : Bool := false
  masters : List Foreign := []
  best : Option (Nat × Nat) := none
  mpd : Option Int := none
  ofs : Int := 0
  fi : Int := 0
  good : Nat := 0
  twoStep : Option PtpMsg := none
  twoStepAt : Nat := 0
  ms : Option Int := none
  msT3 : Option Int := none
  t3 : Option Int := none
  reqSeq : Nat := 0
  reqAt : Option Nat := none
  syncSeq : Nat := 0
  syncAt : Option Nat := none
  annSeq : Nat := 0
  annAt : Option Nat := none
  syncSince : Option Nat := none
  upd : Option ServoUpd := none
  rxSync : Nat := 0
  rxAnn : Nat := 0
  txEvt : Nat := 0
  rxOther : Nat := 0
deriving DecidableEq, Repr

/-- PTU (R266 to R287). -/
structure Ptu where
  counter : Nat := 0
  a : TimePar := {}
  b : TimePar := {}
  sel : TimePar := {}
  portA : PtpPort := {}
  portB : PtpPort := {}
  cntHi : Tab Word := []
  caps : Tab TCap := []
  stamps : Tab (List Nat) := []
deriving DecidableEq, Repr

/-! ### RSU (11) -/

/-- A reference (R288 to R294): its state by Table 11.3, the tick its wait counts from, its first qualification, its edges in
the window, its latest edge, its last two PPS intervals, its latest phase edge, its estimate. -/
structure Ref where
  state : Nat := 0
  since : Nat := 0
  before : Bool := false
  first : Option Nat := none
  last : Option Nat := none
  k : Nat := 0
  edge : Option Nat := none
  phase : Option Nat := none
  pps1 : Option Nat := none
  pps2 : Option Nat := none
  rate : Option Nat := none
  disagree : Bool := false
deriving DecidableEq, Repr

/-- What an output's configuration asks of it: its rate in Hz, the high part of its period in units of 1/(10^9 * 2^32), inversion. -/
structure OutCfg where
  f : Nat := 0
  hi : Nat := 0
  pol : Bool := false
deriving DecidableEq, Repr
/-- An output of the synthesis: running since a rising edge, the level of its pin, the configuration it runs by (R300, R301). -/
structure OutPin where
  run : Bool := false
  high : Bool := false
  cfg : OutCfg := {}
deriving DecidableEq, Repr

/-- RSU (R288 to R305). -/
structure Rsu where
  startup : Bool := true
  startAt : Option Nat := none
  firstElig : Option Nat := none
  selected : Option Nat := none
  phaseErr : Int := 0
  pulling : Bool := false
  far : Bool := false
  farOfs : Int := 0
  hoRate : Nat := 71582788266667
  records : List Nat := []
  refs : Tab Ref := []
  backup : Bool := false
  winEnd : Nat := 983040000
  winClean : Bool := false
  winSum : Nat := 0
  winN : Nat := 0
  pairs : List (Nat × Nat) := []
  fenced : Bool := false
  wck : Tab OutPin := []
  pps : OutPin := {}
deriving DecidableEq, Repr

/-! ### APT (12) -/

/-- The states of a port direction (Table 12.6). -/
inductive AptSt where
  | idle | armed | starting | acquiring | running | muted | stopping
deriving DecidableEq, Repr

/-- One direction of a port (R306 to R327): state and results, data start, mask in use, the stop, supervision, acquisition, the
ASRC's ratio and position, slot histories (newest first), last values, the values delivered, ramps, counters; the bits a BULK
direction's counted frames are shifted by, its words not yet in a frame, a full history and when it found room; the frame sent before;
the tick of its last START and the PORT_SETUP records that wait for its stop. -/
structure AptDir where
  st : AptSt := .idle
  result : Nat := 0
  loss : Nat := 0
  locked : Bool := false
  slip : Bool := false
  dataAt : Nat := 0
  clocks : Bool := false
  maskUse : Word := 0xFFFFFFFF
  zeroFrom : Nat := 0
  stopAt : Nat := 0
  stopLeft : Nat := 0
  edge : Option Nat := none
  periods : List Nat := []
  glitches : List Bool := []
  lockMean : Nat × Nat := (0, 0)
  acqT0 : Option Nat := none
  acqM : Nat := 0
  acquired : Bool := false
  relock : Bool := false
  rho : Nat := 0
  p : Int := 0
  nin : Nat := 0
  tlast : Nat := 0
  tprev : Nat := 0
  hist : Tab (List Int) := []
  lastOut : Tab Int := []
  held : Tab Int := []
  muteAt : Option Nat := none
  unmuteAt : Option Nat := none
  zeroUntil : Nat := 0
  hizUntil : Nat := 0
  sent : Tab Int := []
  sentPrev : Tab Int := []
  delivered : Tab Int := []
  started : Bool := false
  phase : Nat := 0
  words : List Nat := []
  overrun : Bool := false
  room : Option Nat := none
  startTick : Option Nat := none
  setup : List (List (Nat × Word)) := []
  xrun : Nat := 0
  glitchCnt : Nat := 0
  convSat : Nat := 0
deriving DecidableEq, Repr

/-! ### PWR (13) -/

/-- The states of a modulator channel (Table 13.6). -/
inductive ModSt where
  | off | starting | running | stopping | sleep | shutdown | latched
deriving DecidableEq, Repr

/-- A ramp of the ramp gain (R339): its first frame, its first value, its target. -/
structure RgRamp where
  start : Nat
  r0 : Nat
  target : Nat
deriving DecidableEq, Repr

/-- A modulator channel (R328 to R347): state, ramp gain, filter and shaper histories (newest first), the correction, the updates
of the frame, the limited periods by number, a truncation not yet counted (its tick), the last truncated period and the position of the
truncation in it, retries. -/
structure Mod where
  st : ModSt := .off
  en : Bool := false
  rg : Nat := 0
  ramp : Option RgRamp := none
  w : List Int := []
  wp : List Int := []
  e1 : Int := 0
  e2 : Int := 0
  e3 : Int := 0
  e4 : Int := 0
  c : Int := 0
  upd : List Int := []
  lims : List Nat := []
  trunc : Option Nat := none
  cut : Option (Nat × Nat) := none
  retries : Nat := 0
  waitEnd : Nat := 0
  runSince : Nat := 0
  shutdowns : Nat := 0
  nsat : Nat := 0
  forced : Bool := false
deriving DecidableEq, Repr

/-- PWR: the channels, the level it commands on DRIVE_EN (R342), and the level of a pad that does not follow it (R343). -/
structure Pwr where
  chs : Tab Mod := []
  driveEn : Bool := false
  pad : Option Bool := none
deriving DecidableEq, Repr

/-! ### LSP (14) -/

/-- A sense input's decimator (R349), its loss, its last bit and how many bits in a row had that value (R350), its raw reading. -/
structure Sense where
  i1 : Nat := 0
  i2 : Nat := 0
  i3 : Nat := 0
  q1 : Nat := 0
  q2 : Nat := 0
  q3 : Nat := 0
  u1 : Int := 0
  u2 : Int := 0
  lost : Bool := false
  bit : Bool := false
  run : Nat := 0
  r : Int := 0
deriving DecidableEq, Repr

/-- The four pilot sums (R352, R360). -/
structure Pilot where
  vc : Int := 0
  vs : Int := 0
  ic : Int := 0
  is : Int := 0
deriving DecidableEq, Repr

/-- A loudspeaker channel of LSP (R352 to R361): the calibrated readings of the frame, the thermal model, the gains, the block
sums and whether the blocks still count, the estimates, the verdict, the sums since the first limited period. -/
structure LspCh where
  mi : Int := 0
  mv : Int := 0
  tc : Int := 0
  tm : Int := 0
  p : Int := 0
  sumP : Int := 0
  gt : Nat := 4194304
  lg : Nat := 4194304
  la : Int := 0
  lb : Int := 0
  ha : Int := 0
  hb : Int := 0
  sxy : Int := 0
  syy : Int := 0
  est : Pilot := {}
  sup : Pilot := {}
  estOk : Bool := false
  supOk : Bool := false
  res : Nat := 0
  tmeas : Int := 0
  estAge : Nat := 0
  estValid : Bool := false
  line : Nat := 0
  lastCls : Nat := 0
  pilotAbsent : Bool := false
  zmeas : Nat := 0
  hot : Bool := false
  runN : Nat := 0
  runVI : Int := 0
  runII : Int := 0
  useLim : Word := 0
  useKnee : Word := 0
  useRcw : Word := 0
deriving DecidableEq, Repr

/-- A calibration (R351): the running sum, the sense channel of the last command, results. -/
structure Cal where
  busy : Bool := false
  isRef : Bool := false
  kind : Nat := 0
  index : Nat := 0
  from_ : Nat := 0
  count : Nat := 0
  zeroDone : Bool := false
  result : Nat := 0
  s0 : Int := 0
  s1 : Int := 0
deriving DecidableEq, Repr

/-- LSP: the 68 inputs (ISNS 0 to 31, VSNS 32 to 63, RAIL 64 to 67), the channels, the calibration, the last frames handled. -/
structure Lsp where
  sns : Tab Sense := []
  chs : Tab LspCh := []
  cal : Cal := {}
  stepped : Option Nat := none
deriving DecidableEq, Repr

/-! ### DMA and CHK (18) -/

/-- The states of a DMA channel (Table 18.9). -/
inductive DmaSt where
  | idle | queued | active | waitReq | stopping | halted
deriving DecidableEq, Repr

/-- A DMA channel (R446 to R456): its state and causes, the descriptor in use with its words, the bytes or elements of it moved,
the tick its wait counts from and whether it was reported, a late error to halt on, a completed descriptor without BARRIER. -/
structure DmaCh where
  st : DmaSt := .idle
  cause : Nat := 0
  pcode : Nat := 0
  lateErr : Bool := false
  hops : Nat := 0
  cur : Nat := 0
  errAddr : Nat := 0
  errCode : Nat := 0
  bytes : Nat := 0
  desc : Option (List Nat) := none
  done : Nat := 0
  waitFrom : Nat := 0
  waited : Bool := false
  lateHalt : Bool := false
  open_ : Bool := false
deriving DecidableEq, Repr

/-- DMA: the channels, the run queue, the channel being served, interleave (R452, R453). -/
structure Dma where
  chs : Tab DmaCh := []
  queue : List Nat := []
  served : Option Nat := none
  interleave : Bool := false
  interleaveDue : Bool := false
  entries : Nat := 0
deriving DecidableEq, Repr

/-- The states of a check unit (Table 18.14). -/
inductive ChkSt where
  | idle | scanning | rescanning | stopping
deriving DecidableEq, Repr

/-- A check unit (R460 to R464): state, results, the range and value the scan started from, a forced stop, a stopped rescan. -/
structure ChkU where
  st : ChkSt := .idle
  result : Nat := 0
  rescanned : Bool := false
  value : Word := 0
  first : Word := 0
  errAddr : Nat := 0
  errCode : Nat := 0
  addr0 : Nat := 0
  len0 : Nat := 0
  run0 : Nat := 0
  pos : Nat := 0
  forced : Bool := false
  second : Bool := false
  parityBad : Bool := false
deriving DecidableEq, Repr

/-! ### MEMC, TWC and FLC (19) -/

/-- MEMC (R468 to R477): training, the initialisation map, corrected errors of the open window, the rows' counts, the spare rows
in use by bank, the health mark, a hot die. -/
structure Memc where
  trainErr : Nat := 0
  initDone : Bool := false
  pages : Tab Bool := []
  ceDram : Nat := 0
  ceCar : Nat := 0
  rowCe : Tab Nat := []
  spares : Tab Nat := []
  eccHigh : Bool := false
  hot : Bool := false
deriving DecidableEq, Repr

/-- The states of a two-wire controller (Table 19.7). -/
inductive TwSt where
  | idle | busy | recovering | stopping
deriving DecidableEq, Repr

/-- A two-wire controller (R478 to R484): FIFOs, the transfer with the bytes sent, the target's reply not yet taken and how many bytes
were received, NAKs and losses so far, a lost arbitration that waits, an SCL line held low. -/
structure Tw where
  st : TwSt := .idle
  result : Nat := 0
  tx : List Byte := []
  rx : List Byte := []
  taddr : Nat := 0
  wlen : Nat := 0
  rlen : Nat := 0
  out : List Byte := []
  resp : List Byte := []
  got : Nat := 0
  naks : Nat := 0
  losses : Nat := 0
  lost : Bool := false
  arbByte : Nat := 0
  arbBit : Nat := 0
  recov : Nat := 0
  sclHeld : Bool := false
deriving DecidableEq, Repr

/-- The states of FLC (Table 19.8). -/
inductive FlSt where
  | idle | busy | stopping
deriving DecidableEq, Repr

/-- FLC (R485, R486): the command with its address, length and progress, the FIFO, the DEV register, the flash device's bytes. -/
structure Flc where
  st : FlSt := .idle
  result : Nat := 0
  fifo : List Byte := []
  cmd : Nat := 0
  addr : Nat := 0
  len : Nat := 0
  done : Nat := 0
  dev : Word := 0
  flash : Tab Byte := []
deriving DecidableEq, Repr

/-! ### JTAG (03 R61, 20 R508) -/

/-- The instructions of the test port that the spec gives an effect. -/
inductive JtagInst where
  | idcode | bypass | samplePreload | extest
deriving DecidableEq, Repr

/-- The test port: its instruction, the boundary register, the last word shifted out, the pins it drives. -/
structure Jtag where
  inst : JtagInst := .idcode
  boundary : Nat := 0
  out : Nat := 0
  driven : Option Nat := none
deriving DecidableEq, Repr

/-! ### Checkpoints (15) -/

/-- What a takeover restores: the image store's state (R381), a whole checkpoint, or the rest of one in rehearsal (R379). -/
inductive Restore where
  | image
  | full (items : List CkItem)
  | rest (items : List CkItem)
deriving DecidableEq, Repr

/-- The checkpoint area in DRAM (R382 to R386): the base with the number of its newest delta and when it was applied, the collecting
copy, the numbers the next frames must bear, the newest delta's number, what the last delta of the holder left, host-driven changes
still to be carried, what was sent last, and the checkpoint a takeover restores. -/
structure Ckpt where
  base : List CkItem := []
  collect : List CkItem := []
  collecting : Bool := false
  nextSlice : Nat := 0
  nextDelta : Option Nat := none
  baseNum : Nat := 0
  valid : Bool := false
  frozen : Bool := false
  baseTick : Nat := 0
  newestNum : Nat := 0
  last : List CkItem := []
  backlog : List CkKey := []
  sendNum : Nat := 0
  sendSlice : Nat := 0
  sentAt : Option Nat := none
  sentDelta : Option Delta := none
  sentSlice : Option Slice := none
  held : Option Restore := none
deriving DecidableEq, Repr

/-! ### PAIR and SEQ (15) -/

/-- The states of the wick logic (Table 15.2). -/
inductive WickSt where
  | disarmed | standby | preparing | lighting | holding | releasing
deriving DecidableEq, Repr

/-- How far a cold standby has been configured (R374, R379). -/
inductive ColdSt where
  | none | configuring | restoring | ready
deriving DecidableEq, Repr

/-- PAIR's wick logic and link, and SEQ's lantern sweep (R366 to R397): the lease timer's start, the last pilot sent, the tick LIGHTING
began, the line as read, the partner's last STATUS frame and when it came, the frame last sent, a cold configuration, a handover with
the tick its ramp ends and the tick RELEASED was sent, RELEASED received, the run and alarm values of the newest DELTA, the sweep. -/
structure Pair where
  wick : WickSt := .disarmed
  first : Bool := false
  line : Bool := true
  leaseFrom : Nat := 0
  lastPilot : Option Nat := none
  pilotTick : Option Nat := none
  lightAt : Nat := 0
  released : Bool := false
  eligible : Bool := false
  linkUp : Bool := false
  linkFenced : Bool := false
  partner : Option PairStatus := none
  heardAt : Nat := 0
  sent : Option PairStatus := none
  sentDetail : List Word := []
  sentHandover : Nat := 0
  cold : ColdSt := .none
  rampEnd : Option Nat := none
  releasedAt : Option Nat := none
  gotReleased : Bool := false
  hoResult : Nat := 0
  hoTick : Nat := 0
  imageStart : Bool := false
  newest : Option (Bool × Bool) := none
  phealth : Nat := 0
  passes : Nat := 0
  linkErr : Nat := 0
  sweepOn : Bool := false
  sweepNext : Option Nat := none
  sweepLate : Bool := false
  sweepOverdue : Bool := false
  passMs : Nat := 10000
  scanRate : Nat := 8
  chkUnit : Option Nat := none
deriving DecidableEq, Repr

/-! ### The whole state -/

/-- Why a step can stop for good. No meaning of this model raises one; the type is closed and holds the one reason that
stays open to a later reading. -/
inductive Fault where
  /-- Raised by no meaning: the spec gives every command an effect. Safe: a stop, where the part would go on. -/
  | stopped
deriving DecidableEq, Repr

/-- Why a command has no meaning. -/
inductive Refusal where
  /-- The command's meaning is not written. Safe: nothing is claimed of it. -/
  | notModelled (mnemonic : String)
deriving DecidableEq, Repr

/-- The state of the part, and the queue of the commands that wait, first in, first out. -/
structure State where
  pending : List Instr := []
  /-- The registers that software reads as last written, and the sticky status, event and counter registers, by bus address. -/
  regs : Tab Word := []
  /-- Working RAM, carafe and DRAM bytes, by bus address (working RAM at its position with REMAP = 0). -/
  mem : List Host.Cell := []
  /-- The model's own: how many free values have been drawn. -/
  freeCount : Nat := 0
  bus : Tab BusResp := []
  sys : Sys := {}
  hpa : HPort := {}
  hpb : HPort := {}
  sems : Tab Sem := []
  bmx : Bmx := {}
  img : Img := {}
  ldg : Ldg := {}
  rails : Tab Rail := []
  cells : Tab Cell := []
  fabric : Fabric := {}
  ckpt : Ckpt := {}
  mxe : Mxe := {}
  dly : Dly := {}
  /-- The sample of each network receive channel and port receive slot for the frame (R176). -/
  netRx : Tab Int := []
  portIn : Tab Int := []
  /-- 64-bit memory words with an uncorrectable error, and poisoned carafe words, by address (R472, R477). -/
  memUe : List Nat := []
  poisoned : List Nat := []
  macs : Tab Mac := []
  ste : Ste := {}
  ptu : Ptu := {}
  rsu : Rsu := {}
  apt : Tab AptDir := []
  /-- The LFSR pairs of the receive slots, by 32 * port + slot (R99); a pair is its seed until it draws. -/
  aptRnd : Tab (Nat × Nat) := []
  pwr : Pwr := {}
  lsp : Lsp := {}
  dma : Dma := {}
  chk : Tab ChkU := []
  memc : Memc := {}
  twc : Tab Tw := []
  flc : Flc := {}
  jtag : Jtag := {}
  pair : Pair := {}
deriving DecidableEq, Repr

/-- The machine right after RESET_N has risen: every field at the value the spec states for reset, and every register the
spec states none for at the value notes/assumptions names. -/
def State.reset : State := {}

end Sys2Proof.Machine
end

