-- ==== Sys2Proof/Machine/Ops.lean ====
section
/-! DEFINITION. The operations every block shares: the register file, the memories, a bus master's access and its answer,
raising a fault, posting an event, the log, the mode flags, the interrupt pins. -/
namespace Sys2Proof.Machine
open Sys2Proof

/-- The outcome of a step of this machine. -/
abbrev Res := Host.Outcome State Fault Refusal

/-! ### The register file -/

/-- The value a register holds. -/
def State.reg (s : State) (a : Nat) : Word := Tab.get regReset s.regs a
/-- A register takes a value. -/
def State.setReg (s : State) (a : Nat) (v : Word) : State := { s with regs := Tab.set regReset s.regs a v }
/-- Bits [lo+n-1:lo] of a register. -/
def State.fld (s : State) (a lo n : Nat) : Nat := bits (s.reg a) lo n
/-- Bit i of a register. -/
def State.rbit (s : State) (a i : Nat) : Bool := bit (s.reg a) i
/-- A field of a register takes a value. -/
def State.setFld (s : State) (a lo n v : Nat) : State := s.setReg a (setBits (s.reg a) lo n v)
/-- The bits of m become 1 in a register. -/
def State.orReg (s : State) (a : Nat) (m : Word) : State := s.setReg a (s.reg a ||| m)
/-- The bits of m become 0 in a register. -/
def State.clrReg (s : State) (a : Nat) (m : Word) : State := s.setReg a (s.reg a &&& ~~~m)

/-! ### Memory bytes (working RAM, carafe, DRAM) -/

/-- A byte nothing has written reads 0: SRAM_INIT and DRAM initialisation write zero (Table 3.1, R471). -/
def memDefault (_ : Nat) : Byte := 0
/-- The byte at a memory address. -/
def State.byte (s : State) (a : Nat) : Byte := Tab.get memDefault s.mem a
/-- A byte is written. -/
def State.setByte (s : State) (a : Nat) (b : Byte) : State := { s with mem := Tab.set memDefault s.mem a b }
/-- n bytes from address a. -/
def State.bytes (s : State) (a : Nat) : Nat → List Byte
  | 0 => []
  | n + 1 => s.byte a :: s.bytes (a + 1) n
/-- The bytes of a memory with a list of bytes written from address a on. -/
def memPut (mem : List Host.Cell) (a : Nat) : List Byte → List Host.Cell
  | [] => mem
  | b :: t => memPut (Tab.set memDefault mem a b) (a + 1) t
/-- Bytes are written from address a on. -/
def State.setBytes (s : State) (a : Nat) (l : List Byte) : State := { s with mem := memPut s.mem a l }
/-- The little-endian number in n bytes at a. -/
def State.le (s : State) (a n : Nat) : Nat := leNat (s.bytes a n)
/-- The memory holds its canonical form. -/
def Memory.wf (m : List Host.Cell) : Bool := Tab.wf memDefault m

/-! ### Free values -/

/-- A value the spec leaves open, and the state with one more value drawn. -/
def State.draw (s : State) : Word × State := (Config.freeWord s.freeCount, { s with freeCount := s.freeCount + 1 })

/-- Free bytes, as many as asked. -/
def drawBytes : Nat → State → List Byte × State
  | 0, s => ([], s)
  | n + 1, s =>
    let d := s.draw
    let r := drawBytes n d.2
    (BitVec.ofNat 8 d.1.toNat :: r.1, r.2)
/-! ### Time -/

/-- The sample rate in hertz. -/
def State.fs (s : State) : Nat := if s.sys.fs48 then 48000 else 96000
/-- Ticks in n milliseconds (64 * FS / 1,000 each). -/
def State.msTicks (s : State) (n : Nat) : Nat := n * 64 * s.fs / 1000
/-- Ticks that cover n microseconds, rounded up. -/
def State.usTicks (s : State) (n : Nat) : Nat := ceilDiv (n * 64 * s.fs) 1000000
/-- The number of the sample frame of this tick (R19). -/
def State.frame (s : State) : Nat := s.sys.tick / 64
/-- This tick starts a sample frame (R19). -/
def State.atFrame (s : State) : Bool := s.sys.tick % 64 == 0
/-- The first frame boundary after tick t: 64 * (floor(t/64) + 1) (R45). -/
def nextBoundary (t : Nat) : Nat := 64 * (t / 64 + 1)

/-! ### Units, by number -/

/-- The update of the SYS part. -/
def State.updSys (s : State) (f : Sys → Sys) : State := { s with sys := f s.sys }
/-- The update of the IMG part. -/
def State.updImg (s : State) (f : Img → Img) : State := { s with img := f s.img }
/-- Physical cell p. -/
def State.cell (s : State) (p : Nat) : Cell := Tab.get (fun _ => {}) s.cells p
/-- Physical cell p changes. -/
def State.setCell (s : State) (p : Nat) (c : Cell) : State := { s with cells := Tab.set (fun _ => {}) s.cells p c }
/-- Physical cell p changes by f. -/
def State.updCell (s : State) (p : Nat) (f : Cell → Cell) : State := s.setCell p (f (s.cell p))
/-- The host port of a host. -/
def State.port (s : State) : HostId → HPort
  | .a => s.hpa
  | .b => s.hpb
/-- A host port changes. -/
def State.setPort (s : State) (h : HostId) (p : HPort) : State :=
  match h with
  | .a => { s with hpa := p }
  | .b => { s with hpb := p }
/-- Semaphore i. -/
def State.sem (s : State) (i : Nat) : Sem := Tab.get (fun _ => {}) s.sems i
/-- Semaphore i changes. -/
def State.setSem (s : State) (i : Nat) (x : Sem) : State := { s with sems := Tab.set (fun _ => {}) s.sems i x }

/-! ### The output ramp of a RUN change (R46 to R48) -/

/-- A sample at amplitude num/den: exact, or rounded to one of its two neighbours, which one the spec leaves open. -/
def rampSample (x : Int) (num den : Nat) : Int :=
  let p := x * num
  let q := floorDivI p den
  if q * den = p then q else if Config.rampUp x num den then q + 1 else q
/-- An amplitude in lowest terms. -/
def reduceGain (g : Nat × Nat) : Nat × Nat := (g.1 / Nat.gcd g.1 g.2, g.2 / Nat.gcd g.1 g.2)
/-- The amplitude j frames after the boundary of a linear 64-frame ramp from g to full amplitude, or to 0. -/
def rampGain (up : Bool) (g : Nat × Nat) (j : Nat) : Nat × Nat :=
  if 64 ≤ j then (if up then (1, 1) else (0, 1))
  else if up then reduceGain (64 * g.1 + (g.2 - g.1) * j, 64 * g.2)
  else reduceGain (g.1 * (64 - j), 64 * g.2)
/-- The amplitude of the outputs in sample frame k. -/
def outGain (s : State) (k : Nat) : Nat × Nat :=
  let ramp (up : Bool) : Nat × Nat :=
    match s.sys.rampEnd with
    | none => (0, 1)
    | some e =>
      let f := (e - 4096) / 64
      if k < f then s.sys.outRamp.pre else rampGain up s.sys.outRamp.g0 (k - f)
  match s.sys.phase with
  | .running => (1, 1)
  | .rampIn => ramp true
  | .rampOut => ramp false
  | _ => (0, 1)
/-- A ramp of the outputs begins at the next frame boundary, from the amplitude they have then (R46, R48). -/
def beginRamp (p : Phase) (s : State) : State :=
  let b := nextBoundary s.sys.tick
  let r : OutRamp := ⟨outGain s (b / 64 - 1), outGain s (b / 64)⟩
  s.updSys fun y => { y with phase := p, rampEnd := some (b + 4096), outRamp := r }

/-! ### The event log (R405, R406) -/

/-- Generates a log entry: the sequence number counts on, and the entry enters the queue of 256 or is lost. -/
def logPush (kind block unit source attr : Nat) (s : State) : State :=
  s.updSys fun y =>
    let l := y.log
    let e : LogEntry := ⟨y.tick, l.seq, kind, block, unit, source, attr⟩
    let l := { l with seq := (l.seq + 1) % 65536 }
    { y with log := if l.queue.length < 256 then { l with queue := l.queue ++ [e] } else { l with lost := satInc (2 ^ 32 - 1) l.lost } }

/-! ### Faults (R24, R398 to R402) -/

/-- The severities of R24, with their codes in a log entry (Table 16.1). -/
inductive Sev where
  | note | channel | block | chip
deriving DecidableEq, Repr
/-- The severity code of a log entry. -/
def Sev.code : Sev → Nat
  | .note => 0 | .channel => 1 | .block => 2 | .chip => 3

/-- The severity of a fault source, from the source tables of the block chapters. -/
def faultSev : Blk → Nat → Sev
  | .sys, 0 | .sys, 2 | .ptu, 0 | .pwr, 7 | .pair, 0 => .chip
  | .img, 2 | .mac _, 0 | .rsu, 5 | .pair, 1 | .pair, 2 | .pair, 3 => .block
  | .ldg, 4 | .hp, 2 | .mac _, 1 | .ptu, 1 => .channel
  | .cell _, i => if 3 ≤ i ∧ i ≤ 6 then .channel else .note
  | .mxe, i => if i ≤ 2 then .channel else .note
  | .dly, i => if i ≤ 1 then .channel else .note
  | .ste, i => if i ≤ 2 then .channel else .note
  | .apt _, i => if i ≤ 4 then .channel else .note
  | .pwr, i => if 1 ≤ i ∧ i ≤ 3 then .channel else .note
  | .lsp, i => if (1 ≤ i ∧ i ≤ 4) ∨ i = 6 then .channel else .note
  | .dma, i => if i ≤ 3 then .channel else .note
  | .chk, i => if i % 4 = 1 ∨ i % 4 = 2 then .channel else .note
  | .memc, i => if i ≤ 2 then .channel else .note
  | .twc, i => if i % 4 = 2 ∨ i % 4 = 3 then .channel else .note
  | .flc, 0 => .channel
  | _, _ => .note

/-- A detection of a fault source (R399): its bit, its counter to 65,535, and its log entry. The local action is the caller's. -/
def raise (b : Blk) (i : Nat) (s : State) : State :=
  let s := s.orReg (b.base + 0x80) (bm i)
  let s := s.setReg (b.base + 0x90 + 4 * i) (wd (satInc 65535 (s.reg (b.base + 0x90 + 4 * i)).toNat))
  let s := s.updSys fun y => { y with detected := (b.base, i) :: y.detected }
  logPush 1 b.index b.unit i (faultSev b i).code s

/-- A bit of FAULT_STATUS. -/
def State.faultBit (s : State) (b : Blk) (i : Nat) : Bool := s.rbit (b.base + 0x80) i

/-- A completion or event sets its bit of EVT. -/
def evt (b : Blk) (i : Nat) (s : State) : State := s.orReg (b.base + 0x40) (bm i)

/-! ### A bus master's access and its answer (R424, R435, R436, R438) -/

/-- The code of a status (Table 17.2). -/
def Code.num : Code → Nat
  | .ok => 0 | .rwsDenied => 1 | .accessErr => 2 | .decodeErr => 3 | .timeout => 4 | .notReady => 5 | .frameErr => 6

/-- The answer a master's access gets. -/
def respond (m : Master) (c : Code) (ws : List Word) (s : State) : State :=
  { s with bus := Tab.set (fun _ => ({} : BusResp)) s.bus m.idx ⟨c, ws⟩ }
/-- The last answer a master got. -/
def State.resp (s : State) (m : Master) : BusResp := Tab.get (fun _ => {}) s.bus m.idx

/-- The targets of BMX (Table 17.5). -/
inductive BusTarget where
  | low | carafe | dram | regs | cellMem | matrix
deriving DecidableEq, Repr
/-- The index of a target. -/
def BusTarget.idx : BusTarget → Nat
  | .low => 0 | .carafe => 1 | .dram => 2 | .regs => 3 | .cellMem => 4 | .matrix => 5

/-- The paths of Table 17.5 (R438). -/
def hasPath : Master → BusTarget → Bool
  | .hpa, _ | .hpb, _ | .seq, _ => true
  | .dma, .low | .img, .low | .pair, .low => false
  | .dma, _ | .img, _ | .pair, _ => true
  | .ste, t => t == .carafe
  | .dly, t => t == .dram
  | .chk, .regs => false
  | .chk, _ => true

/-- SYS and its island's clock run: no clock loss that stops the system island (R410). -/
def sysClockLost (s : State) : Bool := s.sys.clockLost.any fun c => c == .refclk || c == .sysPll
/-- The ticks run: the time island has its clock (R410). -/
def ticksRun (s : State) : Bool := s.sys.resetN && s.sys.suppliesGood && !(s.sys.clockLost.any fun c => c == .refclk || c == .sysPll || c == .timePll)

/-- Why a master's access does not reach a target: no path (R438), a host port before the end of FUSE (R56), no clock (R410). -/
def pathErr (m : Master) (t : BusTarget) (s : State) : Option Code :=
  if m.host?.isSome && !s.img.fuseRead then some .notReady
  else if m.host?.isSome && sysClockLost s then some .timeout
  else if hasPath m t then none else some .decodeErr

/-- A master passes the check of an RWS field: a host by holding G; SEQ, IMG and PAIR always; the others never (R435, R436). -/
def rwsOk (m : Master) (s : State) : Bool :=
  match m with
  | .hpa => (s.sem 0).owner == some .a
  | .hpb => (s.sem 0).owner == some .b
  | .seq | .img | .pair => true
  | _ => false

/-- A write command of a master to a target: it takes effect, with the status it gives, if the access reaches its target. -/
def cmdAt (t : BusTarget) (m : Master) (k : State → State × Code) (s : State) : State :=
  match pathErr m t s with
  | some c => respond m c [] s
  | none =>
    let r := k s
    respond m r.2 [] r.1
/-- A read command of a master at a target: its effect, the word it returns, and the status. -/
def rdAt (t : BusTarget) (m : Master) (k : State → State × Word × Code) (s : State) : State :=
  match pathErr m t s with
  | some c => respond m c [0] s
  | none =>
    let r := k s
    respond m r.2.2 [r.2.1] r.1
/-- A write command of a master to a register: it takes effect, with the status it gives, if the access reaches its target. -/
def cmdC (m : Master) (rws : Bool) (k : State → State × Code) (s : State) : State :=
  match pathErr m .regs s with
  | some c => respond m c [] s
  | none =>
    if rws && !rwsOk m s then respond m .rwsDenied [] s
    else
      let r := k s
      respond m r.2 [] r.1
/-- A write command that always ends with OK once it reaches its register. -/
def cmd (m : Master) (rws : Bool) (k : State → State) (s : State) : State := cmdC m rws (fun s => (k s, .ok)) s
/-- A read command of a master: its effect and the word it returns. -/
def rdCmd (m : Master) (k : State → State × Word) (s : State) : State :=
  match pathErr m .regs s with
  | some c => respond m c [0] s
  | none =>
    let r := k s
    respond m .ok [r.2] r.1

/-! ### Mode flags (R34, R44, R50) -/

/-- The originators of a log entry (Table 16.1). -/
def origCode : Option HostId → Nat
  | none => 0 | some .a => 1 | some .b => 2

/-- The flag of SYS.MODE at bit i. -/
def Sys.flag (y : Sys) : Nat → Bool
  | 0 => y.run | 1 => y.alarm | 2 => y.standby | 3 => y.holdover | 4 => y.degraded | _ => y.maint
/-- The flag at bit i takes a value. -/
def Sys.putFlag (y : Sys) (i : Nat) (v : Bool) : Sys :=
  match i with
  | 0 => { y with run := v } | 1 => { y with alarm := v } | 2 => { y with standby := v } | 3 => { y with holdover := v }
  | 4 => { y with degraded := v } | _ => { y with maint := v }

/-- A mode flag changes: SYS.MODE, its sticky change bit, and a MODE log entry; nothing where it already has the value. -/
def setFlag (i : Nat) (v : Bool) (by_ : Option HostId) (s : State) : State :=
  if s.sys.flag i == v then s
  else
    let s := s.updSys fun y => y.putFlag i v
    let s := s.orReg 0x4000010C (bm i)
    logPush 3 0 0 i (4 * origCode by_ + (if v then 128 else 0)) s

/-- A resource is fenced (MODE_CAUSE.DEG_FENCED, Table 2.14). -/
def degFenced (s : State) : Bool :=
  s.img.storeFenced || s.cells.any (fun e => e.2.role == .fenced)
    || s.macs.any (fun e => e.2.fenced)
    || s.rsu.fenced
    || s.pair.linkFenced
/-- MAC n of a pair with its bit set, or its partner, is fenced and the other one carries the pair's streams (R215, Table 2.14). -/
def macSpare (s : State) (n : Nat) : Bool :=
  let fenced (k : Nat) : Bool := (Tab.get (fun _ => {}) s.macs k).fenced
  s.rbit ((Blk.mac n).base + 8) 4 && fenced n != fenced (n + 2)
/-- A spare cell, carafe row, MAC or reference is in use (MODE_CAUSE.DEG_SPARE). -/
def degSpare (s : State) : Bool :=
  s.fabric.usedSpares != []
    || s.memc.spares != []
    || macSpare s 0 || macSpare s 1 || s.rsu.backup
/-- A partial load is in progress (MODE_CAUSE.MAINT_PARTIAL, R81). -/
def maintPartial (s : State) : Bool := s.img.partialJob.isSome || s.img.job.any (fun j => j.partialImg && !j.verify)
/-- A cell migration is in progress (MODE_CAUSE.MAINT_MIGRATE, R171, R172). -/
def maintMigrate (s : State) : Bool :=
  s.fabric.mig.isSome || s.fabric.queue != [] || s.cells.any (fun e => e.2.mig.phase == .restoring || e.2.mig.phase == .rampIn)
/-- A foreground test is in progress (MODE_CAUSE.MAINT_TEST). -/
def maintTest (s : State) : Bool := s.cells.any (fun e => e.2.halt)

/-- DEGRADED and MAINT follow their sources, as hardware changes (R35, R44). -/
def settle (s : State) : State :=
  let s := setFlag 4 (degFenced s || degSpare s) none s
  setFlag 5 (maintPartial s || maintMigrate s || maintTest s) none s

/-! ### Interrupt requests and pins (R402 to R404) -/

/-- The pairs of status and enable registers of a block: status offset, enable toward A, enable toward B. -/
def intPairs : Blk → List (Nat × Nat × Nat)
  | .sys => [(0x080, 0x084, 0x088), (0x10C, 0x110, 0x114)]
  | .cell _ => [(0x080, 0x084, 0x088), (0x040, 0x044, 0x048), (0x024, 0x028, 0x02C)]
  | .dma => [(0x080, 0x084, 0x088), (0x040, 0x044, 0x048), (0x050, 0x054, 0x058)]
  | _ => [(0x080, 0x084, 0x088), (0x040, 0x044, 0x048)]

/-- A block's request toward a host's pin (R402). -/
def blkRequest (s : State) (h : HostId) (b : Blk) : Bool :=
  (intPairs b).any fun t =>
    let en := match h with | .a => t.2.1 | .b => t.2.2
    s.reg (b.base + t.1) &&& s.reg (b.base + en) != 0

/-- The blocks of Table 1.11 with one bit each in SYS.PEND (R403), APT and cells apart. -/
def pendBlks : List Blk :=
  [.sys, .img, .hp, .bmx, .dma, .chk, .twc, .flc, .mac 0, .mac 1, .mac 2, .mac 3, .ste, .ptu, .rsu, .mxe, .ldg,
   .pwr, .lsp, .pair, .memc, .dly]

/-- Ports requesting toward a host, as bits. -/
def pendApt (s : State) (h : HostId) : Nat := ((upto 16).map fun n => b2n (blkRequest s h (.apt n)) * 2 ^ n).sum
/-- Cells 32i to 32i+31 requesting toward a host, as bits. -/
def pendCells (s : State) (h : HostId) (i : Nat) : Nat :=
  ((upto 32).map fun k => if 32 * i + k < 72 then b2n (blkRequest s h (.cell (32 * i + k))) * 2 ^ k else 0).sum
/-- SYS.PEND_A or SYS.PEND_B (R403). -/
def pendWord (s : State) (h : HostId) : Nat :=
  (pendBlks.map fun b => b2n (blkRequest s h b) * 2 ^ b.index).sum
    + b2n (pendApt s h != 0) * 2 ^ 17
    + b2n (pendCells s h 0 + pendCells s h 1 + pendCells s h 2 != 0) * 2 ^ 23

/-- The pin of a host. -/
def State.pin (s : State) : HostId → IntPin
  | .a => s.sys.intA
  | .b => s.sys.intB
/-- The pin of a host changes. -/
def State.setPin (s : State) (h : HostId) (p : IntPin) : State :=
  s.updSys fun y => match h with
    | .a => { y with intA := p }
    | .b => { y with intB := p }

/-- M of R404: ceil(MIN_US * 64 * FS / 10^6) ticks. -/
def coalTicks (s : State) (h : HostId) : Nat := s.usTicks (s.fld (0x40000230 + 4 * h.idx) 0 16)

/-- The pin in this tick (R404): released while nothing is pending; asserted in the first tick at least M ticks after its
previous assertion began; a request that has to wait counts once. -/
def settlePin (h : HostId) (s : State) : State :=
  let p := s.pin h
  if pendWord s h = 0 then s.setPin h { p with asserted := false, waiting := false }
  else if p.asserted then s
  else
    let free := match p.last with
      | none => true
      | some t => decide (t + coalTicks s h ≤ s.sys.tick)
    if free then s.setPin h { p with asserted := true, last := some s.sys.tick, waiting := false }
    else if p.waiting then s
    else s.setPin h { p with waiting := true, coalCnt := (p.coalCnt + 1) % 65536 }

/-- Both pins in this tick. -/
def settlePins (s : State) : State := settlePin .b (settlePin .a s)

end Sys2Proof.Machine
end

