-- ==== Sys2Proof/Machine/CellRun.lean ====
section
/-! DEFINITION. One block of a cell's schedule: the address generators, the memory with its check bits, and the run of the
program from its first instruction to its drain, cycle by cycle (R123 to R143, R152 to R162). -/
namespace Sys2Proof.Machine
open Sys2Proof

/-- Address generator g of a cell. -/
def Cell.ag (c : Cell) (g : Nat) : AddrGen := Tab.get (fun _ => {}) c.ags g
/-- Address generator g takes a value. -/
def Cell.setAg (c : Cell) (g : Nat) (x : AddrGen) : Cell := { c with ags := Tab.set (fun _ => {}) c.ags g x }
/-- Accumulator a of a cell. -/
def Cell.acc (c : Cell) (a : Nat) : Acc56 := Tab.get (fun _ => {}) c.accs a
/-- Accumulator a takes a value. -/
def Cell.setAcc (c : Cell) (a : Nat) (x : Acc56) : Cell := { c with accs := Tab.set (fun _ => {}) c.accs a x }
/-- A data word. -/
def Cell.word (c : Cell) (w : Nat) : Nat := Tab.get (fun _ => 0) c.data (w % 16384)
/-- A data word is written whole, with valid check bits (R123, R127). -/
def Cell.setWord (c : Cell) (w v : Nat) : Cell :=
  { c with data := Tab.set (fun _ => 0) c.data (w % 16384) (v % 2 ^ 40), dataEcc := Tab.set (fun _ => .good) c.dataEcc (w % 16384) .good }
/-- A program word. -/
def Cell.ins (c : Cell) (i : Nat) : Nat := Tab.get (fun _ => 0) c.prog (i % 4096)
/-- A program word is written whole. -/
def Cell.setIns (c : Cell) (i v : Nat) : Cell :=
  { c with prog := Tab.set (fun _ => 0) c.prog (i % 4096) (v % 2 ^ 64), progEcc := Tab.set (fun _ => .good) c.progEcc (i % 4096) .good }
/-- The check-bit state of a data word and of a program word. -/
def Cell.dataState (c : Cell) (w : Nat) : Ecc := Tab.get (fun _ => .good) c.dataEcc (w % 16384)
def Cell.progState (c : Cell) (i : Nat) : Ecc := Tab.get (fun _ => .good) c.progEcc (i % 4096)

/-- Pointer j of a generator. -/
def AddrGen.ptr (x : AddrGen) (j : Nat) : Nat := Tab.get (fun _ => 0) x.p j
/-- The buffer length in words. -/
def AddrGen.length (x : AddrGen) : Nat := x.len + 1
/-- mod(a, n) of R138. -/
def modN (a : Int) (n : Nat) : Nat := (a % (n : Int)).toNat
/-- Pointer j takes mod(v, LEN). -/
def AddrGen.setPtr (x : AddrGen) (j : Nat) (v : Int) : AddrGen := { x with p := Tab.set (fun _ => 0) x.p j (modN v x.length) }
/-- The address of R138 for pointer j and offset o. -/
def AddrGen.ea (x : AddrGen) (j : Nat) (o : Int) : Nat := modN ((x.base : Int) + (modN ((x.ptr j : Int) + o) x.length : Int)) 16384

/-- The takeover of one generator's pending writes, in the order of R139; and whether its LEN changed. -/
def AddrGen.takeOver (x : AddrGen) : AddrGen × Bool :=
  let len := x.pendLen.getD x.len
  let y : AddrGen := { x with base := x.pendBase.getD x.base, len := len, step := x.pendStep.getD x.step }
  let y := (upto 4).foldl (fun y j => y.setPtr j (y.ptr j)) y
  let y := (upto 4).foldl (fun y j => match Tab.get (fun _ => none) y.pendP j with
    | none => y
    | some v => y.setPtr j (v : Int)) y
  ({ y with pendBase := none, pendLen := none, pendStep := none, pendP := [] }, decide (len ≠ x.len))

/-- The takeover of every generator; the bits of CBUF_RESIZED it sets. -/
def Cell.takeOverAgs (c : Cell) : Cell × Nat :=
  (upto 4).foldl (fun r g =>
    let t := (r.1.ag g).takeOver
    (r.1.setAg g t.1, r.2 + (if t.2 then 2 ^ g else 0))) (c, 0)

/-- The run of a block: the cell, the cycle and index, the loops, the flags, the writes and flags that wait for their
cycle, and what the run found; the saturations by the frame of the block they fall in, which the sample rate tells (R147). -/
structure Run where
  c : Cell
  cyc : Nat := 2
  idx : Nat := 0
  loops : List LoopSt := []
  flags : Tab Bool := []
  writes : List (Nat × Nat × Nat) := []
  flagW : List (Nat × Nat × Nat × Bool) := []
  fs : Nat := 96000
  accSat : List Nat := []
  wbSat : List Nat := []
  memUe : Bool := false
  progUe : Bool := false
  ce : Nat := 0
deriving DecidableEq, Repr

/-- A frame of the block is noted, once, where a condition holds. -/
def noteFrame (l : List Nat) (f : Nat) (b : Bool) : List Nat := if b && !l.contains f then l ++ [f] else l
/-- The frame of the block in which the instruction issued now accumulates, or rounds, in its cycle n + 3 (Table 5.3, R132). -/
def Run.frameNow (r : Run) : Nat := (r.cyc + 3) * r.fs / 800000000
/-- A saturation of an accumulator in this instruction (ACC_SAT, R135). -/
def Run.noteAcc (r : Run) (b : Bool) : Run := { r with accSat := noteFrame r.accSat r.frameNow b }
/-- A saturation of a writeback (WB_SAT, R136). -/
def Run.noteWb (r : Run) (b : Bool) : Run := { r with wbSat := noteFrame r.wbSat r.frameNow b }

/-- The combination of a comparison's result with a flag (Table 6.6, COMB). -/
def combine : Nat → Bool → Bool → Bool
  | 0, _, v => v
  | 1, f, v => f && v
  | 2, f, v => f || v
  | _, f, v => f != v

/-- The flag P of a run. -/
def Run.flag (r : Run) (p : Nat) : Bool := Tab.get (fun _ => false) r.flags p

/-- The memory writes and flag writes that have reached their cycle take effect (R131, R132, R158). -/
def Run.settle (r : Run) (upTo : Nat) : Run :=
  let c := (r.writes.filter (fun w => decide (w.1 ≤ upTo))).foldl (fun c w => c.setWord w.2.1 w.2.2) r.c
  let fl := (r.flagW.filter (fun w => decide (w.1 ≤ upTo))).foldl
    (fun fl w => Tab.set (fun _ => false) fl w.2.1 (combine w.2.2.1 (Tab.get (fun _ => false) fl w.2.1) w.2.2.2)) r.flags
  { r with c := c, flags := fl, writes := r.writes.filter (fun w => decide (upTo < w.1)), flagW := r.flagW.filter (fun w => decide (upTo < w.1)) }

/-- The effective address of a specifier, with the pointer update (R138, R153). -/
def Run.address (r : Run) : AddrSpec → Run × Nat
  | .none => (r, 0)
  | .direct a => (r, a)
  | .offset g j o => (r, (r.c.ag g).ea j o)
  | .post g j m =>
    let x := r.c.ag g
    let ea := x.ea j 0
    let m := m.getD (sInt 14 x.step)
    ({ r with c := r.c.setAg g (x.setPtr j ((x.ptr j : Int) + m)) }, ea)

/-- A read of a data word in a slot (R127): corrected, or 0 where it is uncorrectable. -/
def Run.read (r : Run) (w : Nat) : Run × Nat :=
  match r.c.dataState w with
  | .good => (r, r.c.word w)
  | .ce => ({ r with ce := r.ce + 1 }, r.c.word w)
  | .ue => ({ r with memUe := true }, 0)

/-- An accumulator takes an aligned product sum, set or added (R95, R135). -/
def Run.accumulate (r : Run) (clr scale : Bool) (a : Nat) (p : Bool → Int) : Run :=
  let ext := if clr then scale else (r.c.acc a).ext
  let s := addA56 (if clr then 0 else (r.c.acc a).val) (p ext)
  { r with c := r.c.setAcc a ⟨s.1, ext⟩ }.noteAcc s.2

/-- A MAC (R133, R134, R154): x and y are the sample and coefficient words. -/
def Run.mac (r : Run) (pr : MacPair) (clr scale : Bool) (k : Nat) (g20 neg : Bool) (a b : Nat) (csel : Bool) (x y : Nat) : Run :=
  let sg : Int := if neg then -1 else 1
  let pq : Pairing := if g20 then .g20s20 else .s20c20
  let al (u v : Int) (ext : Bool) : Int := alignProduct pq ext k (sg * (u * v))
  let x0 := lo20 x
  let x1 := hi20 x
  let c0 := lo20 y
  let c1 := hi20 y
  match pr with
  | .quad =>
    let r := r.accumulate clr scale 0 (al x0 c0)
    let r := r.accumulate clr scale 1 (al x0 c1)
    let r := r.accumulate clr scale 2 (al x1 c0)
    r.accumulate clr scale 3 (al x1 c1)
  | .dot2 =>
    let r := r.accumulate clr scale a (fun e => al x0 c0 e + al x1 c1 e)
    r.accumulate clr scale b (fun e => al x0 c1 e + al x1 c0 e)
  | .par2 =>
    let r := r.accumulate clr scale a (al x0 c0)
    r.accumulate clr scale b (al x1 c1)
  | .x40c => r.accumulate clr scale a (fun e => alignProduct .x40c20 e k (sg * (x40 x * (if csel then c1 else c0))))
  | .x40x => r.accumulate clr scale a (fun e => alignProduct .x40x40 e k (sg * (x40 x * x40 y)))

/-- One rounded value of a writeback to memory, drawing from the cell's LFSR pair (R136). -/
def Run.wbMem (r : Run) (t : Target) (rnd a : Nat) : Run × Int :=
  let v := r.c.acc a
  let o := writeback t v.ext (RoundMode.ofCode rnd) v.val 0 r.c.lfsrA r.c.lfsrB
  ({ r with c := { r.c with lfsrA := o.a, lfsrB := o.b } }.noteWb o.sat, o.value)

/-- A writeback to a return channel slot, with its error-feedback state (R98, R136, R140). -/
def Run.wbRet (r : Run) (rnd a ch slot : Nat) : Run :=
  let v := r.c.acc a
  let o := writeback .s20 v.ext (RoundMode.ofCode rnd) v.val (Tab.get (fun _ => 0) r.c.efb ch) r.c.lfsrA r.c.lfsrB
  { r with
    c := { r.c with lfsrA := o.a, lfsrB := o.b, efb := Tab.set (fun _ => 0) r.c.efb ch o.e,
                    retBack := Tab.set (fun _ => 0) r.c.retBack (slot * 64 + ch) o.value } }.noteWb o.sat

/-- sat56 of R157, and whether it changed the value. -/
def sat56 (v : Int) : Int × Bool := addA56 v 0

/-- The accumulator operations of R157. -/
def accOp (aop sh : Nat) (tsc : Bool) (d s : Acc56) : Acc56 × Bool :=
  let keep (v : Int × Bool) : Acc56 × Bool := (⟨v.1, s.ext⟩, v.2)
  let own (v : Int × Bool) : Acc56 × Bool := (⟨v.1, d.ext⟩, v.2)
  match aop with
  | 0 => (s, false)
  | 1 => keep (sat56 (-s.val))
  | 2 => keep (sat56 (if s.val < 0 then -s.val else s.val))
  | 3 => keep (sat56 (s.val * 2 ^ sh))
  | 4 => keep (floorDivI s.val (2 ^ sh), false)
  | 5 => own (sat56 (d.val + s.val))
  | 6 => own (sat56 (d.val - s.val))
  | 7 => own (max d.val s.val, false)
  | 8 => own (min d.val s.val, false)
  | _ =>
    if tsc == s.ext then (⟨s.val, tsc⟩, false)
    else if tsc then
      let v := sat56 (s.val * 2 ^ 10)
      (⟨v.1, true⟩, v.2)
    else (⟨floorDivI s.val (2 ^ 10), false⟩, false)

/-- The value LDA gives an accumulator (R157). -/
def ldaValue (lfmt : Nat) (scale : Bool) (w : Nat) : Int :=
  match lfmt, scale with
  | 0, false => lo20 w * 2 ^ 19
  | 0, true => lo20 w * 2 ^ 29
  | 1, false => hi20 w * 2 ^ 19
  | 1, true => hi20 w * 2 ^ 29
  | _, false => floorDivI (x40 w) 2
  | _, true => x40 w * 2 ^ 9

/-- A comparison's condition (R158). -/
def condHolds (cond : Nat) (d : Int) : Bool :=
  match cond with
  | 0 => d == 0 | 1 => d != 0 | 2 => decide (d < 0) | 3 => decide (0 ≤ d) | 4 => decide (0 < d) | _ => decide (d ≤ 0)

/-- The iteration of the outermost active loop, from 0 (R154). -/
def Run.i0 (r : Run) : Nat := match r.loops.getLast? with
  | none => 0
  | some l => l.iter

/-- The effect of an enabled instruction issued in this cycle, loops and the program's end apart. -/
def Run.perform (r : Run) : CellIns → Run
  | .mac pr clr scale k g20 neg a b csel ssrc asa frel islot ipair asb =>
    let (r, x) :=
      if ssrc then
        let slot := if frel then (islot + r.i0) % r.c.blockN else islot
        let v (ch : Nat) : Nat := uInt 20 (Tab.get (fun _ => 0) r.c.inFront (slot * 64 + ch))
        (r, v (2 * ipair) + v (2 * ipair + 1) * 2 ^ 20)
      else
        let (r, ea) := r.address asa
        r.read ea
    let (r, eb) := r.address asb
    let (r, y) := r.read eb
    r.mac pr clr scale k g20 neg a b csel x y
  | .wb f rnd tfmt a b rch rslot frel asb =>
    match f with
    | .ret => r.wbRet rnd a rch (if frel then (rslot + r.i0) % r.c.blockN else rslot)
    | .x40 =>
      let (r, ea) := r.address asb
      let (r, v) := r.wbMem .x40 rnd a
      { r with writes := r.writes ++ [(r.cyc + 4, ea, uInt 40 v)] }
    | .pair =>
      let t : Target := if tfmt = 2 then .g20 else .s20
      let (r, ea) := r.address asb
      let (r, u) := r.wbMem t rnd a
      let (r, v) := r.wbMem t rnd b
      { r with writes := r.writes ++ [(r.cyc + 4, ea, uInt 20 u + uInt 20 v * 2 ^ 20)] }
  | .acc aop d s sh tsc =>
    let o := accOp aop sh tsc (r.c.acc d) (r.c.acc s)
    { r with c := r.c.setAcc d o.1 }.noteAcc o.2
  | .lda lfmt scale d asa =>
    let (r, ea) := r.address asa
    let (r, w) := r.read ea
    { r with c := r.c.setAcc d ⟨ldaValue lfmt scale w, scale⟩ }
  | .cmp pd cond zero a b comb =>
    let d := (r.c.acc a).val - (if zero then 0 else (r.c.acc b).val)
    { r with flagW := r.flagW ++ [(r.cyc + 4, pd, comb, condHolds cond d)] }
  | .ag g j mode srcj val =>
    let x := r.c.ag g
    let v : Int := match mode with
      | 0 => (x.ptr j : Int) + sInt 14 val
      | 1 => (val : Int)
      | _ => (x.ptr srcj : Int) + sInt 14 val
    { r with c := r.c.setAg g (x.setPtr j v) }
  | .nop _ | .loop _ _ | .fin | .reserved => r

/-- The program word at the current index, as the part fetches it (R127): 0 where it is uncorrectable. -/
def Run.fetch (r : Run) : Run × Nat :=
  match r.c.progState r.idx with
  | .good => (r, r.c.ins r.idx)
  | .ce => ({ r with ce := r.ce + 1 }, r.c.ins r.idx)
  | .ue => ({ r with progUe := true }, 0)

/-- The run to the program's end (R130, R162), within the cycles the block has; the answer says whether it drained. -/
def Run.go (limit : Nat) : Nat → Run → Run × Bool
  | 0, r => (r, false)
  | fuel + 1, r =>
    if limit ≤ r.cyc + 3 then (r.settle limit, false)
    else
      let r := r.settle r.cyc
      let (r, w) := r.fetch
      match decodeCell w with
      | .fin => (r.settle (r.cyc + 8), true)
      | .loop count body =>
        Run.go limit fuel { r with cyc := r.cyc + 1, idx := r.idx + 1, loops := ⟨r.idx + 1, r.idx + body, count - 1, 0⟩ :: r.loops }
      | ins =>
        let enabled := !insPen w || (r.flag (insPf w) != insPinv w)
        let r := if enabled then r.perform ins else r
        let nx := nextIndex r.idx r.loops
        Run.go limit fuel { r with cyc := r.cyc + issueCycles ins, idx := nx.1, loops := nx.2 }

/-- The cycles of a block of n frames (R130): n * 800 MHz / FS. -/
def blockCycles (n fs : Nat) : Nat := n * 800000000 / fs

/-- The state set of R142 as a new cell's state starts it: seeds of the LFSR pair, error feedback at 0 (R98, R99). -/
def Cell.seed (c : Cell) (l : Nat) : Cell := { c with efb := [], lfsrA := seedA l, lfsrB := seedB l }

end Sys2Proof.Machine
end

