-- ==== Sys2Proof/Machine/Image.lean ====
section
/-! DEFINITION. Configuration images as they lie in memory: record headers, CRC-32C, the record types, the structure checks
of READING, and the search for a record in the image store (R62 to R66, R70, R73, R75, R83, R513). -/
namespace Sys2Proof.Machine
open Sys2Proof

/-- One step of CRC-32C, reflected (R63). -/
def crcBit (c : Nat) : Nat := if c % 2 = 1 then Nat.xor (c / 2) 0x82F63B78 else c / 2
/-- n steps of CRC-32C. -/
def crcBits : Nat → Nat → Nat
  | 0, c => c
  | n + 1, c => crcBits n (crcBit c)
/-- The CRC register after a list of bytes. -/
def crcBytes : Nat → List Byte → Nat
  | c, [] => c
  | c, b :: t => crcBytes (crcBits 8 (Nat.xor c b.toNat)) t
/-- CRC-32C with its initial value and its final exclusive-or (R63). -/
def crc32c (l : List Byte) : Nat := Nat.xor (crcBytes 0xFFFFFFFF l) 0xFFFFFFFF

/-- A record of an image: its index, its offset in the image, and the fields of its header (Table 3.4). -/
structure ImgRec where
  idx : Nat
  off : Nat
  typ : Nat
  ver : Nat
  rsv : Nat
  len : Nat
  inst : Nat
  crc : Nat
deriving DecidableEq, Repr

/-- The record header at an address. -/
def recAt (s : State) (base idx off : Nat) : ImgRec :=
  let a := base + off
  ⟨idx, off, s.le a 2, (s.byte (a + 2)).toNat, (s.byte (a + 3)).toNat, s.le (a + 4) 4, s.le (a + 8) 4, s.le (a + 12) 4⟩

/-- The address of a record's payload. -/
def ImgRec.pay (r : ImgRec) (base : Nat) : Nat := base + r.off + 16
/-- The CRC of a record's header bytes 0-11 and payload. -/
def recCrc (s : State) (base : Nat) (r : ImgRec) : Nat := crc32c (s.bytes (base + r.off) 12 ++ s.bytes (r.pay base) r.len)
/-- The offset of the record after this one: records start at multiples of 4 (R62). -/
def ImgRec.next (r : ImgRec) : Nat := r.off + 16 + r.len

/-- The records of an image of a length, in order, up to the first whose length is not admissible. -/
def recordsFrom (s : State) (base total : Nat) : Nat → Nat → Nat → List ImgRec
  | 0, _, _ => []
  | fuel + 1, idx, off =>
    if total < off + 16 then []
    else
      let r := recAt s base idx off
      if r.len % 4 ≠ 0 ∨ r.len > 67108864 ∨ total < r.next then [r]
      else r :: recordsFrom s base total fuel (idx + 1) r.next

/-- Whether a record's LENGTH is admissible (Table 3.20, RECORD_LENGTH). -/
def recLenOk (total : Nat) (r : ImgRec) : Bool := r.len % 4 == 0 && decide (r.len ≤ 67108864) && decide (r.next ≤ total)

/-- The HEADER fields of an image (Table 3.5). -/
structure Header where
  magic : Nat
  format : Nat
  kind : Nat
  fs : Nat
  id : Nat
  baseId : Nat
  total : Nat
  count : Nat
  minStep : Nat
  dramMin : Nat
  regionKind : Nat
  regionSel : Nat
  rsv : Nat
deriving DecidableEq, Repr

/-- The HEADER of the image at an address. -/
def headerAt (s : State) (base : Nat) : Header :=
  let p := base + 16
  ⟨s.le p 4, s.le (p + 4) 2, (s.byte (p + 6)).toNat, (s.byte (p + 7)).toNat, s.le (p + 8) 8, s.le (p + 16) 8, s.le (p + 24) 4,
   s.le (p + 28) 4, (s.byte (p + 32)).toNat, (s.byte (p + 33)).toNat, s.le (p + 36) 4, s.le (p + 40) 8,
   s.le (p + 34) 2 + s.le (p + 52) 12⟩

/-- All the records of an image whose HEADER lies at base. -/
def imageRecords (s : State) (base : Nat) : List ImgRec :=
  let t := (headerAt s base).total
  recordsFrom s base t (t / 16 + 1) 0 0

/-- A row of Table 3.6: type, stage (0 none, 1 S0, 2 S1, 3 boot), how many INSTANCE values, required in a full image, the
partial regions that allow it. -/
structure RecType where
  typ : Nat
  stage : Nat
  insts : Nat
  required : Bool
  regions : List Nat
deriving DecidableEq, Repr

/-- Table 3.6. -/
def recTypes : List RecType :=
  [⟨0x01, 0, 1, true, [1, 2, 3, 4]⟩, ⟨0x02, 3, 1, true, []⟩, ⟨0x03, 1, 1, true, []⟩, ⟨0x10, 2, 1, true, []⟩,
   ⟨0x11, 2, 64, false, [1]⟩, ⟨0x12, 2, 64, false, [1]⟩, ⟨0x20, 2, 2, true, [2]⟩, ⟨0x21, 2, 1, true, []⟩] ++
  [⟨0x22, 2, 1, false, []⟩, ⟨0x23, 2, 1, false, []⟩, ⟨0x30, 1, 4, false, []⟩, ⟨0x31, 1, 1, false, []⟩, ⟨0x32, 1, 1, true, []⟩,
   ⟨0x33, 1, 1, true, []⟩, ⟨0x34, 1, 1, true, []⟩, ⟨0x40, 2, 32, false, [3]⟩] ++
  [⟨0x50, 2, 4, false, [4]⟩, ⟨0x51, 2, 4, false, [4]⟩, ⟨0x60, 1, 1, true, []⟩, ⟨0x61, 1, 1, false, []⟩, ⟨0x70, 1, 1, true, []⟩,
   ⟨0x80, 1, 1, true, [1, 2]⟩, ⟨0x81, 1, 1, true, [1, 2]⟩, ⟨0xFF, 0, 1, true, [1, 2, 3, 4]⟩]
/-- The row of a type. -/
def recType (t : Nat) : Option RecType := recTypes.find? (fun r => r.typ == t)

/-- The length of a CELL_STATE's runs, from its payload (R168). -/
def cellStateLen (s : State) (pay : Nat) : Nat → Nat → Nat
  | 0, off => off
  | n + 1, off => cellStateLen s pay n (off + 4 + 8 * s.le (pay + off + 2) 2)

/-- A payload's LENGTH agrees with the fixed size or the counts of its layout (R513). -/
def payLenOk (s : State) (base : Nat) (r : ImgRec) : Bool :=
  let p := r.pay base
  match r.typ with
  | 0x01 => r.len == 64
  | 0x02 => r.len % 8 == 0
  | 0x10 => r.len == 72
  | 0x11 => decide (32 ≤ r.len) && r.len == 32 + 8 * s.le p 2 + 12 * s.le (p + 10) 2
  | 0x12 => decide (100 ≤ r.len) && cellStateLen s p (min (s.le p 4) r.len) 4 + 96 == r.len
  | 0x03 => r.len == 16
  | 0x20 => r.len == 2228224
  | 0x21 => decide (4 ≤ r.len) && r.len == 4 + 8 * s.le p 4 + 65536
  | 0x22 => decide (4 ≤ r.len) && decide (4 + 16 * s.le p 4 ≤ r.len)
  | 0x23 => decide (4 ≤ r.len) && r.len == 4 + 24 * s.le p 4
  | 0x31 =>
    let n := s.le p 4
    decide (4 ≤ r.len) && decide (8 + 8 * n ≤ r.len) && r.len == 8 + 8 * n + 36 * s.le (p + 4 + 8 * n) 4
  | 0x32 => r.len == 32
  | 0x61 => r.len == 4 + 4 * s.le p 4
  | 0x70 => r.len == 4
  | 0x80 => r.len % 24 == 0
  | 0x81 => r.len % 16 == 0
  | 0xFF => r.len == 128
  | 0x30 | 0x33 | 0x34 | 0x40 | 0x50 | 0x51 | 0x60 => r.len % 8 == 0
  | _ => true

/-- The load error codes of Table 3.20. -/
inductive LoadErr where
  | badMagic | badFormat | recordCrc | recordLength | unknownType | order | keyHash | signature | stepping | dramSize
  | carafeOver | boundExceeded | resource | baseMismatch | region | notAdmitted | busy | aborted | snuffed | takeover
  | busError | tooLarge | latency | badCmd | noBase | fsChange | bootMismatch | journalFull | bootBad
deriving DecidableEq, Repr

/-- The code of an error in IMG.ERR (Table 3.20). -/
def LoadErr.code : LoadErr → Nat
  | .badMagic => 0x01 | .badFormat => 0x02 | .recordCrc => 0x03 | .recordLength => 0x04 | .unknownType => 0x05 | .order => 0x06
  | .keyHash => 0x07 | .signature => 0x08 | .stepping => 0x09 | .dramSize => 0x0A | .carafeOver => 0x0B | .boundExceeded => 0x0C
  | .resource => 0x0D | .baseMismatch => 0x0E | .region => 0x0F | .notAdmitted => 0x10 | .busy => 0x11 | .aborted => 0x12
  | .snuffed => 0x13 | .takeover => 0x14 | .busError => 0x15 | .tooLarge => 0x16 | .latency => 0x17 | .badCmd => 0x18
  | .noBase => 0x19 | .fsChange => 0x1A | .bootMismatch => 0x1B | .journalFull => 0x1C | .bootBad => 0x1D

/-- A failed check: its code, the record index and the byte offset (R75). -/
structure Failure where
  err : LoadErr
  record : Nat
  pos : Nat
deriving DecidableEq, Repr

/-- The checks of one record in READING, in the order of Table 3.24. -/
def recCheck (s : State) (base : Nat) (total : Nat) (r : ImgRec) : Option Failure :=
  let f (e : LoadErr) : Option Failure := some ⟨e, r.idx, r.off⟩
  if !recLenOk total r then f .recordLength
  else if recCrc s base r ≠ r.crc then f .recordCrc
  else if 0x8000 ≤ r.typ then none
  else match recType r.typ with
    | none => f .unknownType
    | some t =>
      if r.ver ≠ 1 ∨ r.rsv ≠ 0 then f .badFormat
      else if t.insts ≤ r.inst then f .order
      else if !payLenOk s base r then f .recordLength
      else none

/-- The HEADER checks of READING (R64, R513). -/
def headerCheck (s : State) (base : Nat) (partialImg : Bool) : Option Failure :=
  let h := headerAt s base
  let f (e : LoadErr) : Option Failure := some ⟨e, 0, 0⟩
  if h.magic ≠ 0x494E4245 then f .badMagic
  else if s.le (base + 4) 4 ≠ 64 then f .recordLength
  else if h.format ≠ 1 ∨ h.kind > 1 ∨ h.fs > 1 ∨ h.id = 0 ∨ h.dramMin < 2 ∨ h.dramMin > 16 ∨ h.rsv ≠ 0
      ∨ (h.kind = 0 ∧ (h.baseId ≠ 0 ∨ h.regionKind ≠ 0 ∨ h.regionSel ≠ 0)) then f .badFormat
  else if (h.kind = 1) ≠ (partialImg = true) then f .badFormat
  else none

/-- The order checks of READING: HEADER first, BOOT second, SIGNATURE last, required types present, no type and instance
twice, and RECORD_COUNT as found (Table 3.10). -/
def orderCheck (rs : List ImgRec) (h : Header) : Option Failure :=
  let full := h.kind == 0
  let misplaced := rs.find? fun r =>
    (r.typ == 1 && r.idx != 0) || (r.idx == 0 && r.typ != 1) ||
    (r.typ == 2 && (r.idx != 1 || !full)) || (full && r.idx == 1 && r.typ != 2) ||
    (r.typ == 0xFF && r.idx + 1 != rs.length) ||
    (decide (r.typ < 0x8000) && rs.any fun q => decide (q.idx < r.idx) && q.typ == r.typ && q.inst == r.inst)
  match misplaced with
  | some r => some ⟨.order, r.idx, r.off⟩
  | none =>
    let missing := recTypes.any fun t =>
      t.required && (full || t.typ == 1 || t.typ == 0xFF) &&
      (if t.typ == 0x20 then !(rs.any fun r => r.typ == 0x20 && r.inst == 0) || !(rs.any fun r => r.typ == 0x20 && r.inst == 1)
       else !(rs.any fun r => r.typ == t.typ))
    if missing || h.count != rs.length || !(rs.getLast?.any fun r => r.next == h.total) then some ⟨.order, rs.length, h.total⟩
    else none

/-- The two slots of the image store (Table 3.7), and the journal. -/
def slotBase (k : Nat) : Nat := if k = 0 then 0x100000000 else 0x106000000
def journalBase : Nat := 0x10C000000
def journalSize : Nat := 0x4000000
def slotSize : Nat := 0x6000000

/-- The end of the journal's used part. -/
def journalTail (s : State) : Nat := match s.img.journal.getLast? with
  | none => journalBase
  | some e => e.1 + ceilDiv e.2 4 * 4

/-- The structure checks of READING of the image at base, in stage order (Table 3.10); `rd` tells whether a range reads without an
error, and a record that does not is a BUS_ERROR. -/
def readingCheck (s : State) (rd : Nat → Nat → Bool) (base : Nat) (partialImg : Bool) : Option Failure :=
  if !rd base 80 then some ⟨.busError, 0, 0⟩
  else match headerCheck s base partialImg with
  | some f => some f
  | none =>
    let h := headerAt s base
    if slotSize < h.total then some ⟨.tooLarge, 0, 0⟩
    else if partialImg && decide (journalBase + journalSize < journalTail s + h.total) then some ⟨.journalFull, 0, 0⟩
    else
      let rs := imageRecords s base
      let one (r : ImgRec) : Option Failure :=
        if !rd (base + r.off) 16 || (recLenOk h.total r && !rd (r.pay base) r.len) then some ⟨.busError, r.idx, r.off⟩ else recCheck s base h.total r
      match rs.findSome? one with
      | some f => some f
      | none => orderCheck rs h

/-- A record of a type and instance in the image at base. -/
def findRec (s : State) (base typ inst : Nat) : Option ImgRec :=
  (imageRecords s base).find? fun r => r.typ == typ && r.inst == inst

/-- The images that configure the part, in the order they apply: the active slot, then the journal (R73). -/
def storeImages (s : State) : List Nat := slotBase s.img.slot :: s.img.journal.map (·.1)

/-- The address and length of the payload of the last record of a type and instance in the image store. -/
def storeRec (s : State) (typ inst : Nat) : Option (Nat × Nat) :=
  (storeImages s).foldl (fun acc b => match findRec s b typ inst with
    | some r => some (r.pay b, r.len)
    | none => acc) none

/-- The {offset, value} pairs of a payload (MAC_SETUP and the other pair records). -/
def pairsAt (s : State) (a : Nat) : Nat → List (Nat × Word)
  | 0 => []
  | n + 1 => (s.le a 4, wd (s.le (a + 4) 4)) :: pairsAt s (a + 8) n

end Sys2Proof.Machine
end

