-- ==== Sys2Proof/Machine/Cell.lean ====
section
/-! DEFINITION. The cell fabric: mapping, configuration, blocks, memory windows, control registers, hard faults and the two
forms of migration (R115 to R150, R166 to R174). -/
namespace Sys2Proof.Machine
open Sys2Proof

/-! ### Mapping and spares -/

/-- The physical cell that carries logical cell l. -/
def physOf (s : State) (l : Nat) : Option Nat := Tab.get (fun _ => none) s.fabric.map l
/-- Logical cell l is carried by a cell, or out of service. -/
def setMap (l : Nat) (p : Option Nat) (s : State) : State :=
  { s with fabric := { s.fabric with map := Tab.set (fun _ => none) s.fabric.map l p } }
/-- The first cell in spare order whose role is SPARE or TEST (R120). -/
def takeSpare (s : State) : Option Nat :=
  s.fabric.spareOrder.find? fun p => (s.cell p).role == .spare || (s.cell p).role == .test
/-- The order of preference of R118: the SPARE_ORDER entries, then ascending physical number. -/
def fullSpareOrder (order : List Nat) : List Nat := order ++ (upto 72).filter fun p => !order.contains p

/-- MIG_EVT bit i of a cell is set (R174). -/
def migEvt (p i : Nat) (s : State) : State := s.orReg ((Blk.cell p).base + 0x24) (bm i)

/-! ### The schedule stops, a fence -/

/-- A generator takeover on a cell, with its CBUF_RESIZED events (R139). -/
def takeOverCell (p : Nat) (s : State) : State :=
  let r := (s.cell p).takeOverAgs
  (s.setCell p r.1).orReg ((Blk.cell p).base + 0x40) (wd r.2)
/-- A schedule stops: pending generator writes apply, and the return banks are 0 (R139, R141). -/
def stopSched (p : Nat) (s : State) : State :=
  if (s.cell p).sched then
    let s := takeOverCell p s
    s.updCell p fun c => { c with sched := false, ranLast := false, overrunDue := false, retFront := [], retBack := [] }
  else s
/-- A cell is FENCED. -/
def fenceCell (p : Nat) (s : State) : State :=
  let s := stopSched p s
  let s := s.updCell p fun c => { c with role := .fenced, halt := false, logical := none }
  { s with fabric := { s.fabric with usedSpares := s.fabric.usedSpares.filter (fun q => q != p), tested := s.fabric.tested.filter (fun q => q != p) } }

/-! ### Configuration of a cell (R166, R168) -/

/-- The program words of a CELL_PROGRAM payload at a. -/
def progTab (s : State) (a : Nat) (n : Nat) : Tab Nat :=
  (upto n).foldl (fun t i => Tab.set (fun _ => 0) t i (s.le (a + 32 + 8 * i) 8)) []
/-- A cell with the program of the CELL_PROGRAM payload at a. Instruction i goes to word i; the spec does not say what the words beyond
N_INSTR hold then: here they become 0 (DESIGN CHOICE, notes/assumptions/5). -/
def loadProgramAt (s : State) (a : Nat) (c : Cell) : Cell :=
  { c with prog := progTab s a (s.le a 2), progEcc := [], nInstr := s.le a 2, blockN := (s.byte (a + 2)).toNat, latency := s.le (a + 8) 2 }
/-- A cell with its logical cell's program from the image store (R169). -/
def loadProgram (s : State) (l : Nat) (c : Cell) : Cell :=
  match storeRec s 0x11 l with
  | none => c
  | some (a, _) => loadProgramAt s a c

/-- The data words of a CELL_STATE payload's runs (R168). -/
def stateRuns (s : State) (a : Nat) : Nat → Nat → Tab Nat → Tab Nat × Nat
  | 0, off, t => (t, off)
  | n + 1, off, t =>
    let st := s.le (a + off) 2
    let cnt := s.le (a + off + 2) 2
    let t := (upto cnt).foldl (fun t k => Tab.set (fun _ => 0) t ((st + k) % 16384) (s.le (a + off + 4 + 8 * k) 8 % 2 ^ 40)) t
    stateRuns s a n (off + 4 + 8 * cnt) t
/-- A cell with the state of the CELL_STATE payload at a (R168). -/
def loadStateAt (s : State) (a : Nat) (c : Cell) : Cell :=
  let r := stateRuns s a (s.le a 4) 4 []
  let g := a + r.2
  let ag (k : Nat) : AddrGen :=
    let b := g + 16 * k
    (upto 4).foldl (fun x j => { x with p := Tab.set (fun _ => 0) x.p j (s.le (b + 6 + 2 * j) 2) })
      { base := s.le b 2, len := s.le (b + 2) 2 % 16384, step := s.le (b + 4) 2 % 16384 }
  let ac (k : Nat) : Acc56 :=
    let b := g + 64 + 8 * k
    ⟨sInt 56 (s.le b 7), nbit (s.le b 8) 63⟩
  let c := { c with data := r.1, dataEcc := [], ags := [], accs := [] }
  let c := (upto 4).foldl (fun c k => c.setAg k (ag k)) c
  (upto 4).foldl (fun c k => c.setAcc k (ac k)) c
/-- A cell with its logical cell's CELL_STATE record, or memory and accumulators at 0 and generators at reset (R168). -/
def loadState (s : State) (l : Nat) (c : Cell) : Cell :=
  match storeRec s 0x12 l with
  | none => { c with data := [], dataEcc := [], ags := [], accs := [] }
  | some (a, _) => loadStateAt s a c

/-- One checkpoint item applied to the cell that carries logical cell l (R172, R385). -/
def applyCellItem (l : Nat) (c : Cell) (it : CkItem) : Cell :=
  let v (i : Nat) : Int := it.vals.getD i 0
  let n (i : Nat) : Nat := (v i).toNat
  match it.key with
  | .cellWord k w => if k = l then c.setWord w (n 0) else c
  | .cellAg k g =>
    if k = l then
      c.setAg g ((upto 4).foldl (fun x j => { x with p := Tab.set (fun _ => 0) x.p j (n (3 + j)) }) { base := n 0, len := n 1, step := n 2 })
    else c
  | .cellAcc k a => if k = l then c.setAcc a ⟨v 0, v 1 != 0⟩ else c
  | .cellEfb k r => if k = l then { c with efb := Tab.set (fun _ => 0) c.efb r (n 0) } else c
  | .cellLfsr k => if k = l then { c with lfsrA := n 0, lfsrB := n 1 } else c
  | .cellRet k r => if k = l then { c with retFront := Tab.set (fun _ => 0) c.retFront r (v 0), retBack := Tab.set (fun _ => 0) c.retBack r (v 0) } else c
  | _ => c
/-- Whether a checkpoint holds anything of logical cell l. -/
def ckptHasCell (items : List CkItem) (l : Nat) : Bool :=
  items.any fun it => match it.key with
    | .cellWord k _ | .cellAg k _ | .cellAcc k _ | .cellEfb k _ | .cellLfsr k | .cellRet k _ => k == l
    | _ => false
/-- A cell with the logical cell's entry in the latest checkpoint, or its CELL_STATE record where none exists (R172). -/
def loadLatest (s : State) (l : Nat) (c : Cell) : Cell :=
  let c := (loadState s l c).seed l
  if s.ckpt.valid && ckptHasCell s.ckpt.base l then
    s.ckpt.base.foldl (applyCellItem l) { c with data := [], dataEcc := [], accs := [], ags := [], efb := [], retFront := [], retBack := [] }
  else c

/-- The MIG_STAT of a cell changes. -/
def updMig (p : Nat) (f : MigStat → MigStat) (s : State) : State := s.updCell p fun c => { c with mig := f c.mig }

/-- A spare in use is noted, for DEG_SPARE. -/
def noteSpare (q : Nat) (s : State) : State :=
  { s with fabric := { s.fabric with usedSpares := if s.fabric.usedSpares.contains q then s.fabric.usedSpares else s.fabric.usedSpares ++ [q] } }

/-! ### Placement outside a migration (R121) -/

/-- CELL_MAP of the active image: PHYS[l] and SPARE_ORDER. -/
def cellMapAt (s : State) (a l : Nat) : Option Nat := let v := (s.byte (a + l)).toNat; if v ≤ 71 then some v else none
/-- The logical cell has a program in the image store. -/
def hasProgram (s : State) (l : Nat) : Bool := (storeRec s 0x11 l).isSome
/-- A logical cell whose physical cell is FENCED, or that lost its cell, is placed on a spare; with none it is out of service, and its
former cell records NO_SPARE (R120, R121). -/
def placeCell (s : State) (l : Nat) : State :=
  match storeRec s 0x10 0 with
  | none => s
  | some (a, _) =>
    let old := physOf s l
    let bad := match old with
      | some p => (s.cell p).role == .fenced
      | none => true
    if (cellMapAt s a l).isSome && bad then
      match takeSpare s with
      | some q => noteSpare q (setMap l (some q) (s.updCell q fun c => { c with role := .active, logical := some l, mig := {} }))
      | none =>
        let s := setMap l none s
        match old with
        | some p => updMig p (fun m => { m with result := .noSpare }) s
        | none => s
    else s
/-- A logical cell in service takes its program and its state. -/
def configCell (s : State) (l : Nat) : State :=
  match physOf s l with
  | none => s
  | some p =>
    if hasProgram s l then
      s.updCell p fun c => { (((loadState s l (loadProgram s l c)).seed l)) with
        role := .active, logical := some l, configured := true, halt := false, sched := false, ranLast := false,
        inFront := [], inBack := [], retFront := [], retBack := [], mig := {} }
    else s.updCell p fun c => { c with role := .idle, logical := some l, configured := false }
/-- At a RUN set with the blocks configured, the logical cells whose cell failed while RUN was 0 are placed and configured (R121, R172). -/
def placeLost (s : State) : State :=
  (upto 64).foldl (fun s l =>
    let lost : Bool := match physOf s l with
      | some p => (s.cell p).role == .fenced
      | none => false
    if lost then configCell (placeCell s l) l else s) s

/-! ### Migration (R169 to R174) -/

/-- The CELLS region of a partial load that is in progress, from its admission to its end (R173). -/
def partialCells (s : State) : Nat :=
  match s.img.partialJob, s.img.job with
  | some j, _ => if j.kind = 1 then j.sel else 0
  | none, some j => if j.partialImg && !j.verify && (headerAt s j.src).regionKind == 1 then (headerAt s j.src).regionSel else 0
  | none, none => 0
/-- A cell's logical cell is under a partial load (R173). -/
def underPartial (s : State) (p : Nat) : Bool := (s.cell p).logical.any fun l => nbit (partialCells s) l
/-- The refusals a HALT set and a RETIRE share (R150). -/
def testRefused (s : State) (p : Nat) : Bool := s.sys.alarm || !s.sys.run || (s.cell p).role != .active

/-- A proactive migration starts: the spare becomes SHADOW and both cells read LOADING (Table 6.12); RESULT keeps the last result. A request
that finds no spare when its turn comes ends with NO_SPARE and ENDED, which Table 6.17 describes for a restorative migration only: the
spec gives no outcome for it (DESIGN CHOICE, notes/assumptions/36). -/
def startProactive (p : Nat) (ce : Bool) (s : State) : State :=
  match takeSpare s with
  | none => migEvt p 1 (updMig p (fun m => { m with phase := .none, result := .noSpare }) s)
  | some q =>
    let s := s.updCell q fun c => { c with role := .shadow, logical := (s.cell p).logical, configured := false, sched := false }
    let s := updMig p (fun m => { m with phase := .loading, restorative := false, partner := some q, cmp := 0 }) s
    let s := updMig q (fun m => { m with phase := .loading, restorative := false, partner := some p, cmp := 0 }) s
    { s with fabric := { s.fabric with mig := some ⟨p, q, .loading, ce, 0⟩ } }

/-- A restorative migration onto or away from a cell has not completed. -/
def restoring (s : State) (p : Nat) : Bool := (s.cell p).mig.phase == .restoring || (s.cell p).mig.phase == .rampIn

/-- The queued requests in their order, until one runs: a request of a cell that is no longer ACTIVE is dropped; one whose logical cell is
under a partial load or is being restored stays QUEUED, and later ones go past it (R170, R173). -/
def dequeueList : List (Nat × Bool) → State → List (Nat × Bool) × State
  | [], s => ([], s)
  | e :: t, s =>
    if s.fabric.mig.isSome then (e :: t, s)
    else if !s.sys.run || (s.cell e.1).role != .active then
      dequeueList t (updMig e.1 (fun m => { m with phase := if m.phase = .queued then .none else m.phase }) s)
    else if underPartial s e.1 || restoring s e.1 then
      let r := dequeueList t s
      (e :: r.1, r.2)
    else dequeueList t (startProactive e.1 e.2 s)
/-- The next request starts when no proactive migration runs (R170). -/
def dequeueMig (s : State) : State :=
  let r := dequeueList s.fabric.queue s
  { r.2 with fabric := { r.2.fabric with queue := r.1 } }

/-- A proactive migration is requested (R170): it waits as QUEUED, and starts when its turn comes; each cell has at most one request. -/
def requestMig (p : Nat) (ce : Bool) (s : State) : State :=
  if s.fabric.mig.any (fun m => m.src == p) || s.fabric.queue.any (fun e => e.1 == p) then s
  else
    let s := if restoring s p then s else updMig p (fun m => { m with phase := .queued, restorative := false, partner := none }) s
    dequeueMig { s with fabric := { s.fabric with queue := s.fabric.queue ++ [(p, ce)] } }

/-- CE_HIGH of a cell requests a proactive migration, where REPAIR_CFG allows it (R147, R393); under a partial load it waits (R173). -/
def ceMigrate (s : State) (p : Nat) : State :=
  if s.rbit 0x4016000C 0 && !testRefused s p then requestMig p true s else s

/-- The running proactive migration ends without completing, and its spare takes a role; the next request starts. -/
def endMig (r : MigResult) (spareRole : Role) (s : State) : State :=
  match s.fabric.mig with
  | none => s
  | some m =>
    let s := { s with fabric := { s.fabric with mig := none } }
    let s := updMig m.src (fun x => { x with phase := .none, result := r }) s
    let s := updMig m.spare (fun x => { x with phase := .none, result := r }) s
    let s := stopSched m.spare s
    let s := s.updCell m.spare fun c => { c with role := spareRole, logical := none, configured := false }
    migEvt m.src 1 s

/-- Logical cell l is restored on cell q, which takes role r, after its former cell src failed (R172, steps 2 and 3). -/
def restoreOn (l src q : Nat) (r : Role) (s : State) : State :=
  let s := s.updCell q fun c =>
    { c with role := r, logical := some l, configured := false, sched := false, halt := false,
             mig := { c.mig with phase := .restoring, restorative := true, partner := some src } }
  let s := updMig src (fun m => { m with phase := .restoring, restorative := true, partner := some q }) s
  noteSpare q (setMap l (some q) s)

/-- A restorative migration of logical cell l, carried in role r, starts (R120, R172); with RUN clear none starts, and the cell is placed at
the next RUN set (R172). -/
def startRestore (l src : Nat) (r : Role) (s : State) : State :=
  if !s.sys.run then s
  else match takeSpare s with
    | some q => restoreOn l src q r s
    | none => match s.fabric.mig with
      | some m => restoreOn l src m.spare r (endMig .preempted .spare s)
      | none => migEvt src 1 (updMig src (fun x => { x with phase := .none, restorative := true, result := .noSpare }) (setMap l none s))

/-- A hard fault of the source in SHADOW: the migration ends with PROMOTED, and the shadow waits for the next block boundary, at which it
becomes ACTIVE with its own state and its returns ramp in (R173). -/
def promote (m : Mig) (l : Option Nat) (s : State) : State :=
  let s := { s with fabric := { s.fabric with mig := none } }
  let s := updMig m.src (fun x => { x with phase := .restoring, restorative := true, result := .promoted }) s
  let s := fenceCell m.src (migEvt m.src 1 s)
  let s := updMig m.spare (fun x => { x with phase := .restoring, restorative := true, result := .promoted, partner := some m.src }) s
  noteSpare m.spare (match l with | some l => setMap l (some m.spare) s | none => s)

/-- The fence of a failed cell, with the end it gives the running proactive migration (R173). -/
def failFence (p : Nat) (s : State) : State :=
  match s.fabric.mig with
  | none => fenceCell p s
  | some m =>
    if m.src = p then
      if m.phase = .shadow then promote m (s.cell p).logical s
      else
        let l := (s.cell p).logical
        let s := fenceCell p (endMig .preempted .spare s)
        match l with
        | some l => if s.sys.run then restoreOn l p m.spare .active s else s
        | none => s
    else if m.spare = p then fenceCell p (endMig .spareFailed .fenced s)
    else fenceCell p s

/-- A cell that a restorative migration had taken fails before the migration completes: it ends with SPARE_FAILED (Table 6.15). -/
def failTaken (p : Nat) (s : State) : State :=
  let end_ (x : MigStat) : MigStat := { x with phase := .none, result := .spareFailed }
  match (s.cell p).mig.partner with
  | some q => migEvt q 1 (updMig q end_ (updMig p end_ s))
  | none => updMig p end_ s

/-- The local action of a hard failure of a physical cell: the fence, and the move of its logical cell (R120, R147, R172, R173). -/
def hardFail (p : Nat) (s : State) : State :=
  let c := s.cell p
  let taken := restoring s p && (c.role == .active || c.role == .idle || c.role == .shadow)
  let s := failFence p s
  let s := match c.logical with
    | none => s
    | some l =>
      if (c.role == .active || c.role == .idle || taken) && physOf s l == some p then
        startRestore l p (if c.role == .idle then .idle else .active) (if taken then failTaken p s else s)
      else s
  dequeueMig s

/-- MEM_UE or PROG_UE of a cell, with its local action (Table 5.10). -/
def cellUe (src p : Nat) (s : State) : State := hardFail p (raise (.cell p) src s)

/-- Every migration ends with ABORTED_RUN or ABORTED_ALARM; `deep` tells which phases (R173). -/
def abortMigs (r : MigResult) (inShadow : Bool) (s : State) : State :=
  let s := s.fabric.queue.foldl (fun s e => migEvt e.1 1 (updMig e.1 (fun m => { m with phase := .none, result := r }) s)) s
  let s := { s with fabric := { s.fabric with queue := [] } }
  match s.fabric.mig with
  | none => s
  | some m => if m.phase = .shadow ∧ inShadow = false then s else endMig r .spare s

/-- At entry to the snuffed state restorative migrations end as well; the cell that failed gets the event (R173, R174). -/
def abortRestores (s : State) : State :=
  s.cells.foldl (fun s e =>
    if e.2.mig.phase = .restoring ∨ e.2.mig.phase = .rampIn then
      let s := updMig e.1 (fun m => { m with phase := .none, result := .abortedRun }) s
      let s := if e.2.role = .shadow then s.updCell e.1 fun c => { c with role := .active } else s
      if e.2.role = .active ∨ e.2.role = .idle ∨ e.2.role = .shadow then migEvt (e.2.mig.partner.getD e.1) 1 s else s
    else s) s

/-! ### A block (R130, R141) -/

/-- The cells run: from the boundary b of a RUN set to the end of the ramp-out; the frame that begins in the tick in which
PHASE becomes STOPPED is not evaluated (R47, R48, R179). -/
def cellsRun (s : State) : Bool :=
  match s.sys.phase with
  | .running => true
  | .rampOut => (!s.sys.runStart || s.mxe.evaluating) && s.sys.rampEnd != some s.sys.tick
  | .rampIn => s.mxe.evaluating || s.sys.rampEnd.all (fun e => decide (e ≤ s.sys.tick + 4096))
  | _ => false

/-- Whether a physical cell begins a block in this tick. -/
def blockDue (s : State) (p : Nat) : Bool :=
  let c := s.cell p
  s.atFrame && cellsRun s && c.configured && !c.halt && (c.role == .active || c.role == .shadow) && c.blockN != 0 &&
  s.frame % c.blockN == 0 && c.mig.phase != .restoring && !(c.role == .shadow && c.mig.phase != .shadow)

/-- The program scrub of cycle 1 (R128). -/
def scrubProg (p : Nat) (s : State) : State :=
  let c := s.cell p
  let i := c.progScrub
  let st := c.progState i
  let nxt := (i + 1) % 4096
  let c := { c with progScrub := nxt, progPass := if nxt = 0 then (c.progPass + 1) % 65536 else c.progPass }
  match st with
  | .good => s.setCell p c
  | .ce => s.setCell p { c.setIns i (c.ins i) with ceRun := c.ceRun + 1 }
  | .ue => cellUe 4 p (s.setCell p c)

/-- The data scrub of one word (R128). -/
def scrubData (p : Nat) (s : State) : State :=
  let c := s.cell p
  let w := c.dataScrub
  let st := c.dataState w
  let nxt := (w + 1) % 16384
  let c := { c with dataScrub := nxt, dataPass := if nxt = 0 then (c.dataPass + 1) % 65536 else c.dataPass }
  match st with
  | .good => s.setCell p c
  | .ce => s.setCell p { c.setWord w (c.word w) with ceRun := c.ceRun + 1 }
  | .ue => cellUe 3 p (s.setCell p c)

/-- The words a block wrote reach the shadow of a copy in progress (R170, COPYING). -/
def mirrorData (p : Nat) (s : State) : State :=
  match s.fabric.mig with
  | some m => if m.src = p ∧ m.phase = .copying then s.updCell m.spare fun c => { c with data := (s.cell p).data } else s
  | none => s

/-- Cycle 0 of a block to its drain: takeovers, bank swaps, the program scrub, the schedule, what it found (R130, R139, R141). -/
def runBlock (p : Nat) (s : State) : State :=
  let late := (s.cell p).overrunDue
  let s := if late then raise (.cell p) 5 s else s
  let s := takeOverCell p s
  let s := s.updCell p fun c => { c with inFront := c.inBack, retFront := if late then c.retFront else c.retBack }
  let s := scrubProg p s
  if (s.cell p).role == .fenced then s
  else
    let lim := blockCycles (s.cell p).blockN s.fs
    let r := Run.go lim lim { c := s.cell p, fs := s.fs }
    let run := r.1
    let c := run.c
    let d := run.cyc + 4
    let c := { c with
      sched := true, ranLast := true, overrunDue := !r.2, cyclesLast := d, cyclesMax := max c.cyclesMax d,
      ceRun := c.ceRun + run.ce, accSatFrame := run.accSat.foldl (fun l f => noteFrame l (s.frame + f) true) c.accSatFrame,
      wbSatFrame := run.wbSat.foldl (fun l f => noteFrame l (s.frame + f) true) c.wbSatFrame }
    let s := mirrorData p (s.setCell p c)
    if run.memUe then cellUe 3 p s else if run.progUe then cellUe 4 p s else s

/-- At the boundary b at which RUN is set, every cell's error-feedback states are 0 and its LFSR pair is at its seeds (R98, R99). -/
def cellsSeed (s : State) : State := { s with cells := s.cells.map fun e => match e.2.logical with
  | some l => (e.1, e.2.seed l)
  | none => e }
/-- CELL_BLOCK_START: the block begins where it is due; a cell held by HALT stops its schedule at its next block boundary (R150). -/
def cellBlockStart (p : Nat) (s : State) : State :=
  if blockDue s p then settle (runBlock p s)
  else if s.atFrame && (s.cell p).halt && s.frame % (s.cell p).blockN == 0 then stopSched p s
  else s
/-- The meaning of CELL_BLOCK_START. -/
def execCellBlockStart (p : Fin 72) (s : State) : Res := .next (cellBlockStart p.val s)

/-- In the tick that ends a frame, ACC_SAT and WB_SAT of that frame are detected, each in its own frame of the block (R147). -/
def cellFrameFaults (s : State) : State :=
  s.cells.foldl (fun s e =>
    let acc := e.2.accSatFrame.contains s.frame
    let wb := e.2.wbSatFrame.contains s.frame
    let s := if acc then raise (.cell e.1) 0 s else s
    let s := if wb then raise (.cell e.1) 1 s else s
    if acc || wb then
      s.updCell e.1 fun c => { c with accSatFrame := c.accSatFrame.filter (· != s.frame), wbSatFrame := c.wbSatFrame.filter (· != s.frame) }
    else s) s

/-- The schedule of the last block has drained in this tick, or none runs (R128, R130, R162). -/
def drained (s : State) (p : Nat) : Bool :=
  let c := s.cell p
  let start := 64 * (s.frame / (max 1 c.blockN) * (max 1 c.blockN))
  !c.sched || (!c.overrunDue && decide (c.cyclesLast * 64 * s.fs ≤ (s.sys.tick - start + 1) * 800000000))
/-- CELL_SCRUB: a scrubber reads one word; the program's only while no schedule runs, the cycles after a drain included (R128). -/
def cellScrub (p : Nat) (k : ScrubKind) (s : State) : State :=
  match k with
  | .data => settle (scrubData p s)
  | .prog => if drained s p then settle (scrubProg p s) else s
/-- The meaning of CELL_SCRUB. -/
def execCellScrub (p : Fin 72) (kind : ScrubKind) (s : State) : Res := .next (cellScrub p.val kind s)

/-! ### Memory windows (R144 to R146) -/

/-- A bus read of data word w: bits [31:0], with bits [39:32] into the master's MEM_HI; 0 and ACCESS_ERR where uncorrectable. -/
def dataRead (m : Master) (p w : Nat) (s : State) : State × Word × Code :=
  let c := s.cell p
  match c.dataState w with
  | .ue => (settle (cellUe 3 p s), 0, .accessErr)
  | st =>
    let v := c.word w
    let c := { c with memHi := Tab.set (fun _ => 0) c.memHi m.idx (v / 2 ^ 32), ceRun := if st = .ce then c.ceRun + 1 else c.ceRun }
    (s.setCell p c, wd v, .ok)
/-- A bus write of data word w: all 40 bits, from the master's MEM_HI; mirrored to a shadow in COPYING (R170). -/
def dataWrite (m : Master) (p w : Nat) (v : Word) (s : State) : State × Code :=
  let c := s.cell p
  if c.role = .fenced then (s, .accessErr)
  else
    let x := (Tab.get (fun _ => 0) c.memHi m.idx) * 2 ^ 32 + v.toNat
    let s := s.setCell p (c.setWord w x)
    let s := match s.fabric.mig with
      | some g => if g.src = p ∧ g.phase = .copying then s.updCell g.spare fun c => c.setWord w x else s
      | none => s
    (s, .ok)
/-- A bus write of bits [63:32] of an instruction is staged. -/
def instrHiWrite (m : Master) (p : Nat) (v : Word) (s : State) : State × Code :=
  if (s.cell p).role = .fenced ∨ (s.cell p).sched = true then (s, .accessErr)
  else (s.updCell p fun c => { c with stagedHi := Tab.set (fun _ => 0) c.stagedHi m.idx v }, .ok)
/-- A bus write of bits [31:0] of an instruction writes all 64 bits, while no schedule runs. -/
def instrLoWrite (m : Master) (p i : Nat) (v : Word) (s : State) : State × Code :=
  let c := s.cell p
  if c.role = .fenced ∨ c.sched = true then (s, .accessErr)
  else (s.setCell p (c.setIns i ((Tab.get (fun _ => 0) c.stagedHi m.idx).toNat * 2 ^ 32 + v.toNat)), .ok)
/-- A bus read of bits [31:0] of an instruction captures bits [63:32]. -/
def instrLoRead (m : Master) (p i : Nat) (s : State) : State × Word × Code :=
  let c := s.cell p
  match c.progState i with
  | .ue => (settle (cellUe 4 p s), 0, .accessErr)
  | st =>
    let v := c.ins i
    let c := { c with readHi := Tab.set (fun _ => 0) c.readHi m.idx (wd (v / 2 ^ 32)), ceRun := if st = .ce then c.ceRun + 1 else c.ceRun }
    (s.setCell p c, wd v, .ok)
/-- A bus read of bits [63:32] of an instruction returns the capture. -/
def instrHiRead (m : Master) (p : Nat) (s : State) : Word := Tab.get (fun _ => 0) (s.cell p).readHi m.idx

/-- A bus read in a cell memory window (Table 5.9). -/
def cellMemRead (m : Master) (p off : Nat) (s : State) : State × Word × Code :=
  if off < 0x10000 then dataRead m p (off / 4) s
  else if off < 0x18000 then (if off % 8 = 0 then instrLoRead m p ((off - 0x10000) / 8) s else (s, instrHiRead m p s, .ok))
  else (s, 0, .decodeErr)
/-- A bus write in a cell memory window. -/
def cellMemWrite (m : Master) (p off : Nat) (v : Word) (s : State) : State × Code :=
  if off < 0x10000 then dataWrite m p (off / 4) v s
  else if off < 0x18000 then (if off % 8 = 0 then instrLoWrite m p ((off - 0x10000) / 8) v s else instrHiWrite m p v s)
  else (s, .decodeErr)

/-- The meaning of CELL_DATA_READ. -/
def execCellDataRead (m : Master) (p : Fin 72) (w : Fin 16384) (s : State) : Res := .next (rdAt .cellMem m (dataRead m p.val w.val) s)
/-- The meaning of CELL_DATA_WRITE. -/
def execCellDataWrite (m : Master) (p : Fin 72) (w : Fin 16384) (v : Word) (s : State) : Res :=
  .next (cmdAt .cellMem m (dataWrite m p.val w.val v) s)
/-- The meaning of CELL_INSTR_HI_WRITE. -/
def execCellInstrHiWrite (m : Master) (p : Fin 72) (_i : Fin 4096) (v : Word) (s : State) : Res :=
  .next (cmdAt .cellMem m (instrHiWrite m p.val v) s)
/-- The meaning of CELL_INSTR_LO_WRITE. -/
def execCellInstrLoWrite (m : Master) (p : Fin 72) (i : Fin 4096) (v : Word) (s : State) : Res :=
  .next (cmdAt .cellMem m (instrLoWrite m p.val i.val v) s)
/-- The meaning of CELL_INSTR_LO_READ. -/
def execCellInstrLoRead (m : Master) (p : Fin 72) (i : Fin 4096) (s : State) : Res := .next (rdAt .cellMem m (instrLoRead m p.val i.val) s)

/-! ### Control (R122, R139, R148 to R150) -/

/-- A HALT set: admitted, or EVT.REQ_REFUSED (R150). -/
def haltSet (p : Nat) (s : State) : State :=
  if testRefused s p then evt (.cell p) 4 s else settle (s.updCell p fun c => { c with halt := true })
/-- HALT is cleared: the schedule starts again from the next block boundary. -/
def haltClear (p : Nat) (s : State) : State := settle (s.updCell p fun c => { c with halt := false })
/-- A RETIRE: a proactive migration is requested, or EVT.REQ_REFUSED (R150, R170, R173). -/
def retire (p : Nat) (s : State) : State :=
  if testRefused s p || (takeSpare s).isNone || underPartial s p then evt (.cell p) 4 s
  else settle (requestMig p false s)
/-- FENCE_CLR of a FENCED cell sets its role to TEST; in any other role it has no effect (R122). -/
def fenceClr (p : Nat) (s : State) : State :=
  if (s.cell p).role = .fenced then settle (s.updCell p fun c => { c with role := .test, configured := false, logical := none }) else s

/-- A write of a cell's CTRL. -/
def cellCtrlWrite (p : Nat) (v : Word) (s : State) : State :=
  let s := if bit v 2 then fenceClr p s else s
  let s := if bit v 1 then retire p s else s
  if bit v 0 then (if (s.cell p).halt then s else haltSet p s)
  else if (s.cell p).halt then haltClear p s else s

/-- The meaning of HALT. -/
def execHalt (m : Master) (p : Fin 72) (on : Bool) (s : State) : Res :=
  .next (cmd m true (if on then (fun s => if (s.cell p.val).halt then s else haltSet p.val s) else haltClear p.val) s)
/-- The meaning of RETIRE. -/
def execRetire (m : Master) (p : Fin 72) (s : State) : Res := .next (cmd m true (retire p.val) s)
/-- The meaning of FENCE_CLR. -/
def execFenceClr (m : Master) (p : Fin 72) (s : State) : Res := .next (cmd m true (fenceClr p.val) s)

/-- A write of an address-generator register r (0 BASE, 1 LEN, 2-5 P0-P3, 6 STEP): held pending while a schedule runs,
applied by the same steps otherwise (R139). -/
def agWrite (p g r : Nat) (v : Word) (s : State) : State :=
  let x := v.toNat % 16384
  let s := s.updCell p fun c =>
    let a := c.ag g
    c.setAg g (match r with
      | 0 => { a with pendBase := some x }
      | 1 => { a with pendLen := some x }
      | 6 => { a with pendStep := some x }
      | _ => { a with pendP := Tab.set (fun _ => none) a.pendP (r - 2) (some x) })
  if (s.cell p).sched then s else takeOverCell p s
/-- The meaning of AG_REGISTER_WRITE. -/
def execAgRegisterWrite (m : Master) (p : Fin 72) (g : Fin 4) (r : Fin 7) (v : Word) (s : State) : Res :=
  .next (cmd m false (agWrite p.val g.val r.val v) s)

/-- A write of ACCa, LFSR or EFB[r]: only while no schedule runs, else ACCESS_ERR (R149). -/
def cellStateWrite (p : Nat) (r : CellReg) (v : Word) (s : State) : State × Code :=
  if (s.cell p).sched then (s, .accessErr)
  else
    (s.updCell p fun c => match r with
      | .accLo a => c.setAcc a.val { c.acc a.val with val := sInt 56 (uInt 56 (c.acc a.val).val / 2 ^ 32 * 2 ^ 32 + v.toNat) }
      | .accHi a => c.setAcc a.val ⟨sInt 56 ((v.toNat % 2 ^ 24) * 2 ^ 32 + uInt 56 (c.acc a.val).val % 2 ^ 32), bit v 31⟩
      | .lfsrA => { c with lfsrA := v.toNat }
      | .lfsrB => { c with lfsrB := v.toNat }
      | .efb r => { c with efb := Tab.set (fun _ => 0) c.efb r.val (v.toNat % 2 ^ 29) }, .ok)
/-- The meaning of CELL_STATE_REG_WRITE. -/
def execCellStateRegWrite (m : Master) (p : Fin 72) (r : CellReg) (v : Word) (s : State) : Res :=
  .next (cmdC m false (cellStateWrite p.val r v) s)

/-- The codes of Tables 5.1 and 6.17. -/
def Role.code : Role → Nat
  | .unmapped => 0 | .active => 1 | .idle => 2 | .spare => 3 | .shadow => 4 | .fenced => 5 | .test => 6
def MigPhase.code : MigPhase → Nat
  | .none => 0 | .queued => 1 | .loading => 2 | .copying => 3 | .shadow => 4 | .restoring => 5 | .rampIn => 6
def MigResult.code : MigResult → Nat
  | .none => 0 | .done => 1 | .mismatch => 2 | .abortedRun => 3 | .abortedAlarm => 4 | .spareFailed => 5 | .promoted => 6
  | .preempted => 7 | .noSpare => 8

/-- AGg_PEND (Table 5.15). -/
def AddrGen.pendWord (x : AddrGen) : Word :=
  pack [(0, b2n x.pendBase.isSome), (1, b2n x.pendLen.isSome), (2, b2n x.pendStep.isSome),
    (3, b2n (Tab.get (fun _ => none) x.pendP 0).isSome), (4, b2n (Tab.get (fun _ => none) x.pendP 1).isSome),
    (5, b2n (Tab.get (fun _ => none) x.pendP 2).isSome), (6, b2n (Tab.get (fun _ => none) x.pendP 3).isSome)]

/-- A read of a cell's control registers that hold live state; none where the register file holds the value (Tables 5.11, 6.16). -/
def cellRegRead (m : Master) (p off : Nat) (s : State) : Option Word :=
  let c := s.cell p
  if off = 0x000 then some (pack [(0, b2n c.halt)])
  else if off = 0x004 then
    some (pack [(0, c.logical.getD 0), (6, b2n c.logical.isSome), (17, b2n (c.halt && !c.sched)), (18, b2n c.ranLast),
      (19, b2n c.configured), (20, c.role.code)])
  else if off = 0x008 then some (pack [(0, c.cyclesLast % 32768), (16, c.cyclesMax % 32768)])
  else if off = 0x00C then some (wd c.ceCnt)
  else if off = 0x014 then some (wd (Tab.get (fun _ => 0) c.memHi m.idx))
  else if off = 0x018 then some (pack [(0, c.dataPass), (16, c.progPass)])
  else if off = 0x020 then
    some (pack [(0, c.mig.phase.code), (6, b2n c.mig.restorative), (7, b2n c.mig.partner.isSome), (8, c.mig.partner.getD 0),
      (15, c.mig.result.code), (19, c.mig.cmp)])
  else if 0x100 ≤ off ∧ off < 0x180 then
    let x := c.ag ((off - 0x100) / 0x20)
    let k := (off % 0x20) / 4
    some (match k with
      | 0 => wd x.base | 1 => wd x.len | 6 => wd x.step | 7 => x.pendWord
      | _ => wd (x.ptr (k - 2)))
  else if 0x200 ≤ off ∧ off < 0x220 then
    let a := c.acc ((off - 0x200) / 8)
    let u := uInt 56 a.val
    some (if off % 8 = 0 then wd u else pack [(0, u / 2 ^ 32), (31, b2n a.ext)])
  else if off = 0x280 then some (wd c.lfsrA)
  else if off = 0x284 then some (wd c.lfsrB)
  else if 0x400 ≤ off ∧ off < 0x500 then some (wd (Tab.get (fun _ => 0) c.efb ((off - 0x400) / 4)))
  else if 0x600 ≤ off ∧ off < 0x700 then some (wd (uInt 20 (Tab.get (fun _ => 0) c.retFront ((off - 0x600) / 4))))
  else none

/-- A write of a cell's control registers with an effect of their own; none where the register file takes the value. R146 stands among the
rules of the memory windows: its "write of any kind to a FENCED cell" is read as a write in the cell's memory window, and a FENCED cell's
control registers take their writes (DEDUCED, notes/assumptions/4). -/
def cellRegWrite (m : Master) (p off : Nat) (v : Word) (s : State) : Option (State × Code) :=
  if off = 0x000 then some (cellCtrlWrite p v s, .ok)
  else if off = 0x008 then some (s.updCell p fun c => { c with cyclesMax := bits v 16 15 }, .ok)
  else if off = 0x014 then some (s.updCell p fun c => { c with memHi := Tab.set (fun _ => 0) c.memHi m.idx (v.toNat % 256) }, .ok)
  else if 0x100 ≤ off ∧ off < 0x180 ∧ off % 0x20 ≠ 0x1C then some (agWrite p ((off - 0x100) / 0x20) (off % 0x20 / 4) v s, .ok)
  else if h : 0x200 ≤ off ∧ off < 0x220 then
    let a : Fin 4 := ⟨(off - 0x200) / 8, by omega⟩
    some (cellStateWrite p (if off % 8 = 0 then .accLo a else .accHi a) v s)
  else if off = 0x280 then some (cellStateWrite p .lfsrA v s)
  else if off = 0x284 then some (cellStateWrite p .lfsrB v s)
  else if h : 0x400 ≤ off ∧ off < 0x500 then some (cellStateWrite p (.efb ⟨(off - 0x400) / 4, by omega⟩) v s)
  else none

/-! ### Hard faults and the steps of a migration -/

/-- The meaning of MEM_UE. -/
def execMemUe (p : Fin 72) (s : State) : Res := .next (settle (cellUe 3 p.val s))
/-- The meaning of PROG_UE. -/
def execProgUe (p : Fin 72) (s : State) : Res := .next (settle (cellUe 4 p.val s))

/-- The running proactive migration in a phase, and its continuation. -/
def withMig (ph : MigPhase) (k : Mig → State → State) (s : State) : State :=
  match s.fabric.mig with
  | some m => if m.phase = ph then k m s else s
  | none => s
/-- The running migration enters a phase; both cells show it. -/
def enterMig (m : Mig) (ph : MigPhase) (bs : Nat) (s : State) : State :=
  let s := { s with fabric := { s.fabric with mig := some { m with phase := ph, bs := bs } } }
  updMig m.spare (fun x => { x with phase := ph }) (updMig m.src (fun x => { x with phase := ph }) s)

/-- MIGRATION_LOADED: the shadow holds the program from the image store (Table 6.12, R169). -/
def migrationLoaded (s : State) : State :=
  withMig .loading (fun m s => s.updCell m.spare fun c => { loadProgram s (c.logical.getD 0) c with configured := true }) s
/-- The meaning of MIGRATION_LOADED. -/
def execMigrationLoaded (s : State) : Res := .next (migrationLoaded s)

/-- The source's next block boundary is this tick. -/
def atBlock (s : State) (p : Nat) : Bool := s.atFrame && (s.cell p).blockN != 0 && s.frame % (s.cell p).blockN == 0

/-- MIGRATION_COPY_START: from the first block boundary after loading, writes are mirrored (Table 6.12). -/
def migrationCopyStart (s : State) : State :=
  withMig .loading (fun m s => if (s.cell m.spare).configured && atBlock s m.src then enterMig m .copying 0 s else s) s
/-- The meaning of MIGRATION_COPY_START. -/
def execMigrationCopyStart (s : State) : Res := .next (migrationCopyStart s)

/-- MIGRATION_COPY_END: the copier has read every data word of the source by R127: a corrected word counts, one that is uncorrectable raises
MEM_UE and with it ends the migration (Table 6.15); else every word stands in the shadow. -/
def migrationCopyEnd (s : State) : State :=
  withMig .copying (fun m s =>
    if m.bs = 1 then s
    else
      let found (e : Ecc) : Nat := ((s.cell m.src).dataEcc.filter fun x => x.2 == e).length
      let s := s.updCell m.src fun c => { c with ceRun := c.ceRun + found .ce }
      if found .ue ≠ 0 then settle (cellUe 3 m.src s)
      else
        let s := { s with fabric := { s.fabric with mig := some { m with bs := 1 } } }
        s.updCell m.spare fun c => { c with data := (s.cell m.src).data, dataEcc := [] }) s
/-- The meaning of MIGRATION_COPY_END. -/
def execMigrationCopyEnd (s : State) : Res := .next (migrationCopyEnd s)

/-- MIGRATION_SHADOW_START: at the first block boundary after the copy, the rest of the state set moves and the shadow runs. -/
def migrationShadowStart (s : State) : State :=
  withMig .copying (fun m s =>
    if m.bs = 1 && atBlock s m.src then
      let a := s.cell m.src
      let s := s.updCell m.spare fun c => { c with
        data := a.data, ags := a.ags, accs := a.accs, efb := a.efb, lfsrA := a.lfsrA, lfsrB := a.lfsrB,
        retFront := a.retFront, retBack := a.retBack, inFront := a.inFront, inBack := a.inBack }
      enterMig m .shadow s.sys.tick s
    else s) s
/-- The meaning of MIGRATION_SHADOW_START. -/
def execMigrationShadowStart (s : State) : Res := .next (migrationShadowStart s)

/-- MIGRATION_SWITCH: at bw = bs + 4,096 * 64 the shadow carries the logical cell, and the source is fenced (R170, R171). -/
def migrationSwitch (s : State) : State :=
  withMig .shadow (fun m s =>
    if s.sys.tick = m.bs + 4096 * 64 then
      let l := (s.cell m.src).logical
      let s := { s with fabric := { s.fabric with mig := none } }
      let s := updMig m.src (fun x => { x with phase := .none, result := .done }) s
      let s := updMig m.spare (fun x => { x with phase := .none, result := .done }) s
      let s := s.updCell m.spare fun c => { c with role := .active }
      let s := match l with | some l => setMap l (some m.spare) s | none => s
      let s := noteSpare m.spare (fenceCell m.src s)
      settle (dequeueMig (migEvt m.src 0 s))
    else s) s
/-- The meaning of MIGRATION_SWITCH. -/
def execMigrationSwitch (s : State) : Res := .next (migrationSwitch s)

/-- A shadow's returns are compared with the active cell's for this frame (R143); a difference abandons the migration (R173). -/
def shadowCompare (s : State) : State :=
  withMig .shadow (fun m s =>
    let a := s.cell m.src
    let b := s.cell m.spare
    let f := s.frame % (if a.blockN = 0 then 1 else a.blockN)
    let same := (upto 64).all fun ch =>
      Tab.get (fun _ => 0) a.retFront (f * 64 + ch) == Tab.get (fun _ => 0) b.retFront (f * 64 + ch)
    if same then
      let up (x : MigStat) : MigStat := { x with cmp := min 4096 (x.cmp + 1) }
      updMig m.spare up (updMig m.src up s)
    else dequeueMig (endMig .mismatch .spare (raise (.cell m.spare) 7 s))) s

/-- RESTORE_LOADED: the cell that was taken holds the program and the latest state (R172, step 3). -/
def restoreLoaded (p : Nat) (s : State) : State :=
  let c := s.cell p
  if (c.role = .active ∨ c.role = .idle) ∧ c.mig.phase = .restoring ∧ c.configured = false then
    let l := c.logical.getD 0
    s.setCell p { loadLatest s l (loadProgram s l { c with blockN := if c.role = .idle then 1 else c.blockN }) with configured := true }
  else s
/-- The meaning of RESTORE_LOADED. -/
def execRestoreLoaded (p : Fin 72) (s : State) : Res := .next (restoreLoaded p.val s)

/-- RESTORE_CELL_START: at a block boundary b the cell starts; its returns ramp in from the frame at b + 64N (R172, steps 4 and 5). A promoted
shadow becomes ACTIVE there; the first frame whose returns come from it is the one that begins at b, since its front bank holds them
(DEDUCED from R141, R172 and R173, notes/assumptions/36). -/
def restoreCellStart (p : Nat) (s : State) : State :=
  let c := s.cell p
  if (c.role = .active ∨ c.role = .idle ∨ c.role = .shadow) ∧ c.mig.phase = .restoring ∧ c.configured = true ∧ atBlock s p = true then
    let l := c.logical.getD 0
    let promoted := c.role == .shadow
    let s := s.updCell p fun c => { c with role := if promoted then .active else c.role, mig := { c.mig with phase := .rampIn } }
    let s := match c.mig.partner with | some q => updMig q (fun m => { m with phase := .rampIn }) s | none => s
    { s with fabric := { s.fabric with ramps := Tab.set (fun _ => none) s.fabric.ramps l (some ⟨s.frame + (if promoted then 0 else c.blockN), true⟩) } }
  else s
/-- The meaning of RESTORE_CELL_START. -/
def execRestoreCellStart (p : Fin 72) (s : State) : Res := .next (restoreCellStart p.val s)

/-- RESTORE_RAMP_END: at b + 64N + 4,096 the migration is complete (R172, step 6). -/
def restoreRampEnd (p : Nat) (s : State) : State :=
  let c := s.cell p
  let l := c.logical.getD 0
  match Tab.get (fun _ => none) s.fabric.ramps l with
  | none => s
  | some r =>
    if (c.role = .active ∨ c.role = .idle) ∧ c.mig.phase = .rampIn ∧ s.sys.tick = 64 * r.start + 4096 then
      let fin (m : MigStat) : MigStat := { m with phase := .none, result := if m.result = .promoted then .promoted else .done }
      let s := updMig p fin s
      let s := { s with fabric := { s.fabric with ramps := Tab.set (fun _ => none) s.fabric.ramps l none } }
      match c.mig.partner with
      | some q => settle (dequeueMig (migEvt q 0 (updMig q fin s)))
      | none => settle (dequeueMig (migEvt p 0 s))
    else s
/-- The meaning of RESTORE_RAMP_END. -/
def execRestoreRampEnd (p : Fin 72) (s : State) : Res := .next (restoreRampEnd p.val s)

/-- The window boundary's part in the cells: CE_CNT, and CE_HIGH above CE_LIMIT (R129). The answer lists the cells over it. -/
def closeCeWindow (s : State) : State × List Nat :=
  s.cells.foldl (fun r e =>
    let s := r.1.updCell e.1 fun c => { c with ceCnt := min c.ceRun 65535, ceRun := 0 }
    if s.fld ((Blk.cell e.1).base + 0x10) 0 16 < e.2.ceRun then (raise (.cell e.1) 2 s, r.2 ++ [e.1]) else (s, r.2)) (s, [])

end Sys2Proof.Machine
end

