-- ==== Sys2Proof/Machine/Ldg.lean ====
section
/-! DEFINITION. The arithmetic ledger: tracking, windows, records, and the certified-bound sums (R102 to R109, R113). -/
namespace Sys2Proof.Machine
open Sys2Proof

/-! ### Banks, destination parameters and maps of the matrix (Tables 7.3, 7.5) -/

/-- A bank's entries, and a bank's parameters. -/
def Mxe.bank (m : Mxe) (n : Nat) : Tab Xpt := if n = 0 then m.bank0 else m.bank1
def Mxe.setBank (m : Mxe) (n : Nat) (t : Tab Xpt) : Mxe := if n = 0 then { m with bank0 := t } else { m with bank1 := t }
def Mxe.par (m : Mxe) (n : Nat) : Tab DestPar := if n = 0 then m.par0 else m.par1
def Mxe.setPar (m : Mxe) (n : Nat) (t : Tab DestPar) : Mxe := if n = 0 then { m with par0 := t } else { m with par1 := t }
/-- The inactive bank. -/
def Mxe.inactive (m : Mxe) : Nat := 1 - m.active
/-- The parameters of destination d in a bank, and their fields (Table 7.5). -/
def Mxe.dpar (m : Mxe) (n d : Nat) : DestPar := Tab.get (fun _ => {}) (m.par n) d
def DestPar.rampLen (p : DestPar) : Nat := nbits p.w0 16 12 + 1
def DestPar.rnd (p : DestPar) : Nat := nbits p.w0 0 2
def DestPar.ofmt (p : DestPar) : Nat := nbits p.w0 2 2
def DestPar.silEn (p : DestPar) : Bool := nbit p.w0 4
def DestPar.silPd (p : DestPar) : Bool := nbit p.w0 5
def DestPar.silThr (p : DestPar) : Nat := nbits p.w4 0 19
def DestPar.silHold (p : DestPar) : Nat := nbits p.w8 0 16
/-- KIND and NUMBER of a map entry (Table 7.3). -/
def mapKind (x : Nat) : Nat := nbits x 28 4
def mapNum (x : Nat) : Nat := nbits x 0 12
def Mxe.srcEnt (m : Mxe) (i : Nat) : Nat := Tab.get (fun _ => 0) m.srcMap i
def Mxe.dstEnt (m : Mxe) (d : Nat) : Nat := Tab.get (fun _ => 0) m.dstMap d
/-- The writeback target of a destination (Table 7.2). -/
def destTarget (m : Mxe) (d : Nat) : Target :=
  match mapKind (m.dstEnt d) with
  | 3 => .out24
  | 4 => (match (m.dpar m.active d).ofmt with | 1 => .out24 | 2 => .out16 | _ => .s20)
  | _ => .s20

/-! ### Tracking -/

/-- The LDG part changes. -/
def State.updLdg (s : State) (f : Ldg → Ldg) : State := { s with ldg := f s.ldg }
/-- LDG.CTRL.EN (Table 4.12). -/
def ldgEn (s : State) : Bool := s.rbit 0x40110000 0

/-- A writeback as LDG observes it (R104): the accumulator value, the raw and written results, the drop count and width. -/
def observeSlot (m : Measures) (v q qs : Int) (d w : Nat) : Measures :=
  let pk := min (floorDivI (if v < 0 then -v else v) (2 ^ 19)).toNat (2 ^ 24 - 1)
  let h := lrsb qs w
  let m := { m with count := m.count + 1, peak := max m.peak pk, hr := if m.count = 0 then min (w - 1) h else min m.hr h }
  if qs ≠ q then { m with sat := m.sat + 1 }
  else
    let e := ledgerEps v q d
    { m with erre := m.erre + (e * e).toNat }

/-- Every enabled slot that tracks destination dst observes a writeback; a saturation in the frame is noted (R104, R106). -/
def observe (dst : Nat) (v q qs : Int) (d w : Nat) (g : Ldg) : Ldg :=
  g.track.foldl (fun g e =>
    if bit e.2 31 && bits e.2 0 12 == dst then
      { g with meas := Tab.set (fun _ => {}) g.meas e.1 (observeSlot (Tab.get (fun _ => {}) g.meas e.1) v q qs d w)
               satFrame := g.satFrame || decide (qs ≠ q) }
    else g) g

/-- In the tick that ends a frame, a saturated tracked writeback of the frame is one detection of SATURATION (R106). -/
def ldgFrameFault (s : State) : State :=
  if s.ldg.satFrame then (raise .ldg 0 s).updLdg fun g => { g with satFrame := false } else s

/-- The paths that the active configuration holds unbounded: none while the alarm set is in use, which UNBOUNDED does not cover (R109, R187). -/
def unbActive (s : State) : List Nat := if s.mxe.alarmBank then [] else s.ldg.unbPaths
/-- The destination ends a path the active configuration accepted unbounded (R109). -/
def unbDst (s : State) (dst : Nat) : Bool :=
  (unbActive s).any fun p => (Tab.get (fun _ => none) s.img.latTab p).any fun e => e.dst == dst

/-- HEADROOM of running measures: of none it is still the starting w - 1 of the destination's target (R104). -/
def headroomOf (s : State) (d : Nat) (m : Measures) : Nat := if m.count = 0 then (destTarget s.mxe d).width - 1 else m.hr
/-- The closed record of a slot at a window boundary (R105, Table 4.13). -/
def closeSlot (s : State) (j : Nat) (t : Word) : Closed :=
  let m := Tab.get (fun _ => ({} : Measures)) s.ldg.meas j
  { valid := ldgEn s && bit t 31 && m.count != 0 && !s.ldg.ecc.contains j, unb := unbDst s (bits t 0 12), headroom := headroomOf s (bits t 0 12) m, peak := m.peak,
    win := s.ldg.lastWin, sat := m.sat, erre := m.erre, count := m.count }

/-- The window boundary in LDG (R105): records close, measures restart, pending TRACK writes apply, WINDOW_CLOSED, HEADROOM_LOW. -/
def ldgWindow (s : State) : State :=
  let w := s.sys.tick / 4194304 - 1
  let s := s.updLdg fun g => { g with lastWin := w }
  let cl := s.ldg.track.foldl (fun t e => if bit e.2 31 then Tab.set (fun _ => ({} : Closed)) t e.1 (closeSlot s e.1 e.2) else t) s.ldg.closed
  let low := s.ldg.track.any fun e =>
    let r := Tab.get (fun _ => ({} : Closed)) cl e.1
    bit e.2 31 && r.valid && r.sat == 0 && decide (r.headroom < s.fld 0x40110000 8 5)
  let tr := (s.regs.filter fun e => decide (0x40114000 ≤ e.1) && decide (e.1 < 0x40118000)).map fun e => ((e.1 - 0x40114000) / 4, e.2)
  let on := (s.ldg.track.filter fun e => bit e.2 31).map (·.1)
  let s := s.updLdg fun g => { g with closed := cl, meas := [], track := tr, ecc := g.ecc.filter fun j => !on.contains j }
  let s := evt .ldg 0 s
  if low && ldgEn s then raise .ldg 1 s else s

/-- At the alignment of R17 and the renumbering of R18 the running measures are discarded (R105). -/
def ldgRestart (s : State) : State := s.updLdg fun g => { g with meas := [] }

/-- The words of a closed record (Table 4.13). -/
def Closed.words (c : Closed) : RecCap :=
  { sel := 0
    rec0 := pack [(31, b2n c.valid), (29, b2n c.unb), (24, c.headroom % 32), (0, c.peak % 2 ^ 24)]
    rec1 := pack [(24, c.win % 256), (0, c.sat % 2 ^ 17)]
    rec2 := wd c.erre
    rec3 := pack [(8, c.count % 2 ^ 17), (0, c.erre / 2 ^ 32 % 256)] }

/-- A write of REC_SEL captures the closed record of the slot for the master (R106). -/
def recSel (m : Master) (v : Word) (s : State) : State :=
  s.updLdg fun g =>
    let c := Tab.get (fun _ => ({} : Closed)) g.closed (bits v 0 12)
    { g with caps := Tab.set (fun _ => ({} : RecCap)) g.caps m.idx { c.words with sel := v &&& 0xFFF } }
/-- The meaning of LDG_REC_SEL. -/
def execLdgRecSel (m : Master) (j : Fin 4096) (s : State) : Res := .next (cmd m false (recSel m (wd j.val)) s)

/-- A read of WIN_LO captures WIN_HI for the master (R33, R113). -/
def winLoRead (m : Master) (s : State) : State × Word :=
  (s.updLdg fun g => { g with winHi := Tab.set (fun _ => 0) g.winHi m.idx (wd (g.lastWin / 2 ^ 32)) }, wd s.ldg.lastWin)
/-- The meaning of LDG_WIN_LO_READ. -/
def execLdgWinLoRead (m : Master) (s : State) : Res := .next (rdCmd m (winLoRead m) s)

/-- A read of LDG's registers that hold live state; the state changes for WIN_LO only. -/
def ldgRegRead (m : Master) (off : Nat) (s : State) : Option (State × Word) :=
  let cap := Tab.get (fun _ => ({} : RecCap)) s.ldg.caps m.idx
  match off with
  | 0x004 => some (s, pack [(0, b2n s.ldg.busy)])
  | 0x008 => some (winLoRead m s)
  | 0x00C => some (s, Tab.get (fun _ => 0) s.ldg.winHi m.idx)
  | 0x010 => some (s, cap.sel)
  | 0x014 => some (s, cap.rec0)
  | 0x018 => some (s, cap.rec1)
  | 0x01C => some (s, cap.rec2)
  | 0x020 => some (s, cap.rec3)
  | 0x028 => some (s, pack [(31, b2n s.ldg.resFail), (30, b2n s.ldg.resUnb), (29, b2n s.ldg.resSafe), (0, s.ldg.resPath)])
  | 0x02C => some (s, wd s.ldg.boundSum)
  | 0x030 => some (s, wd (unbActive s).length)
  | _ => none

/-! ### The certified-bound check (R107, R108) -/

/-- A bound stage: the path, the position, the stage sum S. -/
structure Stage where
  path : Nat
  pos : Nat
  sum : Nat
deriving DecidableEq, Repr

/-- S limited to 2^32 - 1. -/
def capS (n : Nat) : Nat := min n (2 ^ 32 - 1)
/-- Σ abs(N) over the n coefficients from a block's start word, c0 then c1 of each word (Table 4.9). -/
def coefSum (word : Nat → Nat) (start n : Nat) : Nat :=
  ((upto n).map fun i => (if i % 2 = 0 then lo20 (word (start + i / 2)) else hi20 (word (start + i / 2))).natAbs).sum
/-- The stage of a CELL_PROGRAM bound descriptor at address a, over the words of its cell (Table 6.9). -/
def cellStage (s : State) (a : Nat) (word : Nat → Nat) : Stage :=
  let n := s.le (a + 6) 2
  let st := s.le (a + 4) 2
  let k := (s.byte (a + 8)).toNat
  ⟨s.le a 2, (s.byte (a + 2)).toNat,
    capS (match (s.byte (a + 3)).toNat with
      | 1 => 2 ^ (5 + k) * coefSum word st n
      | 2 => 2 ^ (8 + k) * coefSum word st n
      | _ => s.le (a + 8) 4)⟩
/-- The stages of the CELL_PROGRAM payload at a (R167). -/
def cellStages (s : State) (a : Nat) (word : Nat → Nat) : List Stage :=
  (upto (s.le (a + 10) 2)).map fun i => cellStage s (a + 32 + 8 * s.le a 2 + 12 * i) word

/-- H of R108 over stage sums in ascending position. -/
def hardwareSum (sums : List Nat) : Nat := sums.foldl (fun h x => min (ceilDiv (h * x) (2 ^ 24)) (2 ^ 32 - 1)) (2 ^ 24)
/-- The stage sums of a path, in ascending position (0 to 15). -/
def pathSums (st : List Stage) (path : Nat) : List Nat :=
  ((upto 16).map fun p => (st.filter fun x => x.path == path && x.pos == p).map (·.sum)).flatten

/-- A failing path of a check: the path and its H. -/
structure BoundFail where
  path : Nat
  h : Nat
  unb : Bool
deriving DecidableEq, Repr

/-- The failing paths of the bound table over stages, in ascending path order (R87, R108). -/
def boundFails (tab : Tab (Option BoundEnt)) (st : List Stage) : List BoundFail :=
  tab.filterMap fun e => match e.2 with
    | none => none
    | some b =>
      let h := hardwareSum (pathSums st e.1)
      if h ≤ b.headroom ∧ b.bound ≤ b.headroom then none else some ⟨e.1, h, nbit b.flags 1⟩

/-- The result registers of a check (Table 4.12). -/
def boundResult (safe accepted : Bool) (fails : List BoundFail) (s : State) : State :=
  s.updLdg fun g => { g with
    resFail := fails != [], resUnb := accepted && fails != [], resSafe := safe,
    resPath := (fails.head?.map (·.path)).getD 0, boundSum := (fails.head?.map (·.h)).getD 0 }

end Sys2Proof.Machine
end

