-- ==== Sys2Proof/Machine/Mxe.lean ====
section
/-! DEFINITION. The matrix engine: sources, evaluation, ramps, the crosspoint windows, edits, safe-load, the alarm set,
silence detection and the message players (R175 to R202, R207, R208, R514). -/
namespace Sys2Proof.Machine
open Sys2Proof

/-- The MXE part changes. -/
def State.updMxe (s : State) (f : Mxe → Mxe) : State := { s with mxe := f s.mxe }
/-- The destination that feeds a consumer (R177). -/
def Mxe.feeding (m : Mxe) (kind num : Nat) : Option Nat := (m.dstMap.find? fun e => mapKind e.2 == kind && mapNum e.2 == num).map (·.1)

/-! ### Ramps (R180 to R182) -/

/-- The gain an entry has in the frame it stands in (R180). -/
def Xpt.gain (e : Xpt) : Int :=
  if e.left = 0 then e.tgt
  else e.g0 + floorDivI ((e.tgt - e.g0) * ((e.rl - e.left + 1 : Nat) : Int)) (e.rl : Int)
/-- The entry starts a ramp from g0 to a target over rl frames; none where they are equal (R180). -/
def Xpt.rampTo (e : Xpt) (g0 tgt : Int) (rl : Nat) : Xpt :=
  if g0 = tgt then { e with tgt := tgt, g0 := g0, rl := rl, left := 0 } else { e with tgt := tgt, g0 := g0, rl := rl, left := rl }
/-- The frame after an evaluated one: one frame of the ramp is gone. -/
def Xpt.advance (e : Xpt) : Xpt := { e with left := e.left - 1 }
/-- A ramp completes at once (R179): the gain takes its target. -/
def Xpt.finish (e : Xpt) : Xpt := { e with left := 0, cur := e.tgt }
/-- The entries of a bank change one by one; an entry that becomes invalid is freed. -/
def mapBank (f : Xpt → Xpt) (t : Tab Xpt) : Tab Xpt :=
  t.foldl (fun t e =>
    let x := f e.2
    Tab.set (fun _ => ({} : Xpt)) t e.1 (if x.valid then x else if e.2.valid then {} else x)) t
/-- R182: a releasing entry whose ramp has ended is freed. -/
def freeReleased (e : Xpt) : Xpt := if e.valid && e.release && e.left == 0 then { e with valid := false } else e
/-- Every ramp of the active bank completes at once (R179). -/
def finishRamps (s : State) : State :=
  s.updMxe fun m => m.setBank m.active (mapBank (fun e => if e.valid && e.release then { e with valid := false } else e.finish) (m.bank m.active))

/-- The valid entry {src, dst} of a bank, with its index. -/
def findXpt (t : Tab Xpt) (src dst : Nat) : Option (Nat × Xpt) := t.find? fun e => e.2.valid && e.2.src == src && e.2.dst == dst
/-- The number of valid entries of a bank. -/
def validCount (t : Tab Xpt) : Nat := (t.filter fun e => e.2.valid).length
/-- The lowest free index at or above i of a bank, by the sorted list of its entries. -/
def freeIndexFrom : Nat → Tab Xpt → Nat
  | i, [] => i
  | i, (j, e) :: t => if e.valid then (if j = i then freeIndexFrom (i + 1) t else if j < i then freeIndexFrom i t else i) else freeIndexFrom i t
/-- The lowest free index of a bank, if it has one. -/
def freeIndex (t : Tab Xpt) : Option Nat :=
  let i := freeIndexFrom 0 t
  if i < 131072 then some i else none
/-- An entry of a bank takes a value. -/
def putXpt (t : Tab Xpt) (i : Nat) (e : Xpt) : Tab Xpt := Tab.set (fun _ => ({} : Xpt)) t i e

/-! ### Edits (R188, R189) -/

/-- The ramp length of an edit: its own, or its destination's (R188). -/
def editRl (m : Mxe) (e : Edit) : Nat := match e.ramp with
  | some r => r + 1
  | none => (m.dpar m.active e.dst).rampLen
/-- SET of {src, dst} on a bank: none where a free entry is needed and none exists (Table 7.7, R181). -/
def setXpt (t : Tab Xpt) (src dst : Nat) (gain : Int) (rl : Nat) : Option (Tab Xpt) :=
  match findXpt t src dst with
  | some (i, e) => some (putXpt t i ({ e with release := false }.rampTo e.cur gain rl))
  | none =>
    if gain = 0 then some t
    else match freeIndex t with
      | none => none
      | some i => some (putXpt t i ({ ({} : Xpt) with valid := true, dst := dst, src := src }.rampTo 0 gain rl))
/-- REMOVE of {src, dst} on a bank (Table 7.7, R182). -/
def removeXpt (t : Tab Xpt) (src dst : Nat) (rl : Nat) : Tab Xpt :=
  match findXpt t src dst with
  | none => t
  | some (i, e) =>
    let e := { e with release := true }.rampTo e.cur 0 rl
    putXpt t i (if e.left = 0 then {} else e)
/-- One edit on the active bank; none where it has to wait (R189). -/
def applyEdit (m : Mxe) (e : Edit) : Option Mxe :=
  let t := m.bank m.active
  let rl := editRl m e
  match e.cmd with
  | 1 => (setXpt t e.src e.dst e.gain rl).map (m.setBank m.active ·)
  | 2 => some (m.setBank m.active (removeXpt t e.src e.dst rl))
  | 3 =>
    let u := if e.srcOld = e.src then t else removeXpt t e.srcOld e.dst rl
    if (findXpt t e.src e.dst).isNone && e.gain != 0 && (freeIndex t).isNone then none
    else (setXpt u e.src e.dst e.gain rl).map (m.setBank m.active ·)
  | _ => some m
/-- Queued edits from the head, in queue order, until one has to wait (R189). -/
def applyEdits : List Edit → Mxe → Mxe × List Edit
  | [], m => (m, [])
  | e :: t, m => match applyEdit m e with
    | none => (m, e :: t)
    | some m => applyEdits t m
/-- Step 3 of R189. -/
def editStep (s : State) : State :=
  let r := applyEdits s.mxe.queue s.mxe
  let was := s.mxe.routeWait && r.2.length == s.mxe.queue.length
  let s := s.updMxe fun _ => { r.1 with queue := r.2, routeWait := r.2 != [] }
  if r.2 != [] && !was then evt .mxe 2 s else s

/-- A write of EDIT_CMD queues an edit from the master's EDIT0 to EDIT2 (R188). Only XFADE makes use of SRC_OLD (Table 7.7), so only there
its kind can discard the edit (DEDUCED, notes/assumptions/37). -/
def editCmd (m : Master) (c : Nat) (s : State) : State :=
  if c = 0 then s
  else
    let r := Tab.get (fun _ => ({} : EditRegs)) s.mxe.edits m.idx
    let e : Edit := ⟨c, bits r.e0 0 12, bits r.e0 16 12, sInt 20 (bits r.e1 0 20), bits r.e2 0 12, if bit r.e2 31 then some (bits r.e2 16 12) else none⟩
    if mapKind (s.mxe.srcEnt e.src) = 0 ∨ mapKind (s.mxe.dstEnt e.dst) = 0 ∨ (c = 3 ∧ mapKind (s.mxe.srcEnt e.srcOld) = 0) then
      s.updMxe fun x => { x with bad := true }
    else if 256 ≤ s.mxe.queue.length then raise .mxe 3 (s.updMxe fun x => { x with overflow := true })
    else s.updMxe fun x => { x with queue := x.queue ++ [e] }
/-- The meaning of SET. -/
def execSet (m : Master) (s : State) : Res := .next (cmd m false (editCmd m 1) s)
/-- The meaning of REMOVE. -/
def execRemove (m : Master) (s : State) : Res := .next (cmd m false (editCmd m 2) s)
/-- The meaning of XFADE. -/
def execXfade (m : Master) (s : State) : Res := .next (cmd m false (editCmd m 3) s)

/-! ### Safe-load (R190 to R193) -/

/-- The result of a swap request is recorded. -/
def swapResult (r : SwapResult) (s : State) : State :=
  s.updMxe fun m => { m with result := r, resTick := s.sys.tick % 65536 }
/-- A pending swap ends with a result, and the inactive bank is no longer frozen. -/
def endSwap (r : SwapResult) (s : State) : State :=
  let s := s.updMxe fun m => { m with swapPending := false, checking := false, boundWait := false, swapDue := false, swapWait := false, need := 0 }
  swapResult r (s.updLdg fun g => { g with busy := s.img.state == .checking })
/-- A load's or verify's bound check has ended: a swap that waited for it starts its own (R109). -/
def boundNext (s : State) : State :=
  let s := s.updMxe fun m => { m with checking := m.checking || m.boundWait, boundWait := false }
  s.updLdg fun g => { g with busy := s.mxe.checking }

/-- A partial MATRIX_BANK load is in progress. -/
def matrixLoading (s : State) : Bool :=
  s.img.partialJob.any (fun j => j.kind == 2) ||
  s.img.job.any (fun j => j.partialImg && !j.verify && (headerAt s j.src).regionKind == 2)

/-- A write of 1 to CTRL.SWAP (R190, Table 7.9). Its check waits while that of a load or verify runs (R109). -/
def swapReq (unb : Bool) (s : State) : State :=
  if s.sys.alarm then swapResult .alarm s
  else if s.mxe.swapPending then swapResult .busy s
  else if matrixLoading s then swapResult .loading s
  else
    let w := s.img.state == .checking
    let s := s.updMxe fun m => { m with swapPending := true, checking := !w, boundWait := w, swapUnb := unb, swapDue := false }
    s.updLdg fun g => { g with busy := true }
/-- The meaning of SWAP. -/
def execSwap (m : Master) (unb : Bool) (s : State) : Res :=
  .next (cmd m true (fun s => swapReq unb (s.setFld 0x40100000 2 1 (b2n unb))) s)

/-- A write of 1 to CTRL.SWAP_CANCEL: an abort (R193). -/
def swapCancel (s : State) : State := if s.mxe.swapPending then endSwap .cancelled s else swapResult .moot s
/-- The meaning of SWAP_CANCEL. -/
def execSwapCancel (m : Master) (s : State) : Res := .next (cmd m true swapCancel s)

/-- Two valid entries of equal {SRC, DST} (R191). -/
def hasDuplicate (t : Tab Xpt) : Bool :=
  let v := (t.filter fun e => e.2.valid).map fun e => e.2.src * 4096 + e.2.dst
  !decide v.Nodup

/-- The matrix stages of a list of descriptors, over a bank's entries (R107, Tables 4.9 and 7.6). -/
def matrixStages (bounds : Tab Nat) (t : Tab Xpt) : List Stage :=
  bounds.map fun d =>
    let x := d.2
    let dst := nbits x 32 16
    ⟨nbits x 0 16, nbits x 16 8, capS (2 ^ 8 * ((t.filter fun e => e.2.valid && e.2.dst == dst && e.2.tgt != 0).map fun e => e.2.tgt.natAbs).sum)⟩
/-- The cell stages of the configuration in use: each logical cell's descriptors over its current data memory (R109). -/
def currentCellStages (s : State) : List Stage :=
  ((upto 64).map fun l => match storeRec s 0x11 l, physOf s l with
    | some (a, _), some p => cellStages s a (fun w => (s.cell p).word w)
    | some (a, _), none => cellStages s a (fun _ => 0)
    | none, _ => []).flatten

/-- BOUND_CHECK_DONE: the check of a pending safe-load ends (R109, R191). Paths it accepts count from the swap on. -/
def boundCheckDone (s : State) : State :=
  if s.mxe.swapPending && s.mxe.checking then
    let t := s.mxe.bank s.mxe.inactive
    let s := s.updMxe fun m => { m with checking := false }
    let s := s.updLdg fun g => { g with busy := s.img.state == .checking }
    let fails := boundFails s.img.boundTab (matrixStages s.mxe.bounds t ++ currentCellStages s)
    let s := boundResult true (s.mxe.swapUnb && fails != []) fails s
    let s := evt .ldg 1 s
    if hasDuplicate t then endSwap .duplicate s
    else if fails != [] && !s.mxe.swapUnb then endSwap .bound (raise .ldg 3 s)
    else
      let s := s.updLdg fun g => { g with unbNext := fails.map (·.path) }
      s.updMxe fun m => { m with swapDue := true }
  else s
/-- The meaning of BOUND_CHECK_DONE. -/
def execBoundCheckDone (s : State) : Res := .next (boundCheckDone s)

/-- The entries a swap carries: those of the old bank with no equal {SRC, DST} in the new one (R192, R193). -/
def carried (old new : Tab Xpt) : List (Nat × Xpt) := old.filter fun e => e.2.valid && (findXpt new e.2.src e.2.dst).isNone

/-- The rounding state of destination d before it has rounded: the EFB state 0 and the seeds of its LFSR pair (R98, R99). -/
def rndSeed (d : Nat) : Rnd := ⟨0, seedA d, seedB d⟩
/-- R192: the new bank's entries ramp from the old gains; carried entries take the lowest free indexes and release, in
ascending old index; those that find no room are invalidated. The answer tells how many were. -/
def exchange (m : Mxe) : Mxe × Nat :=
  let o := m.active
  let n := m.inactive
  let old := m.bank o
  let new := m.bank n
  let rlOf (d : Nat) : Nat := (m.dpar n d).rampLen
  let new' := mapBank (fun e =>
    if e.valid then
      let g := match findXpt old e.src e.dst with | some x => x.2.cur | none => 0
      { e.rampTo g e.tgt (rlOf e.dst) with release := false, cur := g }
    else e) new
  let r := (carried old new).foldl (fun r e =>
    match freeIndex r.1 with
    | none => (r.1, r.2 + 1)
    | some i =>
      let x := { e.2 with release := true }.rampTo e.2.cur 0 (rlOf e.2.dst)
      if x.left = 0 then r else (putXpt r.1 i x, r.2)) (new', 0)
  let oldB := mapBank (fun e => if e.release then { e with valid := false } else { e with cur := 0, left := 0, g0 := 0, rl := 0, release := false }) old
  let m := (m.setBank n r.1).setBank o oldB
  let changed (d : Nat) (x : Rnd) : Rnd := if (m.dpar o d).rnd = (m.dpar n d).rnd then x else { x with e := 0 }
  ({ m with active := n, rnd := m.rnd.foldl (fun t e => Tab.set rndSeed t e.1 (changed e.1 e.2)) m.rnd }, r.2)

/-- NEED and ROOM of the pending swap (R193). -/
def swapNeed (m : Mxe) : Nat := (carried (m.bank m.active) (m.bank m.inactive)).length
def swapRoom (m : Mxe) : Nat := 131072 - validCount (m.bank m.inactive)

/-- The configuration of a performed safe-load is the active one: its unbounded paths, reported once (R106, R109). -/
def acceptSwap (s : State) : State :=
  let l := s.ldg.unbNext
  let s := (s.updLdg fun g => { g with unbPaths := l, unbNext := [] }).updImg fun i => { i with unbounded := i.unbounded && l != [] }
  if l = [] then s else raise .ldg 2 s
/-- The swap that is due at a boundary: performed where it fits, deferred where it does not (R192, R193). -/
def swapStep (s : State) : State :=
  if s.mxe.swapPending && s.mxe.swapDue then
    let need := swapNeed s.mxe
    if need ≤ swapRoom s.mxe then
      let s := s.updMxe fun m => (exchange m).1
      evt .mxe 0 (endSwap .done (acceptSwap s))
    else
      let first := !s.mxe.swapWait
      let s := s.updMxe fun m => { m with swapWait := true, need := need }
      if first then evt .mxe 1 s else s
  else s

/-! ### The alarm set (R194, R195, R514) -/

/-- Entry i of the ALARM_SET payload at a (R187). -/
def alarmEntry (s : State) (a i : Nat) : Xpt :=
  let x := s.le (a + 4 + 8 * i) 8
  { valid := true, src := nbits x 0 12, dst := nbits x 16 12, tgt := sInt 20 (nbits x 32 20) }
/-- The destination-parameter area at an address (Table 7.5). -/
def parArea (s : State) (a : Nat) : Tab DestPar :=
  (upto 4096).foldl (fun t d => Tab.set (fun _ => ({} : DestPar)) t d
    ⟨s.le (a + 16 * d) 4 % 2 ^ 28, s.le (a + 16 * d + 4) 4 % 2 ^ 19, s.le (a + 16 * d + 8) 4 % 2 ^ 16⟩) []
/-- MXE overwrites a bank with the ALARM_SET of the active image (R194, step 2). -/
def writeAlarmSet (bank : Nat) (s : State) : State :=
  match storeRec s 0x21 0 with
  | none => s
  | some (a, _) =>
    let n := s.le a 4
    let t := (upto n).foldl (fun t i => putXpt t i (alarmEntry s a i)) []
    s.updMxe fun m => (m.setBank bank t).setPar bank (parArea s (a + 4 + 8 * n))
/-- A swap by the alarm rules: no check, no waiting for room, one ALARM_STEP for the entries invalidated (R194, R195). -/
def alarmExchange (toAlarm : Bool) (s : State) : State :=
  let r := exchange s.mxe
  let s := s.updMxe fun _ => { r.1 with alarmBank := toAlarm }
  if r.2 ≠ 0 then raise .mxe 4 s else s

/-- ALARM is set: the load is due at the next frame boundary (R49, R194). -/
def mxeAlarmSet (s : State) : State := s.updMxe fun m => { m with alarmLoad := true }
/-- ALARM is cleared: no load and no alarm swap takes place, and an alarm bank in use is swapped back at b (R194, R195). -/
def mxeAlarmClear (s : State) : State :=
  s.updMxe fun m => { m with alarmLoad := false, alarmDue := none, alarmBack := m.alarmBank }
/-- The alarm's part of a frame boundary (R194 steps 1 and 2, R195). -/
def alarmStep (s : State) : State :=
  let s := if s.mxe.alarmBack then alarmExchange false (s.updMxe fun m => { m with alarmBack := false }) else s
  if s.mxe.alarmLoad then
    let s := if s.mxe.swapPending then endSwap .preempted s else s
    let s := writeAlarmSet s.mxe.inactive s
    s.updMxe fun m => { m with alarmLoad := false, alarmDue := some (s.sys.tick + 64) }
  else s
/-- Step 1 of R189, once in a boundary's tick: ramps have run one frame more, and what R182 frees is free. -/
def mxeOpen (s : State) : State :=
  if s.mxe.openedAt = some s.sys.tick then s
  else
    let t := s.sys.tick
    s.updMxe fun m => { m.setBank m.active (mapBank (fun e => freeReleased (if m.evaluating then e.advance else e)) (m.bank m.active)) with openedAt := some t }
/-- The alarm swap that is due, unless ALARM has been cleared or the chip is snuffed (R194 step 3, R207). -/
def alarmSwap (s : State) : State :=
  if s.mxe.alarmDue = some s.sys.tick ∧ s.sys.alarm = true ∧ s.sys.snuffed = false then
    alarmExchange true ((mxeOpen s).updMxe fun m => { m with alarmDue := none })
  else s
/-- ALARM_BANK_SWAP: at b + 64, the frame boundary after b; what FRAME_BOUNDARY of that tick evaluates is the alarm bank, whichever of
the two commands stands first (R194, step 3). -/
def alarmBankSwap (s : State) : State :=
  if s.mxe.alarmDue = some s.sys.tick ∧ s.sys.alarm = true ∧ s.sys.snuffed = false then
    let s := alarmSwap s
    if cellsRun s then s else finishRamps s
  else s
/-- The meaning of ALARM_BANK_SWAP. -/
def execAlarmBankSwap (s : State) : Res := .next (alarmBankSwap s)

/-! ### Crosspoint windows (R183 to R186) -/

/-- A word of a bank window; none at an offset Table 7.3 does not give. -/
def matrixRead (bank off : Nat) (s : State) : Option Word :=
  let m := s.mxe
  if off < 0x200000 then
    let e := Tab.get (fun _ => ({} : Xpt)) (m.bank bank) (off / 16)
    some (match off % 16 / 4 with
      | 0 => pack [(31, b2n e.valid), (30, b2n e.release), (12, e.dst), (0, e.src)]
      | 1 => wd (uInt 20 e.tgt)
      | 2 => wd (uInt 20 e.cur)
      | _ => wd e.left)
  else if off < 0x210000 then
    let p := m.dpar bank (off % 0x10000 / 16)
    some (match off % 16 / 4 with | 0 => wd p.w0 | 1 => wd p.w4 | 2 => wd p.w8 | _ => 0)
  else if off < 0x214000 then some (wd (m.srcEnt (off % 0x4000 / 4)))
  else if off < 0x218000 then some (wd (m.dstEnt (off % 0x4000 / 4)))
  else if off < 0x220000 then
    let x := Tab.get (fun _ => 0) m.bounds ((off - 0x218000) / 8)
    some (wd (if off % 8 = 0 then x else x / 2 ^ 32))
  else none

/-- A bus write in a bank window (R183 to R185). -/
def matrixWrite (bank off : Nat) (v : Word) (s : State) : State × Code :=
  if 0x220000 ≤ off then (s, .decodeErr)
  else if 0x210000 ≤ off then (s, .accessErr)
  else if bank = s.mxe.active ∨ s.mxe.swapPending = true ∨ s.sys.alarm = true then (s, .accessErr)
  else if off < 0x200000 then
    (s.updMxe fun m =>
      let t := m.bank bank
      let e := Tab.get (fun _ => ({} : Xpt)) t (off / 16)
      let e := match off % 16 / 4 with
        | 0 => { e with valid := bit v 31, dst := bits v 12 12, src := bits v 0 12 }
        | 1 => { e with tgt := sInt 20 (bits v 0 20) }
        | _ => e
      m.setBank bank (putXpt t (off / 16) e), .ok)
  else
    (s.updMxe fun m =>
      let d := off % 0x10000 / 16
      let p := m.dpar bank d
      let p := match off % 16 / 4 with
        | 0 => { p with w0 := (v &&& 0x0FFF003F).toNat }
        | 1 => { p with w4 := bits v 0 19 }
        | 2 => { p with w8 := bits v 0 16 }
        | _ => p
      m.setPar bank (Tab.set (fun _ => ({} : DestPar)) (m.par bank) d p), .ok)
/-- The meaning of MATRIX_TABLE_WRITE. -/
def execMatrixTableWrite (m : Master) (bank : Fin 2) (off : Fin 16777216) (v : Word) (s : State) : Res :=
  .next (cmdAt .matrix m (matrixWrite bank.val off.val v) s)

/-! ### A bank record (R186) -/

/-- The entries of the MATRIX_BANK payload at a: every valid entry takes CUR = TGT. -/
def bankEntries (s : State) (a : Nat) : Tab Xpt :=
  (upto 131072).foldl (fun t i =>
    let w := wd (s.le (a + 16 * i) 4)
    let g := sInt 20 (s.le (a + 16 * i + 4) 4)
    putXpt t i { valid := bit w 31, dst := bits w 12 12, src := bits w 0 12, tgt := g, cur := if bit w 31 then g else 0 }) []
/-- A table of n words of k bytes at an address. -/
def wordTab (s : State) (a k n : Nat) : Tab Nat := (upto n).foldl (fun t i => Tab.set (fun _ => 0) t i (s.le (a + k * i) k)) []
/-- The bound descriptors of the payload at a, up to the all-zero one. -/
def boundDescs (s : State) (a : Nat) : Tab Nat :=
  let l := ((upto 4096).map fun i => s.le (a + 0x218000 + 8 * i) 8).takeWhile fun x => x != 0
  (upto l.length).foldl (fun t i => Tab.set (fun _ => 0) t i (l.getD i 0)) []
/-- A bank record is written, which configures every destination: its rounding state starts anew (R98, R99); the bank 0 record of a full image gives the maps and descriptors (R184, R186). -/
def applyBank (a bank : Nat) (full : Bool) (s : State) : State :=
  s.updMxe fun m =>
    let m := (m.setBank bank (bankEntries s a)).setPar bank (parArea s (a + 0x200000))
    let m := if full && bank == 0 then
        { m with srcMap := wordTab s (a + 0x210000) 4 4096, dstMap := wordTab s (a + 0x214000) 4 4096, bounds := boundDescs s a }
      else m
    { m with rnd := [] }

/-- The matrix is configured from a full image: bank 0 active; with ALARM = 1 the alarm set in bank 1, active at once (R186, R514). -/
def matrixConfigured (s : State) : State :=
  let s := s.updMxe fun m => { m with active := 0, alarmBank := false, alarmLoad := false, alarmBack := false, alarmDue := none,
                                      swapPending := false, checking := false, boundWait := false, swapDue := false, swapWait := false, need := 0 }
  if s.sys.alarm then
    let s := writeAlarmSet 1 s
    s.updMxe fun m => { m.setBank 1 (mapBank (fun e => { e with cur := e.tgt, left := 0 }) (m.bank 1)) with active := 1, alarmBank := true }
  else s

/-! ### Message players (R198 to R202) -/

/-- Player i. -/
def State.player (s : State) (i : Nat) : Player := Tab.get (fun _ => {}) s.mxe.players i
/-- A player changes. -/
def updPlayer (i : Nat) (f : Player → Player) (s : State) : State :=
  s.updMxe fun m => { m with players := Tab.set (fun _ => {}) m.players i (f (Tab.get (fun _ => {}) m.players i)) }
/-- The message store of the active image: the address of its payload (R198). -/
def msgBase (s : State) : Option Nat := (storeRec s 0x22 0).map (·.1)
/-- COUNT of the message store. -/
def msgCount (s : State) : Nat := match msgBase s with | none => 0 | some a => s.le a 4
/-- A directory entry's field k (OFFSET, LENGTH, LOOP_START, CRC) of message i. -/
def msgField (s : State) (i k : Nat) : Nat := match msgBase s with | none => 0 | some a => s.le (a + 4 + 16 * i + 4 * k) 4

/-- START (R199, R200): the checks of Table 7.11 and the start frame. -/
def playStart (i : Nat) (v : Word) (s : State) : State :=
  let p := s.player i
  let refuse (r : PlayResult) (s : State) : State := updPlayer i (fun p => { p with result := r }) s
  let msg := bits v 8 10
  if p.state ≠ .idle then refuse .busy s
  else if !s.sys.run then refuse .notRun s
  else if msgCount s ≤ msg then refuse .badMsg s
  else if s.mxe.corrupt.contains msg then raise .mxe 2 (refuse .corrupt s)
  else
    let at_ := (s.reg (0x40101004 + 0x20 * i)).toNat + (s.reg (0x40101008 + 0x20 * i)).toNat * 2 ^ 32
    let late := bit v 2 && decide (at_ < s.sys.tick)
    let start := if bit v 2 && !late then 64 * ceilDiv at_ 64 else nextBoundary s.sys.tick
    updPlayer i (fun _ => { state := .armed, result := if late then .lateArm else .none, pass := 1, pos := 0, msg := msg,
                            rep := bits v 24 8, start := start / 64 }) s
/-- STOP (Table 7.11). -/
def playStop (i : Nat) (s : State) : State :=
  match (s.player i).state with
  | .armed => updPlayer i (fun p => { p with state := .idle, result := .stopped }) s
  | .playing => updPlayer i (fun p => { p with state := .stopping, stopFrame := nextBoundary s.sys.tick / 64 }) s
  | _ => updPlayer i (fun p => { p with result := .moot }) s
/-- FINISH (Table 7.11). -/
def playFinish (i : Nat) (s : State) : State :=
  match (s.player i).state with
  | .playing => updPlayer i (fun p => { p with finish := true }) s
  | .armed => s
  | _ => updPlayer i (fun p => { p with result := .moot }) s
/-- A write of PLAYm_CTRL: the fields are kept, CMD acts and reads 0 (R199). -/
def playCtrl (i : Nat) (v : Word) (s : State) : State :=
  let s := s.setReg (0x40101000 + 0x20 * i) (v &&& 0xFF03FF04)
  match bits v 0 2 with
  | 1 => playStart i v s
  | 2 => playStop i s
  | 3 => playFinish i s
  | _ => s
/-- The meaning of PLAY_START: a write of PLAYm_CTRL with CMD = START. -/
def execPlayStart (m : Master) (pl : Fin 64) (v : Word) (s : State) : Res := .next (cmd m false (playCtrl pl.val (setBits v 0 2 1)) s)
/-- The meaning of PLAY_STOP: CMD = STOP over the fields last written. -/
def execPlayStop (m : Master) (pl : Fin 64) (s : State) : Res := .next (cmd m false (playStop pl.val) s)
/-- The meaning of PLAY_FINISH: CMD = FINISH over the fields last written. -/
def execPlayFinish (m : Master) (pl : Fin 64) (s : State) : Res := .next (cmd m false (playFinish pl.val) s)

/-- PLAYER_FIRST_SAMPLE: an armed player plays from its start frame (R200). -/
def playerFirst (i : Nat) (s : State) : State :=
  if (s.player i).state = .armed ∧ s.atFrame = true ∧ (s.player i).start ≤ s.frame then
    updPlayer i (fun p => { p with state := .playing }) s
  else s
/-- The meaning of PLAYER_FIRST_SAMPLE. -/
def execPlayerFirstSample (pl : Fin 64) (s : State) : Res := .next (playerFirst pl.val s)
/-- PLAYER_DONE: in the frame after the last sample the player is IDLE and records DONE (R201). -/
def playerDone (i : Nat) (s : State) : State :=
  if (s.player i).state = .playing ∧ (s.player i).ended = true then
    evt .mxe 4 (updPlayer i (fun p => { p with state := .idle, result := .done, ended := false }) s)
  else s
/-- The meaning of PLAYER_DONE. -/
def execPlayerDone (pl : Fin 64) (s : State) : Res := .next (playerDone pl.val s)
/-- PLAYER_STOP_RAMP_END: 64 frames after a STOP the player is IDLE (R199). -/
def playerStopEnd (i : Nat) (s : State) : State :=
  if (s.player i).state = .stopping ∧ s.sys.tick = 64 * (s.player i).stopFrame + 4096 then
    updPlayer i (fun p => { p with state := .idle, result := .stopped }) s
  else s
/-- The meaning of PLAYER_STOP_RAMP_END. -/
def execPlayerStopRampEnd (pl : Fin 64) (s : State) : Res := .next (playerStopEnd pl.val s)
/-- At the end of the RUN ramp-out every player stops with STOPPED_RUN (R202). -/
def playersStopRun (s : State) : State :=
  s.updMxe fun m => { m with players := m.players.foldl (fun t e =>
    Tab.set (fun _ => {}) t e.1 (if e.2.state = .idle then e.2 else { e.2 with state := .idle, result := .stoppedRun })) m.players }

/-- The words of DRAM that hold an uncorrectable error, by address of their first byte (R472). -/
def dramWordBad (s : State) (a : Nat) : Bool := s.memUe.contains (a / 8 * 8)

/-- The sample a player gives in a frame, and the player after it (R201, R202); `true` where its word holds an uncorrectable error. A
sample that was not fetched in time reads 0 as well (`miss`). -/
def playerSample (s : State) (p : Player) : Int × Player × Bool :=
  if p.state ≠ .playing ∧ p.state ≠ .stopping then (0, p, false)
  else if p.ended then (0, p, false)
  else match msgBase s with
    | none => (0, p, true)
    | some a =>
      let len := msgField s p.msg 1
      let ad := a + msgField s p.msg 0 + 4 * p.pos
      let bad := dramWordBad s ad
      let x := if bad || p.miss then 0 else s20 (s.le ad 4)
      let j := s.frame - p.stopFrame + 1
      let x := if p.state = .stopping ∧ p.stopFrame ≤ s.frame then (if 64 ≤ j then 0 else rampSample x (64 - j) 64) else x
      let nxt := p.pos + 1
      let bad := bad && !p.miss
      let p := { p with miss := false }
      let p' :=
        if nxt < len then { p with pos := nxt }
        else if p.finish || (p.rep != 0 && decide (p.rep ≤ p.pass)) then { p with pos := nxt, ended := true }
        else { p with pos := msgField s p.msg 2, pass := (p.pass + 1) % 256 }
      (x, p', bad)

/-! ### Evaluation (R176 to R179, R196, R197) -/

/-- A logical cell's return of channel c for this frame (R116, R141), under the ramp MXE applies to it (R81, R172). -/
def cellReturn (s : State) (l c : Nat) : Int :=
  match physOf s l with
  | none => 0
  | some p =>
    let x := s.cell p
    if x.role = .active ∧ x.sched = true ∧ x.blockN ≠ 0 then
      let v := Tab.get (fun _ => 0) x.retFront ((s.frame % x.blockN) * 64 + c)
      match Tab.get (fun _ => none) s.fabric.ramps l with
      | none => v
      | some r =>
        if s.frame < r.start then (if r.up then 0 else v)
        else
          let j := s.frame - r.start + 1
          if 64 ≤ j then (if r.up then v else 0) else rampSample v (if r.up then j else 64 - j) 64
    else 0

/-- The value of source index i for this frame (R176); network and port sources are those STE and APT gave for the frame. -/
def sourceValue (s : State) (i : Nat) : Int :=
  let x := s.mxe.srcEnt i
  let n := mapNum x
  match mapKind x with
  | 1 => Tab.get (fun _ => 0) s.netRx n
  | 2 => Tab.get (fun _ => 0) s.portIn n
  | 3 => cellReturn s (n / 64) (n % 64)
  | 4 => (playerSample s (s.player n)).1
  | 5 => Tab.get (fun _ => 0) s.mxe.tap n
  | _ => 0

/-- V_d of R178: the exact sum over the valid entries of the active bank. -/
def destSum (s : State) (d : Nat) : Int :=
  (((s.mxe.bank s.mxe.active).filter fun e => e.2.valid && e.2.dst == d).map fun e =>
    alignProduct .g20s20 false 0 (e.2.gain * sourceValue s e.2.src)).sum

/-- The destinations a frame forms: those with a map entry, with entries, with parameters, or tracked by LDG; every other one writes 0. -/
def formedDests (s : State) : List Nat :=
  let l := s.mxe.dstMap.map (·.1) ++ (s.mxe.bank s.mxe.active).map (·.2.dst) ++ (s.mxe.par s.mxe.active).map (·.1)
    ++ s.ldg.track.map fun e => bits e.2 0 12
  l.eraseDups

/-- One destination of the frame: its sum, its writeback, its ledger measures, its silence count (R104, R178, R196). A destination without
valid entries writes 0 by R178 and rounds nothing, so it draws nothing in DTH (DEDUCED, notes/assumptions/37). -/
def evalDest (d : Nat) (s : State) (m : Mxe) (g : Ldg) : Mxe × Ldg × Bool :=
  let v := destSum s d
  let has := (s.mxe.bank s.mxe.active).any fun e => e.2.valid && e.2.dst == d
  let p := s.mxe.dpar s.mxe.active d
  let t := destTarget s.mxe d
  let rs := Tab.get rndSeed m.rnd d
  let w := if has then writeback t false (RoundMode.ofCode p.rnd) v rs.e rs.a rs.b else ⟨0, 0, false, rs.e, rs.a, rs.b⟩
  let tap := if t = .s20 then w.value else satS 20 (floorDivI v (2 ^ 19))
  let sl := Tab.get (fun _ => ({} : Sil)) m.sil d
  let on := p.silEn && p.silHold != 0 && !s.sys.alarmEff
  let quiet := decide ((floorDivI v (2 ^ 19)).natAbs ≤ p.silThr)
  let c := if on && quiet then min (sl.count + 1) (64 * p.silHold) else 0
  let sl' : Sil := if on then ⟨c, quiet && decide (64 * p.silHold ≤ c)⟩ else {}
  ({ m with rnd := Tab.set rndSeed m.rnd d ⟨w.e, w.a, w.b⟩
            out := Tab.set (fun _ => 0) m.out d w.value
            tap := Tab.set (fun _ => 0) m.tap d tap
            sil := Tab.set (fun _ => ({} : Sil)) m.sil d sl' },
   observe d v w.raw w.value (t.drop false).toNat t.width g, sl.silent != sl'.silent)

/-- Every destination of the frame (R178). -/
def evalAll (s : State) : State :=
  let r := (formedDests s).foldl (fun r d =>
    let o := evalDest d s r.1 r.2.1
    (o.1, o.2.1, r.2.2 || o.2.2)) ({ s.mxe with out := [], tap := [] }, s.ldg, false)
  let s' : State := { s with mxe := { r.1 with bank0 := s.mxe.bank0, bank1 := s.mxe.bank1 }, ldg := if ldgEn s then r.2.1 else s.ldg }
  if r.2.2 then evt .mxe 3 s' else s'

/-- The entries after an evaluated frame: CUR is the gain used. -/
def markCur (e : Xpt) : Xpt := if e.valid then { e with cur := e.gain } else e

/-- The players after an evaluated frame, and whether a sample was missing. -/
def stepPlayers (s : State) : State :=
  let r := s.mxe.players.foldl (fun r e =>
    let o := playerSample s e.2
    (Tab.set (fun _ => ({} : Player)) r.1 e.1 o.2.1, r.2 + b2n o.2.2)) (s.mxe.players, 0)
  let s := s.updMxe fun m => { m with players := r.1 }
  (upto r.2).foldl (fun s _ => raise .mxe 1 s) s

/-- The takeovers of a frame boundary (R189), with the alarm's (R194, R195): not in the snuffed state (R207). -/
def mxeTakeovers (s : State) : State :=
  let s := mxeOpen s
  if s.sys.snuffed then s
  else editStep (swapStep (alarmStep (alarmSwap s)))

/-- From b of the ALARM set every silence count is 0 and every SIL_STAT bit reads 0 (R197). -/
def silClear (s : State) : State :=
  let s' := s.updMxe fun m => { m with sil := [] }
  if s.mxe.sil.any fun e => e.2.silent then evt .mxe 3 s' else s'
/-- At RUN's first frame boundary the rounding states start (R98, R99). -/
def mxeSeed (s : State) : State :=
  s.updMxe fun m => { m with rnd := [] }

/-- The frame in MXE after its takeovers: the evaluation, or silence where it does not evaluate (R178, R179). -/
def mxeFrame (s : State) : State :=
  let on := cellsRun s
  let s := s.updMxe fun m => { m with evaluating := on }
  if on then
    let s := evalAll s
    let s := s.updMxe fun m => m.setBank m.active (mapBank markCur (m.bank m.active))
    stepPlayers s
  else finishRamps (s.updMxe fun m => { m with out := [], tap := [], players := m.players.map fun e => (e.1, { e.2 with miss := false }) })

/-- The cells' inputs of this frame: channel c of a logical cell into slot k mod N of its back input bank (R140); a shadow gets the same. -/
def feedCells (outOf : Nat → Int) (s : State) : State :=
  s.cells.foldl (fun s e =>
    match e.2.logical with
    | none => s
    | some l =>
      if e.2.role = .active ∨ e.2.role = .shadow then
        let f := s.frame % (if e.2.blockN = 0 then 1 else e.2.blockN)
        let bk := (upto 64).foldl (fun t c =>
          Tab.set (fun _ => 0) t (f * 64 + c) (match s.mxe.feeding 1 (64 * l + c) with | some d => outOf d | none => 0)) e.2.inBack
        s.updCell e.1 fun c => { c with inBack := bk }
      else s) s

/-- The codes of Table 7.16. -/
def SwapResult.code : SwapResult → Nat
  | .none => 0 | .done => 1 | .bound => 2 | .duplicate => 3 | .busy => 4 | .alarm => 5 | .loading => 6 | .cancelled => 7 | .preempted => 8 | .moot => 9
def PlayState.code : PlayState → Nat
  | .idle => 0 | .armed => 1 | .playing => 2 | .stopping => 3
def PlayResult.code : PlayResult → Nat
  | .none => 0 | .done => 1 | .stopped => 2 | .moot => 3 | .busy => 4 | .badMsg => 5 | .corrupt => 6 | .stoppedRun => 7 | .lateArm => 8 | .notRun => 9

/-- A read of MXE's registers that hold live state (Table 7.15). -/
def mxeRegRead (m : Master) (off : Nat) (s : State) : Option Word :=
  let x := s.mxe
  let e := Tab.get (fun _ => ({} : EditRegs)) x.edits m.idx
  if off = 0x004 then
    some (pack [(0, x.active), (1, b2n x.swapPending), (2, b2n x.checking), (3, b2n x.swapWait), (4, b2n x.routeWait), (5, b2n x.alarmBank)])
  else if off = 0x008 then some (pack [(16, x.resTick), (0, x.result.code)])
  else if off = 0x00C then some (wd (validCount (x.bank x.active)))
  else if off = 0x010 then some (wd x.need)
  else if off = 0x020 then some e.e0
  else if off = 0x024 then some e.e1
  else if off = 0x028 then some e.e2
  else if off = 0x030 then some (pack [(0, x.queue.length), (16, b2n x.overflow), (17, b2n x.bad)])
  else if 0x800 ≤ off ∧ off < 0xA00 then
    let i := (off - 0x800) / 4
    some (wd ((upto 32).map fun b => b2n (Tab.get (fun _ => ({} : Sil)) x.sil (32 * i + b)).silent * 2 ^ b).sum)
  else if 0x1000 ≤ off ∧ off < 0x1800 ∧ off % 0x20 = 0x0C then
    let p := s.player ((off - 0x1000) / 0x20)
    some (pack [(0, p.state.code), (4, p.result.code), (8, p.pass)])
  else if 0x1000 ≤ off ∧ off < 0x1800 ∧ off % 0x20 = 0x10 then some (wd (s.player ((off - 0x1000) / 0x20)).pos)
  else none

/-- A write of MXE's registers with an effect of their own. -/
def mxeRegWrite (m : Master) (off : Nat) (v : Word) (s : State) : Option State :=
  let upd (f : EditRegs → EditRegs) : State :=
    s.updMxe fun x => { x with edits := Tab.set (fun _ => ({} : EditRegs)) x.edits m.idx (f (Tab.get (fun _ => {}) x.edits m.idx)) }
  if off = 0x000 then
    let s := s.setReg 0x40100000 (v &&& 4)
    let s := if bit v 1 then swapCancel s else s
    some (if bit v 0 then swapReq (bit v 2) s else s)
  else if off = 0x020 then some (upd fun e => { e with e0 := v &&& 0xFFF0FFF })
  else if off = 0x024 then some (upd fun e => { e with e1 := v &&& 0xFFFFF })
  else if off = 0x028 then some (upd fun e => { e with e2 := v &&& 0x8FFF0FFF })
  else if off = 0x02C then some (editCmd m (bits v 0 2) s)
  else if off = 0x030 then some (s.updMxe fun x => { x with overflow := x.overflow && !bit v 16, bad := x.bad && !bit v 17 })
  else if 0x1000 ≤ off ∧ off < 0x1800 ∧ off % 0x20 = 0 then some (playCtrl ((off - 0x1000) / 0x20) v s)
  else none

end Sys2Proof.Machine
end

