-- ==== Sys2Proof/Machine/Dly.lean ====
section
/-! DEFINITION. The delay engine: lines in DRAM, third-order interpolation, crossfades of the delay (R203 to R205, R210). -/
namespace Sys2Proof.Machine
open Sys2Proof

/-- Line i. -/
def State.line (s : State) (i : Nat) : Line := Tab.get (fun _ => {}) s.dly.lines i
/-- Line i changes. -/
def updLine (i : Nat) (f : Line → Line) (s : State) : State :=
  { s with dly := { s.dly with lines := Tab.set (fun _ => ({} : Line)) s.dly.lines i (f (s.line i)) } }

/-- The address of the word that holds sample k of a line of CAPACITY + 4 words. -/
def lineAddr (l : Line) (k : Nat) : Nat := l.base + 4 * (k % (l.cap + 4))
/-- x[k - n] of a line at frame k: 0 before the frame of the last RUN set (R204). -/
def lineSample (s : State) (l : Line) (k n : Nat) : Int :=
  if k < n + l.since then 0 else s20 (s.le (lineAddr l (k - n)) 4)
/-- The words a delay reads hold an uncorrectable error (R211, READ_ERR). -/
def lineBad (s : State) (l : Line) (k d : Nat) : Bool :=
  let n := d / 1024
  (if d % 1024 = 0 then [n] else [n - 1, n, n + 1, n + 2]).any fun j => decide (j + l.since ≤ k) && dramWordBad s (lineAddr l (k - j))

/-- The interpolation coefficients of R204. -/
def cm1 (f : Int) : Int := rneDiv (-f * (f - 1024) * (f - 2048)) 12288
def c0 (f : Int) : Int := rneDiv ((f + 1024) * (f - 1024) * (f - 2048)) 4096
def c1 (f : Int) : Int := rneDiv (-((f + 1024) * f * (f - 2048))) 4096
def c2 (f : Int) : Int := rneDiv ((f + 1024) * f * (f - 1024)) 12288

/-- The accumulator A of a delay D at frame k (R204). -/
def lineAcc (s : State) (l : Line) (k d : Nat) : Int :=
  let n := d / 1024
  let f : Int := (d % 1024 : Nat)
  if d % 1024 = 0 then lineSample s l k n * 2 ^ 19
  else cm1 f * lineSample s l k (n - 1) + c0 f * lineSample s l k n + c1 f * lineSample s l k (n + 1) + c2 f * lineSample s l k (n + 2)

/-- The output y[k] of a line, in a crossfade or not (R204, R205). -/
def lineOut (s : State) (l : Line) (k : Nat) : Int :=
  if l.xfLeft = 0 then satS 20 (rneDiv (lineAcc s l k l.delay) (2 ^ 19))
  else
    let j := l.xf - l.xfLeft
    let w : Int := ((2 ^ 16 * (j + 1) / l.xf : Nat) : Int)
    satS 20 (rneDiv (w * lineAcc s l k l.delay + (2 ^ 16 - w) * lineAcc s l k l.old) (2 ^ 35))

/-- A delay is valid for a line (R205). -/
def delayOk (l : Line) (d : Nat) : Bool := decide (d ≤ 1024 * l.cap) && (d % 1024 == 0 || decide (1024 ≤ d))

/-- A write of LINE_DELAY[i]: a valid value waits for the next frame boundary, an invalid one is refused with RANGE (R205). -/
def lineDelayWrite (i : Nat) (v : Word) (s : State) : State :=
  let d := v.toNat % 2 ^ 28
  let l := s.line i
  if l.valid && delayOk l d then updLine i (fun l => { l with reg := d, held := some d }) s else raise .dly 2 s
/-- The meaning of LINE_DELAY_WRITE. -/
def execLineDelayWrite (m : Master) (i : Fin 1024) (v : Word) (s : State) : Res := .next (cmd m false (lineDelayWrite i.val v) s)

/-- The takeover of a line at a frame boundary: a held value starts a crossfade where none runs (R205). -/
def lineTakeover (l : Line) : Line :=
  match l.held with
  | none => l
  | some d => if l.xfLeft = 0 ∧ l.xfEnd = false then { l with old := l.delay, delay := d, held := none, xfLeft := l.xf } else l
/-- The boundary after the last frame of a crossfade ends it. -/
def lineEnd (l : Line) : Line := if l.xfEnd then { l with xfEnd := false, xfDone := true } else l

/-- XFADE_DONE: the crossfade of a line has run its XF frames, and a held value starts the next one at this boundary (R205). Where the
command stands before FRAME_BOUNDARY of the tick, it ends the crossfade itself. -/
def xfadeDone (i : Nat) (s : State) : State :=
  let l := s.line i
  let ends := l.xfEnd && s.atFrame && s.sys.frameAt != some s.sys.tick
  if l.valid && (l.xfDone || ends) then
    evt .dly 0 (updLine i (fun l => { (if ends then lineTakeover (lineEnd l) else l) with xfDone := false }) s)
  else s
/-- The meaning of XFADE_DONE. -/
def execXfadeDone (i : Fin 1024) (s : State) : Res := .next (xfadeDone i.val s)

/-- One line in a frame in which MXE evaluates: takeover, write, output (R204). A read that failed or came late gives 0 for the frame
(Table 7.19). -/
def lineFrame (i : Nat) (s : State) : State :=
  let l := lineTakeover (lineEnd (s.line i))
  let k := s.frame
  let s := s.setBytes (lineAddr l k) (leBytes 4 (uInt 20 (Tab.get (fun _ => 0) s.mxe.tap l.dst)))
  let bad := !l.miss && (lineBad s l k l.delay || (l.xfLeft != 0 && lineBad s l k l.old))
  let y := if bad || l.miss then 0 else lineOut s l k
  let s := if bad then raise .dly 0 s else s
  let s := { s with dly := { s.dly with out := Tab.set (fun _ => 0) s.dly.out l.dst y } }
  updLine i (fun _ => { l with xfLeft := l.xfLeft - 1, xfEnd := l.xfLeft == 1, miss := false }) s
/-- Every line of the frame. -/
def dlyFrame (s : State) : State :=
  let s := { s with dly := { s.dly with out := [] } }
  if s.mxe.evaluating then s.dly.lines.foldl (fun s e => if e.2.valid then lineFrame e.1 s else s) s
  else { s with dly := { s.dly with lines := s.dly.lines.map fun e => (e.1, { lineTakeover (lineEnd e.2) with miss := false }) } }
/-- At the frame boundary at which RUN is set, the lines start empty (R204). -/
def dlyRunStart (s : State) : State :=
  { s with dly := { s.dly with lines := s.dly.lines.map fun e => (e.1, { e.2 with since := s.frame }) } }

/-- The line that delays a destination. -/
def lineOf (s : State) (d : Nat) : Option Line := (s.dly.lines.find? fun e => e.2.valid && e.2.dst == d).map (·.2)
/-- The value a destination's consumer receives in this frame, in the destination's target format (R203, Table 7.2). -/
def destOut (s : State) (d : Nat) : Int :=
  match lineOf s d with
  | none => Tab.get (fun _ => 0) s.mxe.out d
  | some _ =>
    let y := Tab.get (fun _ => 0) s.dly.out d
    match destTarget s.mxe d with
    | .out24 => y * 16
    | .out16 => floorDivI y 16
    | _ => y
/-- The value of a consumer: of a kind and number; 0 where no destination names it (R177). -/
def consumerValue (s : State) (kind num : Nat) : Int := match s.mxe.feeding kind num with | some d => destOut s d | none => 0

/-- The lines of the DELAY_LINES payload at a (R203). -/
def applyLines (a : Nat) (s : State) : State :=
  let n := s.le a 4
  let t := (upto n).foldl (fun t i =>
    let b := a + 4 + 24 * i
    let d := s.le (b + 8) 4
    Tab.set (fun _ => ({} : Line)) t i
      { valid := true, dst := s.le b 2 % 4096, xf := s.le (b + 2) 2, cap := s.le (b + 4) 4, base := s.le (b + 16) 8, reg := d, delay := d, since := s.frame }) []
  { s with dly := { lines := t, out := [] } }

/-- A read of DLY's registers that hold live state (Table 7.18). -/
def dlyRegRead (off : Nat) (s : State) : Option Word :=
  if off = 0x004 then some (wd (s.dly.lines.filter fun e => e.2.valid).length)
  else if 0x1000 ≤ off ∧ off < 0x2000 then some (wd (s.line ((off - 0x1000) / 4)).reg)
  else if 0x2000 ≤ off ∧ off < 0x3000 then
    let l := s.line ((off - 0x2000) / 4)
    some (pack [(0, l.delay), (29, b2n l.valid), (30, b2n l.held.isSome), (31, b2n (l.xfLeft != 0 || l.xfEnd))])
  else if 0x3000 ≤ off ∧ off < 0x4000 then
    let l := s.line ((off - 0x3000) / 4)
    some (pack [(0, l.dst), (16, l.xf - 1)])
  else if 0x4000 ≤ off ∧ off < 0x5000 then some (wd (s.line ((off - 0x4000) / 4)).cap)
  else none

end Sys2Proof.Machine
end

