-- ==== Sys2Proof/Machine/Mac.lean ====
section
/-! DEFINITION. The Ethernet MACs: link, receive checks, transmit queues and selection, pause and its watchdog, fence,
drain, counters (R212 to R236). -/
namespace Sys2Proof.Machine
open Sys2Proof

/-- MAC n. -/
def State.mac (s : State) (n : Nat) : Mac := Tab.get (fun _ => {}) s.macs n
/-- MAC n changes. -/
def updMac (n : Nat) (f : Mac → Mac) (s : State) : State := { s with macs := Tab.set (fun _ => ({} : Mac)) s.macs n (f (s.mac n)) }
/-- The address of a MAC's register. -/
def macReg (n off : Nat) : Nat := (Blk.mac n).base + off
/-- Counter c of MAC n counts on by k, modulo 2^64 (R232). -/
def macCount (n c k : Nat) (s : State) : State :=
  updMac n (fun m => { m with cnt := Tab.set (fun _ => 0) m.cnt c ((Tab.get (fun _ => 0) m.cnt c + k) % 2 ^ 64) }) s

/-- CFG.SPEED; 3 acts as 0 (Table 8.8). -/
def macSpeed (s : State) (n : Nat) : Nat := let v := s.fld (macReg n 8) 0 2; if v = 3 then 0 else v
/-- The line mode and AN_EN of a CFG word: what the link's condition depends on (R213, R214). -/
def lineMode (cfg : Word) : Nat × Bool := let v := bits cfg 0 2; (if v = 3 then 0 else v, bit cfg 2)
/-- MAX_LEN in effect (Table 8.8). -/
def maxLenOf (cfg : Word) : Nat := let v := bits cfg 16 14; if 64 ≤ v ∧ v ≤ 9216 then v else 9216
/-- MAX_LEN of MAC n. -/
def macMaxLen (s : State) (n : Nat) : Nat := maxLenOf (s.reg (macReg n 8))
/-- CTRL.RX_EN or CTRL.TX_EN is set. -/
def macEnabled (s : State) (n : Nat) : Bool := s.rbit (macReg n 0) 0 || s.rbit (macReg n 0) 1
/-- A MAC's own address, as a number of six octets. -/
def macAddr (s : State) (n : Nat) : Nat := s.fld (macReg n 0x10) 0 16 * 2 ^ 32 + (s.reg (macReg n 0xC)).toNat

/-! ### The CRC-32 of IEEE 802.3 (R217) -/

/-- k bit steps of the reflected CRC. -/
def crc32Bits : Nat → Nat → Nat
  | 0, c => c
  | k + 1, c => crc32Bits k (if c % 2 = 1 then Nat.xor (c / 2) 0xEDB88320 else c / 2)
/-- The CRC register after a list of octets. -/
def crc32Bytes : Nat → List Byte → Nat
  | c, [] => c
  | c, b :: t => crc32Bytes (crc32Bits 8 (Nat.xor c b.toNat)) t
/-- The CRC-32 of a list of octets, with its initial value and final exclusive-or. -/
def crc32 (l : List Byte) : Nat := Nat.xor (crc32Bytes 0xFFFFFFFF l) 0xFFFFFFFF

/-! ### Transmission (R219 to R222) -/

/-- Queue q of a MAC, head first. -/
def Mac.queue (m : Mac) (q : Nat) : List (List Byte) := Tab.get (fun _ => []) m.txq q
/-- Queue q takes a content; a new head starts its age at tick t. -/
def Mac.setQueue (m : Mac) (q t : Nat) (l : List (List Byte)) : Mac :=
  { m with txq := Tab.set (fun _ => ([] : List (List Byte))) m.txq q l, headSince := Tab.set (fun _ => 0) m.headSince q t }
/-- Octets of queue memory a frame occupies (R219). -/
def txOctets (f : List Byte) : Nat := 64 * ceilDiv f.length 64
/-- The size of queue q in octets (TXQ_SIZE0, TXQ_SIZE1). -/
def queueSize (s : State) (n q : Nat) : Nat := 1024 * s.fld (macReg n (0x14 + q / 4 * 4)) (8 * (q % 4)) 8
/-- The octets queue q holds, the frame in progress included. -/
def queueUsed (m : Mac) (q : Nat) : Nat :=
  ((m.queue q).map txOctets).sum + match m.cur with
    | some c => if c.q = q then txOctets c.frame else 0
    | none => 0
/-- Transmission is held by pause (R223); a drain ignores it (R228). -/
def Mac.held (m : Mac) : Bool := m.pauseQ != 0 && !m.draining
/-- AGE_LIMIT in ticks; below 10 µs it acts as 10 (Table 8.7). -/
def ageTicks (s : State) (n : Nat) : Nat := s.usTicks (max 10 (s.fld (macReg n 0x20) 0 16))
/-- The age of the head of a queue in ticks. -/
def headAge (s : State) (m : Mac) (q : Nat) : Nat := s.sys.tick - Tab.get (fun _ => 0) m.headSince q
/-- The highest non-empty queue of a list of queues. -/
def firstQueue (m : Mac) (l : List Nat) : Option Nat := l.find? fun q => m.queue q != []
/-- The aged head of queues 5 to 0 with the greatest age, the higher queue first on equal age (R221). -/
def agedQueue (s : State) (n : Nat) (m : Mac) : Option Nat :=
  [5, 4, 3, 2, 1, 0].foldl (fun b q =>
    if m.queue q != [] && decide (ageTicks s n ≤ headAge s m q) then
      match b with
      | some p => if headAge s m p < headAge s m q then some q else b
      | none => some q
    else b) none

/-- The queue R221 selects, and whether its head is selected as aged. -/
def macPick (s : State) (n : Nat) : Option (Nat × Bool) :=
  let m := s.mac n
  if m.held then none
  else if m.queue 7 != [] then some (7, false)
  else if m.queue 6 != [] then some (6, false)
  else
    match (if m.creditAt ≤ s.sys.tick then agedQueue s n m else none) with
    | some q => some (q, true)
    | none => (firstQueue m [5, 4, 3, 2, 1, 0]).map fun q => (q, false)

/-- The selection of the next frame while the transmitter is idle (R221); in the snuffed state nothing is sent (Table 16.3), and with SPEED =
OFF the transmitter is powered down (R212). -/
def macSelect (n : Nat) (s : State) : State :=
  if (s.mac n).cur.isSome || s.sys.snuffed || macSpeed s n == 0 then s
  else
    match macPick s n with
    | none => s
    | some (q, aged) =>
      let t := s.sys.tick
      let lim := ageTicks s n
      let s := updMac n (fun m =>
        match m.queue q with
        | [] => m
        | f :: r => { m.setQueue q t r with cur := some ⟨q, f, false⟩, creditAt := if aged then t + lim else m.creditAt }) s
      if aged then macCount n 22 1 s else s

/-- What a writer is told of a frame it hands over (R219, R225, R260). -/
inductive TxAnswer where
  | ok | qfull | fenced
deriving DecidableEq, Repr

/-- Audio queues are closed while RUN is 0 or STANDBY is 1 (R227). -/
def audioClosed (s : State) : Bool := !s.sys.run || s.sys.standby

/-- A writer hands MAC n a frame for queue q (R219): fenced, disabled and closed queues refuse it; a length out of range or a
lack of room refuses and counts it; else it enters the queue. In the snuffed state every frame ends in error (Table 16.3). -/
def macEnqueue (n q : Nat) (f : List Byte) (s : State) : State × TxAnswer :=
  let m := s.mac n
  if m.fenced || s.sys.snuffed then (s, .fenced)
  else if !m.txOn || m.draining || ((q = 5 || q = 6) && audioClosed s) then (s, .qfull)
  else if f.length < 14 ∨ macMaxLen s n - 4 < f.length then (raise (.mac n) 3 (macCount n 21 1 s), .qfull)
  else if queueSize s n q < queueUsed m q + txOctets f then (macCount n 21 1 s, .qfull)
  else
    let t := s.sys.tick
    let s := updMac n (fun m => m.setQueue q (if m.queue q = [] then t else Tab.get (fun _ => 0) m.headSince q) (m.queue q ++ [f])) s
    (macSelect n s, .ok)
/-- The meaning of TX_FRAME_ENQUEUE. -/
def execTxFrameEnqueue (n : Fin 4) (q : Fin 8) (frame : List Byte) (s : State) : Res := .next (macEnqueue n.val q.val frame s).1

/-- FRAME_TRANSMIT_END: the frame in progress is counted with its padding and FCS (R220, R221), and the next is selected. -/
def frameTransmitEnd (n : Nat) (s : State) : State :=
  match (s.mac n).cur with
  | none => s
  | some c =>
    let s := updMac n (fun m => { m with cur := none }) s
    let s := macCount n (12 + c.q) 1 s
    let s := macCount n 11 (max 60 c.frame.length + 4) s
    macSelect n s
/-- The meaning of FRAME_TRANSMIT_END. -/
def execFrameTransmitEnd (n : Fin 4) (s : State) : Res := .next (frameTransmitEnd n.val s)

/-- The frames of the queues of a list are discarded and counted in TX_FLUSHED (R225, R227, R229). -/
def flushQueues (n : Nat) (qs : List Nat) (s : State) : State :=
  let k := (qs.map fun q => ((s.mac n).queue q).length).sum
  let s := updMac n (fun m => qs.foldl (fun m q => m.setQueue q 0 []) m) s
  if k = 0 then s else macCount n 20 k s
/-- Every queue. -/
def allQueues : List Nat := [0, 1, 2, 3, 4, 5, 6, 7]
/-- The audio queues of every MAC are discarded, in the tick in which RUN is cleared or STANDBY set (R227). -/
def flushAudio (s : State) : State := [0, 1, 2, 3].foldl (fun s n => flushQueues n [5, 6] s) s

/-! ### Link and fence (R214, R225, R226) -/

/-- LINK_LOST: the MAC is fenced and every queued frame is discarded (R225). -/
def macLinkLost (n : Nat) (s : State) : State :=
  let s := raise (.mac n) 0 s
  let s := updMac n (fun m => { m with fenced := true, enabledAt := none }) s
  settle (flushQueues n allQueues s)

/-- LINK_UP: the condition of the line's mode has held for 10 ms. With auto-negotiation it takes AN_DONE (R213, R214). -/
def linkUp (n : Nat) (s : State) : State :=
  let m := s.mac n
  let sp := macSpeed s n
  if m.link || sp == 0 || (sp == 1 && s.rbit (macReg n 8) 2 && !m.anDone) then s
  else evt (.mac n) 0 (updMac n (fun m => { m with link := true, lock := true, localFault := false, remoteFault := false, enabledAt := none }) s)
/-- The meaning of LINK_UP. -/
def execLinkUp (n : Fin 4) (s : State) : Res := .next (linkUp n.val s)

/-- LINK_DOWN: the condition fails, with the line's lock, faults and auto-negotiation as they now are; on a MAC with an
enable set LINK_LOST fences it (R214, R225). -/
def linkDown (n : Nat) (lock lf rf an : Bool) (s : State) : State :=
  let was := (s.mac n).link
  let s := updMac n (fun m => { m with link := false, lock := lock, localFault := lf, remoteFault := rf, anDone := m.anDone && an }) s
  if was then
    let s := evt (.mac n) 0 s
    if macEnabled s n then macLinkLost n s else s
  else s
/-- The meaning of LINK_DOWN. -/
def execLinkDown (n : Fin 4) (lock lf rf an : Bool) (s : State) : Res := .next (linkDown n.val lock lf rf an s)

/-- MAC_LINK_TIMEOUT: 500 ms after the enable from both bits 0 the link is not up (R225). -/
def macLinkTimeout (n : Nat) (s : State) : State :=
  let m := s.mac n
  match m.enabledAt with
  | some t => if !m.link && macEnabled s n && decide (t + s.msTicks 500 ≤ s.sys.tick) then macLinkLost n s else s
  | none => s
/-- The meaning of MAC_LINK_TIMEOUT. -/
def execMacLinkTimeout (n : Fin 4) (s : State) : Res := .next (macLinkTimeout n.val s)

/-- AUTO_NEGOTIATION_COMPLETE: at 1000BASE-X with AN_EN = 1, with a partner that advertises full duplex (R213). -/
def autoNegDone (n : Nat) (s : State) : State :=
  if macSpeed s n == 1 && s.rbit (macReg n 8) 2 && !(s.mac n).anDone then evt (.mac n) 3 (updMac n (fun m => { m with anDone := true }) s) else s
/-- The meaning of AUTO_NEGOTIATION_COMPLETE. -/
def execAutoNegotiationComplete (n : Fin 4) (s : State) : Res := .next (autoNegDone n.val s)

/-- The line's mode is another than that of a former CFG word, so its condition fails: the link goes down, with the lock, the faults and the
auto-negotiation that belonged to the former mode (R212, R214). -/
def macLine (n : Nat) (old : Word) (s : State) : State :=
  if lineMode old == lineMode (s.reg (macReg n 8)) then s
  else
    let was := (s.mac n).link
    let s := updMac n (fun m => { m with link := false, lock := false, localFault := false, remoteFault := false, anDone := false }) s
    if was then evt (.mac n) 0 s else s
/-- The time held by pause so far, in ticks of 96 kHz. -/
def heldTotal (s : State) (m : Mac) : Nat :=
  m.heldTime + match m.heldFrom with
    | some t => (s.sys.tick - t) * (if s.sys.fs48 then 2 else 1)
    | none => 0
/-- The time held by pause runs while an enabled transmitter that does not drain finds its timer non-zero (R223, R228). -/
def holdTime (s : State) (m : Mac) : Mac :=
  if m.txOn && m.held then { m with heldFrom := some (m.heldFrom.getD s.sys.tick) }
  else { m with heldTime := heldTotal s m, heldFrom := none }
/-- The enables of CTRL take effect (R230): a bit set turns its side on. -/
def macApplyEnables (n : Nat) (s : State) : State :=
  let c := s.reg (macReg n 0)
  updMac n (fun m =>
    let m := if bit c 0 then { m with rxOn := true, rxIdle := false, rxTail := none } else m
    if bit c 1 then holdTime s { m with creditAt := if m.txOn then m.creditAt else 0, txOn := true, draining := false, txIdle := false } else m) s

/-- Software has cleared LINK_LOST: with the link up the fence lifts and CTRL acts; else the MAC stays fenced, and the bit sets again in the
next tick (R226; `redetect`). -/
def macClearLinkLost (n : Nat) (s : State) : State :=
  let m := s.mac n
  if !m.fenced then s
  else if m.link then settle (macSelect n (macApplyEnables n (updMac n (fun m => { m with fenced := false }) s)))
  else s

/-! ### Pause (R223, R224) -/

/-- PAUSED_US: that time in microseconds (6.144 ticks each). -/
def pausedUs (s : State) (m : Mac) : Nat := heldTotal s m * 125 / 768 % 2 ^ 64
/-- The pause timer takes a value (R223): the watchdog's count starts when it becomes non-zero. -/
def setPause (q : Nat) (n : Nat) (s : State) : State :=
  let t := s.sys.tick
  updMac n (fun m => holdTime s { m with pauseQ := q, pauseSince := if m.pauseQ = 0 then t else m.pauseSince }) s

/-- A PAUSE frame of some quanta (R223, R224, R228): counted; ignored in hold-off and in a drain; obeyed with PAUSE_EN = 1. -/
def pauseReceive (n quanta : Nat) (s : State) : State :=
  let m := s.mac n
  if !m.link then s
  else
    let s := macCount n 8 1 s
    if m.holdoff.isSome || m.draining then macCount n 9 1 s
    else if s.rbit (macReg n 0x1C) 0 then macSelect n (setPause quanta n s) else s
/-- The meaning of PAUSE_FRAME. -/
def execPauseFrame (n : Fin 4) (quanta : Fin 65536) (s : State) : Res := .next (pauseReceive n.val quanta.val s)
/-- PAUSE_TIMER_EXPIRY: the timer reaches 0 and selection resumes (R223). -/
def pauseExpiry (n : Nat) (s : State) : State := if (s.mac n).pauseQ = 0 then s else macSelect n (setPause 0 n s)
/-- The meaning of PAUSE_TIMER_EXPIRY. -/
def execPauseTimerExpiry (n : Fin 4) (s : State) : Res := .next (pauseExpiry n.val s)

/-- A field of PAUSE_CFG in units of 100 µs, in ticks; 0 acts as 1. -/
def pauseTicks (s : State) (n lo w : Nat) : Nat := s.usTicks (100 * max 1 (s.fld (macReg n 0x1C) lo w))
/-- PAUSE_BREAK with its local action: the timer is 0, and hold-off runs for PAUSE_CFG.HOLDOFF (R224). -/
def pauseBreak (n : Nat) (s : State) : State :=
  let s := setPause 0 n (raise (.mac n) 2 s)
  let e := s.sys.tick + pauseTicks s n 16 8
  macSelect n (updMac n (fun m => { m with holdoff := some e }) s)
/-- PAUSE_WATCHDOG: pause without a break has reached WD_LIMIT (R224). -/
def pauseWatchdog (n : Nat) (s : State) : State :=
  let m := s.mac n
  if m.pauseQ != 0 && decide (m.pauseSince + pauseTicks s n 4 8 ≤ s.sys.tick) then pauseBreak n s else s
/-- The meaning of PAUSE_WATCHDOG. -/
def execPauseWatchdog (n : Fin 4) (s : State) : Res := .next (pauseWatchdog n.val s)
/-- HOLDOFF_END: hold-off has run its PAUSE_CFG.HOLDOFF (R224). -/
def holdoffEnd (n : Nat) (s : State) : State :=
  match (s.mac n).holdoff with
  | some e => if e ≤ s.sys.tick then updMac n (fun m => { m with holdoff := none }) s else s
  | none => s
/-- The meaning of HOLDOFF_END. -/
def execHoldoffEnd (n : Fin 4) (s : State) : Res := .next (holdoffEnd n.val s)

/-! ### Reception (R216 to R218) -/

/-- Octets i to i+k-1 of a frame as a number, the first octet most significant. -/
def octs (f : List Byte) (i k : Nat) : Nat := beNat ((f.drop i).take k)
/-- The frame's FCS matches the CRC-32 of the rest; the FCS is sent with the CRC's low octet first. -/
def fcsMatch (f : List Byte) : Bool := leNat (f.drop (f.length - 4)) == crc32 (f.take (f.length - 4))
/-- The hash bin of a group address: bits [8:0] of its CRC (R217). -/
def hashBin (f : List Byte) : Nat := crc32 (f.take 6) % 512
/-- R217 accepts the destination address. -/
def addrOk (s : State) (n : Nat) (f : List Byte) : Bool :=
  let da := octs f 0 6
  if octs f 0 1 % 2 = 0 then da == macAddr s n
  else if da = 0xFFFFFFFFFFFF then s.rbit (macReg n 8) 3
  else s.rbit (macReg n (0x100 + 4 * (hashBin f / 32))) (hashBin f % 32)

/-- A timestamp: a counter value of 64 bits and 32 fraction bits, of which bits [25:0] are 0 (R267, R273). -/
def toStamp (c : Nat) : Nat := c / 2 ^ 26 * 2 ^ 26 % 2 ^ 96
/-- The octets of a receive buffer. -/
def Mac.rxOctets (m : Mac) : Nat := (m.rx.map fun x => x.bytes.length).sum
/-- A frame that passed every check enters the receive buffer of 64 KiB (R218) with the stamp c of its arrival (R273); a fenced MAC
discards it (R225). -/
def macDeliver (n : Nat) (f : List Byte) (c : Nat) (s : State) : State :=
  let m := s.mac n
  if m.fenced then s
  else if 65536 < m.rxOctets + f.length then raise (.mac n) 4 (macCount n 7 1 s)
  else macCount n 1 f.length (macCount n 0 1 (updMac n (fun m => { m with rx := m.rx ++ [⟨f, toStamp c⟩] }) s))

/-- The frame is a MAC control frame (EtherType 0x8808). -/
def isControl (f : List Byte) : Bool := octs f 12 2 == 0x8808
/-- Table 8.2, in order: what becomes of a frame of which a code error may have hit a part, and whose arrival is stamped c. -/
def macChecks (n : Nat) (f : List Byte) (codeErr on : Bool) (c : Nat) (s : State) : State :=
  let count (c : Nat) (s : State) : State := if on then macCount n c 1 s else s
  if codeErr then count 5 s
  else if f.length < 64 then count 3 s
  else if macMaxLen s n < f.length then count 4 s
  else if !fcsMatch f then count 2 s
  else if isControl f then
    if octs f 14 2 = 1 then
      if octs f 0 6 = 0x0180C2000001 ∨ octs f 0 6 = macAddr s n then pauseReceive n (octs f 16 2) s else count 6 s
    else if octs f 14 2 = 0x101 then count 10 s
    else count 6 s
  else if !on then s
  else if !addrOk s n f then macCount n 6 1 s
  else macDeliver n f c s

/-- MAC_FRAME_RECEIVE: a frame's last octet, FCS included, has arrived on an up link (R216). A disabled receiver counts
nothing and passes nothing but PAUSE (R223, R230); the frame in reception at the disable still completes. -/
def macFrameReceive (n : Nat) (f : List Byte) (codeErr : Bool) (c : Nat) (s : State) : State :=
  let m := s.mac n
  if !m.link then s
  else
    let s := macChecks n f codeErr (m.rxOn || m.rxTail.isSome) c s
    if m.rxTail.isSome then updMac n (fun m => { m with rxTail := none, rxIdle := true }) s else s
/-- The meaning of MAC_FRAME_RECEIVE. -/
def execMacFrameReceive (n : Fin 4) (frame : RxFrame) (codeErr : Bool) (s : State) : Res :=
  .next (macFrameReceive n.val frame.bytes codeErr frame.stamp s)

/-! ### CTRL: enable, drain, abort (R228 to R230) -/

/-- TX_EN is cleared on a running transmitter: the drain starts, and a hold by pause ends (R228). -/
def macStartDrain (n : Nat) (s : State) : State :=
  macSelect n (updMac n (fun m => if m.txOn && !m.draining then holdTime s { m with draining := true } else m) s)
/-- The ticks one frame of the largest length takes on the line, rounded up (R230). -/
def frameTicks (s : State) (n : Nat) : Nat :=
  ceilDiv ((macMaxLen s n + 8) * 8 * 64 * s.fs) (if macSpeed s n = 2 then 10000000000 else 1000000000)
/-- RX_EN is cleared on a running receiver; a frame in reception may still complete, within one maximum frame time (R230). -/
def macStopRx (n : Nat) (busy : Bool) (s : State) : State :=
  let e := s.sys.tick + frameTicks s n
  updMac n (fun m => if m.rxOn then { m with rxOn := false, rxTail := if busy then some e else none, rxIdle := !busy } else m) s
/-- The time in which a frame in reception can complete has passed: RX_IDLE (R230). -/
def macRxTick (s : State) : State :=
  [0, 1, 2, 3].foldl (fun s n =>
    if (s.mac n).rxTail.any fun e => decide (e ≤ s.sys.tick) then updMac n (fun m => { m with rxTail := none, rxIdle := true }) s else s) s

/-- A write of CTRL. -/
def macCtrlWrite (n : Nat) (v : Word) (busy : Bool) (s : State) : State :=
  let m := s.mac n
  let t := s.sys.tick
  let was := macEnabled s n
  let s := s.setReg (macReg n 0) (v &&& 3)
  let s := if bits v 0 2 = 0 then updMac n (fun m => { m with enabledAt := none }) s
    else if !was && !m.fenced && !m.link then updMac n (fun m => { m with enabledAt := some t }) s else s
  let s := if bit v 0 then s else macStopRx n busy s
  let s := if bit v 1 then s else macStartDrain n s
  let s := if m.fenced then s else macSelect n (macApplyEnables n s)
  if bit v 2 then
    if m.draining && !bit v 1 then flushQueues n allQueues s else evt (.mac n) 2 s
  else s
/-- A write of CTRL as a bus write of the register brings it. Whether a frame is in reception when it clears RX_EN no command has said: a free
value (notes/assumptions/18). -/
def macCtrlBus (n : Nat) (v : Word) (s : State) : State :=
  if (s.mac n).rxOn && !bit v 0 then
    let r := s.draw
    macCtrlWrite n v (bit r.1 0) r.2
  else macCtrlWrite n v false s
/-- The meaning of MAC_TX_DISABLE. -/
def execMacTxDisable (m : Master) (n : Fin 4) (s : State) : Res :=
  .next (cmd m true (fun s => macCtrlWrite n.val (s.reg (macReg n.val 0) &&& ~~~2) false s) s)
/-- The meaning of MAC_FORCE. -/
def execMacForce (m : Master) (n : Fin 4) (s : State) : Res :=
  .next (cmd m true (fun s => macCtrlWrite n.val ((s.reg (macReg n.val 0) &&& ~~~2) ||| 4) false s) s)
/-- The meaning of MAC_RX_DISABLE: `busy` where a frame is in reception. -/
def execMacRxDisable (m : Master) (n : Fin 4) (busy : Bool) (s : State) : Res :=
  .next (cmd m true (fun s => macCtrlWrite n.val (s.reg (macReg n.val 0) &&& ~~~1) busy s) s)
/-- The meaning of MAC_ENABLE: the named bits are set. -/
def execMacEnable (m : Master) (n : Fin 4) (rx tx : Bool) (s : State) : Res :=
  .next (cmd m true (fun s => macCtrlWrite n.val (s.reg (macReg n.val 0) ||| wd (b2n rx + 2 * b2n tx)) false s) s)

/-- MAC_TX_IDLE: the drain ends with empty queues and no frame in progress (R228, R229). -/
def macTxIdle (n : Nat) (s : State) : State :=
  let m := s.mac n
  if m.draining && m.cur.isNone && allQueues.all (fun q => m.queue q == []) then
    evt (.mac n) 1 (updMac n (fun m => holdTime s { m with draining := false, txOn := false, txIdle := true }) s)
  else s
/-- The meaning of MAC_TX_IDLE. -/
def execMacTxIdle (n : Fin 4) (s : State) : Res := .next (macTxIdle n.val s)

/-! ### Registers (R232 to R236) -/

/-- Eight queue sizes in KiB, from the two words. -/
def queueSizes (w0 w1 : Word) : List Nat := (upto 4).map (fun q => bits w0 (8 * q) 8) ++ (upto 4).map (fun q => bits w1 (8 * q) 8)
/-- The eight sizes fit the queue memory, and each non-zero one takes a frame of MAX_LEN (R234). -/
def sizesOk (w0 w1 : Word) (maxLen : Nat) : Bool :=
  let l := queueSizes w0 w1
  decide (l.sum ≤ 64) && l.all fun k => k == 0 || decide (64 * ceilDiv maxLen 64 ≤ 1024 * k)
/-- A MAC register's writable bits. -/
def macMask (n off : Nat) : Word := match findRow (rowsMac n) off with
  | some r => wd r.wmask
  | none => 0
/-- The registers R234 guards. -/
def macGuarded (off : Nat) : Bool := off == 8 || off == 0xC || off == 0x10 || off == 0x14 || off == 0x18
/-- A write of a guarded register (R234): performed while disabled and idle, with valid sizes; else the access-error status. Another line
mode takes the link down. -/
def macGuardedWrite (n off : Nat) (v : Word) (s : State) : State × Code :=
  let w := v &&& macMask n off
  let w0 := if off = 0x14 then w else s.reg (macReg n 0x14)
  let w1 := if off = 0x18 then w else s.reg (macReg n 0x18)
  if macEnabled s n || !(s.mac n).txIdle || ((off == 0x14 || off == 0x18) && !sizesOk w0 w1 (macMaxLen s n)) then (s, .accessErr)
  else (settle (macLine n (s.reg (macReg n 8)) (s.setReg (macReg n off) w)), .ok)
/-- A MAC's register write that is not plain: CTRL and the guarded registers. -/
def macRegWrite (n off : Nat) (v : Word) (s : State) : Option (State × Code) :=
  if off = 0 then some (macCtrlBus n v s, .ok)
  else if macGuarded off then some (macGuardedWrite n off v s)
  else none
/-- The meaning of MAC_CONFIG_WRITE: a write of CFG, an address or a queue size (R234), or of PAUSE_CFG, AGE or HASH. -/
def execMacConfigWrite (m : Master) (n : Fin 4) (off : Fin 65536) (v : Word) (s : State) : Res :=
  if macGuarded off.val then .next (cmdC m true (macGuardedWrite n.val off.val v) s)
  else if off.val = 0x1C ∨ off.val = 0x20 ∨ (0x100 ≤ off.val ∧ off.val < 0x140 ∧ off.val % 4 = 0) then
    .next (cmd m false (fun s => s.setReg (macReg n.val off.val) (v &&& macMask n.val off.val)) s)
  else .next s

/-- Counter c as it reads. -/
def macCounter (s : State) (n c : Nat) : Nat := if c = 23 then pausedUs s (s.mac n) else Tab.get (fun _ => 0) (s.mac n).cnt c
/-- A read of CNT_LO[c]: the low word, with the high word captured for the master (R232). -/
def macCntRead (m : Master) (n c : Nat) (s : State) : State × Word :=
  let x := macCounter s n c
  (updMac n (fun y => { y with capHi := Tab.set (fun _ => 0) y.capHi m.idx (wd (x / 2 ^ 32)) }) s, wd x)
/-- The meaning of MAC_COUNTER_READ. -/
def execMacCounterRead (m : Master) (n : Fin 4) (c : Fin 24) (s : State) : Res := .next (rdCmd m (macCntRead m n.val c.val) s)

/-- STATUS (Table 8.8). -/
def macStatus (m : Mac) : Word :=
  pack [(0, b2n m.link), (1, b2n m.txIdle), (2, b2n m.rxIdle), (3, b2n (m.pauseQ != 0)), (4, b2n m.holdoff.isSome), (5, b2n m.anDone),
    (6, b2n m.localFault), (7, b2n m.remoteFault), (8, b2n m.lock), (9, b2n m.draining), (31, b2n m.fenced)]
/-- A MAC's register read that is not plain. -/
def macRegRead (m : Master) (n off : Nat) (s : State) : Option (State × Word) :=
  if off = 4 then some (s, macStatus (s.mac n))
  else if 0x200 ≤ off ∧ off < 0x2C0 then
    if off % 8 = 0 then some (macCntRead m n ((off - 0x200) / 8) s)
    else some (s, Tab.get (fun _ => 0) (s.mac n).capHi m.idx)
  else none

/-- MEM_UE (Table 8.9): the affected frame is discarded; a frame in progress ends with its FCS inverted. `d` says which: 0 the
frame in progress, 1 to 8 the head of queue d - 1, otherwise the head of the receive buffer.
A frame of a queue counts in TX_FLUSHED (Table 8.6). -/
def macMemUe (n d : Nat) (s : State) : State :=
  let t := s.sys.tick
  let s := raise (.mac n) 1 s
  let s := if 1 ≤ d ∧ d ≤ 8 ∧ (s.mac n).queue (d - 1) ≠ [] then macCount n 20 1 s else s
  updMac n (fun m =>
    if d = 0 then { m with cur := m.cur.map fun c => { c with bad := true } }
    else if d ≤ 8 then m.setQueue (d - 1) t (m.queue (d - 1)).tail
    else { m with rx := m.rx.tail }) s

/-- The pairs of the MAC_SETUP payload of `len` octets at a (R235), as {offset, value}. -/
def macPairs (s : State) (a len : Nat) : List (Nat × Word) := (upto (len / 8)).map fun i => (s.le (a + 8 * i) 4, wd (s.le (a + 8 * i + 4) 4))
/-- The offsets a MAC_SETUP record may name. -/
def macSetupOff (off : Nat) : Bool :=
  off == 0 || macGuarded off || off == 0x1C || off == 0x20 || (decide (0x100 ≤ off ∧ off < 0x140) && off % 4 == 0)
/-- A MAC_SETUP record is well formed (R235): at most 64 pairs, admitted offsets, CTRL last, values R234 performs. -/
def macSetupOk (n : Nat) (ps : List (Nat × Word)) : Bool :=
  let put (st : (Word × Word × Word) × Bool) (p : Nat × Word) : (Word × Word × Word) × Bool :=
    let w := p.2 &&& macMask n p.1
    let r := st.1
    if p.1 = 8 then ((w, r.2.1, r.2.2), st.2)
    else if p.1 = 0x14 then ((r.1, w, r.2.2), st.2 && sizesOk w r.2.2 (maxLenOf r.1))
    else if p.1 = 0x18 then ((r.1, r.2.1, w), st.2 && sizesOk r.2.1 w (maxLenOf r.1))
    else st
  decide (ps.length ≤ 64) && ps.all (fun p => macSetupOff p.1) && ps.dropLast.all (fun p => p.1 != 0) &&
    (ps.foldl put ((0x05F2000C, 0x04040404, 0x04141404), true)).2
/-- A MAC before the records of a full image: its configuration is at the reset values, which a MAC without a record keeps (R235), and a MAC
that ran stops at once. That an image accepted later starts from them too is the model's reading (DEDUCED, notes/assumptions/18). -/
def macReset (s : State) (n : Nat) : State :=
  let s := flushQueues n allQueues (macCtrlBus n 0 s)
  let s := updMac n (fun m => holdTime s { m with txOn := false, draining := false, txIdle := true, enabledAt := none }) s
  ([8, 0xC, 0x10, 0x14, 0x18, 0x1C, 0x20] ++ (upto 16).map fun i => 0x100 + 4 * i).foldl
    (fun s off => s.setReg (macReg n off) (regReset (macReg n off))) s
/-- IMG applies a MAC_SETUP record (R235); the MAC is disabled and idle, so every value is written. -/
def macSetup (n : Nat) (ps : List (Nat × Word)) (s : State) : State :=
  ps.foldl (fun s p =>
    if p.1 = 0 then macCtrlWrite n p.2 false s else s.setReg (macReg n p.1) (p.2 &&& macMask n p.1)) s
/-- The MACs as a full image configures them, `f` applying its records: a line whose mode is another than before loses its link (R214, R235). -/
def macsReload (f : State → State) (s : State) : State :=
  let r := f ([0, 1, 2, 3].foldl macReset s)
  settle ([0, 1, 2, 3].foldl (fun t n => macLine n (s.reg (macReg n 8)) t) r)

end Sys2Proof.Machine
end

