-- ==== Sys2Proof/Machine/Ste.lean ====
section
/-! DEFINITION. The stream engine: the flow table, receive classification, playout and merging, the carafe accounts,
transmit packets, host frames (R237 to R265). -/
namespace Sys2Proof.Machine
open Sys2Proof

/-- The STE part changes. -/
def updSte (f : Ste → Ste) (s : State) : State := { s with ste := f s.ste }
/-- Flow entry f. -/
def State.flow (s : State) (f : Nat) : Flow := Tab.get (fun _ => {}) s.ste.flows f
/-- Flow entry f changes. -/
def updFlow (f : Nat) (g : Flow → Flow) (s : State) : State :=
  updSte (fun y => { y with flows := Tab.set (fun _ => ({} : Flow)) y.flows f (g (Tab.get (fun _ => {}) y.flows f)) }) s
/-- The account of class c. -/
def Ste.clsOf (y : Ste) (c : Nat) : Cls := Tab.get (fun _ => {}) y.cls c
/-- The account of class c changes. -/
def Ste.updCls (y : Ste) (c : Nat) (g : Cls → Cls) : Ste := { y with cls := Tab.set (fun _ => ({} : Cls)) y.cls c (g (y.clsOf c)) }

/-! ### The fields of an entry (Table 9.1, R238, R239) -/

/-- Word i of an entry. -/
def feWord (fe : List Word) (i : Nat) : Word := fe.getD i 0
/-- DIR is transmit. -/
def feTx (fe : List Word) : Bool := bit (feWord fe 0) 29
/-- FMT: 0 ECS, 1 L24, 2 L16. -/
def feFmt (fe : List Word) : Nat := bits (feWord fe 0) 27 2
/-- The traffic class of the flow: 3 SAFETY, 2 AUDIO. -/
def feCls (fe : List Word) : Nat := if bit (feWord fe 0) 26 then 3 else 2
/-- LINK. -/
def feLink (fe : List Word) : Nat := bits (feWord fe 0) 23 3
/-- RND. -/
def feRnd (fe : List Word) : Nat := bits (feWord fe 0) 21 2
/-- CH, 1 to 64. -/
def feCh (fe : List Word) : Nat := bits (feWord fe 0) 12 6 + 1
/-- FIRST_CH. -/
def feFirst (fe : List Word) : Nat := bits (feWord fe 0) 0 12
/-- EARLY. -/
def feEarly (fe : List Word) : Nat := bits (feWord fe 5) 26 6
/-- MARGIN. -/
def feMargin (fe : List Word) : Nat := bits (feWord fe 5) 7 12
/-- SPP. -/
def feSpp (fe : List Word) : Nat := bits (feWord fe 5) 0 7
/-- OFFSET = SPP + MARGIN (R239). -/
def feOffset (fe : List Word) : Nat := feSpp fe + feMargin fe
/-- The MACs of a LINK: the primary, and the secondary of a pair (Table 9.1, R215). -/
def linkMacs (l : Nat) : List Nat := if l < 4 then [l] else if l = 4 then [0, 2] else if l = 5 then [1, 3] else []
/-- The bits of a sample of a format. -/
def fmtBits (fmt : Nat) : Nat := match fmt with | 0 => 20 | 1 => 24 | _ => 16
/-- The payload octets of a packet (R247). -/
def payOctets (fe : List Word) : Nat := feSpp fe * feCh fe * fmtBits (feFmt fe) / 8
/-- The octets of the flow's frame, FCS included (R241, TOO_LONG). -/
def flowLen (fe : List Word) : Nat := 42 + (if feFmt fe = 0 then 16 else 12) + payOctets fe + 4
/-- GPP and GUAR of a receive flow (R255). -/
def gppOf (fe : List Word) : Nat := ceilDiv (feSpp fe * feCh fe) 64
def guarOf (fe : List Word) : Nat := if feTx fe then 0 else (ceilDiv (feOffset fe) (feSpp fe) + 1) * gppOf fe

/-! ### Granules (R255, R256) -/

/-- What class c has left in its reservation. -/
def Cls.room (k : Cls) : Nat := k.res - k.admitted - k.xr - k.lent
/-- n granules for class c, of a flow or of none, from the first source that has room. -/
def takeGranules (c n : Nat) (f : Option Nat) (y : Ste) : Option (GSrc × Ste) :=
  let fl := match f with
    | some i => Tab.get (fun _ => ({} : Flow)) y.flows i
    | none => {}
  if f.isSome && decide (fl.gh + n ≤ guarOf fl.fe) then
    some (.guarantee, { y with flows := Tab.set (fun _ => ({} : Flow)) y.flows (f.getD 0) { fl with gh := fl.gh + n } })
  else if n ≤ (y.clsOf c).room then some (.own, y.updCls c fun k => { k with xr := k.xr + n })
  else if n + (y.clsOf c).floor ≤ y.shFree then
    some (.shared, { y.updCls c (fun k => { k with shUse := k.shUse + n }) with shFree := y.shFree - n, poolLow := min y.poolLow (y.shFree - n) })
  else
    match (upto c).find? (fun l => decide (n ≤ (y.clsOf l).room)) with
    | some l => some (.lent l, y.updCls l fun k => { k with lent := k.lent + n })
    | none => none
/-- n granules return to their source. -/
def giveGranules (c n : Nat) (f : Option Nat) (src : GSrc) (y : Ste) : Ste :=
  match src with
  | .guarantee =>
    match f with
    | some i => { y with flows := Tab.set (fun _ => ({} : Flow)) y.flows i (let fl := Tab.get (fun _ => ({} : Flow)) y.flows i; { fl with gh := fl.gh - n }) }
    | none => y
  | .own => y.updCls c fun k => { k with xr := k.xr - n }
  | .shared => { y.updCls c (fun k => { k with shUse := k.shUse - n }) with shFree := y.shFree + n }
  | .lent l => y.updCls l fun k => { k with lent := k.lent - n }
/-- The granules of a list of packets of flow f return. -/
def givePkts (f : Nat) (c : Nat) (l : List Pkt) (y : Ste) : Ste := l.foldl (fun y p => giveGranules c p.n (some f) p.src y) y
/-- A discard for lack of room (R256). -/
def classDrop (c : Nat) (s : State) : State :=
  let s := updSte (fun y => y.updCls c fun k => { k with drop := (k.drop + 1) % 2 ^ 32 }) s
  let s := raise .ste 3 s
  if c = 3 then raise .ste 2 s else s
/-- The entry becomes FREE: its packets' granules and its guarantee return (R243, Table 9.14). -/
def freeFlow (f : Nat) (s : State) : State :=
  let fl := s.flow f
  let c := feCls fl.fe
  updSte (fun y =>
    let y := givePkts f c fl.pkts y
    let y := y.updCls c fun k => { k with admitted := k.admitted - guarOf fl.fe }
    { y with flows := Tab.set (fun _ => ({} : Flow)) y.flows f {} }) s

/-! ### Flow commands (R240 to R243) -/

/-- The last channel plus one at the sample rate (R238). -/
def chanCount (s : State) : Nat := if s.sys.fs48 then 4096 else 2048
/-- BAD_FIELD (R241, R239). -/
def badField (s : State) (fe : List Word) : Bool :=
  let spp := feSpp fe
  let sppOk := if feFmt fe = 0 then spp == 6 else if s.sys.fs48 then decide (6 ≤ spp ∧ spp ≤ 48) else decide (12 ≤ spp ∧ spp ≤ 96)
  feFmt fe == 3 || decide (6 ≤ feLink fe) || feRnd fe == 2 || ((feTx fe || feFmt fe != 1) && feRnd fe != 0) || !sppOk
    || (feLink fe == 4 && !s.rbit (macReg 0 8) 4) || (feLink fe == 5 && !s.rbit (macReg 1 8) 4)
    || (!feTx fe && decide (64 < ceilDiv (feOffset fe) spp + 1 + feEarly fe))
/-- The entries that a check is made against: STAGED, LIVE, RETIRING. -/
def heldFlows (s : State) : List (List Word) := (s.ste.flows.filter fun e => e.2.st != .free).map (·.2.fe)
/-- The channel ranges of two entries overlap. -/
def chOverlap (a b : List Word) : Bool :=
  feTx a == feTx b && decide (feFirst a < feFirst b + feCh b) && decide (feFirst b < feFirst a + feCh a)
/-- The key of a receive entry: LINK, DIP, DPORT and the three enabled or unenabled fields (DUP_KEY). -/
def feKey (fe : List Word) : List Nat :=
  [feLink fe, (feWord fe 1).toNat, bits (feWord fe 3) 16 16, bits (feWord fe 0) 18 3, (feWord fe 2).toNat, bits (feWord fe 3) 0 16, (feWord fe 4).toNat]
/-- The line rate of a MAC in bits per second (Table 8.1). -/
def lineRate (s : State) (n : Nat) : Nat := match macSpeed s n with | 1 => 1000000000 | 2 => 10000000000 | _ => 0
/-- The load of transmit flows on queue 6 of a MAC, as a fraction of bits per second: packet rate times frame with preamble and gap (R222). -/
def queue6Load (s : State) (n : Nat) (l : List (List Word)) : Nat × Nat :=
  (l.filter fun fe => feTx fe && feCls fe == 3 && (linkMacs (feLink fe)).contains n && feSpp fe != 0).foldl
    (fun a fe => (a.1 * feSpp fe + (flowLen fe + 20) * 8 * s.fs * a.2, a.2 * feSpp fe)) (0, 1)
/-- Queue 6 of a MAC stays within 80 % of the line rate (R222). -/
def loadOk (s : State) (n : Nat) (l : List (List Word)) : Bool :=
  let a := queue6Load s n l
  decide (10 * a.1 ≤ 8 * lineRate s n * a.2)

/-- The checks of STAGE, in the order of R241; 1 is OK (codes of Table 9.13). -/
def stageCheck (s : State) (fe : List Word) : Nat :=
  let held := heldFlows s
  let macs := linkMacs (feLink fe)
  let k := s.ste.clsOf (feCls fe)
  if badField s fe then 5
  else if chanCount s < feFirst fe + feCh fe || held.any (chOverlap fe) then 6
  else if !feTx fe && held.any (fun x => !feTx x && feKey x == feKey fe) then 7
  else if !feTx fe && decide (8 ≤ (held.filter fun x => !feTx x && feWord x 1 == feWord fe 1 && bits (feWord x 3) 16 16 == bits (feWord fe 3) 16 16).length) then 8
  else if macs.any (fun n => decide (macMaxLen s n < flowLen fe)) then 9
  else if feTx fe && feCls fe == 3 && macs.any (fun n => !loadOk s n (fe :: held)) then 10
  else if feTx fe || k.admitted + guarOf fe + k.xr + k.lent ≤ k.res then 1
  else if k.admitted + guarOf fe ≤ k.res then 12 else 11

/-- The staging words of a master, STATE cleared. -/
def staging (s : State) (m : Master) : List Word :=
  (upto 8).map fun i => Tab.get (fun _ => 0) (Tab.get (fun _ => []) s.ste.stg m.idx) i
/-- A STAGE that R241 admits (R240). -/
def doStage (f : Nat) (fe : List Word) (s : State) : State :=
  let fe := setBits (feWord fe 0) 30 2 0 :: fe.tail
  let s := updSte (fun y => y.updCls (feCls fe) fun k => { k with admitted := k.admitted + guarOf fe }) s
  updFlow f (fun _ => { st := .staged, fe := fe, seq := bits (feWord fe 2) 16 16 }) s
/-- A PUBLISH of a STAGED entry (R242). -/
def doPublish (f : Nat) (s : State) : State := updFlow f (fun x => { x with st := .live, since := s.frame }) s

/-- The counters FC0 to FC7 of an entry (Table 9.13). -/
def flowCounters (x : Flow) : List Word :=
  let c (i : Nat) : Nat := Tab.get (fun _ => 0) x.cnt i
  if feTx x.fe then [wd (c 0), wd (c 1), wd (c 2), 0, 0, 0, 0, 0]
  else
    [wd (c 0), wd (c 1), wd (c 2), pack [(0, c 3 % 65536), (16, c 4 % 65536)], wd (c 5), wd (c 6), wd (c 7),
     pack [(0, b2n x.sDown), (1, b2n x.pDown), (16, (x.pkts.map (·.n)).sum)]]
/-- The code of FE0.STATE. -/
def FlowSt.code : FlowSt → Nat
  | .free => 0 | .staged => 1 | .live => 2 | .retiring => 3
/-- A READ: the entry and its counters into the master's registers. -/
def doRead (m : Master) (f : Nat) (s : State) : State :=
  let x := s.flow f
  let w := (upto 8).foldl (fun t i => Tab.set (fun _ => (0 : Word)) t i (if i = 0 then setBits (feWord x.fe 0) 30 2 x.st.code else feWord x.fe i)) []
  let c := (upto 8).foldl (fun t i => Tab.set (fun _ => (0 : Word)) t i ((flowCounters x).getD i 0)) []
  updSte (fun y => { y with stg := Tab.set (fun _ => ([] : Tab Word)) y.stg m.idx w, fc := Tab.set (fun _ => ([] : Tab Word)) y.fc m.idx c }) s

/-- A flow command's effect and its result (Table 9.2, Table 9.13). -/
def ftEffect (m : Master) (c f : Nat) (s : State) : State × Nat :=
  let x := s.flow f
  match c with
  | 1 =>
    let r := stageCheck s (staging s m)
    if x.st ≠ .free then (s, 2) else if r = 1 then (doStage f (staging s m) s, 1) else (s, r)
  | 2 => if x.st = .staged then (doPublish f s, 1) else (s, 3)
  | 3 => if x.st = .live then (updFlow f (fun x => { x with st := .retiring, since := s.frame }) s, 1) else (s, 4)
  | 4 => if x.st = .staged then (freeFlow f s, 1) else (s, 3)
  | _ => (doRead m f s, 1)
/-- An FT_CMD evaluated for a master (R240). A CMD that Table 9.2 does not list is not evaluated. -/
def ftCmd (m : Master) (c f : Nat) (s : State) : State :=
  if c = 0 ∨ 5 < c then s
  else
    let r := ftEffect m c f s
    let t := s.sys.tick % 65536
    evt .ste 0 (updSte (fun y => { y with fts := Tab.set (fun _ => ({} : FtRes)) y.fts m.idx ⟨r.2, t, c, f⟩ }) r.1)
/-- The meaning of STAGE. -/
def execStage (m : Master) (idx : Fin 8192) (s : State) : Res := .next (cmd m false (ftCmd m 1 idx.val) s)
/-- The meaning of PUBLISH. -/
def execPublish (m : Master) (idx : Fin 8192) (s : State) : Res := .next (cmd m false (ftCmd m 2 idx.val) s)
/-- The meaning of FLOW_RETIRE. -/
def execFlowRetire (m : Master) (idx : Fin 8192) (s : State) : Res := .next (cmd m false (ftCmd m 3 idx.val) s)
/-- The meaning of DISCARD. -/
def execDiscard (m : Master) (idx : Fin 8192) (s : State) : Res := .next (cmd m false (ftCmd m 4 idx.val) s)
/-- The meaning of FLOW_READ. -/
def execFlowRead (m : Master) (idx : Fin 8192) (s : State) : Res := .next (cmd m false (ftCmd m 5 idx.val) s)

/-- FLOW_FREED: at a frame boundary a retiring receive flow whose last stored sample has played becomes FREE (R243). -/
def flowFreed (f : Nat) (s : State) : State :=
  let x := s.flow f
  if x.st == .retiring && !feTx x.fe && x.pkts == [] && s.atFrame then evt .ste 1 (freeFlow f s) else s
/-- The meaning of FLOW_FREED. -/
def execFlowFreed (f : Fin 8192) (s : State) : Res := .next (flowFreed f.val s)

/-! ### Receive classification (R244 to R249) -/

/-- The one's complement sum of a list of octets taken as 16-bit words. -/
def onesSum : List Byte → Nat
  | [] => 0
  | [a] => a.toNat * 256
  | a :: b :: t => let x := a.toNat * 256 + b.toNat + onesSum t; if 65536 ≤ x then x - 65535 else x

/-- What a frame (without FCS) holds: its EtherType, the offset behind it, whether its IPv4 header and its UDP part are as steps 2 and 3 want. -/
structure Parsed where
  ety : Nat
  ip : Nat
  ipOk : Bool
  proto : Nat
  src : Nat
  dst : Nat
  udpOk : Bool
  sport : Nat
  dport : Nat
  pay : List Byte
deriving DecidableEq, Repr
/-- The parse of a frame without FCS (Table 9.4, steps 1 to 3). -/
def parseFrame (f : List Byte) : Parsed :=
  let o := if octs f 12 2 = 0x8100 then 16 else 12
  let i := o + 2
  let hl := 4 * (octs f i 1 % 16)
  let total := octs f (i + 2) 2
  let u := i + hl
  let ul := octs f (u + 4) 2
  let pseudo := (f.drop (i + 12)).take 8 ++ [0, 17] ++ beBytes 2 ul ++ (f.drop u).take ul
  { ety := octs f o 2, ip := i
    ipOk := octs f i 1 / 16 == 4 && decide (20 ≤ hl) && decide (u ≤ f.length) && onesSum ((f.drop i).take hl) == 0xFFFF && octs f (i + 6) 2 % 2 ^ 14 == 0
    proto := octs f (i + 9) 1, src := octs f (i + 12) 4, dst := octs f (i + 16) 4
    udpOk := decide (8 ≤ ul) && hl + ul == total && decide (i + total ≤ f.length) && (octs f (u + 6) 2 == 0 || onesSum pseudo == 0xFFFF)
    sport := octs f u 2, dport := octs f (u + 2) 2, pay := (f.drop (u + 8)).take (ul - 8) }

/-- The frame is a UDP packet that passed steps 2 and 3. -/
def Parsed.udp (p : Parsed) : Bool := p.ety == 0x0800 && p.ipOk && p.proto == 17 && p.udpOk
/-- The key of a receive entry matches a packet that arrived on MAC n (R244 step 5). -/
def keyMatch (n : Nat) (p : Parsed) (fe : List Word) : Bool :=
  !feTx fe && (linkMacs (feLink fe)).contains n && (feWord fe 1).toNat == p.dst && bits (feWord fe 3) 16 16 == p.dport
    && (!bit (feWord fe 0) 19 || (feWord fe 2).toNat == p.src)
    && (!bit (feWord fe 0) 18 || bits (feWord fe 3) 0 16 == p.sport)
    && (!bit (feWord fe 0) 20 || (feWord fe 4).toNat == octs p.pay (if feFmt fe = 0 then 4 else 8) 4)
/-- The lowest LIVE entry whose key matches. -/
def matchFlow (s : State) (n : Nat) (p : Parsed) : Option Nat :=
  if p.udp then (s.ste.flows.find? fun e => e.2.st == .live && keyMatch n p e.2.fe).map (·.1) else none
/-- A host filter matches (R259). -/
def hostFilter (s : State) (p : Parsed) : Bool :=
  (upto 16).any fun i =>
    let w := s.reg (Blk.ste.base + 0x300 + 4 * i)
    bit w 31 && bits w 0 16 == p.ety && (!bit w 30 || (p.udp && p.dport == s.fld (Blk.ste.base + 0x340 + 4 * i) 0 16))

/-- The media index and the audio octets of a packet that meets R246 to R248. -/
def audioPart (fe : List Word) (p : List Byte) : Option (Nat × List Byte) :=
  if feFmt fe = 0 then
    if 16 ≤ p.length ∧ octs p 0 1 = 1 ∧ octs p 1 1 + 1 = feCh fe ∧ (p.drop 16).length = payOctets fe then some (octs p 8 4, p.drop 16) else none
  else
    let b0 := octs p 0 1
    let h := 12 + 4 * (b0 % 16)
    let h := if b0 / 16 % 2 = 1 then h + 4 + 4 * octs p (h + 2) 2 else h
    let pad := if b0 / 32 % 2 = 1 then octs p (p.length - 1) 1 else 0
    if b0 / 64 = 2 ∧ octs p 1 1 % 128 = bits (feWord fe 5) 19 7 ∧ (b0 / 32 % 2 = 0 ∨ pad ≠ 0) ∧ h + pad ≤ p.length ∧ p.length - h - pad = payOctets fe then
      some ((octs p 4 4 + 2 ^ 32 - (feWord fe 6).toNat) % 2 ^ 32, (p.drop h).take (payOctets fe))
    else none
/-- Samples of w bits packed in octets, the most significant bit first. -/
def unpackSamples (w n : Nat) (l : List Byte) : List Nat :=
  let x := beNat l
  (upto n).map fun i => x / 2 ^ (w * (n - 1 - i)) % 2 ^ w
/-- m64: the frame number nearest the current frame k with the media index m (R249). -/
def extendMedia (k m : Nat) : Int := (k : Int) + sInt 32 ((m + 2 ^ 32 - k % 2 ^ 32) % 2 ^ 32)

/-- A counter of a flow counts one. -/
def Flow.count (x : Flow) (i : Nat) : Flow := { x with cnt := Tab.set (fun _ => 0) x.cnt i ((Tab.get (fun _ => 0) x.cnt i + 1) % 2 ^ 32) }
/-- MAC n is in the primary position of the flow (R245). -/
def isPrimary (fe : List Word) (n : Nat) : Bool := decide (feLink fe < 4) || decide (n ≤ 1)
/-- A delivery of MAC n to a flow: the path's time, and its DOWN bit clears (R253). -/
def pathDelivery (f n : Nat) (s : State) : State :=
  let x := s.flow f
  let k := s.frame
  if isPrimary x.fe n then
    let s := updFlow f (fun x => { x with lastP := some k, pDown := false }) s
    if x.pDown then evt .ste 2 s else s
  else
    let s := updFlow f (fun x => { x with lastS := some k, sDown := false }) s
    if x.sDown then evt .ste 2 s else s

/-- A matched packet (Table 9.5). -/
def audioPacket (f n : Nat) (pay : List Byte) (s : State) : State :=
  let x := s.flow f
  let spp := feSpp x.fe
  match audioPart x.fe pay with
  | none => updFlow f (fun x => x.count 5) s
  | some (m, oct) =>
    let m64 := extendMedia s.frame m
    let lead := m64 + (feOffset x.fe : Nat) - (s.frame : Int)
    let ph := (m64 % (spp : Int)).toNat
    if x.pkts != [] && ph != x.phase then updFlow f (fun x => x.count 5) s
    else if lead < 1 then updFlow f (fun x => x.count 3) s
    else if lead > ((feOffset x.fe + feEarly x.fe * spp : Nat) : Int) then updFlow f (fun x => x.count 4) s
    else if x.pkts.any (fun p => p.m64 == m64) then pathDelivery f n (updFlow f (fun x => x.count 2) s)
    else
      let g := gppOf x.fe
      match takeGranules (feCls x.fe) g (some f) s.ste with
      | none => classDrop (feCls x.fe) (updFlow f (fun x => x.count 6) s)
      | some (src, y) =>
        let p : Pkt := { m64 := m64, samples := unpackSamples (fmtBits (feFmt x.fe)) (spp * feCh x.fe) oct, src := src, n := g }
        let s : State := { s with ste := y }
        let s := updFlow f (fun x => { x.count (if isPrimary x.fe n then 0 else 1) with pkts := x.pkts ++ [p], phase := ph }) s
        pathDelivery f n s

/-- A host frame of class 1 (CONTROL) or 0 (BEST_EFFORT) is stored, or dropped (R256, R258). -/
def storeHost (c : Nat) (f : List Byte) (s : State) : State :=
  let q := if c = 1 then s.ste.ctl else s.ste.be
  if 1024 ≤ q.length then updSte (fun y => y.updCls c fun k => { k with drop := (k.drop + 1) % 2 ^ 32 }) s
  else
    let n := ceilDiv f.length 256
    match takeGranules c n none s.ste with
    | none => classDrop c s
    | some (src, y) =>
      let h : HostFrame := ⟨f, src, n⟩
      { s with ste := if c = 1 then { y with ctl := y.ctl ++ [h] } else { y with be := y.be ++ [h] } }

/-! ### PTP frames (R273, R275, R277) -/

/-- The PTU part changes. -/
def updPtu (f : Ptu → Ptu) (s : State) : State := { s with ptu := f s.ptu }
/-- A domain's parameters. -/
def Ptu.dom (p : Ptu) : Dom → TimePar
  | .a => p.a
  | .b => p.b
/-- A domain's parameters change. -/
def Ptu.setDom (p : Ptu) (d : Dom) (x : TimePar) : Ptu :=
  match d with
  | .a => { p with a := x }
  | .b => { p with b := x }
/-- A domain's port. -/
def Ptu.port (p : Ptu) : Dom → PtpPort
  | .a => p.portA
  | .b => p.portB
/-- A domain's port changes. -/
def Ptu.setPort (p : Ptu) (d : Dom) (x : PtpPort) : Ptu :=
  match d with
  | .a => { p with portA := x }
  | .b => { p with portB := x }
/-- A domain's port changes by f. -/
def updPort (d : Dom) (f : PtpPort → PtpPort) (s : State) : State := updPtu (fun p => p.setPort d (f (p.port d))) s
/-- The address of a domain's register. -/
def domReg (d : Dom) (off : Nat) : Nat := Blk.ptu.base + 0x100 + 0x100 * d.idx + off
/-- The MAC of a domain. -/
def domLink (s : State) (d : Dom) : Nat := s.fld (domReg d 0) 12 3
/-- A message that does not fit counts in RX_OTHER. -/
def rxOther (d : Dom) (s : State) : State := updPort d (fun p => { p with rxOther := (p.rxOther + 1) % 2 ^ 32 }) s
/-- The stamps of the PTP frames a MAC holds that PTU has not taken, oldest first (R275). -/
def State.stamps (s : State) (n : Nat) : List Nat := Tab.get (fun _ => []) s.ptu.stamps n
/-- Those stamps take a value. -/
def setStamps (n : Nat) (l : List Nat) (s : State) : State := updPtu (fun p => { p with stamps := Tab.set (fun _ => []) p.stamps n l }) s
/-- The messages a port of Table 10.3 may take: Sync, Delay_Req, Follow_Up, Delay_Resp, Announce. The others are Pdelay, Signaling
and Management messages (R277). -/
def ptpKnown (t : Nat) : Bool := t == 0 || t == 1 || t == 8 || t == 9 || t == 11
/-- A message no port takes counts in RX_OTHER of the enabled ports on MAC n (R277). -/
def ptpOther (n : Nat) (s : State) : State :=
  let f (d : Dom) (s : State) : State := if (s.ptu.port d).en && !(s.ptu.port d).faulty && domLink s d == n then rxOther d s else s
  f .b (f .a s)
/-- A PTP frame of MAC n whose message is `msg` and whose arrival is stamped c: its stamp is held for PTU (R275), or it is of a kind
that no port takes. -/
def ptpArrive (n : Nat) (msg : List Byte) (c : Nat) (s : State) : State :=
  if 64 ≤ (s.stamps n).length then raise .ptu 7 s
  else
    let s := if ptpKnown (octs msg 0 1 % 16) then setStamps n (s.stamps n ++ [c]) s else ptpOther n s
    updSte (fun y => { y with ptp := (y.ptp + 1) % 2 ^ 32 }) s

/-- The classification of a frame without FCS from MAC n, stamped c (Table 9.4). -/
def steFrame (n : Nat) (f : List Byte) (c : Nat) (s : State) : State :=
  let p := parseFrame f
  let bad (s : State) : State := updSte (fun y => { y with badIp := (y.badIp + 1) % 2 ^ 32 }) s
  if p.ety = 0x88F7 then ptpArrive n (f.drop p.ip) c s
  else if p.ety = 0x0800 ∧ p.ipOk = false then bad s
  else if p.ety = 0x0800 ∧ p.proto = 17 ∧ p.udpOk = false then bad s
  else if p.udp = true ∧ (p.dport = 319 ∨ p.dport = 320) then ptpArrive n p.pay c s
  else if !s.ste.rxOn then s
  else
    match matchFlow s n p with
    | some i => audioPacket i n p.pay s
    | none =>
      if hostFilter s p then storeHost 1 f s
      else if s.rbit (Blk.ste.base + 8) 0 then storeHost 0 f s
      else updSte (fun y => { y with noFlow := (y.noFlow + 1) % 2 ^ 32 }) s
/-- STE_FRAME_CLASSIFY: STE takes the oldest frame of a MAC's receive buffer. -/
def steClassify (n : Nat) (s : State) : State :=
  match (s.mac n).rx with
  | [] => s
  | f :: r => steFrame n (f.bytes.take (f.bytes.length - 4)) f.stamp (updMac n (fun m => { m with rx := r }) s)
/-- The meaning of STE_FRAME_CLASSIFY. -/
def execSteFrameClassify (n : Fin 4) (s : State) : Res := .next (steClassify n.val s)

/-- PATH_DOWN: one MAC of a pair has delivered nothing for 16 packet times while the other has (R253). -/
def pathDown (f : Nat) (s : State) : State :=
  let x := s.flow f
  let w := 16 * feSpp x.fe
  let silent (o : Option Nat) : Bool := match o with | some t => decide (t + w ≤ s.frame) | none => decide (x.since + w ≤ s.frame)
  let heard (o : Option Nat) : Bool := o.isSome && !silent o
  if x.st != .live || feTx x.fe || feLink x.fe < 4 then s
  else if silent x.lastP && heard x.lastS && !x.pDown then evt .ste 2 (updFlow f (fun x => { x with pDown := true }) s)
  else if silent x.lastS && heard x.lastP && !x.sDown then evt .ste 2 (updFlow f (fun x => { x with sDown := true }) s)
  else s
/-- The meaning of PATH_DOWN. -/
def execPathDown (f : Fin 8192) (s : State) : Res := .next (pathDown f.val s)

/-! ### Playout (R250, R251) -/

/-- The LFSR pair of a receive channel; its seed until it draws (R99). -/
def chanRnd (y : Ste) (ch : Nat) : Nat × Nat := Tab.get (fun i => (seedA i, seedB i)) y.rnd ch
/-- The packet of a flow that holds frame k. -/
def pktAt (x : Flow) (k : Nat) : Option Pkt :=
  x.pkts.find? fun p => decide (p.m64 + (feOffset x.fe : Nat) ≤ (k : Int)) && decide ((k : Int) < p.m64 + (feOffset x.fe + feSpp x.fe : Nat))
/-- One channel's value in S20 from its sample code. -/
def playSample (fe : List Word) (ch x : Nat) (s : State) : State × Int :=
  match feFmt fe with
  | 0 => (s, sInt 20 x)
  | 1 =>
    let r := chanRnd s.ste ch
    let w := l24ToS20 (RoundMode.ofCode (feRnd fe)) x r.1 r.2
    let s := updSte (fun y => { y with rnd := Tab.set (fun i => (seedA i, seedB i)) y.rnd ch (w.a, w.b), convSat := if w.sat then (y.convSat + 1) % 2 ^ 32 else y.convSat }) s
    (if w.sat then raise .ste 5 s else s, w.value)
  | _ => (s, sInt 16 x * 16)
/-- A receive flow in frame k: packets that have played return their granules, the present samples go to the channels, a LIVE
flow without one counts MISSING and raises FLOW_GAP. -/
def flowFrame (f : Nat) (s : State) : State :=
  let k := s.frame
  let x := s.flow f
  let gone := x.pkts.filter fun p => decide (p.m64 + (feOffset x.fe + feSpp x.fe : Nat) ≤ (k : Int))
  let s := updSte (givePkts f (feCls x.fe) gone) s
  let s := updFlow f (fun x => { x with pkts := x.pkts.filter fun p => !decide (p.m64 + (feOffset x.fe + feSpp x.fe : Nat) ≤ (k : Int)) }) s
  let present := match pktAt x k with
    | some p => if p.bad then none else some p
    | none => none
  match present with
  | some p =>
    let j := ((k : Int) - p.m64 - (feOffset x.fe : Nat)).toNat
    (upto (feCh x.fe)).foldl (fun s c =>
      let r := playSample x.fe (feFirst x.fe + c) (p.samples.getD (j * feCh x.fe + c) 0) s
      { r.1 with netRx := Tab.set (fun _ => 0) r.1.netRx (feFirst x.fe + c) r.2 }) s
  | none => if x.st = .live then raise .ste 4 (updFlow f (fun x => x.count 7) s) else s
/-- STE at a frame boundary before MXE evaluates: the network sources of the frame (R250). Transmit flows that were retired
before this boundary end, and a stopped transmitter becomes idle (R243, R261). -/
def steFrameStart (s : State) : State :=
  let s : State := { s with netRx := [] }
  let s := s.ste.flows.foldl (fun s e =>
    if feTx e.2.fe then (if e.2.st = .retiring then freeFlow e.1 s else s)
    else if e.2.st = .live ∨ e.2.st = .retiring then flowFrame e.1 s else s) s
  if s.ste.txStop then evt .ste 3 (updSte (fun y => { y with txStop := false, txOn := false, txIdle := true }) s) else s
/-- STE after MXE has evaluated: the NET_TX values of the frame, kept for the packets of up to 96 frames. -/
def steFrameEnd (s : State) : State :=
  let vals := s.mxe.dstMap.foldl (fun t e => if mapKind e.2 = 4 then Tab.set (fun _ => (0 : Int)) t (mapNum e.2) (destOut s e.1) else t) []
  updSte (fun y => { y with hist := ((s.frame, vals) :: y.hist).take 97 }) s
/-- At RUN set the channels' LFSR pairs start at their seeds (R99). -/
def steRunStart (s : State) : State := updSte (fun y => { y with rnd := [] }) s

/-! ### Transmit packets (R257) -/

/-- A group address, 224.0.0.0/4. -/
def isGroup (ip : Nat) : Bool := ip / 2 ^ 28 == 14
/-- The destination MAC of a transmit flow (Table 9.1). -/
def flowDa (fe : List Word) : Nat :=
  let ip := (feWord fe 1).toNat
  if isGroup ip then 0x01005E000000 + ip % 2 ^ 23 else bits (feWord fe 2) 0 16 * 2 ^ 32 + (feWord fe 7).toNat
/-- A value of a destination's target width in a format's width: the same full scale. -/
def toWidth (wt wf : Nat) (v : Int) : Int := if wt ≤ wf then v * 2 ^ (wf - wt) else floorDivI v (2 ^ (wt - wf))
/-- The NET_TX value of channel ch written in frame k, as a code of w bits. -/
def histCode (s : State) (k : Int) (ch w : Nat) : Nat :=
  match s.ste.hist.find? (fun e => (e.1 : Int) == k), s.mxe.feeding 4 ch with
  | some e, some d => uInt w (toWidth (destTarget s.mxe d).width w (Tab.get (fun _ => 0) e.2 ch))
  | _, _ => 0
/-- The payload of the packet of frames k - SPP to k - 1. -/
def txPayload (s : State) (fe : List Word) (k : Nat) : List Byte :=
  let w := fmtBits (feFmt fe)
  let codes := (upto (feSpp fe)).flatMap fun j => (upto (feCh fe)).map fun c => histCode s ((k : Int) - (feSpp fe : Nat) + (j : Nat)) (feFirst fe + c) w
  beBytes (payOctets fe) (codes.foldl (fun a x => a * 2 ^ w + x) 0)
/-- The one's complement of a checksum sum. -/
def checksum (l : List Byte) : Nat := 65535 - onesSum l
/-- The frame of a packet on MAC n (R246 to R248, R257). `o` supplies the fields the spec leaves open: identification, flags, ECN and the RTP marker. -/
def txFrame (s : State) (fe : List Word) (seq n k : Nat) (o : Word) : List Byte :=
  let m : Nat := (((k : Int) - (feSpp fe : Nat)) % (2 ^ 32 : Int)).toNat
  let hdr : List Byte :=
    if feFmt fe = 0 then beBytes 1 1 ++ beBytes 1 (feCh fe - 1) ++ beBytes 2 seq ++ beBytes 4 (feWord fe 4).toNat ++ beBytes 4 m ++ beBytes 4 0
    else beBytes 1 128 ++ beBytes 1 (bits o 19 1 * 128 + bits (feWord fe 5) 19 7) ++ beBytes 2 seq ++ beBytes 4 ((m + (feWord fe 6).toNat) % 2 ^ 32) ++ beBytes 4 (feWord fe 4).toNat
  let pay := hdr ++ txPayload s fe k
  let ul := 8 + pay.length
  let ips := beBytes 4 (s.reg (Blk.ste.base + 0x10 + 4 * n)).toNat ++ beBytes 4 (feWord fe 1).toNat
  let ports := beBytes 2 (bits (feWord fe 3) 0 16) ++ beBytes 2 (bits (feWord fe 3) 16 16) ++ beBytes 2 ul
  let ck := checksum (ips ++ [0, 17] ++ beBytes 2 ul ++ ports ++ pay)
  let udp := ports ++ beBytes 2 (if ck = 0 then 65535 else ck) ++ pay
  let dscp := s.fld (Blk.ste.base + 0x20) (if feCls fe = 3 then 8 else 0) 6
  let h1 := beBytes 1 0x45 ++ beBytes 1 (4 * dscp + bits o 17 2) ++ beBytes 2 (20 + ul) ++ beBytes 2 (bits o 0 16) ++ beBytes 2 (bits o 16 1 * 16384)
    ++ beBytes 1 (s.fld (Blk.ste.base + 8) 8 8) ++ beBytes 1 17
  let ipck := checksum (h1 ++ ips)
  beBytes 6 (flowDa fe) ++ beBytes 6 (macAddr s n) ++ beBytes 2 0x0800 ++ h1 ++ beBytes 2 ipck ++ ips ++ udp

/-- A packet goes to one MAC of the flow; a refusal counts in TX_DROP of that MAC's position (R257). -/
def txHand (f n : Nat) (fr : List Byte) (s : State) : State :=
  let x := s.flow f
  let r := macEnqueue n (if feCls x.fe = 3 then 6 else 5) fr s
  if r.2 = .ok then r.1
  else raise .ste 6 (updFlow f (fun x => x.count (if isPrimary x.fe n then 1 else 2)) r.1)
/-- TX_PACKET_BUILD: at a frame boundary k that is a multiple of SPP (R257). -/
def txPacketBuild (f : Nat) (s : State) : State :=
  let x := s.flow f
  let k := s.frame
  if (x.st == .live || x.st == .retiring) && feTx x.fe && s.ste.txOn && !audioClosed s && !s.sys.snuffed && feSpp x.fe != 0 && k % feSpp x.fe == 0
      && x.built != some k && decide (x.since < k) then
    let s := (linkMacs (feLink x.fe)).foldl (fun s n =>
      let d := s.draw
      txHand f n (txFrame d.2 x.fe x.seq n k d.1) d.2) s
    updFlow f (fun x => { x.count 0 with built := some k, seq := (x.seq + 1) % 65536 }) s
  else s
/-- The meaning of TX_PACKET_BUILD. -/
def execTxPacketBuild (f : Fin 8192) (s : State) : Res := .next (txPacketBuild f.val s)

/-! ### Host frames (R258 to R260) -/

/-- The frame HRX_STAT shows, and its class. -/
def hrxHead (s : State) : Option (HostFrame × Nat) :=
  if s.ste.poppedAt = some s.sys.tick then none
  else
    match s.ste.ctl, s.ste.be with
    | h :: _, _ => some (h, 1)
    | [], h :: _ => some (h, 0)
    | [], [] => none
/-- A write of 1 to HRX_POP releases the head frame; the next head appears in the following tick (R258). -/
def hrxPop (s : State) : State :=
  match hrxHead s with
  | none => s
  | some (h, c) =>
    let t := s.sys.tick
    updSte (fun y =>
      let y := giveGranules c h.n none h.src y
      let y := if c = 1 then { y with ctl := y.ctl.tail } else { y with be := y.be.tail }
      { y with poppedAt := some t }) s
/-- The meaning of HRX_POP. -/
def execHrxPop (m : Master) (s : State) : Res := .next (cmd m false hrxPop s)

/-- The masters that have a TXWIN (R260). -/
def hasTxwin : Master → Bool
  | .hpa | .hpb | .dma => true
  | _ => false
/-- Octet i of a master's TXWIN. -/
def txwinOctet (s : State) (m : Master) (i : Nat) : Byte :=
  BitVec.ofNat 8 (bits (Tab.get (fun _ => 0) (Tab.get (fun _ => []) s.ste.txwin m.idx) (i / 4)) (8 * (i % 4)) 8)
/-- HTX_CMD (R260): the frame goes to the queue, and HTX_RES shows what the MAC answered. A QUEUE above 4 hands nothing over and
leaves an open result. -/
def htxCmd (m : Master) (v : Word) (s : State) : State × Code :=
  if !hasTxwin m then (s, .accessErr)
  else
    let q := bits v 20 3
    if 4 < q then
      let d := s.draw
      (updSte (fun y => { y with htx := Tab.set (fun _ => 0) y.htx m.idx (bits d.1 0 2) }) d.2, .ok)
    else
      let fr := (upto (bits v 0 14)).map (txwinOctet s m)
      let r := macEnqueue (bits v 16 2) q fr s
      let a := match r.2 with | .ok => 1 | .qfull => 2 | .fenced => 3
      (updSte (fun y => { y with htx := Tab.set (fun _ => 0) y.htx m.idx a }) r.1, .ok)
/-- The meaning of HTX_CMD. -/
def execHtxCmd (m : Master) (v : Word) (s : State) : Res := .next (cmdC m false (htxCmd m v) s)

/-! ### CTRL (R261) -/

/-- Packets are stored. -/
def stored (s : State) : Bool := s.ste.flows.any fun e => e.2.pkts != []
/-- Every stored packet is released at once (R261). -/
def dropPackets (s : State) : State :=
  updSte (fun y => y.flows.foldl (fun y e =>
    let y := givePkts e.1 (feCls e.2.fe) e.2.pkts y
    { y with flows := Tab.set (fun _ => ({} : Flow)) y.flows e.1 { (Tab.get (fun _ => ({} : Flow)) y.flows e.1) with pkts := [] } }) y) s
/-- Clearing TX_EN ends the transmit flows by R243. -/
def stopFlows (s : State) : State :=
  let k := s.frame
  updSte (fun y => { y with
    txStop := true
    flows := y.flows.map fun e => if e.2.st = .live ∧ feTx e.2.fe = true then (e.1, { e.2 with st := .retiring, since := k }) else e }) s
/-- A write of CTRL. -/
def steCtrlWrite (v : Word) (s : State) : State :=
  let y0 := s.ste
  let s := s.setReg Blk.ste.base (v &&& 3)
  let s := if bit v 0 then updSte (fun y => { y with rxOn := true, rxIdle := false }) s else updSte (fun y => { y with rxOn := false }) s
  let s := if bit v 1 then updSte (fun y => { y with txOn := true, txIdle := false, txStop := false }) s
    else if y0.txOn && !y0.txStop then stopFlows s else s
  if bit v 2 then (if !y0.rxIdle && stored s then dropPackets s else evt .ste 4 s) else s
/-- The meaning of STE_RX_DISABLE. -/
def execSteRxDisable (m : Master) (s : State) : Res := .next (cmd m true (fun s => steCtrlWrite (s.reg Blk.ste.base &&& ~~~1) s) s)
/-- The meaning of STE_TX_DISABLE. -/
def execSteTxDisable (m : Master) (s : State) : Res := .next (cmd m true (fun s => steCtrlWrite (s.reg Blk.ste.base &&& ~~~2) s) s)
/-- The meaning of STE_FORCE. -/
def execSteForce (m : Master) (s : State) : Res := .next (cmd m true (fun s => steCtrlWrite (s.reg Blk.ste.base ||| 4) s) s)
/-- STE_RX_IDLE: with RX_EN clear the last stored packet has been released (R261). -/
def steRxIdle (s : State) : State :=
  if !s.ste.rxOn && !s.ste.rxIdle && !stored s then evt .ste 3 (updSte (fun y => { y with rxIdle := true }) s) else s
/-- The meaning of STE_RX_IDLE. -/
def execSteRxIdle (s : State) : Res := .next (steRxIdle s)

/-! ### Registers (R264) -/

/-- A read of POOL_LOW: the least SH_FREE since the last read, which it resets (Table 9.11). -/
def poolLowRead (s : State) : State × Word := (updSte (fun y => { y with poolLow := y.shFree }) s, wd s.ste.poolLow)
/-- The meaning of POOL_LOW_READ. -/
def execPoolLowRead (m : Master) (s : State) : Res := .next (rdCmd m poolLowRead s)

/-- The granules flows of class c hold inside their guarantees. -/
def ghSum (y : Ste) (c : Nat) : Nat := ((y.flows.filter fun e => feCls e.2.fe == c).map (·.2.gh)).sum
/-- STATUS (Table 9.12). -/
def steStatus (y : Ste) : Word := pack [(1, b2n y.txIdle), (2, b2n y.rxIdle), (16, (y.flows.filter fun e => e.2.st == .live).length)]
/-- A read of STE's registers that is not plain. A byte of RXWIN beyond the head frame is open. -/
def steRegRead (m : Master) (off : Nat) (s : State) : Option (State × Word) :=
  let y := s.ste
  let ft := Tab.get (fun _ => ({} : FtRes)) y.fts m.idx
  if off = 0x004 then some (s, steStatus y)
  else if off = 0x034 then some (s, pack [(0, ft.result), (16, ft.tick)])
  else if off = 0x038 then some (s, pack [(0, ft.idx), (16, ft.cmd)])
  else if 0x100 ≤ off ∧ off < 0x120 then some (s, Tab.get (fun _ => 0) (Tab.get (fun _ => []) y.stg m.idx) ((off - 0x100) / 4))
  else if 0x120 ≤ off ∧ off < 0x140 then some (s, Tab.get (fun _ => 0) (Tab.get (fun _ => []) y.fc m.idx) ((off - 0x120) / 4))
  else if 0x200 ≤ off ∧ off < 0x240 then
    let c := (off - 0x200) / 16
    let k := y.clsOf c
    some (s, match off / 4 % 4 with
      | 0 => pack [(0, k.res), (16, k.admitted)]
      | 1 => pack [(0, k.xr + ghSum y c), (16, k.lent)]
      | 2 => pack [(0, k.shUse), (16, k.floor)]
      | _ => wd k.drop)
  else if off = 0x240 then some (s, pack [(0, y.shared), (16, y.shFree)])
  else if off = 0x244 then some (poolLowRead s)
  else if off = 0x248 then some (s, wd y.general)
  else if off = 0x250 then some (s, wd y.noFlow)
  else if off = 0x254 then some (s, wd y.badIp)
  else if off = 0x258 then some (s, wd y.convSat)
  else if off = 0x25C then some (s, wd y.ptp)
  else if off = 0x400 then
    some (s, match hrxHead s with | some (h, c) => pack [(0, h.bytes.length), (16, c), (31, 1)] | none => 0)
  else if off = 0x408 then some (s, pack [(0, y.ctl.length), (16, y.be.length)])
  else if off = 0x414 then some (s, wd (Tab.get (fun _ => 0) y.htx m.idx))
  else if 0x8000 ≤ off ∧ off < 0xA400 then
    let i := off - 0x8000
    match hrxHead s with
    | some (h, _) =>
      if i + 4 ≤ h.bytes.length then some (s, wd (leNat ((h.bytes.drop i).take 4)))
      else
        let d := s.draw
        let l := (h.bytes.drop i).take 4
        some (d.2, wd (leNat l) ||| (d.1 &&& ~~~wd (2 ^ (8 * l.length) - 1)))
    | none => let d := s.draw; some (d.2, d.1)
  else if 0xC000 ≤ off ∧ off < 0xE400 then some (s, Tab.get (fun _ => 0) (Tab.get (fun _ => []) y.txwin m.idx) ((off - 0xC000) / 4))
  else none
/-- Whether a master's access to TXWIN or HTX_CMD ends with the access-error status (R260). -/
def steAccessErr (m : Master) (off : Nat) : Bool := !hasTxwin m && (off == 0x410 || decide (0xC000 ≤ off ∧ off < 0xE400))
/-- A write of STE's registers that is not plain. -/
def steRegWrite (m : Master) (off : Nat) (v : Word) (s : State) : Option (State × Code) :=
  if off = 0 then some (steCtrlWrite v s, .ok)
  else if off = 0x030 then some (ftCmd m (bits v 29 3) (bits v 0 13) s, .ok)
  else if 0x100 ≤ off ∧ off < 0x120 then
    let w : Tab Word := Tab.set (fun _ => 0) (Tab.get (fun _ => []) s.ste.stg m.idx) ((off - 0x100) / 4) v
    some (updSte (fun y => { y with stg := Tab.set (fun _ => ([] : Tab Word)) y.stg m.idx w }) s, .ok)
  else if off = 0x404 then some (if bit v 0 then hrxPop s else s, .ok)
  else if off = 0x410 then some (htxCmd m v s)
  else if 0xC000 ≤ off ∧ off < 0xE400 then
    if hasTxwin m then
      let w : Tab Word := Tab.set (fun _ => 0) (Tab.get (fun _ => []) s.ste.txwin m.idx) ((off - 0xC000) / 4) v
      some (updSte (fun y => { y with txwin := Tab.set (fun _ => ([] : Tab Word)) y.txwin m.idx w }) s, .ok)
    else some (s, .accessErr)
  else none

/-- The local actions of STE's uncorrectable errors (Table 9.14): the stored packet i of flow f, the oldest being 0, reads 0 and counts as
MISSING; a flow entry becomes FREE. -/
def steCarafeUe (f i : Nat) (s : State) : State :=
  raise .ste 0 (updFlow f (fun x => { x with pkts := x.pkts.take i ++ ((x.pkts.drop i).take 1).map (fun p => { p with bad := true }) ++ x.pkts.drop (i + 1) }) s)
/-- FLOW_UE of an entry. -/
def steFlowUe (f : Nat) (s : State) : State := freeFlow f (raise .ste 1 s)

/-! ### Records (R254, R263) -/

/-- The CARAFE_PARTITION payload at a. -/
structure Partition where
  general : Nat
  res : List Nat
  shared : Nat
  floors : List Nat
deriving DecidableEq, Repr
/-- Its words (Table 9.8); lists are by class, BEST_EFFORT first. -/
def readPartition (s : State) (a : Nat) : Partition :=
  let w (i : Nat) : Nat := s.le (a + 4 * i) 4
  ⟨w 0, [w 4, w 3, w 2, w 1], w 5, [w 7 % 65536, w 6 / 65536, w 6 % 65536, 0]⟩
/-- GENERAL, the reservations and the shared pool exceed the class area (R254). -/
def Partition.over (p : Partition) : Bool := decide (61440 < p.general + p.res.sum + p.shared)
/-- The floors are in order. -/
def Partition.floorsOk (p : Partition) : Bool :=
  decide (p.floors.getD 2 0 ≤ p.floors.getD 1 0 ∧ p.floors.getD 1 0 ≤ p.floors.getD 0 0 ∧ p.floors.getD 0 0 ≤ p.shared)
/-- Applying the record discards every stored packet and frees every flow entry (R254); the channels' rounding starts anew (R99). -/
def applyPartition (p : Partition) (s : State) : State :=
  updSte (fun y => { y with
    flows := [], rnd := [], general := p.general, shared := p.shared, shFree := p.shared, poolLow := p.shared, ctl := [], be := []
    cls := (upto 4).foldl (fun t c => Tab.set (fun _ => ({} : Cls)) t c
      { res := p.res.getD c 0, floor := p.floors.getD c 0, drop := (y.clsOf c).drop }) [] }) s

/-- The offsets FLOW_DEFAULTS may write (R263). -/
def flowDefOff (off : Nat) : Bool :=
  off == 0 || off == 8 || off == 0x20 || (off % 4 == 0 && (decide (0x10 ≤ off ∧ off < 0x20) || decide (0x300 ≤ off ∧ off < 0x340)))
/-- The register pairs of a FLOW_DEFAULTS payload. -/
def flowDefPairs (s : State) (a : Nat) : List (Nat × Word) :=
  (upto (s.le a 4)).map fun i => (s.le (a + 4 + 8 * i) 4, wd (s.le (a + 8 + 8 * i) 4))
/-- The flow items of the payload: index and words. -/
def flowDefFlows (s : State) (a : Nat) : List (Nat × List Word) :=
  let b := a + 4 + 8 * s.le a 4
  (upto (s.le b 4)).map fun i => (s.le (b + 4 + 36 * i) 4, (upto 8).map fun j => wd (s.le (b + 8 + 36 * i + 4 * j) 4))
/-- The flows staged one after the other: the state, and the first refusal's code. -/
def stageAll : List (Nat × List Word) → State → State × Nat
  | [], s => (s, 1)
  | (i, fe) :: t, s =>
    let r := stageCheck s fe
    if 8192 ≤ i ∨ (s.flow i).st ≠ .free then (s, 2)
    else if r ≠ 1 then (s, r)
    else stageAll t (doPublish i (doStage i fe s))
/-- IMG applies FLOW_DEFAULTS (R263). -/
def applyFlowDefaults (a : Nat) (s : State) : State :=
  let s := (flowDefPairs s a).foldl (fun s p =>
    if p.1 = 0 then steCtrlWrite p.2 s
    else s.setReg (Blk.ste.base + p.1) (p.2 &&& (match findRow rowsSte p.1 with | some r => wd r.wmask | none => 0))) s
  (stageAll (flowDefFlows s a) s).1

end Sys2Proof.Machine
end

