-- ==== Sys2Proof/Machine/Ptu.lean ====
section
/-! DEFINITION. The precision time unit: the counter, the domains, timestamps, the PTP ports and their servo (R266 to R287). -/
namespace Sys2Proof.Machine
open Sys2Proof


/-- The nominal rate (R269). -/
def nominalRate : Nat := 71582788266667
/-- t(d, c) of R269, with c in units of 2^-32 period, in units of 2^-32 ns. -/
def timeAt (p : TimePar) (c : Int) : Int := (p.base : Int) + floorDivI ((c - (p.anchor : Int) * 2 ^ 32) * (p.rate : Int)) (2 ^ 46)
/-- The domain time at an integer counter value. -/
def timeNow (p : TimePar) (c : Nat) : Int := timeAt p ((c : Int) * 2 ^ 32)
/-- An update of a domain at counter value c with a rate and a step in units of 2^-32 ns (R270); BASE has 96 bits. -/
def TimePar.update (p : TimePar) (c rate : Nat) (step : Int) : TimePar :=
  { anchor := c, base := ((timeNow p c + step) % (2 ^ 96 : Int)).toNat, rate := rate }
/-- A rate within 2^36 of the nominal rate (R269). -/
def rateValid (r : Nat) : Bool := decide (nominalRate ≤ r + 2 ^ 36 ∧ r ≤ nominalRate + 2 ^ 36)

/-! ### Counter reads and captures (R268, R272) -/

/-- A read of CNT_LO: bits [31:0], with bits [63:32] captured for the master (R268, R33). -/
def ptuCntRead (m : Master) (s : State) : State × Word :=
  let c := s.ptu.counter
  (updPtu (fun p => { p with cntHi := Tab.set (fun _ => 0) p.cntHi m.idx (wd (c / 2 ^ 32)) }) s, wd c)
/-- The meaning of PTU_CNT_READ. -/
def execPtuCntRead (m : Master) (s : State) : Res := .next (rdCmd m (ptuCntRead m) s)
/-- TCAP: the counter and the three domain times at it, in the master's captures (R272). -/
def tcap (m : Master) (s : State) : State :=
  let p := s.ptu
  let t (x : TimePar) : Nat := (timeNow x p.counter % (2 ^ 96 : Int)).toNat
  updPtu (fun p => { p with caps := Tab.set (fun _ => ({} : TCap)) p.caps m.idx ⟨p.counter, t p.a, t p.b, t p.sel⟩ }) s
/-- The meaning of TCAP. -/
def execTcap (m : Master) (s : State) : Res := .next (cmd m false (tcap m) s)

/-! ### Configuration fields (Table 10.7, Table 10.3) -/

/-- ROLE is MASTER_ONLY. -/
def roleMaster (s : State) (d : Dom) : Bool := s.rbit (domReg d 0) 8
/-- SERVO_EN. -/
def servoEn (s : State) (d : Dom) : Bool := s.rbit (domReg d 0) 16
/-- The clockIdentity of a port. -/
def clockId (s : State) (d : Dom) : Nat := (s.reg (domReg d 0x70)).toNat * 2 ^ 32 + (s.reg (domReg d 0x6C)).toNat
/-- A signed logarithmic interval of INTVd, as the nearest bound of its range. -/
def logIntv (s : State) (d : Dom) (lo : Nat) (mn mx : Int) : Int := clampI mn mx (sInt 8 (s.fld (domReg d 4) lo 8))
/-- LOG_SYNC, LOG_ANN and LOG_DREQ. -/
def logSync (s : State) (d : Dom) : Int := logIntv s d 0 (-4) 1
def logAnn (s : State) (d : Dom) : Int := logIntv s d 8 0 4
def logDreq (s : State) (d : Dom) : Int := logIntv s d 16 (-4) 5
/-- ANN_TO, 2 to 10. -/
def annTo (s : State) (d : Dom) : Nat := (clampI 2 10 (s.fld (domReg d 4) 24 4 : Nat)).toNat
/-- 2^n seconds in ticks. -/
def logTicks (s : State) (n : Int) : Nat := (64 * s.fs * 2 ^ (n + 8).toNat) / 256

/-- The receive time of a stamp in a domain (R274). -/
def rxTime (s : State) (d : Dom) (n stamp : Nat) : Int :=
  timeAt (s.ptu.dom d) stamp - sInt 32 (s.reg (Blk.ptu.base + 0xC0 + 8 * n)).toNat * 2 ^ 24
/-- The transmit time of a stamp in a domain (R274). -/
def txTime (s : State) (d : Dom) (n stamp : Nat) : Int :=
  timeAt (s.ptu.dom d) stamp + sInt 32 (s.reg (Blk.ptu.base + 0xC4 + 8 * n)).toNat * 2 ^ 24

/-! ### Sending (R276, R277) -/

/-- The fields of a message the port sends. -/
structure PtpOut where
  typ : Nat
  seq : Nat
  corr : Int := 0
  flags : Nat := 0
  control : Nat
  logInt : Int
  body : List Byte
deriving DecidableEq, Repr
/-- The PTP message (IEEE 1588-2019 header, PRESUMED from the standard that R277 names). -/
def ptpBytes (s : State) (d : Dom) (o : PtpOut) : List Byte :=
  beBytes 1 o.typ ++ beBytes 1 0x12 ++ beBytes 2 (34 + o.body.length) ++ beBytes 1 (s.fld (domReg d 0) 0 7) ++ beBytes 1 0 ++ beBytes 2 o.flags
    ++ beBytes 8 (uInt 64 o.corr) ++ beBytes 4 0 ++ beBytes 8 (clockId s d) ++ beBytes 2 1 ++ beBytes 2 o.seq ++ beBytes 1 o.control
    ++ beBytes 1 (uInt 8 o.logInt) ++ o.body
/-- The frame that carries a message, by the domain's transport (R277): UDP to 224.0.1.129 with checksum 0, or EtherType 0x88F7. `x`
supplies the IPv4 fields the spec leaves open. -/
def ptpFrame (s : State) (d : Dom) (event : Bool) (msg : List Byte) (x : Word) : List Byte :=
  let n := domLink s d
  if s.rbit (domReg d 0) 10 then beBytes 6 0x011B19000000 ++ beBytes 6 (macAddr s n) ++ beBytes 2 0x88F7 ++ msg
  else
    let port := if event then 319 else 320
    let ul := 8 + msg.length
    let ips := beBytes 4 (s.reg (Blk.ste.base + 0x10 + 4 * n)).toNat ++ beBytes 4 0xE0000181
    let h1 := beBytes 1 0x45 ++ beBytes 1 (bits x 24 8) ++ beBytes 2 (20 + ul) ++ beBytes 2 (bits x 0 16) ++ beBytes 2 0 ++ beBytes 1 (bits x 16 8) ++ beBytes 1 17
    beBytes 6 0x01005E000181 ++ beBytes 6 (macAddr s n) ++ beBytes 2 0x0800 ++ h1 ++ beBytes 2 (checksum (h1 ++ ips)) ++ ips
      ++ beBytes 2 port ++ beBytes 2 port ++ beBytes 2 ul ++ beBytes 2 0 ++ msg
/-- A message is handed to the MAC: event messages to queue 7, general ones to queue 4 (Table 8.3). -/
def ptpSend (d : Dom) (event : Bool) (o : PtpOut) (s : State) : State × TxAnswer :=
  let x := s.draw
  macEnqueue (domLink s d) (if event then 7 else 4) (ptpFrame x.2 d event (ptpBytes x.2 d o) x.1) x.2
/-- A PTP timestamp of T integer nanoseconds: 48 bits of seconds, 32 of nanoseconds (R276). -/
def ptpStamp (t : Int) : List Byte := beBytes 6 (floorDivI t 1000000000 % (2 ^ 48 : Int)).toNat ++ beBytes 4 (t % 1000000000).toNat
/-- The originTimestamp and the correction PTU inserts into an event message that leaves at a stamp (R276). -/
def originOf (s : State) (d : Dom) (stamp : Nat) : List Byte × Int :=
  let t := txTime s d (domLink s d) stamp
  (ptpStamp (floorDivI t (2 ^ 32)), floorDivI (t % (2 ^ 32 : Int)) (2 ^ 16))

/-! ### Port state (R281, R282) -/

/-- The port states of IEEE 1588 (R281, R282, Table 10.5). -/
def portState (s : State) (d : Dom) : Nat :=
  let p := s.ptu.port d
  if p.faulty then 2
  else if !p.en then 3
  else if roleMaster s d then (if s.sys.standby then 7 else 6)
  else if p.best.isNone then 4
  else if p.locked then 9 else 8
/-- The port sends: enabled, and not snuffed (Table 10.5). -/
def portSends (s : State) (d : Dom) : Bool := (s.ptu.port d).en && !(s.ptu.port d).faulty && !s.sys.snuffed
/-- LOCKED takes a value; a change posts LOCK_CHG. -/
def setLocked (d : Dom) (v : Bool) (s : State) : State :=
  if (s.ptu.port d).locked = v then s else evt .ptu 0 (updPort d (fun p => { p with locked := v }) s)
/-- A message fits the port's MAC, transport, version and domainNumber (R277). -/
def msgFits (s : State) (d : Dom) (x : PtpMsg) : Bool :=
  x.mac == domLink s d && x.ieee == s.rbit (domReg d 0) 10 && x.version == 2 && x.domain == s.fld (domReg d 0) 0 7
/-- A received message reaches the port of a domain: PTU takes the oldest stamp its MAC holds, which is the message's (R273, R275),
and a message that does not fit an enabled port is counted. Without a held frame there is no message. -/
def withMsg (d : Dom) (x : PtpMsg) (slave : Bool) (k : PtpMsg → State → State) (s : State) : State :=
  match s.stamps x.mac with
  | [] => s
  | c :: r =>
    let s := setStamps x.mac r s
    if !(s.ptu.port d).en || (s.ptu.port d).faulty then s
    else if msgFits s d x && roleMaster s d == !slave then k { x with stamp := c } s else rxOther d s
/-- The message comes from the best master. -/
def fromBest (s : State) (d : Dom) (x : PtpMsg) : Bool := (s.ptu.port d).best == some (x.src, x.srcPort)

/-! ### Best master (R279) -/

/-- The first list is lower at the first place where the two differ. -/
def lexLt : List Nat → List Nat → Bool
  | a :: t, b :: u => decide (a < b) || (a == b && lexLt t u)
  | _, _ => false
/-- Announce x is better than y by the data set comparison of IEEE 1588-2019, 9.3.4. -/
def better (x y : PtpMsg) : Bool :=
  if x.gm = y.gm then lexLt [x.steps, x.src, x.srcPort] [y.steps, y.src, y.srcPort]
  else lexLt [x.p1, x.cls, x.acc, x.var, x.p2, x.gm] [y.p1, y.cls, y.acc, y.var, y.p2, y.gm]
/-- The best qualified master of a table. -/
def bestOf (l : List Foreign) : Option PtpMsg :=
  (l.filter (·.qualified)).foldl (fun b f => match b with | none => some f.msg | some x => if better f.msg x then some f.msg else b) none
/-- The port chooses its best master; a change clears LOCKED and the delay estimate, and posts GM_CHG. -/
def chooseMaster (d : Dom) (s : State) : State :=
  let b := (bestOf (s.ptu.port d).masters).map fun x => (x.src, x.srcPort)
  if (s.ptu.port d).best = b then s
  else
    let s := setLocked d false s
    evt .ptu 1 (updPort d (fun p => { p with best := b, mpd := none, ms := none, msT3 := none, t3 := none, twoStep := none }) s)
/-- The Announce data of the best master. -/
def bestMsg (p : PtpPort) : Option PtpMsg := (p.masters.find? fun f => p.best == some (f.msg.src, f.msg.srcPort)).map (·.msg)

/-- A foreign-master table with an Announce heard at tick t (R279): 4 intervals are `w` ticks. -/
def hearAnnounce (l : List Foreign) (x : PtpMsg) (t w : Nat) : List Foreign :=
  let same (f : Foreign) : Bool := f.msg.src == x.src && f.msg.srcPort == x.srcPort
  if l.any same then l.map fun f => if same f then ⟨x, t, f.qualified || decide (t ≤ f.heard + w)⟩ else f
  else if l.length < 8 then l ++ [⟨x, t, false⟩]
  else
    match (l.filter fun f => !f.qualified).foldl (fun (o : Option Foreign) f => match o with | none => some f | some g => if f.heard < g.heard then some f else o) none with
    | none => l
    | some g => l.filter (fun f => f != g) ++ [⟨x, t, false⟩]
/-- ANNOUNCE_RECEIVE (R278, R279). -/
def announceReceive (d : Dom) (x : PtpMsg) (s : State) : State :=
  withMsg d x true (fun x s =>
    if x.src = clockId s d ∨ 255 ≤ x.steps then s
    else
      let t := s.sys.tick
      let w := 4 * logTicks s (logAnn s d)
      chooseMaster d (updPort d (fun p => { p with masters := hearAnnounce p.masters x t w, rxAnn := (p.rxAnn + 1) % 2 ^ 32 }) s)) s
/-- The meaning of ANNOUNCE_RECEIVE. -/
def execAnnounceReceive (d : Dom) (msg : PtpMsg) (s : State) : Res := .next (announceReceive d msg s)

/-- ANN_TIMEOUT: the best master has sent no Announce for ANN_TO intervals (R281); a servo update of it that waits is discarded (Table 10.5). -/
def annTimeout (d : Dom) (s : State) : State :=
  let p := s.ptu.port d
  let out := p.masters.any fun f => p.best == some (f.msg.src, f.msg.srcPort) && decide (f.heard + annTo s d * logTicks s (logAnn s d) ≤ s.sys.tick)
  if p.en && !p.faulty && !roleMaster s d && out then
    let s := raise .ptu (4 + d.idx) s
    chooseMaster d (updPort d (fun p => { p with
      masters := p.masters.filter fun f => p.best != some (f.msg.src, f.msg.srcPort)
      upd := p.upd.filter fun u => p.best != some u.master }) s)
  else s
/-- The meaning of ANN_TIMEOUT. -/
def execAnnTimeout (d : Dom) (s : State) : Res := .next (annTimeout d s)
/-- SYNC_LOSS: no Sync accepted for 3 intervals; LOCKED clears (R281). -/
def syncLoss (d : Dom) (s : State) : State :=
  let p := s.ptu.port d
  match p.syncSince with
  | some t =>
    if p.en && !p.faulty && !roleMaster s d && decide (t + 3 * logTicks s (logSync s d) ≤ s.sys.tick) then
      setLocked d false (updPort d (fun p => { p with syncSince := none }) (raise .ptu (2 + d.idx) s))
    else s
  | none => s
/-- The meaning of SYNC_LOSS. -/
def execSyncLoss (d : Dom) (s : State) : Res := .next (syncLoss d s)

/-! ### The servo (R280) -/

/-- A timestamp as a signed number of 2^-16 ns: seconds and nanoseconds with a correction. -/
def stampVal (x : PtpMsg) (corr : Int) : Int := ((x.sec * 1000000000 + x.ns : Nat) : Int) * 2 ^ 16 + corr
/-- The servo at an accepted Sync whose t2 - t1 is `ms`, once mpd exists (R280). -/
def servo (d : Dom) (ms mpd : Int) (s : State) : State :=
  let p := s.ptu.port d
  let e := ms - mpd
  let s := updPort d (fun p => { p with ofs := e }) s
  if !servoEn s d then s
  else
    let thr := s.reg (domReg d 0x10)
    let lock : Int := ((bits thr 0 16 : Nat) : Int) * 2 ^ 16
    let stepT : Int := ((bits thr 16 16 : Nat) : Int) * 1000 * 2 ^ 16
    let due := s.sys.tick + 1
    let mst := p.best.getD (0, 0)
    if (e.natAbs : Int) ≥ stepT then
      setLocked d false (updPort d (fun p => { p with good := 0, upd := some ⟨-e * 2 ^ 16, none, mst, due⟩ }) s)
    else
      let ki : Int := (s.reg (domReg d 0xC)).toNat
      let kp : Int := (s.reg (domReg d 0x8)).toNat
      let x1 := p.fi - floorDivI (e * ki) (2 ^ 24)
      let fi := clampI (-(2 ^ 36)) (2 ^ 36) x1
      let x2 := fi - floorDivI (e * kp) (2 ^ 24)
      let adj := clampI (-(2 ^ 36)) (2 ^ 36) x2
      let s := if x1 ≠ fi ∨ x2 ≠ adj then raise .ptu 6 s else s
      let good := if (e.natAbs : Int) < lock then min (p.good + 1) 16 else 0
      let lk := if (e.natAbs : Int) ≥ 4 * lock then false else if good = 16 then true else p.locked
      setLocked d lk (updPort d (fun p => { p with fi := fi, good := good, upd := some ⟨0, some ((nominalRate : Int) + adj).toNat, mst, due⟩ }) s)
/-- A Sync is accepted whole: t2 - t1, and the servo where mpd exists. -/
def syncAccepted (d : Dom) (t1 t2 : Int) (s : State) : State :=
  let ms := t2 - t1
  let s := updPort d (fun p => { p with ms := some ms, twoStep := none }) s
  match (s.ptu.port d).mpd with
  | some mpd => servo d ms mpd s
  | none => s
/-- t2 of a Sync: its receive time in units of 2^-16 ns. -/
def syncT2 (s : State) (d : Dom) (x : PtpMsg) : Int := floorDivI (rxTime s d x.mac x.stamp) (2 ^ 16)
/-- SYNC_RECEIVE: a Sync of the best master is accepted; a two-step one waits for its Follow_Up (R279, R280). -/
def syncReceive (d : Dom) (x : PtpMsg) (s : State) : State :=
  withMsg d x true (fun x s =>
    if !fromBest s d x then s
    else
      let t := s.sys.tick
      let s := updPort d (fun p => { p with rxSync := (p.rxSync + 1) % 2 ^ 32, syncSince := some t }) s
      if x.twoStep then updPort d (fun p => { p with twoStep := some x, twoStepAt := t }) s
      else syncAccepted d (stampVal x x.corr) (syncT2 s d x) s) s
/-- The meaning of SYNC_RECEIVE. -/
def execSyncReceive (d : Dom) (msg : PtpMsg) (s : State) : Res := .next (syncReceive d msg s)
/-- FOLLOW_UP_RECEIVE: the Follow_Up of the last two-step Sync within one sync interval (R279, R280). -/
def followUpReceive (d : Dom) (x : PtpMsg) (s : State) : State :=
  withMsg d x true (fun x s =>
    let p := s.ptu.port d
    match p.twoStep with
    | some y =>
      if fromBest s d x && y.seq == x.seq && y.src == x.src && decide (s.sys.tick ≤ p.twoStepAt + logTicks s (logSync s d)) then
        syncAccepted d (stampVal x (x.corr + y.corr)) (syncT2 s d y) s
      else s
    | none => s) s
/-- The meaning of FOLLOW_UP_RECEIVE. -/
def execFollowUpReceive (d : Dom) (msg : PtpMsg) (s : State) : Res := .next (followUpReceive d msg s)
/-- DELAY_RESP_RECEIVE: the answer to the port's last Delay_Req updates mpd (R280). -/
def delayRespReceive (d : Dom) (x : PtpMsg) (s : State) : State :=
  withMsg d x true (fun x s =>
    let p := s.ptu.port d
    match p.t3, p.msT3 with
    | some t3, some ms =>
      if fromBest s d x && x.reqId == clockId s d && x.reqPort == 1 && x.seq == p.reqSeq then
        let dly := floorDivI (ms + (stampVal x (-x.corr) - t3)) 2
        updPort d (fun p => { p with mpd := some (match p.mpd with
          | none => dly
          | some v => v + floorDivI (dly - v) (2 ^ s.fld (domReg d 0x14) 0 4)) }) s
      else s
    | _, _ => s) s
/-- The meaning of DELAY_RESP_RECEIVE. -/
def execDelayRespReceive (d : Dom) (msg : PtpMsg) (s : State) : Res := .next (delayRespReceive d msg s)

/-- DELAY_REQ_SEND: after its interval a slave port with a best master sends a Delay_Req that leaves at `stamp` (R279, R280). -/
def delayReqSend (d : Dom) (stamp : Nat) (s : State) : State :=
  let p := s.ptu.port d
  let due := match p.reqAt with | some t => decide (t + logTicks s (logDreq s d) ≤ s.sys.tick) | none => true
  if portSends s d && !roleMaster s d && p.best.isSome && due then
    let seq := (p.reqSeq + 1) % 65536
    let o := originOf s d (toStamp stamp)
    let t3 := floorDivI (txTime s d (domLink s d) (toStamp stamp)) (2 ^ 16)
    let t := s.sys.tick
    let r := ptpSend d true { typ := 1, seq := seq, corr := o.2, control := 1, logInt := 127, body := o.1 } s
    if r.2 = .ok then updPort d (fun p => { p with reqSeq := seq, t3 := some t3, msT3 := p.ms, reqAt := some t, txEvt := (p.txEvt + 1) % 2 ^ 32 }) r.1
    else updPort d (fun p => { p with reqAt := some t }) r.1
  else s
/-- The meaning of DELAY_REQ_SEND. -/
def execDelayReqSend (d : Dom) (stamp : Nat) (s : State) : Res := .next (delayReqSend d stamp s)

/-- DOMAIN_UPDATE: a servo result takes effect in the first tick after its computation (R270, R280). -/
def domainUpdate (d : Dom) (s : State) : State :=
  match (s.ptu.port d).upd with
  | some u =>
    if u.due ≤ s.sys.tick then
      let s := updPtu (fun p => p.setDom d ((p.dom d).update p.counter (u.rate.getD (p.dom d).rate) u.step)) s
      let s := updPort d (fun p => { p with upd := none }) s
      if u.rate.isNone then evt .ptu 3 s else s
    else s
  | none => s
/-- The meaning of DOMAIN_UPDATE. -/
def execDomainUpdate (d : Dom) (s : State) : Res := .next (domainUpdate d s)

/-- UPD: a host's rate and step, refused while SERVO_EN is 1 or for a rate R269 does not allow (R270, R284). -/
def ptuUpd (d : Dom) (s : State) : State :=
  let rate := s.fld (domReg d 0x2C) 0 16 * 2 ^ 32 + (s.reg (domReg d 0x28)).toNat
  let step := sInt 64 ((s.reg (domReg d 0x34)).toNat * 2 ^ 32 + (s.reg (domReg d 0x30)).toNat) * 2 ^ 32
  if servoEn s d || !rateValid rate then evt .ptu 4 s
  else evt .ptu 2 (updPtu (fun p => p.setDom d ((p.dom d).update p.counter rate step)) s)
/-- The meaning of UPD. -/
def execUpd (m : Master) (d : Dom) (s : State) : Res := .next (cmd m false (ptuUpd d) s)

/-! ### Master operation (R282) -/

/-- A MASTER_ONLY domain copies SEL at every tick. -/
def masterCopy (s : State) : State :=
  let f (d : Dom) (s : State) : State := if roleMaster s d then updPtu (fun p => p.setDom d p.sel) s else s
  f .b (f .a s)
/-- The port is MASTER and may send. -/
def isMaster (s : State) (d : Dom) : Bool := portSends s d && portState s d == 6
/-- The interval of the Announce messages has passed. -/
def annDue (s : State) (d : Dom) : Bool :=
  match (s.ptu.port d).annAt with | some t => decide (t + logTicks s (logAnn s d) ≤ s.sys.tick) | none => true
/-- A whole multiple of 2^LOG_SYNC s of SEL lies in this tick, and its Sync has not left. -/
def syncDue (s : State) (d : Dom) : Bool :=
  let i : Int := ((10 ^ 9 * 2 ^ 32 * 2 ^ (logSync s d + 8).toNat / 256 : Nat) : Int)
  decide ((timeNow s.ptu.sel s.ptu.counter % i) * ((64 * s.fs : Nat) : Int) < 10 ^ 9 * 2 ^ 32) && (s.ptu.port d).syncAt != some s.sys.tick
/-- ANNOUNCE_SEND: every 2^LOG_ANN s, with stepsRemoved 0 and the fields of MASTER_Q, MASTER_VAR and MASTER_UTC; HOLD_CLASS in holdover (R282). -/
def announceSend (d : Dom) (s : State) : State :=
  if isMaster s d && annDue s d then
    let now := s.sys.tick
    let q := s.reg (domReg d 0x60)
    let v := s.reg (domReg d 0x64)
    let u := s.reg (domReg d 0x68)
    let cls := if s.sys.holdover then bits q 8 8 else bits q 0 8
    let seq := (s.ptu.port d).annSeq
    let body := ptpStamp 0 ++ beBytes 2 (bits u 0 16) ++ beBytes 1 0 ++ beBytes 1 (bits v 16 8) ++ beBytes 1 cls ++ beBytes 1 (bits q 16 8)
      ++ beBytes 2 (bits v 0 16) ++ beBytes 1 (bits v 24 8) ++ beBytes 8 (clockId s d) ++ beBytes 2 0 ++ beBytes 1 (bits q 24 8)
    let flags := 8 + bits u 17 1 + 2 * bits u 18 1 + 4 * bits u 16 1
    let r := ptpSend d false { typ := 11, seq := seq, flags := flags, control := 5, logInt := logAnn s d, body := body } s
    updPort d (fun p => { p with annSeq := (seq + 1) % 65536, annAt := some now }) r.1
  else s
/-- The meaning of ANNOUNCE_SEND. -/
def execAnnounceSend (d : Dom) (s : State) : Res := .next (announceSend d s)
/-- SYNC_SEND: at each SEL time that is a whole multiple of 2^LOG_SYNC s a one-step Sync that leaves at `stamp` (R276, R282). -/
def syncSend (d : Dom) (stamp : Nat) (s : State) : State :=
  if isMaster s d && syncDue s d then
    let now := s.sys.tick
    let seq := (s.ptu.port d).syncSeq
    let o := originOf s d (toStamp stamp)
    let r := ptpSend d true { typ := 0, seq := seq, corr := o.2, control := 0, logInt := logSync s d, body := o.1 } s
    updPort d (fun p => { p with syncSeq := (seq + 1) % 65536, syncAt := some now, txEvt := if r.2 = .ok then (p.txEvt + 1) % 2 ^ 32 else p.txEvt }) r.1
  else s
/-- The meaning of SYNC_SEND. -/
def execSyncSend (d : Dom) (stamp : Nat) (s : State) : Res := .next (syncSend d stamp s)
/-- DELAY_REQ_RECEIVE: a MASTER port answers with the receive time, the sub-nanosecond part less the request's correction (R282). -/
def delayReqReceive (d : Dom) (x : PtpMsg) (s : State) : State :=
  withMsg d x false (fun x s =>
    if isMaster s d then
      let t := rxTime s d x.mac x.stamp
      let c := floorDivI (t % (2 ^ 32 : Int)) (2 ^ 16) - x.corr
      let body := ptpStamp (floorDivI t (2 ^ 32)) ++ beBytes 8 x.src ++ beBytes 2 x.srcPort
      (ptpSend d false { typ := 9, seq := x.seq, corr := c, control := 3, logInt := logDreq s d, body := body } s).1
    else s) s
/-- The meaning of DELAY_REQ_RECEIVE. -/
def execDelayReqReceive (d : Dom) (msg : PtpMsg) (s : State) : Res := .next (delayReqReceive d msg s)

/-! ### CTRL and registers (R284 to R286) -/

/-- A domain's port is enabled: it listens; a domain that an uncorrectable error hit restarts from SEL (Table 10.5). -/
def portEnable (d : Dom) (s : State) : State :=
  let p := s.ptu.port d
  if p.en then s
  else
    let t := s.sys.tick
    let s := if p.faulty then updPtu (fun u => u.setDom d ⟨u.counter, (timeNow u.sel u.counter % (2 ^ 96 : Int)).toNat, u.sel.rate⟩) s else s
    updPort d (fun p => { p with en := true, faulty := false, syncSince := some t }) s
/-- A domain's port is disabled: its masters and its lock go, its rate and integral stay. -/
def portDisable (d : Dom) (s : State) : State :=
  if !(s.ptu.port d).en then s
  else
    let s := setLocked d false s
    updPort d (fun p => { p with en := false, masters := [], best := none, mpd := none, ms := none, msT3 := none, t3 := none, twoStep := none, good := 0, syncSince := none, annAt := none }) s
/-- A write of CTRL. -/
def ptuCtrlWrite (v : Word) (s : State) : State :=
  let s := s.setReg Blk.ptu.base (v &&& 3)
  let s := if bit v 0 then portEnable .a s else portDisable .a s
  if bit v 1 then portEnable .b s else portDisable .b s
/-- The meaning of PTP_PORT_ENABLE. -/
def execPtpPortEnable (m : Master) (d : Dom) (s : State) : Res :=
  .next (cmd m true (fun s => ptuCtrlWrite (s.reg Blk.ptu.base ||| bm d.idx) s) s)
/-- The meaning of PTP_PORT_DISABLE. -/
def execPtpPortDisable (m : Master) (d : Dom) (s : State) : Res :=
  .next (cmd m true (fun s => ptuCtrlWrite (s.reg Blk.ptu.base &&& ~~~bm d.idx) s) s)
/-- DOMAIN_UE of a domain (Table 10.5). -/
def domainUe (d : Dom) (s : State) : State := setLocked d false (updPort d (fun p => { p with faulty := true }) (raise .ptu 1 s))

/-- A signed value of 1/16 ns, saturated to a word. -/
def sat32 (v : Int) : Word := wd (uInt 32 (satS 32 v))
/-- A read of PTU's registers that is not plain (Table 10.6). -/
def ptuRegRead (m : Master) (off : Nat) (s : State) : Option (State × Word) :=
  let p := s.ptu
  let cap := Tab.get (fun _ => ({} : TCap)) p.caps m.idx
  if off = 0x004 then some (s, pack [(0, portState s .a), (4, portState s .b), (8, b2n p.portA.locked), (9, b2n p.portB.locked)])
  else if off = 0x010 then some (ptuCntRead m s)
  else if off = 0x014 then some (s, Tab.get (fun _ => 0) p.cntHi m.idx)
  else if off = 0x020 then some (s, wd cap.cnt)
  else if off = 0x024 then some (s, wd (cap.cnt / 2 ^ 32))
  else if off = 0x300 then some (s, wd p.sel.rate)
  else if off = 0x304 then some (s, wd (p.sel.rate / 2 ^ 32))
  else if 0x400 ≤ off ∧ off < 0x430 then
    let t := match (off - 0x400) / 16 with | 0 => cap.a | 1 => cap.b | _ => cap.sel
    some (s, match off / 4 % 4 with | 0 => wd (t / 2 ^ 32) | 1 => wd (t / 2 ^ 64) | 2 => wd t | _ => 0)
  else if 0x100 ≤ off ∧ off < 0x300 then
    let d : Dom := if off < 0x200 then .a else .b
    let x := p.port d
    let g := bestMsg x
    match off % 0x100 with
    | 0x20 => some (s, wd (p.dom d).rate)
    | 0x24 => some (s, wd ((p.dom d).rate / 2 ^ 32))
    | 0x40 => some (s, sat32 (floorDivI x.ofs 4096))
    | 0x44 => some (s, sat32 (floorDivI (x.mpd.getD 0) 4096))
    | 0x48 => some (s, pack [(0, portState s d), (4, b2n x.locked), (5, b2n g.isSome), (16, (g.map (·.steps)).getD 0)])
    | 0x4C => some (s, match g with | some y => pack [(0, y.cls), (8, y.acc), (16, y.var)] | none => 0)
    | 0x50 => some (s, match g with | some y => wd y.gm | none => 0)
    | 0x54 => some (s, match g with | some y => wd (y.gm / 2 ^ 32) | none => 0)
    | 0x58 => some (s, match g with | some y => pack [(0, y.utc), (16, b2n y.utcValid), (17, b2n y.leap61), (18, b2n y.leap59)] | none => 0)
    | 0x80 => some (s, wd x.rxSync)
    | 0x84 => some (s, wd x.rxAnn)
    | 0x88 => some (s, wd x.txEvt)
    | 0x8C => some (s, wd x.rxOther)
    | _ => none
  else none
/-- The registers a write of an enabled domain does not reach (R286). -/
def domGuarded (o : Nat) : Bool := o == 0 || o == 0x60 || o == 0x64 || o == 0x68 || o == 0x6C || o == 0x70
/-- A write of PTU's registers that is not plain. -/
def ptuRegWrite (m : Master) (off : Nat) (v : Word) (s : State) : Option (State × Code) :=
  if off = 0 then some (ptuCtrlWrite v s, .ok)
  else if off = 0x018 then some (if bit v 0 then tcap m s else s, .ok)
  else if 0x100 ≤ off ∧ off < 0x300 then
    let d : Dom := if off < 0x200 then .a else .b
    if off % 0x100 = 0x38 then some (if bit v 0 then ptuUpd d s else s, .ok)
    else if domGuarded (off % 0x100) && (s.ptu.port d).en then some (s, .accessErr)
    else none
  else none

/-- The offsets TIME_SETUP may write (R285). -/
def timeSetupOff (off : Nat) : Bool :=
  let dom (o : Nat) : Bool := o == 0 || o == 4 || o == 8 || o == 0xC || o == 0x10 || o == 0x14 || o == 0x60 || o == 0x64 || o == 0x68 || o == 0x6C || o == 0x70
  off == 0 || (off % 4 == 0 && decide (0xC0 ≤ off ∧ off < 0xE0)) || (decide (0x100 ≤ off ∧ off < 0x300) && dom (off % 0x100))
/-- A TIME_SETUP record's pairs keep R285: at most 128, admitted offsets, CTRL last, the two domains not equal in LINK and DOMAIN_NUM. -/
def timeSetupOk (ps : List (Nat × Word)) : Bool :=
  let last (off : Nat) (d : Word) : Word := ps.foldl (fun v p => if p.1 = off then p.2 else v) d
  let a := last 0x100 0x00010000
  let b := last 0x200 0x00012000
  decide (ps.length ≤ 128) && ps.all (fun p => timeSetupOff p.1) && ps.dropLast.all (fun p => p.1 != 0)
    && !(bits a 12 3 == bits b 12 3 && bits a 0 7 == bits b 0 7)
/-- IMG applies a TIME_SETUP record; what R286 keeps from an enabled domain stays (DEDUCED: R286 names every write). -/
def applyTimeSetup (ps : List (Nat × Word)) (s : State) : State :=
  ps.foldl (fun s p =>
    if p.1 = 0 then ptuCtrlWrite p.2 s
    else if decide (0x100 ≤ p.1) && domGuarded (p.1 % 0x100) && (s.ptu.port (if p.1 < 0x200 then .a else .b)).en then s
    else s.setReg (Blk.ptu.base + p.1) (p.2 &&& (match findRow rowsPtu p.1 with | some r => wd r.wmask | none => 0))) s

end Sys2Proof.Machine
end

