-- ==== Sys2Proof/Machine/Rsu.lean ====
section
/-! DEFINITION. The reference selection unit: qualification, selection, following and pulling, start-up and alignment, the
synthesised outputs (R288 to R305). -/
namespace Sys2Proof.Machine
open Sys2Proof

/-- The RSU part changes. -/
def updRsu (f : Rsu → Rsu) (s : State) : State := { s with rsu := f s.rsu }
/-- Reference c. -/
def State.ref (s : State) (c : Nat) : Ref := Tab.get (fun _ => {}) s.rsu.refs c
/-- Reference c changes. -/
def updRef (c : Nat) (f : Ref → Ref) (s : State) : State :=
  updRsu (fun r => { r with refs := Tab.set (fun _ => ({} : Ref)) r.refs c (f (Tab.get (fun _ => {}) r.refs c)) }) s
/-- The six references. -/
def refList : List Nat := [0, 1, 2, 3, 4, 5]
/-- REFc_CFG. -/
def refCfg (s : State) (c : Nat) : Word := s.reg (Blk.rsu.base + 0x100 + 16 * c)
/-- REFc_CFG.EN. -/
def refEn (s : State) (c : Nat) : Bool := bit (refCfg s c) 31
/-- The domain of references 0 and 1. -/
def refDom : Nat → Option Dom
  | 0 => some .a
  | 1 => some .b
  | _ => none
/-- Seconds in ticks. -/
def secTicks (s : State) (n : Nat) : Nat := 64 * s.fs * n
/-- The frame rate a NOM or RATE code names: 0 FS, 1 48 kHz, 2 96 kHz. -/
def rateCode (s : State) (c : Nat) : Nat := match c with | 1 => 48000 | 2 => 96000 | _ => s.fs
/-- The frequency of the edges that give a pin reference's rate, and of those that give its phase (Table 11.1). -/
def refFreq (s : State) (c : Nat) : Nat := if c = 4 then 10000000 else rateCode s (bits (refCfg s c) 24 2)
def phaseFreq (s : State) (c : Nat) : Nat := if c = 4 then 1 else refFreq s c
/-- TIMING's waits in seconds. -/
def tQual (s : State) : Nat := max 1 (s.fld (Blk.rsu.base + 0xC) 8 8)
def tWtr (s : State) : Nat := s.fld (Blk.rsu.base + 0xC) 0 8
def tFirst (s : State) : Nat := s.fld (Blk.rsu.base + 0xC) 16 8
def tStart (s : State) : Nat := s.fld (Blk.rsu.base + 0xC) 24 8

/-! ### Edges and rates (R288, R289) -/

/-- REFERENCE_EDGE: an edge on an input is stamped at the time counter. -/
def referenceEdge (pin : RefPin) (c : Nat) (s : State) : State :=
  let rateEdge (x : Ref) : Ref := { x with first := if x.first.isNone then some c else x.first, last := some c, k := x.k + 1, edge := some c }
  match pin with
  | .wck0 => updRef 2 (fun x => { rateEdge x with phase := some c }) s
  | .wck1 => updRef 3 (fun x => { rateEdge x with phase := some c }) s
  | .port => updRef 5 (fun x => { rateEdge x with phase := some c }) s
  | .tref => updRef 4 rateEdge s
  | .pps => updRef 4 (fun x => { x with pps2 := x.pps1, pps1 := x.phase.map fun p => c - p, phase := some c }) s
/-- The meaning of REFERENCE_EDGE. -/
def execReferenceEdge (pin : RefPin) (stamp : Nat) (s : State) : Res := .next (referenceEdge pin stamp s)

/-- rate_r of a pin reference's window of k edges (R289). -/
def rateEst (f k c0 c1 : Nat) : Option Nat :=
  if k < 2 ∨ c1 ≤ c0 then none else some (rneDiv (((k - 1) * 10 ^ 9 * 2 ^ 46 : Nat) : Int) ((f * (c1 - c0) : Nat) : Int)).toNat
/-- rate_r of a reference, where it has one. -/
def refRate (s : State) (c : Nat) : Option Nat :=
  match refDom c with
  | some d => some (s.ptu.dom d).rate
  | none => (s.ref c).rate
/-- The difference of two numbers. -/
def absDiff (a b : Nat) : Nat := (a - b) + (b - a)
/-- A PPS interval lies within 1 s ± 1 µs. -/
def ppsOk (o : Option Nat) : Bool := match o with | some i => decide (absDiff i 983040000 ≤ 983) | none => false

/-- A port's receive direction is a slave with no clock-loss fault set (Table 11.2). -/
def portSlaveOk (s : State) (n : Nat) : Bool := !s.rbit ((Blk.apt n).base + 0x10) 0 && !s.faultBit (.apt n) 0
/-- A reference's qualification holds (Table 11.2). -/
def qualified (s : State) (c : Nat) : Bool :=
  match refDom c with
  | some d => (s.ptu.port d).en && !roleMaster s d && (s.ptu.port d).locked
  | none =>
    let x := s.ref c
    let near := match x.edge with | some e => decide (s.ptu.counter * refFreq s c ≤ e * refFreq s c + 4 * 983040000) | none => false
    let rate := match x.rate with | some r => decide (absDiff r nominalRate * 1000000 ≤ 100 * nominalRate) | none => false
    let extra :=
      if c = 4 then
        (match x.phase with | some p => decide (2 * s.ptu.counter ≤ 2 * p + 3 * 983040000) | none => false) && ppsOk x.pps1 && ppsOk x.pps2
      else if c = 5 then portSlaveOk s (bits (refCfg s 5) 26 4)
      else true
    near && rate && extra

/-! ### Ranking and selection (R291, R292) -/

/-- The keys CLASS, ACCURACY, PRIO of a reference. -/
def refKeys (s : State) (c : Nat) : List Nat :=
  let w := refCfg s c
  match refDom c with
  | some d =>
    match bestMsg (s.ptu.port d) with
    | some g => [g.cls, g.acc, bits w 0 8]
    | none => [0, 0, bits w 0 8]
  | none => [bits w 8 8, bits w 16 8, bits w 0 8]
/-- A reference is ELIGIBLE. -/
def eligible (s : State) (c : Nat) : Bool := (s.ref c).state == 4
/-- The highest-ranking ELIGIBLE reference; the lower index among tied ones. -/
def bestRef (s : State) : Option Nat :=
  (refList.filter (eligible s)).foldl (fun b c => match b with | none => some c | some d => if lexLt (refKeys s c) (refKeys s d) then some c else b) none
/-- What R292 selects. -/
def choose (s : State) : Option Nat :=
  match s.rsu.selected with
  | some r =>
    if eligible s r then
      match bestRef s with
      | some b => if lexLt (refKeys s b) (refKeys s r) then some b else some r
      | none => some r
    else bestRef s
  | none => bestRef s

/-! ### Following and pulling (R296 to R299) -/

/-- The phase error of a reference at the counter value now (R297). -/
def phaseError (s : State) (c : Nat) : Int :=
  match refDom c with
  | some d => timeNow (s.ptu.dom d) s.ptu.counter - timeNow s.ptu.sel s.ptu.counter
  | none =>
    match (s.ref c).phase with
    | none => 0
    | some ce =>
      let f : Int := (phaseFreq s c : Nat)
      let x := timeNow s.ptu.sel ce * f
      let q : Int := 10 ^ 9 * 2 ^ 32
      rneDiv (rneDiv x q * q - x) f
/-- SEL's parameters change; the domains that serve SEL's time follow at once (R282). -/
def updSel (f : Nat → TimePar → TimePar) (s : State) : State := masterCopy (updPtu (fun p => { p with sel := f p.counter p.sel }) s)
/-- SEL's rate changes at the counter value now, without a step (R270). -/
def setSelRate (rate : Nat) (s : State) : State := updSel (fun c x => x.update c rate 0) s
/-- PULLING takes a value; its fall posts PULL_DONE. -/
def setPulling (v : Bool) (s : State) : State :=
  let s := if s.rsu.pulling && !v then evt .rsu 1 s else s
  updRsu (fun r => { r with pulling := v, winClean := r.winClean && !v }) s
/-- dmax of R296. -/
def slewMax (s : State) : Nat :=
  let v := s.fld (Blk.rsu.base + 8) 0 10
  nominalRate * (if v = 0 then 1 else min v 1000) / 10 ^ 9
/-- The update of SEL while a reference is selected (R296). -/
def selUpdate (s : State) : State :=
  match s.rsu.selected with
  | none => s
  | some r =>
    match refRate s r with
    | none => s
    | some rate =>
      let pe := phaseError s r
      let e := pe - s.rsu.farOfs
      let dmax : Int := (slewMax s : Nat)
      let delta := clampI (-dmax) dmax (rneDiv (e * 2 ^ 14) 61440000)
      let s := setSelRate ((rate : Int) + delta).toNat s
      let s := updRsu (fun x => { x with phaseErr := pe, winSum := x.winSum + rate, winN := x.winN + 1 }) s
      setPulling (delta.natAbs == dmax.natAbs) s
/-- A switch to a reference: made far where its phase error exceeds FAR.LIMIT (R298). -/
def farSwitch (c : Nat) (s : State) : State :=
  let e := phaseError s c
  let lim := s.fld (Blk.rsu.base + 0x14) 0 20 * 1000 * 2 ^ 32
  if lim < e.natAbs then raise .rsu 4 (updRsu (fun r => { r with far := true, farOfs := e }) s)
  else updRsu (fun r => { r with far := false, farOfs := 0 }) s
/-- The selection becomes none: HOLDOVER, and SEL at HO_RATE (R293, R299). -/
def selectNone (s : State) : State :=
  let s := if s.rsu.selected.isSome then raise .rsu 3 (evt .rsu 0 s) else s
  let s := updRsu (fun r => { r with selected := none, winClean := false }) s
  let s := setPulling false s
  setFlag 3 true none (setSelRate s.rsu.hoRate s)
/-- A reference is selected: the switch, and the update in this tick (R296). -/
def selectRef (c : Nat) (s : State) : State :=
  let s := updRsu (fun r => { r with selected := some c }) (farSwitch c s)
  selUpdate (setFlag 3 false none (evt .rsu 0 s))

/-! ### Start-up and alignment (R17, R295) -/

/-- The tick number of a selected time in units of 2^-32 ns: floor(T * 64 * FS) (R16). -/
def tickOf (s : State) (t : Int) : Nat := (floorDivI (t * ((64 * s.fs : Nat) : Int)) (10 ^ 9 * 2 ^ 32)).toNat
/-- The start-up wait ends with a selection or in holdover. The first one after reset aligns: SEL steps onto the reference, and the
tick number becomes that of the selected time; what falls due after a duration keeps the time that remained. -/
def endStartup (retime : (Nat → Nat) → State → State) (c : Option Nat) (s : State) : State :=
  let s := updRsu (fun r => { r with startup := false }) s
  if s.sys.src then
    match c with
    | some c => selectRef c s
    | none => s
  else
    let s := match c with
      | some c =>
        let e := phaseError s c
        updSel (fun c x => x.update c x.rate e) s
      | none => s
    let old := s.sys.tick
    let new := tickOf s (timeNow s.ptu.sel s.ptu.counter)
    let s := retime (fun t => t + new - old) s
    let s := s.updSys fun y => { y with tick := new, aligned := !y.tickLoss, src := true }
    match c with
    | some c => selectRef c s
    | none => s

/-- Every enabled reference is ELIGIBLE, and one is enabled. -/
def allEligible (s : State) : Bool := (refList.any (refEn s)) && refList.all fun c => !refEn s c || eligible s c
/-- A reference's wait in QUALIFYING, WTR or DISQ has passed (R290). -/
def waitOver (s : State) (c : Nat) : Bool :=
  let x := s.ref c
  let past (n : Nat) : Bool := decide (x.since + secTicks s n ≤ s.sys.tick) && !s.rsu.fenced
  match x.state with | 2 => past (tQual s) | 3 => past (tWtr s) | 5 => past (tWtr s) | _ => false
/-- Whether the selection is not the best-ranking enabled reference is noted: a reference that stands in is a spare in use (R35,
Table 2.14; DEDUCED, notes/assumptions/21). -/
def noteBackup (s : State) : State :=
  let b := match s.rsu.selected with
    | some r => refList.any fun c => refEn s c && lexLt (refKeys s c) (refKeys s r)
    | none => false
  if b = s.rsu.backup then s else settle (updRsu (fun r => { r with backup := b }) s)
/-- The selection of this tick, made once: when no reference's wait is still to end in it (R292, R293, R295, R302). -/
def rsuSelect (retime : (Nat → Nat) → State → State) (s : State) : State :=
  if refList.any (waitOver s) then s else noteBackup <|
  let s := match s.rsu.firstElig with
    | none =>
      let t := s.sys.tick
      if s.rsu.startup && refList.any (eligible s) then updRsu (fun r => { r with firstElig := some t }) s else s
    | some _ => s
  if s.rsu.fenced || !s.rbit Blk.rsu.base 0 then (if s.rsu.selected.isSome then selectNone s else s)
  else if s.rsu.startup then (if s.rsu.startAt.isSome && allEligible s then endStartup retime (bestRef s) s else s)
  else
    match choose s with
    | some c => if s.rsu.selected = some c then s else selectRef c s
    | none => if s.rsu.selected.isSome then selectNone s else s

/-! ### Reference states (R290) -/

/-- A reference enters a state in this tick; leaving ELIGIBLE for DOWN raises REF_LOST. -/
def enterRef (c st : Nat) (s : State) : State :=
  let t := s.sys.tick
  let old := (s.ref c).state
  if old = st then s
  else
    let s := updRef c (fun x => { x with state := st, since := t }) s
    let s := if old = 4 ∧ st = 1 then raise .rsu 0 s else s
    evt .rsu 2 s
/-- The references whose qualification holds. -/
def qualifiedRefs (s : State) : List Nat := refList.filter (qualified s)
/-- The part of the evaluation that no wait governs: OFF and DOWN, and the entry to QUALIFYING. `q` holds the references that were
qualified at the end of the previous tick (R293). -/
def evalRef (q : List Nat) (c : Nat) (s : State) : State :=
  if s.rsu.fenced then s
  else
    let st := (s.ref c).state
    if !refEn s c then enterRef c 0 s
    else if st = 0 then enterRef c 1 s
    else if !q.contains c then enterRef c 1 s
    else if st = 1 then enterRef c 2 s
    else s
/-- RSU's evaluation of a tick (R293): states first, then the selection. The waits that end in this tick follow as commands of their
own, and the last of them makes the selection. -/
def rsuEvaluate (retime : (Nat → Nat) → State → State) (q : List Nat) (s : State) : State :=
  rsuSelect retime (refList.foldl (fun s c => evalRef q c s) s)

/-- REF_QUALIFIED: QUAL seconds have passed; to ELIGIBLE on the first qualification since REF_SETUP, else to WTR. -/
def refQualified (retime : (Nat → Nat) → State → State) (c : Nat) (s : State) : State :=
  let x := s.ref c
  if x.state = 2 ∧ waitOver s c = true then
    rsuSelect retime (updRef c (fun x => { x with before := true }) (enterRef c (if x.before then 3 else 4) s))
  else s
/-- WTR_END. -/
def wtrEnd (retime : (Nat → Nat) → State → State) (c : Nat) (s : State) : State :=
  let x := s.ref c
  if x.state = 3 ∧ waitOver s c = true then rsuSelect retime (enterRef c 4 s) else s
/-- DISQ_END: agreement with the majority for WTR seconds. -/
def disqEnd (retime : (Nat → Nat) → State → State) (c : Nat) (s : State) : State :=
  let x := s.ref c
  if x.state = 5 ∧ waitOver s c = true then rsuSelect retime (enterRef c 4 s) else s
/-- FIRST_WAIT_END: FIRST_WAIT after the first reference became ELIGIBLE the start-up wait ends with a selection. -/
def firstWaitEnd (retime : (Nat → Nat) → State → State) (s : State) : State :=
  match s.rsu.firstElig with
  | some t =>
    if s.rsu.startup && s.rsu.startAt.isSome && decide (t + secTicks s (tFirst s) ≤ s.sys.tick) && s.rbit Blk.rsu.base 0 && !s.rsu.fenced then
      match bestRef s with
      | some c => noteBackup (endStartup retime (some c) s)
      | none => updRsu (fun r => { r with firstElig := none }) s
    else s
  | none => s
/-- START_WAIT_END: no reference has become ELIGIBLE for START_WAIT; the wait ends in HOLDOVER. -/
def startWaitEnd (retime : (Nat → Nat) → State → State) (s : State) : State :=
  match s.rsu.startAt with
  | some t =>
    if s.rsu.startup && s.rsu.firstElig.isNone && decide (t + secTicks s (tStart s) ≤ s.sys.tick) then endStartup retime none s else s
  | none => s

/-! ### Measurement windows (R294, R299) -/

/-- The limit of disagreement. -/
def disLimit (s : State) : Nat := nominalRate * s.fld (Blk.rsu.base + 0x10) 0 16 / 10 ^ 9
/-- Two references disagree by their estimates. -/
def disagrees (s : State) (a b : Nat) : Bool :=
  match refRate s a, refRate s b with
  | some x, some y => decide (disLimit s < absDiff x y)
  | _, _ => false
/-- The references that are compared: ELIGIBLE or DISQ, with an estimate. -/
def compared (s : State) : List Nat := refList.filter fun c => ((s.ref c).state == 4 || (s.ref c).state == 5) && (refRate s c).isSome
/-- The pairs that disagree. -/
def badPairs (s : State) : List (Nat × Nat) :=
  let l := compared s
  l.flatMap fun a => (l.filter fun b => decide (a < b) && disagrees s a b).map fun b => (a, b)
/-- The reference that disagrees with every other one while all the others agree, among at least three (R294). -/
def isolated (s : State) : Option Nat :=
  let l := compared s
  if l.length < 3 then none
  else l.find? fun c =>
    let o := l.filter (· != c)
    o.all (disagrees s c) && o.all fun a => o.all fun b => !disagrees s a b
/-- A disqualified reference agrees with the majority of the others. -/
def agreesMajority (s : State) (c : Nat) : Bool :=
  let o := (compared s).filter (· != c)
  decide (o.length < 2 * (o.filter fun b => !disagrees s c b).length)
/-- MEASUREMENT_WINDOW_END: estimates, comparisons, and the holdover record. -/
def windowEnd (s : State) : State :=
  if s.ptu.counter < s.rsu.winEnd then s
  else
    let s := [2, 3, 4, 5].foldl (fun s c =>
      let f := refFreq s c
      updRef c (fun x => { x with rate := match x.first, x.last with | some a, some b => rateEst f x.k a b | _, _ => none, first := none, last := none, k := 0 }) s) s
    let bp := badPairs s
    let twice := bp.filter fun p => s.rsu.pairs.contains p
    let s := twice.foldl (fun s _ => raise .rsu 1 s) s
    let s := refList.foldl (fun s c =>
      let bad := bp.any fun p => p.1 == c || p.2 == c
      let two := twice.any fun p => p.1 == c || p.2 == c
      updRef c (fun x => { x with disagree := two || (x.disagree && bad) }) s) s
    let t := s.sys.tick
    let s := refList.foldl (fun s c => if (s.ref c).state == 5 && !agreesMajority s c then updRef c (fun x => { x with since := t }) s else s) s
    let s := match isolated s with
      | some c => if eligible s c then raise .rsu 2 (enterRef c 5 s) else s
      | none => s
    let r := s.rsu
    let rec16 := if r.winClean && r.winN != 0 then (r.records ++ [(rneDiv (r.winSum : Int) (r.winN : Nat)).toNat]).drop (r.records.length + 1 - 16) else r.records
    let ho := if rec16 = [] then nominalRate else (rneDiv ((rec16.sum : Nat) : Int) (rec16.length : Nat)).toNat
    updRsu (fun r => { r with pairs := bp, records := rec16, hoRate := ho, winEnd := r.winEnd + 983040000,
                              winClean := r.selected.isSome && !r.pulling, winSum := 0, winN := 0 }) s
/-- The meaning of MEASUREMENT_WINDOW_END. -/
def execMeasurementWindowEnd (s : State) : Res := .next (windowEnd s)

/-! ### CTRL, fence, REF_SETUP (R295, R302, R303) -/

/-- A write of CTRL: EN acts from the next evaluation. -/
def rsuCtrlWrite (v : Word) (s : State) : State := s.setReg Blk.rsu.base (v &&& 1)
/-- The meaning of RSU_ENABLE. -/
def execRsuEnable (m : Master) (en : Bool) (s : State) : Res := .next (cmd m true (rsuCtrlWrite (wd (b2n en))) s)
/-- STATE_UE: RSU is fenced, with no selection and SEL at HO_RATE (Table 11.5). -/
def rsuStateUe (s : State) : State := settle (updRsu (fun r => { r with fenced := true }) (selectNone (raise .rsu 5 s)))
/-- Every enabled reference restarts in DOWN, and the others are OFF. -/
def restartRefs (s : State) : State := refList.foldl (fun s c => enterRef c (if refEn s c then 1 else 0) s) s
/-- No reference has qualified since REF_SETUP (R290). -/
def forgetRefs (s : State) : State := refList.foldl (fun s c => updRef c (fun x => { x with before := false, disagree := false }) s) s
/-- Software has cleared STATE_UE: the fence lifts and every reference restarts in DOWN. -/
def rsuClearUe (s : State) : State := if s.rsu.fenced then settle (restartRefs (updRsu (fun r => { r with fenced := false }) s)) else s

/-- The offsets REF_SETUP may write (R303). -/
def refSetupOff (off : Nat) : Bool :=
  off == 0 || off == 8 || off == 0xC || off == 0x10 || off == 0x14 || (decide (0x100 ≤ off ∧ off < 0x160) && off % 16 == 0)
    || (decide (0x200 ≤ off ∧ off ≤ 0x210) && off % 4 == 0)
/-- A REF_SETUP record's pairs keep R303. -/
def refSetupOk (ps : List (Nat × Word)) : Bool :=
  decide (ps.length ≤ 32) && ps.all (fun p => refSetupOff p.1) && ps.dropLast.all fun p => p.1 != 0
/-- IMG applies REF_SETUP: the pairs, then a new start-up wait with no selection (R295). -/
def applyRefSetup (ps : List (Nat × Word)) (s : State) : State :=
  let s := ps.foldl (fun s p => s.setReg (Blk.rsu.base + p.1) (p.2 &&& (match findRow rowsRsu p.1 with | some r => wd r.wmask | none => 0))) s
  let s := forgetRefs (restartRefs s)
  let s := if s.rsu.selected.isSome then selectNone s else s
  let t := s.sys.tick
  updRsu (fun r => { r with startup := true, startAt := some t, firstElig := none }) s

/-! ### Outputs (R300, R301) -/

/-- A whole period of an output, in the units of its phase. -/
def fullTurn : Nat := 10 ^ 9 * 2 ^ 32
/-- The phase of a frequency at SEL time now, in parts of its period: (T * f mod 1) as a numerator over 10^9 * 2^32. -/
def outPhase (s : State) (f : Nat) : Nat := ((timeNow s.ptu.sel s.ptu.counter * (f : Int)) % (10 ^ 9 * 2 ^ 32 : Int)).toNat
/-- How long ago the pin of a configuration rose, in parts of its period: an inverted output rises where the uninverted one falls. -/
def pinPhase (s : State) (c : OutCfg) : Nat := (outPhase s c.f + (if c.pol then fullTurn - c.hi else 0)) % fullTurn
/-- The pin's high part of the period. -/
def OutCfg.pinHi (c : OutCfg) : Nat := if c.pol then fullTurn - c.hi else c.hi
/-- The pin rises in this tick. -/
def pinRises (s : State) (c : OutCfg) : Bool := decide (pinPhase s c * (64 * s.fs) < fullTurn * c.f)
/-- An output at the opening of a tick (R301): it starts with a rising edge in this tick. Disabled, held or configured anew it
completes the high phase in progress first, and starts again by the new configuration. -/
def stepOut (s : State) (o : OutPin) (on : Bool) (w : OutCfg) : OutPin :=
  let fresh : OutPin := if on && pinRises s w then { run := true, high := true, cfg := w } else {}
  if !o.run then fresh
  else
    let want := decide (pinPhase s o.cfg < o.cfg.pinHi)
    if on && o.cfg == w then { o with high := want }
    else if want && o.high && !pinRises s o.cfg then o
    else fresh
/-- What OUTn_CFG asks of WCK_OUTn. -/
def wckCfg (s : State) (n : Nat) : OutCfg :=
  let w := s.reg (Blk.rsu.base + 0x200 + 4 * n)
  { f := rateCode s (bits w 0 2), hi := fullTurn / 2, pol := bit w 2 }
/-- What PPS_CFG asks of PPS_OUT. -/
def ppsCfg (s : State) : OutCfg :=
  let ms := s.fld (Blk.rsu.base + 0x210) 0 10
  { f := 1, hi := fullTurn / 1000 * (if 1 ≤ ms ∧ ms ≤ 999 then ms else 100) }
/-- An output whose configuration word is w is enabled and not held (R301). -/
def outOn (s : State) (w : Word) : Bool := bit w 31 && s.sys.aligned && !s.sys.snuffed && !(bit w 30 && s.sys.standby)
/-- WCK_OUT0 to 3 and PPS_OUT at the opening of a tick. -/
def stepOuts (s : State) : State :=
  let wck := (upto 4).foldl (fun t n =>
    let on := outOn s (s.reg (Blk.rsu.base + 0x200 + 4 * n))
    Tab.set (fun _ => ({} : OutPin)) t n (stepOut s (Tab.get (fun _ => ({} : OutPin)) t n) on (wckCfg s n))) s.rsu.wck
  let pps := stepOut s s.rsu.pps (outOn s (s.reg (Blk.rsu.base + 0x210))) (ppsCfg s)
  updRsu (fun r => { r with wck := wck, pps := pps }) s
/-- The level of WCK_OUTn, low while it does not run (R300, R301). -/
def wckLevel (s : State) (n : Nat) : Bool := (Tab.get (fun _ => ({} : OutPin)) s.rsu.wck n).high

/-! ### Registers (Table 11.6) -/

/-- REFc_STAT.WAIT: whole seconds left, rounded up. -/
def refWait (s : State) (x : Ref) : Nat :=
  let total := match x.state with | 2 => tQual s | 3 => tWtr s | 5 => tWtr s | _ => 0
  ceilDiv (x.since + secTicks s total - s.sys.tick) (secTicks s 1)
/-- A read of RSU's registers that is not plain. -/
def rsuRegRead (off : Nat) (s : State) : Option Word :=
  let r := s.rsu
  if off = 0x004 then
    some (pack [(0, r.selected.getD 15), (4, b2n r.pulling), (5, b2n r.startup), (6, b2n r.selected.isNone), (7, b2n r.far)])
  else if off = 0x018 then some (sat32 (floorDivI r.phaseErr (2 ^ 28)))
  else if off = 0x01C then some (sat32 (floorDivI r.farOfs (2 ^ 28)))
  else if off = 0x020 then some (wd r.hoRate)
  else if off = 0x024 then some (wd (r.hoRate / 2 ^ 32))
  else if 0x100 ≤ off ∧ off < 0x160 then
    let c := (off - 0x100) / 16
    let x := s.ref c
    if off % 16 = 4 then some (pack [(0, x.state), (8, if x.state = 2 ∨ x.state = 3 ∨ x.state = 5 then refWait s x else 0), (16, b2n x.disagree)])
    else if off % 16 = 8 then
      some (match refRate s c with | some q => if refEn s c then sat32 (rneDiv (((q : Int) - nominalRate) * 10 ^ 9) nominalRate) else 0 | none => 0)
    else none
  else none

end Sys2Proof.Machine
end

