-- ==== Sys2Proof/Machine/Apt.lean ====
section
/-! DEFINITION. The TDM audio ports: start and stop, slots and masks, clock supervision, the sample-rate converters (R112, R306
to R327). -/
namespace Sys2Proof.Machine
open Sys2Proof

/-- A direction's number: 2 × port + direction. -/
def dirNum (n : Nat) (d : Dir) : Nat := 2 * n + d.idx
/-- A direction of a port. -/
def State.aptDir (s : State) (n : Nat) (d : Dir) : AptDir := Tab.get (fun _ => {}) s.apt (dirNum n d)
/-- A direction changes. -/
def updDir (n : Nat) (d : Dir) (f : AptDir → AptDir) (s : State) : State :=
  { s with apt := Tab.set (fun _ => ({} : AptDir)) s.apt (dirNum n d) (f (s.aptDir n d)) }
/-- The address of a port's register. -/
def aptReg (n off : Nat) : Nat := (Blk.apt n).base + off
/-- RX_CFG or TX_CFG of a direction. -/
def dirCfg (s : State) (n : Nat) (d : Dir) : Word := s.reg (aptReg n (0x10 + 4 * d.idx))
/-- MASTER, CLASS BULK, AUTO_RELOCK of a configuration (Table 12.6). -/
def cfgMaster (c : Word) : Bool := bit c 0
def cfgBulk (c : Word) : Bool := bit c 3
def cfgAuto (c : Word) : Bool := bit c 18
/-- SLOTS, W, NOM. -/
def cfgSlots (c : Word) : Nat := bits c 5 5 + 1
def cfgW (c : Word) : Nat := if bit c 4 then 32 else 24
def cfgNom (c : Word) : Nat := bits c 1 2
/-- The nominal frame rate of a slave direction. -/
def nomRate (c : Word) : Nat := match cfgNom c with | 0 => 44100 | 1 => 48000 | 2 => 88200 | _ => 96000
/-- A configuration keeps Table 12.1 and the limit of the bit clock (R307). -/
def cfgOk (s : State) (d : Dir) (c : Word) : Bool :=
  let fsSlots := if s.sys.fs48 then 32 else 16
  let rate := if cfgMaster c then s.fs else nomRate c
  decide (cfgSlots c * cfgW c * rate ≤ 49152000) &&
    (if cfgMaster c then cfgNom c == 0 && decide (cfgSlots c ≤ fsSlots)
     else match d with
      | .tx => nomRate c == s.fs && decide (cfgSlots c ≤ fsSlots)
      | .rx => if s.sys.fs48 then decide (cfgNom c ≤ 1) else decide (cfgNom c ≤ 1 ∨ cfgSlots c ≤ 16))

/-- LOCKED takes a value; a change posts its event. -/
def aptLock (n : Nat) (d : Dir) (v : Bool) (s : State) : State :=
  if (s.aptDir n d).locked = v then s else evt (.apt n) (4 + d.idx) (updDir n d (fun x => { x with locked := v }) s)
/-- The result of a direction's last request. -/
def aptResult (n : Nat) (d : Dir) (r : Nat) (s : State) : State := updDir n d (fun x => { x with result := r }) s
/-- A direction becomes IDLE with its completion (R318). -/
def aptIdle (n : Nat) (d : Dir) (s : State) : State :=
  let s := aptLock n d false s
  evt (.apt n) (2 + d.idx) (updDir n d (fun x => { x with st := .idle, clocks := false, acquired := false, relock := false, muteAt := none, unmuteAt := none, sent := [] }) s)

/-! ### START and stop (R316 to R318) -/

/-- A partial PORT load of the direction is in progress (R316). -/
def aptLoading (s : State) (n : Nat) (d : Dir) : Bool :=
  s.img.partialJob.any (fun j => j.kind == 3 && j.sel == dirNum n d) ||
  s.img.job.any (fun j => j.partialImg && !j.verify && (headerAt s j.src).regionKind == 3 && (headerAt s j.src).regionSel == dirNum n d)
/-- START_AT. -/
def startAt (s : State) (n : Nat) : Nat := (s.reg (aptReg n 8)).toNat + 2 ^ 32 * (s.reg (aptReg n 0xC)).toNat
/-- A START of a direction: the code of a refusal, or none (R316). -/
def startRefusal (n : Nat) (d : Dir) (s : State) : Option Nat :=
  if (s.aptDir n d).st ≠ .idle then some 2
  else if !cfgOk s d (dirCfg s n d) then some 3
  else if aptLoading s n d then some 5
  else if s.sys.snuffed then some 4
  else none
/-- A START admitted: the data start D, and the direction's first state (R317). -/
def admitStart (n : Nat) (d : Dir) (arm : Bool) (s : State) : State :=
  let t := s.sys.tick
  let plain := nextBoundary t + 2048
  let armed := 64 * ceilDiv (startAt s n) 64
  let late := arm && decide (armed < t + 2048)
  let st : AptSt := if arm && !late then .armed else if cfgMaster (dirCfg s n d) then .starting else .acquiring
  updDir n d (fun x =>
    { maskUse := x.maskUse, xrun := x.xrun, glitchCnt := x.glitchCnt, convSat := x.convSat, hizUntil := x.hizUntil, setup := x.setup
      st := st, result := if late then 6 else 1, startTick := some t, dataAt := if arm && !late then armed else plain }) s
/-- EN of a direction takes a value in CTRL. -/
def setEn (n : Nat) (d : Dir) (v : Bool) (s : State) : State := s.setFld (aptReg n 0) d.idx 1 (b2n v)
/-- A write that sets EN (R316): an admitted START, or the code of its refusal with EN left 0. -/
def aptSetEn (n : Nat) (d : Dir) (arm : Bool) (s : State) : State :=
  match startRefusal n d s with
  | some r => setEn n d false (aptResult n d r s)
  | none => admitStart n d arm (setEn n d true s)
/-- A write that clears EN starts a graceful stop (R318); a muted direction without a lock has no frames and stops at once (Table 12.4). -/
def aptClearEn (n : Nat) (d : Dir) (s : State) : State :=
  let nb := nextBoundary s.sys.tick
  let s := setEn n d false s
  match (s.aptDir n d).st with
  | .idle | .stopping => s
  | .armed => updDir n d (fun x => { x with st := .idle, result := 7 }) s
  | .muted => if (s.aptDir n d).locked then updDir n d (fun x => { x with st := .stopping, zeroFrom := nb, stopAt := nb + 2048, stopLeft := 33 }) s else aptIdle n d s
  | _ => updDir n d (fun x => { x with st := .stopping, zeroFrom := nb, stopAt := nb + 2048, stopLeft := 33 }) s
/-- An abort of a stop: the direction stops at its next frame start (R318). -/
def aptAbort (n : Nat) (d : Dir) (s : State) : State :=
  let nb := nextBoundary s.sys.tick
  updDir n d (fun x => { x with stopAt := nb, stopLeft := min x.stopLeft 1 }) s
/-- A write of CTRL: each direction's EN, ARM, and FORCE. -/
def aptCtrlWrite (n : Nat) (v : Word) (s : State) : State :=
  let old := s.reg (aptReg n 0)
  let stopping (d : Dir) : Bool := (s.aptDir n d).st == .stopping && !bit v d.idx
  let s' := s.setFld (aptReg n 0) 2 2 (bits v 2 2)
  let one (d : Dir) (s : State) : State :=
    if bit v d.idx && !bit old d.idx then aptSetEn n d (bit v (2 + d.idx)) s
    else if !bit v d.idx && bit old d.idx then aptClearEn n d s
    else s
  let s' := one .tx (one .rx s')
  if bit v 4 then
    if stopping .rx || stopping .tx then
      let s' := if stopping .rx then aptAbort n .rx s' else s'
      if stopping .tx then aptAbort n .tx s' else s'
    else evt (.apt n) 6 s'
  else s'
/-- The bits of CTRL that keep the other direction as it is. -/
def ctrlKeep (s : State) (n : Nat) (d : Dir) : Word := s.reg (aptReg n 0) &&& 0xF &&& ~~~(bm d.idx ||| bm (2 + d.idx))
/-- The meaning of APT_START: a write that sets EN of the direction, with or without ARM. -/
def execAptStart (m : Master) (port : Fin 16) (dir : Dir) (arm : Bool) (s : State) : Res :=
  .next (cmd m true (fun s =>
    if s.rbit (aptReg port.val 0) dir.idx then aptResult port.val dir 2 s
    else aptCtrlWrite port.val (ctrlKeep s port.val dir ||| bm dir.idx ||| (if arm then bm (2 + dir.idx) else 0)) s) s)
/-- The meaning of APT_STOP. -/
def execAptStop (m : Master) (port : Fin 16) (dir : Dir) (s : State) : Res :=
  .next (cmd m true (fun s => aptCtrlWrite port.val (s.reg (aptReg port.val 0) &&& 0xF &&& ~~~bm dir.idx) s) s)
/-- The meaning of APT_FORCE: EN = 0 and FORCE = 1 for the direction. -/
def execAptForce (m : Master) (port : Fin 16) (dir : Dir) (s : State) : Res :=
  .next (cmd m true (fun s =>
    if (s.aptDir port.val dir).st = .stopping then aptAbort port.val dir s
    else evt (.apt port.val) 6 (if s.rbit (aptReg port.val 0) dir.idx then aptClearEn port.val dir s else s)) s)

/-- APT_CLOCK_START: at D - 2,048 a master direction starts its clocks, and an armed slave, which supervises and acquires since its
START, is ARMED no more (R317). -/
def aptClockStart (n : Nat) (d : Dir) (s : State) : State :=
  let x := s.aptDir n d
  let m := cfgMaster (dirCfg s n d)
  if (x.st = .armed ∨ (x.st = .starting ∧ x.clocks = false)) ∧ x.dataAt ≤ s.sys.tick + 2048 then
    updDir n d (fun x => { x with st := if m then .starting else .acquiring, clocks := m }) s
  else s
/-- The meaning of APT_CLOCK_START. -/
def execAptClockStart (port : Fin 16) (dir : Dir) (s : State) : Res := .next (aptClockStart port.val dir s)
/-- The sum and the number of the last frame periods. -/
def periodMean (x : AptDir) : Nat × Nat := (x.periods.sum, x.periods.length)
/-- APT_DATA_START: from D, or from the end of acquisition if later, data flows through the unmute ramp (R317, R320). -/
def aptDataStart (n : Nat) (d : Dir) (s : State) : State :=
  let x := s.aptDir n d
  let ready := (x.st == .starting && x.clocks) || (x.st == .acquiring && x.acquired && !x.relock)
  if ready && s.atFrame && decide (x.dataAt ≤ s.sys.tick) then
    let k := s.frame
    let s := if x.st = .acquiring then aptLock n d true s else s
    evt (.apt n) d.idx (updDir n d (fun x => { x with st := .running, started := true, unmuteAt := some k, muteAt := none, lockMean := periodMean x }) s)
  else s
/-- The meaning of APT_DATA_START. -/
def execAptDataStart (port : Fin 16) (dir : Dir) (s : State) : Res := .next (aptDataStart port.val dir s)
/-- APT_STOP_END: the zero frames have ended (R318). -/
def aptStopEnd (n : Nat) (d : Dir) (s : State) : State :=
  let x := s.aptDir n d
  let ended := if cfgMaster (dirCfg s n d) then decide (x.stopAt ≤ s.sys.tick) else x.stopLeft == 0
  if x.st = .stopping ∧ ended = true then aptIdle n d s else s
/-- The meaning of APT_STOP_END. -/
def execAptStopEnd (port : Fin 16) (dir : Dir) (s : State) : Res := .next (aptStopEnd port.val dir s)

/-- The meaning of APT_MASK_WRITE: held pending until the next frame start (R311). -/
def execAptMaskWrite (m : Master) (port : Fin 16) (dir : Dir) (v : Word) (s : State) : Res :=
  .next (cmd m false (fun s => s.setReg (aptReg port.val (0x18 + 4 * dir.idx)) v) s)
/-- A write of RX_CFG or TX_CFG: performed only while the direction is IDLE (R326). -/
def aptCfg (n : Nat) (d : Dir) (v : Word) (s : State) : State × Code :=
  if (s.aptDir n d).st ≠ .idle then (s, .accessErr)
  else (s.setReg (aptReg n (0x10 + 4 * d.idx)) (v &&& (match d with | .rx => 0x5FFFF | .tx => 0x67FFF)), .ok)
/-- The meaning of APT_CFG_WRITE. -/
def execAptCfgWrite (m : Master) (port : Fin 16) (dir : Dir) (v : Word) (s : State) : Res := .next (cmdC m true (aptCfg port.val dir v) s)

/-! ### Supervision (R319, R320) -/

/-- The expected period as a fraction of counter periods: the mean of the last 64 while locked, else the nominal one. -/
def expected (s : State) (n : Nat) (d : Dir) : Nat × Nat :=
  let x := s.aptDir n d
  if x.locked && x.periods.length != 0 then periodMean x else (983040000, nomRate (dirCfg s n d))
/-- A period lies outside E ± E/8. -/
def isGlitch (e : Nat × Nat) (p : Nat) : Bool := decide (e.1 < 8 * absDiff (p * e.2) e.1)
/-- The direction is lost with a cause: 1 NO_EDGE, 2 GLITCHES, 3 RATE (Table 12.2). A stop in progress ends at once (Table 12.4). -/
def aptLose (n : Nat) (d : Dir) (cause : Nat) (s : State) : State :=
  let s := raise (.apt n) d.idx s
  let s := updDir n d (fun x => { x with loss := cause }) s
  if (s.aptDir n d).st = .stopping then aptIdle n d s
  else
    let b := nextBoundary s.sys.tick / 64
    let s := aptLock n d false s
    updDir n d (fun x => { x with
      st := .muted, acquired := false, relock := true, unmuteAt := none, muteAt := some b, held := x.delivered, glitches := [], periods := []
      acqT0 := none, acqM := 0, edge := if cause = 1 then none else x.edge, sent := [], hist := match d with | .rx => x.hist | .tx => [] }) s
/-- A slave direction under supervision (R317, R319). -/
def watched (x : AptDir) : Bool :=
  x.st == .armed || x.st == .acquiring || x.st == .running || x.st == .stopping || (x.st == .muted && x.locked)
/-- APT_CLOCK_LOST: no frame-sync edge for 4 × E since the last. -/
def aptClockLost (n : Nat) (d : Dir) (s : State) : State :=
  let x := s.aptDir n d
  let e := expected s n d
  let active := !cfgMaster (dirCfg s n d) && watched x
  match x.edge with
  | some t => if active && decide (t * e.2 + 4 * e.1 ≤ s.ptu.counter * e.2) then aptLose n d 1 s else s
  | none => s
/-- The meaning of APT_CLOCK_LOST. -/
def execAptClockLost (port : Fin 16) (dir : Dir) (s : State) : Res := .next (aptClockLost port.val dir s)

/-- LOCK_WIN in ppm; 0 acts as 1. -/
def lockWin (s : State) (n : Nat) (d : Dir) : Nat := max 1 (s.fld (aptReg n (0x28 + 4 * d.idx)) 16 16)
/-- The mean of the last 64 periods differs from the mean at lock by more than LOCK_WIN ppm. -/
def rateLost (s : State) (n : Nat) (d : Dir) : Bool :=
  let x := s.aptDir n d
  let m := periodMean x
  x.locked && m.2 == 64 && decide (m.2 * x.lockMean.1 * lockWin s n d < absDiff (m.1 * x.lockMean.2) (m.2 * x.lockMean.1) * 1000000)

/-! ### The sample-rate converter (R112, R313, R314) -/

/-- KP and KI of a direction. -/
def asrcKp (s : State) (n : Nat) (d : Dir) : Nat := max 4 (s.fld (aptReg n (0x28 + 4 * d.idx)) 0 4)
def asrcKi (s : State) (n : Nat) (d : Dir) : Nat := max 16 (s.fld (aptReg n (0x28 + 4 * d.idx)) 8 5)
/-- pfs: counter periods of a sample frame. -/
def pfs (s : State) : Nat := if s.sys.fs48 then 20480 else 10240
/-- h[i] of the prototype in the boot ROM, Q4.28; h[8,192] is 0 (R313). -/
def proto (i : Nat) : Int := if 8192 ≤ i then 0 else sInt 32 (leNat ((upto 4).map fun j => Config.bootRom (0x8000 + 4 * i + j)))
/-- x[j] of a slot's history whose newest entry is x[nin - 1]. -/
def histAt (l : List Int) (nin : Nat) (j : Int) : Int := if j < 0 ∨ (nin : Int) ≤ j then 0 else l.getD ((nin : Int) - 1 - j).toNat 0
/-- The output of the interpolator at read position p (R313). -/
def interpolate (l : List Int) (nin : Nat) (p : Int) : Int :=
  let n := floorDivI p (2 ^ 32) - 1
  let b := (floorDivI p (2 ^ 24) % 256).toNat
  let w := floorDivI p (2 ^ 8) % 65536
  let acc := ((upto 32).map fun i =>
    let h0 := proto (256 * i + b)
    (h0 + floorDivI ((proto (256 * i + b + 1) - h0) * w) 65536) * histAt l nin (n - (i : Nat))).sum
  satS 24 (rneDiv acc (2 ^ 28))
/-- The update of ratio and position at an output frame boundary at counter time tob (R112). -/
def asrcUpdate (kp ki tob : Nat) (x : AptDir) : AptDir :=
  let frac := if x.tlast ≤ x.tprev then 0 else min (65536 * (tob - x.tlast) / (x.tlast - x.tprev)) 65535
  let w : Int := ((65536 * x.nin + frac : Nat) : Int)
  let eps := clampI (-(2 ^ 15)) (2 ^ 15 - 1) (w - floorDivI x.p (2 ^ 16))
  let rho := (x.rho : Int) + floorDivI (eps * 2 ^ 16) (2 ^ ki)
  { x with rho := (rho % (2 ^ 40 : Int)).toNat, p := x.p + rho + floorDivI (eps * 2 ^ 16) (2 ^ kp) }
/-- The newest input frame the position needs is not complete. -/
def asrcUnder (x : AptDir) : Bool := decide ((x.nin : Int) ≤ floorDivI x.p (2 ^ 32) - 1)
/-- The 64-frame history is full of frames not yet used. -/
def asrcOver (x : AptDir) : Bool := x.acquired && decide (64 ≤ (x.nin : Int) - floorDivI x.p (2 ^ 32))
/-- An input frame enters the histories: one value per slot. -/
def asrcPush (slots : Nat) (val : Nat → Int) (t : Nat) (x : AptDir) : AptDir :=
  { x with
    hist := (upto slots).foldl (fun h i => Tab.set (fun _ => ([] : List Int)) h i ((val i :: Tab.get (fun _ => []) h i).take 128)) x.hist
    nin := x.nin + 1, tprev := x.tlast, tlast := t }
/-- An underrun or overrun is counted and raised (R321). -/
def aptXrun (n : Nat) (d : Dir) (s : State) : State := raise (.apt n) 6 (updDir n d (fun x => { x with xrun := (x.xrun + 1) % 2 ^ 32 }) s)

/-- ASRC_ACQUIRED: at least 256 frames spanning 4,096 of the other side's; ρ and the position start (R112, R314). -/
def asrcAcquired (n : Nat) (d : Dir) (s : State) : State :=
  let x := s.aptDir n d
  match x.acqT0, x.edge with
  | some t0, some tm =>
    if (x.st = .acquiring ∨ x.st = .armed) ∧ x.acquired = false ∧ 256 ≤ x.acqM ∧ 4096 * pfs s ≤ tm - t0 then
      let rho := match d with
        | .rx => rneDiv ((2 ^ 32 * pfs s * x.acqM : Nat) : Int) ((tm - t0 : Nat) : Int)
        | .tx => rneDiv ((2 ^ 32 * (tm - t0) : Nat) : Int) ((x.acqM * pfs s : Nat) : Int)
      updDir n d (fun x => { x with acquired := true, rho := (rho % (2 ^ 40 : Int)).toNat, p := ((2 ^ 32 * x.nin : Nat) : Int) }) s
    else s
  | _, _ => s
/-- The meaning of ASRC_ACQUIRED. -/
def execAsrcAcquired (port : Fin 16) (dir : Dir) (s : State) : Res := .next (asrcAcquired port.val dir s)
/-- APT_RELOCK: at the first chip frame boundary after acquisition; with AUTO_RELOCK = 0 the mute lasts until CLK_LOST is cleared (R320). -/
def aptRelock (n : Nat) (d : Dir) (s : State) : State :=
  let x := s.aptDir n d
  if x.st == .acquiring && x.acquired && x.relock && !x.locked && s.atFrame then
    let k := s.frame
    let go := cfgAuto (dirCfg s n d) || !s.faultBit (.apt n) d.idx
    let s := aptLock n d true s
    updDir n d (fun x => { x with lockMean := periodMean x, st := if go then .acquiring else .muted, unmuteAt := if go then some (max k (x.dataAt / 64)) else none, muteAt := if go then none else x.muteAt }) s
  else s
/-- The meaning of APT_RELOCK. -/
def execAptRelock (port : Fin 16) (dir : Dir) (s : State) : Res := .next (aptRelock port.val dir s)
/-- Software has cleared CLK_LOST: a relocked direction that stays muted unmutes at the next chip frame boundary (R320). -/
def aptClearLost (n : Nat) (d : Dir) (s : State) : State :=
  let b := nextBoundary s.sys.tick / 64
  updDir n d (fun x => if x.st = .muted ∧ x.locked = true then { x with st := .acquiring, unmuteAt := some (max b (x.dataAt / 64)), muteAt := none } else x) s

/-! ### The frame-sync edge of a slave direction (R311, R319, R321) -/

/-- The 24 most significant bits of a received slot as Q1.23 (R310). -/
def slotCode (c : Word) (v : Nat) : Int := sInt 24 (if bit c 4 then v / 256 else v)
/-- The value a transmit slot takes from the frame that ended; it ramps with RUN over 64 frames (R46),
and is 0 without a destination (R310). -/
def portOut (s : State) (n i : Nat) : Int :=
  let v := consumerValue s 3 (32 * n + i)
  let g := if s.pair.cold = .restoring then (0, 1) else outGain s s.frame
  rampSample v g.1 g.2
/-- The ramps of a direction in frame k: mute from the held value, unmute of the value (R319, R320). -/
def rampOf (x : AptDir) (k i : Nat) (v : Int) : Int :=
  match x.unmuteAt, x.muteAt with
  | some u, _ => if k < u then 0 else if k - u < 64 then floorDivI (v * ((k - u + 1 : Nat) : Int)) 64 else v
  | none, some b =>
    let h := Tab.get (fun _ => 0) x.held i
    if k < b then h else if k - b < 32 then floorDivI (h * (31 - (k - b : Nat) : Int)) 32 else 0
  | none, none => 0
/-- The output of a slave transmit direction at its edge: one value per slot (R314, R321). -/
def slaveSend (n : Nat) (tob : Nat) (s : State) : State :=
  let x := s.aptDir n .tx
  let c := dirCfg s n .tx
  let under := x.locked && asrcUnder x
  let s := if under then aptXrun n .tx s else s
  let k := s.frame
  let vals := (upto (cfgSlots c)).foldl (fun t i =>
    let y := if under then (if cfgBulk c then 0 else Tab.get (fun _ => 0) x.lastOut i) else interpolate (Tab.get (fun _ => []) x.hist i) x.nin x.p
    Tab.set (fun _ => (0 : Int)) t i y) []
  let zero := x.st == .stopping
  let out := (upto (cfgSlots c)).foldl (fun t i => Tab.set (fun _ => (0 : Int)) t i
    (if zero || !bit x.maskUse i then 0 else rampOf x k i (Tab.get (fun _ => 0) vals i))) []
  let kp := asrcKp s n .tx
  let ki := asrcKi s n .tx
  updDir n .tx (fun x => asrcUpdate kp ki tob { x with lastOut := vals, sentPrev := x.sent, sent := out }) s
/-- A SAFETY frame enters the histories of a slave receive direction: a glitch frame repeats the previous one, an overrun discards
it whole (R319, R321). -/
def safetyReceive (n : Nat) (stamp : Nat) (glitch : Bool) (slots : List Nat) (s : State) : State :=
  let x := s.aptDir n .rx
  let c := dirCfg s n .rx
  if asrcOver x then aptXrun n .rx s
  else
    updDir n .rx (fun x => asrcPush (cfgSlots c) (fun i =>
      if glitch then (Tab.get (fun _ => []) x.hist i).headD 0 else slotCode c (slots.getD i 0)) stamp x) s
/-- The words of a BULK direction form frames of k slots in the order they came; `f` bounds the frames. -/
def bulkFrames (c : Word) (stamp : Nat) : Nat → AptDir → AptDir
  | 0, x => x
  | f + 1, x =>
    let k := cfgSlots c
    if x.words.length < k then x
    else
      let w := x.words
      bulkFrames c stamp f (asrcPush k (fun i => slotCode c (w.getD i 0)) stamp { x with words := w.drop k })
/-- The words of an arrival from `from_` to `stamp` that found the history full, when it was full at its start: all, or those before
it found room (R321). -/
def wordsLost (x : AptDir) (from_ stamp len : Nat) : Nat :=
  if !x.overrun then 0 else match x.room with | none => len | some t => min len ((t - from_) * len / max 1 (stamp - from_))
/-- The words of a BULK receive direction since the last edge: those that find no room are discarded one slot at a time, an overrun
that ends inside a frame shifts the slots and raises SLOT_SLIP (R321, R322). -/
def bulkReceive (n : Nat) (from_ stamp : Nat) (slots : List Nat) (s : State) : State :=
  let x := s.aptDir n .rx
  let c := dirCfg s n .rx
  let lost := wordsLost x from_ stamp slots.length
  let s := if lost ≠ 0 then aptXrun n .rx s else s
  let s := if lost % cfgSlots c ≠ 0 then raise (.apt n) 2 (updDir n .rx (fun x => { x with slip := true }) s) else s
  updDir n .rx (fun x =>
    let y := bulkFrames c stamp 64 { x with words := x.words ++ slots.drop lost }
    { y with overrun := asrcOver y, room := none }) s
/-- The frames of a direction that end with an edge `per` after the last: one in SAFETY, the counted ones in BULK, each with its
period (R319). The counted frames of BULK are `phase` bits away from the edges, and their periods are taken at the mean bit clock of
the interval (DEDUCED, notes/assumptions/20). -/
def framePeriods (c : Word) (phase per nbits : Nat) : List Nat :=
  if cfgBulk c then
    let want := cfgSlots c * cfgW c
    List.replicate (min 64 ((phase + nbits) / want)) (per * want / max 1 nbits)
  else [per]

/-- FRAME_SYNC_EDGE of a slave direction: the counter value of the edge, the bit clocks since the last one, and for a receive
direction the slots of the frames that ended since. -/
def frameSyncEdge (n : Nat) (d : Dir) (stamp nbits : Nat) (slots : List Nat) (s : State) : State :=
  let x := s.aptDir n d
  let c := dirCfg s n d
  if cfgMaster c || x.st == .idle then s
  else
    let want := cfgSlots c * cfgW c
    let pers := match x.edge with | some t => framePeriods c x.phase (stamp - t) nbits | none => []
    let flags := pers.map fun p => isGlitch (expected s n d) p || (!cfgBulk c && nbits != want)
    let glitch := flags.any id
    let phase := if cfgBulk c && x.edge.isSome then (x.phase + nbits) % want else x.phase
    let mask := s.reg (aptReg n (0x18 + 4 * d.idx))
    let s := if glitch then raise (.apt n) 5 s else s
    let s := if phase ≠ x.phase then raise (.apt n) (2 + d.idx) (updDir n d (fun x => { x with slip := true }) s) else s
    let s := updDir n d (fun x => { x with
      maskUse := mask, edge := some stamp, phase := phase, glitchCnt := (x.glitchCnt + (flags.filter id).length) % 2 ^ 32
      periods := (pers ++ x.periods).take 64, glitches := (flags ++ x.glitches).take 64
      stopLeft := if x.st = .stopping then x.stopLeft - 1 else x.stopLeft }) s
    let y := s.aptDir n d
    if watched y && decide (3 ≤ (y.glitches.filter id).length) then aptLose n d 2 s
    else if watched y && rateLost s n d then aptLose n d 3 s
    else
      let s := match y.st with
        | .muted =>
          if !y.locked && pers != [] && !glitch then
            updDir n d (fun x => { x with st := .acquiring, acqT0 := some stamp, acqM := 0, nin := 0, hist := [] }) s
          else s
        | .acquiring | .armed =>
          updDir n d (fun x => if x.acqT0.isNone then { x with acqT0 := some stamp, acqM := 0 } else { x with acqM := if x.acquired then x.acqM else x.acqM + pers.length }) s
        | _ => s
      match d, x.edge with
      | .rx, some t => if cfgBulk c then bulkReceive n t stamp slots s else safetyReceive n stamp glitch slots s
      | .rx, none => s
      | .tx, _ => if y.acquired then slaveSend n stamp s else s
/-- The meaning of FRAME_SYNC_EDGE. -/
def execFrameSyncEdge (port : Fin 16) (dir : Dir) (stamp bits : Nat) (slots : List Nat) (s : State) : Res :=
  .next (frameSyncEdge port.val dir stamp bits slots s)

/-! ### The chip frame boundary (R312, R314, R323) -/

/-- One received slot to S20 by R101 with RND; DTH draws from the slot's pair (R99). -/
def rxConvert (n i : Nat) (rnd : Nat) (v : Int) (s : State) : State × Int :=
  let d (j : Nat) : Nat × Nat := (seedA j, seedB j)
  let r := Tab.get d s.aptRnd (32 * n + i)
  let w := l24ToS20 (RoundMode.ofCode rnd) (uInt 24 v) r.1 r.2
  let s : State := { s with aptRnd := Tab.set d s.aptRnd (32 * n + i) (w.a, w.b) }
  let s := if w.sat then raise (.apt n) 7 (updDir n .rx (fun x => { x with convSat := (x.convSat + 1) % 2 ^ 32 }) s) else s
  (s, w.value)
/-- A receive direction at the boundary of frame k: the PORT_IN values of the frame. -/
def rxFrame (n : Nat) (slots : List Nat) (s : State) : State :=
  let x := s.aptDir n .rx
  let c := dirCfg s n .rx
  let k := s.frame
  let m := cfgMaster c
  let flowing := (m && (x.st == .running || (x.st == .stopping && decide (s.sys.tick ≤ x.zeroFrom)))) || (!m && x.locked && !(x.st == .stopping && x.stopLeft != 33))
  let under := !m && flowing && asrcUnder x
  let s := if under then aptXrun n .rx s else s
  let s := (upto (cfgSlots c)).foldl (fun s i =>
    let on := bit x.maskUse i
    let r := if !flowing || !on then (s, (0 : Int))
      else if under then (s, if cfgBulk c then 0 else Tab.get (fun _ => 0) x.lastOut i)
      else rxConvert n i (bits c 15 2) (if m then slotCode c (slots.getD i 0) else interpolate (Tab.get (fun _ => []) x.hist i) x.nin x.p) s
    let v := if on then rampOf x k i r.2 else 0
    let s : State := { r.1 with portIn := Tab.set (fun _ => 0) r.1.portIn (32 * n + i) v }
    updDir n .rx (fun x => { x with lastOut := Tab.set (fun _ => 0) x.lastOut i r.2, delivered := Tab.set (fun _ => 0) x.delivered i v }) s) s
  let kp := asrcKp s n .rx
  let ki := asrcKi s n .rx
  let tob := s.ptu.counter
  if !m && x.acquired then
    updDir n .rx (fun x =>
      let y := asrcUpdate kp ki tob x
      if x.overrun && x.room.isNone && !asrcOver y then { y with room := some tob } else y) s
  else s
/-- A transmit direction at the boundary of frame k: a master sends the values written in the frame that ended; a slave's ASRC takes them. -/
def txFrameStart (n : Nat) (s : State) : State :=
  let x := s.aptDir n .tx
  let c := dirCfg s n .tx
  let k := s.frame
  if cfgMaster c then
    let flowing := (x.st == .running || (x.st == .stopping && decide (s.sys.tick < x.zeroFrom))) && decide (x.zeroUntil ≤ k)
    let out := (upto (cfgSlots c)).foldl (fun t i => Tab.set (fun _ => (0 : Int)) t i
      (if flowing && bit x.maskUse i then rampOf x k i (portOut s n i) else 0)) []
    updDir n .tx (fun x => { x with sentPrev := x.sent, sent := out }) s
  else
    let tob := s.ptu.counter
    let vals := (upto (cfgSlots c)).map fun i => portOut s n i
    if asrcOver x then aptXrun n .tx s else updDir n .tx (fun x => asrcPush (cfgSlots c) (fun i => vals.getD i 0) tob x) s
/-- A direction's unmute ramp has ended: full level, RUNNING (Table 12.8). -/
def endUnmute (k : Nat) (x : AptDir) : AptDir :=
  match x.unmuteAt with
  | some u => if x.st = .acquiring ∧ x.locked = true ∧ u + 64 ≤ k then { x with st := .running, relock := false } else x
  | none => x
/-- Data flows for the first time after a START that lost its clock on the way: RUNNING, and the event (R317). -/
def firstFlow (n : Nat) (d : Dir) (s : State) : State :=
  let x := s.aptDir n d
  if x.st == .acquiring && x.locked && !x.started && (x.unmuteAt.any fun u => decide (u ≤ s.frame)) then
    evt (.apt n) d.idx (updDir n d (fun x => { x with st := .running, started := true }) s)
  else s
/-- The ports at a chip frame boundary, before MXE evaluates: masks of master directions, the values in and out. `inp` gives the
slots of each master receive port for the frame that ended. -/
def aptFrame (inp : List (Nat × List Nat)) (s : State) : State :=
  let s : State := { s with portIn := [] }
  (upto 32).foldl (fun s i =>
    let n := i / 2
    let d : Dir := if i % 2 = 0 then .rx else .tx
    let k := s.frame
    let mask := s.reg (aptReg n (0x18 + 4 * d.idx))
    let s := if cfgMaster (dirCfg s n d) && (s.aptDir n d).maskUse != mask then updDir n d (fun x => { x with maskUse := mask }) s else s
    if (s.aptDir n d).st = .idle then s
    else
    let s := updDir n d (endUnmute k) (firstFlow n d s)
    if (s.aptDir n d).st = .idle then s
    else
      match d with
      | .rx => rxFrame n (((inp.find? fun e => e.1 == n).map (·.2)).getD []) s
      | .tx => txFrameStart n s) s
/-- At RUN set the slots' LFSR pairs start at their seeds (R99). -/
def aptRunStart (s : State) : State := { s with aptRnd := [] }
/-- STANDBY has cleared: the pins of a running master transmit direction resume at the next boundary, with 32 frames of 0 (R323). -/
def aptStandbyClear (s : State) : State :=
  let b := nextBoundary s.sys.tick / 64
  { s with apt := s.apt.map fun e => if e.1 % 2 = 1 ∧ e.2.st = .running then (e.1, { e.2 with zeroUntil := b + 32, hizUntil := b }) else e }
/-- APT_TD, APT_TBCLK and APT_TFS of a port are high-impedance (R53, R323, Table 16.3). -/
def aptHiZ (s : State) (n : Nat) : Bool :=
  !s.img.accepted || s.sys.standby || s.sys.snuffed || decide (s.sys.tick < 64 * (s.aptDir n .tx).hizUntil)
/-- BUF_UE: the slot's value is 0 for the frame (Table 12.7); the number is 32 × direction + slot. -/
def aptBufUe (n i : Nat) (s : State) : State :=
  let s := raise (.apt n) 4 s
  if i < 32 then { s with portIn := Tab.set (fun _ => 0) s.portIn (32 * n + i) 0 }
  else updDir n .tx (fun x => { x with sent := Tab.set (fun _ => 0) x.sent (i % 32) 0 }) s

/-! ### The pins of a master direction, and the data of a transmit frame (R300, R306, R308, R311, R318) -/

/-- The bits of a frame. -/
def frameBits (c : Word) : Nat := cfgSlots c * cfgW c
/-- The first data bit follows the frame-sync edge by FS_DELAY bit clocks. -/
def fsDelay (c : Word) : Nat := bits c 12 1
/-- The bit clocks the frame sync is active for: one, one slot, or half the frame (FS_WIDTH; 3 is reserved and acts as 0 here). -/
def fsWidth (c : Word) : Nat := match bits c 10 2 with | 1 => cfgW c | 2 => frameBits c / 2 | _ => 1
/-- The bit clock of a master direction in Hz. -/
def bitClock (s : State) (c : Word) : Nat := frameBits c * s.fs
/-- A master direction's clocks run. -/
def clocksRun (s : State) (n : Nat) (d : Dir) : Bool := cfgMaster (dirCfg s n d) && (s.aptDir n d).clocks
/-- The number of the current bit clock in the frame, counted from the chip's frame boundary (R308). -/
def bitIndex (s : State) (c : Word) : Nat :=
  (floorDivI (timeNow s.ptu.sel s.ptu.counter * ((bitClock s c : Nat) : Int)) (10 ^ 9 * 2 ^ 32) % (frameBits c : Int)).toNat
/-- The bit clock of a master direction: data is launched on its falling edge, or with BCLK_INV on its rising one; low while stopped.
None: high-impedance. -/
def bclkLevel (s : State) (n : Nat) (d : Dir) : Option Bool :=
  let c := dirCfg s n d
  if !cfgMaster c || (d == .tx && aptHiZ s n) then none
  else some (clocksRun s n d && (decide (fullTurn / 2 ≤ outPhase s (bitClock s c)) != bit c 14))
/-- The frame sync of a master direction: active from the first bit clock for its width; FS_POL makes it active low (R306). -/
def fsLevel (s : State) (n : Nat) (d : Dir) : Option Bool :=
  let c := dirCfg s n d
  if !cfgMaster c || (d == .tx && aptHiZ s n) then none
  else some (clocksRun s n d && (decide (bitIndex s c < fsWidth c) != bit c 13))
/-- A slot on the wire: the Q1.23 value in the 24 most significant bits, lower bits 0 (R310). -/
def slotWord (c : Word) (v : Int) : Nat := uInt 24 v * (if bit c 4 then 256 else 1)
/-- The slot and the bit of it that bit clock k of a frame carries, MSB first, and whether they are the frame's own: within FS_DELAY of
its start the wire still carries the last bit of the frame before (R306). -/
def slotBit (c : Word) (k : Nat) : Bool × Nat × Nat :=
  let own := decide (fsDelay c ≤ k)
  let j := if own then k - fsDelay c else frameBits c + k - fsDelay c
  (own, j / cfgW c, cfgW c - 1 - j % cfgW c)
/-- APT_TD in bit clock k of the frame now sent: none is high-impedance, as for a masked slot with HIZ_MASKED and for a slave that is
IDLE; an IDLE master drives it low (R306, R311, R318). -/
def tdLevel (s : State) (n k : Nat) : Option Bool :=
  let c := dirCfg s n .tx
  let x := s.aptDir n .tx
  if aptHiZ s n then none
  else if x.st == .idle then (if cfgMaster c then some false else none)
  else
    let b := slotBit c k
    if bit c 17 && !bit x.maskUse b.2.1 then none
    else some (nbit (slotWord c (Tab.get (fun _ => 0) (if b.1 then x.sent else x.sentPrev) b.2.1)) b.2.2)

/-! ### Registers (Table 12.5) -/

/-- The code of a state. -/
def AptSt.code : AptSt → Nat
  | .idle => 0 | .armed => 1 | .starting => 2 | .acquiring => 3 | .running => 4 | .muted => 5 | .stopping => 6
/-- STATUS. -/
def aptStatus (r t : AptDir) : Word :=
  pack [(0, r.st.code), (4, t.st.code), (8, b2n r.locked), (9, b2n t.locked), (10, b2n r.slip), (11, b2n t.slip), (16, r.result), (20, t.result), (24, r.loss), (26, t.loss)]
/-- A read of a port's registers that is not plain. -/
def aptRegRead (n off : Nat) (s : State) : Option Word :=
  let r := s.aptDir n .rx
  let t := s.aptDir n .tx
  match off with
  | 0x004 => some (aptStatus r t)
  | 0x020 => some r.maskUse
  | 0x024 => some t.maskUse
  | 0x030 => some (wd r.rho)
  | 0x034 => some (wd (r.rho / 2 ^ 32))
  | 0x038 => some (wd t.rho)
  | 0x03C => some (wd (t.rho / 2 ^ 32))
  | 0x100 => some (wd r.xrun)
  | 0x104 => some (wd t.xrun)
  | 0x108 => some (wd r.glitchCnt)
  | 0x10C => some (wd t.glitchCnt)
  | 0x110 => some (wd r.convSat)
  | _ => none
/-- A write of a port's registers that is not plain. -/
def aptRegWrite (n off : Nat) (v : Word) (s : State) : Option (State × Code) :=
  if off = 0 then some (aptCtrlWrite n v s, .ok)
  else if off = 0x10 then some (aptCfg n .rx v s)
  else if off = 0x14 then some (aptCfg n .tx v s)
  else none

/-- The offsets PORT_SETUP may write for a direction, CTRL last (R325). -/
def portSetupOff (d : Dir) (off : Nat) : Bool :=
  off == 0 || off == 8 || off == 0xC || off == 0x10 + 4 * d.idx || off == 0x18 + 4 * d.idx || off == 0x28 + 4 * d.idx
/-- A PORT_SETUP record's pairs keep R325 and its CFG keeps R307. -/
def portSetupOk (s : State) (n : Nat) (d : Dir) (ps : List (Nat × Word)) : Bool :=
  let cfg := ps.foldl (fun v p => if p.1 = 0x10 + 4 * d.idx then p.2 else v) (dirCfg s n d)
  decide (ps.length ≤ 16) && ps.all (fun p => portSetupOff d p.1) && ps.dropLast.all (fun p => p.1 != 0)
    && ps.all (fun p => p.1 != 0 || p.2 &&& ~~~(bm d.idx ||| bm (2 + d.idx)) == 0) && cfgOk s d cfg
/-- IMG applies a PORT_SETUP record to an IDLE direction (R325). -/
def applyPortSetup (n : Nat) (d : Dir) (ps : List (Nat × Word)) (s : State) : State :=
  ps.foldl (fun s p =>
    if p.1 = 0 then aptCtrlWrite n (ctrlKeep s n d ||| p.2) s
    else s.setReg (aptReg n p.1) (p.2 &&& (match findRow rowsApt p.1 with | some r => wd r.wmask | none => 0))) s
/-- A receive port that an image configures starts its rounding anew (R99). -/
def forgetAptRnd (n : Nat) (d : Dir) (s : State) : State :=
  match d with | .rx => { s with aptRnd := s.aptRnd.filter fun e => e.1 / 32 != n } | .tx => s
/-- The direction of a PORT_SETUP instance is reconfigured and started; one that is not IDLE is stopped by R318 first, and the
record waits for its stop (R325). -/
def portApply (i : Nat) (ps : List (Nat × Word)) (s : State) : State :=
  let d : Dir := if i % 2 = 0 then .rx else .tx
  let n := i / 2
  let pj := s.img.partialJob
  let j := s.img.job
  let s := aptClearEn n d s
  if (s.aptDir n d).st ≠ .idle then updDir n d (fun x => { x with setup := x.setup ++ [ps] }) s
  else
    let s := s.updImg fun i => { i with partialJob := none, job := none }
    let s := applyPortSetup n d ps (forgetAptRnd n d s)
    s.updImg fun i => { i with partialJob := pj, job := j }
/-- The records that waited for a stop are applied once the direction is IDLE. -/
def portSetups (s : State) : State :=
  s.apt.foldl (fun s e =>
    if e.2.setup != [] && e.2.st == .idle then
      let d : Dir := if e.1 % 2 = 0 then .rx else .tx
      e.2.setup.foldl (fun s ps => portApply e.1 ps s) (updDir (e.1 / 2) d (fun x => { x with setup := [] }) s)
    else s) s

end Sys2Proof.Machine
end

