-- ==== Sys2Proof/Machine/Flc.lean ====
section
/-! DEFINITION. The boot-flash port: commands, the FIFO, the flash device's bytes, registers (R485, R486, R489). -/
namespace Sys2Proof.Machine
open Sys2Proof

/-- The FLC part changes. -/
def updFlc (f : Flc → Flc) (s : State) : State := { s with flc := f s.flc }
/-- A byte of an erased flash device. -/
def flashErased (_ : Nat) : Byte := 0xFF
/-- The device's byte at an address. -/
def flashByte (x : Flc) (a : Nat) : Byte := Tab.get flashErased x.flash a
/-- Bytes of the device. -/
def flashBytes (x : Flc) (a n : Nat) : List Byte := (upto n).map fun i => flashByte x (a + i)
/-- A program operation clears bits and sets none. -/
def programBytes (t : Tab Byte) (a : Nat) : List Byte → Tab Byte
  | [] => t
  | b :: l => programBytes (Tab.set flashErased t a (b &&& Tab.get flashErased t a)) (a + 1) l
/-- n bytes from a are erased. -/
def eraseBytes (t : Tab Byte) (a n : Nat) : Tab Byte := t.filter fun e => !decide (a ≤ e.1 ∧ e.1 < a + n)
/-- CTRL.EN and WR_EN; CFG.BURST in bytes, 2 to 8 as a power of two. -/
def flcEn (s : State) : Bool := s.rbit Blk.flc.base 0
def flcBurst (s : State) : Nat := 2 ^ min 8 (max 2 (s.fld (Blk.flc.base + 0x10) 8 4))
/-- DMA lines 5 and 6. -/
def flcRxReq (s : State) : Bool := decide (flcBurst s ≤ s.flc.fifo.length)
def flcTxReq (s : State) : Bool := decide (s.flc.fifo.length + flcBurst s ≤ 256)
/-- Bytes move between the device and the FIFO: a READ fills it, a PROGRAM takes from it; SFDP and ID bytes are the device's own. -/
def flcPump (s : State) : State :=
  let x := s.flc
  if x.st = .busy then
    let room := min (256 - x.fifo.length) (x.len - x.done)
    match x.cmd with
    | 1 => updFlc (fun x => { x with fifo := x.fifo ++ flashBytes x (x.addr + x.done) room, done := x.done + room }) s
    | 2 =>
      let n := min x.fifo.length (x.len - x.done)
      updFlc (fun x => { x with flash := programBytes x.flash (x.addr + x.done) (x.fifo.take n), fifo := x.fifo.drop n, done := x.done + n }) s
    | 5 | 6 =>
      let r := drawBytes room s
      updFlc (fun x => { x with fifo := x.fifo ++ r.1, done := x.done + room }) r.2
    | _ => s
  else s
/-- The command ends with a result and DONE. -/
def flcEnd (r : Nat) (s : State) : State := evt .flc 0 (updFlc (fun x => { x with st := .idle, result := r }) s)
/-- The bytes an erase command covers. -/
def eraseSize (c : Nat) : Nat := if c = 3 then 4096 else 65536
/-- A command's arguments are admissible (R486). -/
def flcArgsOk (c a l : Nat) : Bool :=
  a % 4 == 0 && l % 4 == 0 && l != 0 && decide (1 ≤ c ∧ c ≤ 6) && (!(c == 3 || c == 4) || a % eraseSize c == 0)
/-- A write of CMD: refused with BUSY, BAD_ARG or PROTECTED, or started (R486). FLC with EN = 0 accepts no work (R414). -/
def flcCmd (c : Nat) (s : State) : State :=
  let a := s.fld (Blk.flc.base + 8) 0 28
  let l := s.fld (Blk.flc.base + 0xC) 0 28
  if s.flc.st ≠ .idle ∨ s.img.boot ≠ .done then updFlc (fun x => { x with result := 2 }) s
  else if !flcEn s then s
  else if !flcArgsOk c a l then updFlc (fun x => { x with result := 3 }) s
  else if (c = 2 ∨ c = 3 ∨ c = 4) ∧ s.rbit Blk.flc.base 2 = false then updFlc (fun x => { x with result := 4 }) s
  else
    let s := updFlc (fun x => { x with st := .busy, cmd := c, addr := a, len := l, done := 0 }) s
    if c = 3 ∨ c = 4 then updFlc (fun x => { x with flash := eraseBytes x.flash a (eraseSize c) }) s else flcPump s
/-- The meaning of FLASH_READ. -/
def execFlashRead (m : Master) (s : State) : Res := .next (cmd m false (flcCmd 1) s)
/-- The meaning of PROGRAM. -/
def execProgram (m : Master) (s : State) : Res := .next (cmd m false (flcCmd 2) s)
/-- The meaning of ERASE_4K. -/
def execErase4K (m : Master) (s : State) : Res := .next (cmd m false (flcCmd 3) s)
/-- The meaning of ERASE_64K. -/
def execErase64K (m : Master) (s : State) : Res := .next (cmd m false (flcCmd 4) s)
/-- The meaning of READ_SFDP. -/
def execReadSfdp (m : Master) (s : State) : Res := .next (cmd m false (flcCmd 5) s)
/-- The meaning of READ_ID. -/
def execReadId (m : Master) (s : State) : Res := .next (cmd m false (flcCmd 6) s)
/-- FLC_COMMAND_END: every byte has moved, or the erase is over; a stopped command ends with ABORTED. -/
def flcCommandEnd (s : State) : State :=
  let x := s.flc
  match x.st with
  | .stopping => flcEnd 6 s
  | .busy => if x.cmd = 3 ∨ x.cmd = 4 ∨ x.len ≤ x.done then flcEnd 1 s else s
  | .idle => s
/-- The meaning of FLC_COMMAND_END. -/
def execFlcCommandEnd (s : State) : Res := .next (flcCommandEnd s)
/-- The meaning of FLASH_TIMEOUT: the device has been busy for 10 s after a program or an erase. -/
def execFlashTimeout (s : State) : Res :=
  .next (if s.flc.st = .busy ∧ 2 ≤ s.flc.cmd ∧ s.flc.cmd ≤ 4 then flcEnd 5 (raise .flc 0 s) else s)
/-- A write of CTRL: FORCE is evaluated before the write of EN (R414). -/
def flcCtrl (v : Word) (s : State) : State :=
  let s := if bit v 1 then (if s.flc.st = .stopping ∧ bit v 0 = false then flcEnd 6 s else evt .flc 1 s) else s
  let was := flcEn s
  let s := s.setReg Blk.flc.base (v &&& 5)
  if was && !bit v 0 && s.flc.st == .busy then updFlc (fun x => { x with st := .stopping }) s else s
/-- The meaning of FLC_DISABLE: EN is cleared, WR_EN kept. -/
def execFlcDisable (m : Master) (s : State) : Res := .next (cmd m true (fun s => flcCtrl (s.reg Blk.flc.base &&& 4) s) s)
/-- The meaning of FLC_FORCE: EN = 0 with FORCE = 1. -/
def execFlcForce (m : Master) (s : State) : Res := .next (cmd m true (fun s => flcCtrl ((s.reg Blk.flc.base &&& 4) ||| 2) s) s)
/-- A FIFO write pushes 4 bytes; bytes past 256 find no room. -/
def flcPush (v : Word) (s : State) : State := flcPump (updFlc (fun x => { x with fifo := (x.fifo ++ leBytes 4 v.toNat).take 256 }) s)
/-- A FIFO read pops 4 bytes; bytes not available read 0. -/
def flcPop (s : State) : State × Word := (flcPump (updFlc (fun x => { x with fifo := x.fifo.drop 4 }) s), wd (leNat (s.flc.fifo.take 4)))
/-- The meaning of FLC_FIFO_ACCESS: a word to push, or none to pop. -/
def execFlcFifoAccess (m : Master) (w : Option Word) (s : State) : Res :=
  .next (match w with
    | some v => cmd m false (flcPush v) s
    | none => rdCmd m flcPop s)
/-- The code of a state. -/
def FlSt.code : FlSt → Nat
  | .idle => 0 | .busy => 1 | .stopping => 2
/-- A read of FLC's registers that hold live state. -/
def flcRegRead (off : Nat) (s : State) : Option (State × Word) :=
  if off = 0x14 then some (s, pack [(0, s.flc.st.code), (4, s.flc.result), (16, s.flc.fifo.length)])
  else if off = 0x18 then some (s, s.flc.dev)
  else if off = 0x1C then some (flcPop s)
  else none
/-- A write of FLC's registers that is not plain. -/
def flcRegWrite (off : Nat) (v : Word) (s : State) : Option (State × Code) :=
  if off = 0 then some (flcCtrl v s, .ok)
  else if off = 4 then some (flcCmd (bits v 0 3) s, .ok)
  else if off = 0x10 then some (if s.flc.st = .idle then (s.setReg (Blk.flc.base + 0x10) (v &&& 0xF0F), .ok) else (s, .accessErr))
  else if off = 0x1C then some (flcPush v s, .ok)
  else none

end Sys2Proof.Machine
end

