-- ==== Sys2Proof/Machine/Twc.lean ====
section
/-! DEFINITION. The two-wire controllers (R478 to R484, R489). The bytes of a transfer move as soon as the FIFOs let them; how the
bus ends it is the event command's. -/
namespace Sys2Proof.Machine
open Sys2Proof

/-- Controller k. -/
def State.tw (s : State) (k : Nat) : Tw := Tab.get (fun _ => {}) s.twc k
/-- Controller k changes. -/
def updTw (k : Nat) (f : Tw → Tw) (s : State) : State := { s with twc := Tab.set (fun _ => ({} : Tw)) s.twc k (f (s.tw k)) }
/-- The address of a controller's register. -/
def twReg (k off : Nat) : Nat := Blk.twc.base + 0x100 + 0x40 * k + off
/-- CTRL.EN. -/
def twEn (s : State) (k : Nat) : Bool := s.rbit (twReg k 0) 0
/-- TX_BURST and RX_BURST in bytes: 2 to 5 as powers of two. -/
def twTxBurst (s : State) (k : Nat) : Nat := 2 ^ min 5 (max 2 (s.fld (twReg k 4) 8 3))
def twRxBurst (s : State) (k : Nat) : Nat := 2 ^ min 5 (max 2 (s.fld (twReg k 4) 12 3))
/-- The DMA request lines (R480): transmit, receive. -/
def twTxReq (s : State) (k : Nat) : Bool :=
  let x := s.tw k
  x.st == .busy && decide (x.out.length < x.wlen) && decide (x.tx.length + twTxBurst s k ≤ 64)
def twRxReq (s : State) (k : Nat) : Bool := decide (twRxBurst s k ≤ (s.tw k).rx.length)
/-- Bytes move: transmit bytes to the bus up to WLEN, then received bytes into the FIFO up to RLEN (R479). -/
def twPump (x : Tw) : Tw :=
  if x.st = .busy ∧ x.lost = false then
    let n := min x.tx.length (x.wlen - x.out.length)
    let x := { x with out := x.out ++ x.tx.take n, tx := x.tx.drop n }
    if x.out.length = x.wlen then
      let r := min (64 - x.rx.length) (x.rlen - x.got)
      let l := (upto r).map fun i => x.resp.getD i 0
      { x with rx := x.rx ++ l, resp := x.resp.drop r, got := x.got + r }
    else x
  else x
/-- The transfer ends with a result: DONE, and transmit bytes left over are discarded. -/
def twEnd (k r : Nat) (s : State) : State :=
  evt .twc k (updTw k (fun x => { x with st := .idle, result := r, tx := [], out := [], resp := [], got := 0, naks := 0, losses := 0, lost := false }) s)
/-- A write of XFER, with the bytes the target answers; bytes not given are free: admitted, or refused with its code (R479). A controller whose EN is 0 accepts no work (R414). -/
def xferWrite (k : Nat) (v : Word) (resp : List Byte) (s : State) : State :=
  let x := s.tw k
  let wlen := bits v 8 8
  let rlen := bits v 16 8
  if !twEn s k && x.st == .idle then s
  else if x.st ≠ .idle then updTw k (fun x => { x with result := 7 }) s
  else if wlen = 0 ∧ rlen = 0 then updTw k (fun x => { x with result := 10 }) s
  else if s.faultBit .twc (4 * k + 3) then updTw k (fun x => { x with result := 6 }) s
  else
    let d := drawBytes (rlen - resp.length) s
    updTw k (fun x => twPump { x with
      st := .busy, taddr := bits v 0 7, wlen := wlen, rlen := rlen, out := [], resp := resp ++ d.1, got := 0, naks := 0, losses := 0, lost := false }) d.2
/-- The meaning of XFER. -/
def execXfer (m : Master) (k : Fin 2) (v : Word) (resp : List Byte) (s : State) : Res := .next (cmd m false (xferWrite k.val v resp) s)

/-! ### Enable, disable, FORCE (R483, R484) -/

/-- A write of CTRL: FORCE is evaluated before the write of EN (R414). -/
def twCtrl (k : Nat) (v : Word) (s : State) : State :=
  let x := s.tw k
  let was := twEn s k
  let s := if bit v 1 then (if x.st = .stopping ∧ bit v 0 = false ∧ x.sclHeld = false then twEnd k 8 s else evt .twc (2 + k) s) else s
  let s := s.setReg (twReg k 0) (v &&& 1)
  if bit v 0 && !was then updTw k (fun x => if x.st = .idle then { x with st := .recovering } else x) s
  else if !bit v 0 && was then
    match (s.tw k).st with
    | .busy => updTw k (fun x => { x with st := .stopping }) s
    | .recovering => updTw k (fun x => { x with st := .idle }) s
    | _ => s
  else s
/-- The meaning of TWC_ENABLE. -/
def execTwcEnable (m : Master) (k : Fin 2) (s : State) : Res := .next (cmd m false (twCtrl k.val 1) s)
/-- The meaning of TWC_DISABLE. -/
def execTwcDisable (m : Master) (k : Fin 2) (s : State) : Res := .next (cmd m false (twCtrl k.val 0) s)
/-- The meaning of TWC_FORCE: EN = 0 with FORCE = 1. -/
def execTwcForce (m : Master) (k : Fin 2) (s : State) : Res := .next (cmd m false (twCtrl k.val 2) s)

/-! ### The transfer (R479 to R482) -/

/-- TWC_TRANSFER_END: the bytes have moved, or a write byte was not acknowledged; a stopped transfer ends with ABORTED. -/
def transferEnd (k : Nat) (o : TwEnd) (s : State) : State :=
  let x := s.tw k
  if x.st = .stopping ∧ x.sclHeld = false then twEnd k 8 s
  else if x.st = .busy then
    match o with
    | .ok => if x.out.length = x.wlen ∧ x.got = x.rlen then twEnd k 1 s else s
    | .dataNak n => if n < x.out.length then twEnd k 3 (raise .twc (4 * k + 1) s) else s
  else s
/-- The meaning of TWC_TRANSFER_END. -/
def execTwcTransferEnd (k : Fin 2) (o : TwEnd) (s : State) : Res := .next (transferEnd k.val o s)
/-- NAK_RETRY: the address was not acknowledged; after the wait the controller starts again, or ends with ADDR_NAK (R481). -/
def nakRetry (k : Nat) (s : State) : State :=
  let x := s.tw k
  if x.st = .busy ∧ x.lost = false then
    if x.naks < s.fld (twReg k 4) 24 4 then updTw k (fun x => { x with naks := x.naks + 1 }) s
    else twEnd k 2 (raise .twc (4 * k + 1) s)
  else s
/-- The meaning of NAK_RETRY. -/
def execNakRetry (k : Fin 2) (s : State) : Res := .next (nakRetry k.val s)
/-- ARB_LOST: the place is recorded, and the controller waits for the bus (R482). -/
def arbLost (k byte bit : Nat) (s : State) : State :=
  if (s.tw k).st = .busy ∧ (s.tw k).lost = false then
    updTw k (fun x => { x with lost := true, losses := x.losses + 1, arbByte := byte, arbBit := bit }) (raise .twc (4 * k) s)
  else s
/-- The meaning of ARB_LOST. -/
def execArbLost (k : Fin 2) (byte : Fin 256) (bit : Fin 8) (s : State) : Res := .next (arbLost k.val byte.val bit.val s)
/-- ARB_RETRY: after bus-free and backoff, from START again; after 8 losses ARB_FAIL; a stopped one does not retry (Table 19.2). -/
def arbRetry (k : Nat) (s : State) : State :=
  let x := s.tw k
  if x.lost then
    if x.st = .stopping then twEnd k 8 s
    else if 8 ≤ x.losses then twEnd k 4 s
    else updTw k (fun x => twPump { x with lost := false }) s
  else s
/-- The meaning of ARB_RETRY. -/
def execArbRetry (k : Fin 2) (s : State) : Res := .next (arbRetry k.val s)
/-- SCL_STUCK: the transfer ends; its STOP waits for SCL (R478). -/
def sclStuck (k : Nat) (s : State) : State :=
  let x := s.tw k
  if x.st = .busy ∨ x.st = .stopping then
    if x.sclHeld then s
    else updTw k (fun x => { x with st := .stopping, sclHeld := true }) (twEnd k 5 (raise .twc (4 * k + 2) s))
  else s
/-- The meaning of SCL_STUCK. -/
def execSclStuck (k : Fin 2) (s : State) : Res := .next (sclStuck k.val s)
/-- The meaning of TW_SCL_RELEASE: the STOP is sent, and the controller is idle. -/
def execTwSclRelease (k : Fin 2) (s : State) : Res :=
  .next (if (s.tw k.val).sclHeld then updTw k.val (fun x => { x with sclHeld := false, st := .idle }) s else s)
/-- FIFO_STALL: an empty transmit FIFO or a full receive FIFO has held SCL for 10 ms (R480). -/
def fifoStall (k : Nat) (s : State) : State :=
  let x := s.tw k
  let empty := decide (x.out.length < x.wlen) && x.tx.isEmpty
  let full := x.out.length == x.wlen && decide (x.got < x.rlen) && decide (64 ≤ x.rx.length)
  if x.st = .busy ∧ x.lost = false ∧ (empty || full) = true then twEnd k 9 s else s
/-- The meaning of FIFO_STALL. -/
def execFifoStall (k : Fin 2) (s : State) : Res := .next (fifoStall k.val s)
/-- STUCK_BUS_RECOVERY: the pulses and the STOP; BUS_STUCK if SDA is still low (R483). -/
def stuckBusRecovery (k : Nat) (ok : Bool) (s : State) : State :=
  let x := s.tw k
  if x.st = .recovering ∨ (x.st = .idle ∧ twEn s k = true) then
    let s := updTw k (fun x => { x with st := .idle, recov := (x.recov + 1) % 2 ^ 32 }) s
    if ok then s else raise .twc (4 * k + 3) s
  else s
/-- The meaning of STUCK_BUS_RECOVERY. -/
def execStuckBusRecovery (k : Fin 2) (ok : Bool) (s : State) : Res := .next (stuckBusRecovery k.val ok s)
/-- BUS_STUCK has been cleared: recovery runs again (R483). -/
def twRecoverAgain (k : Nat) (s : State) : State := updTw k (fun x => if x.st = .idle then { x with st := .recovering } else x) s

/-! ### FIFO and registers (R480, R489) -/

/-- A FIFO write pushes 4 bytes, bits [7:0] first; bytes past 64 find no room. -/
def twPush (k : Nat) (v : Word) (s : State) : State := updTw k (fun x => twPump { x with tx := (x.tx ++ leBytes 4 v.toNat).take 64 }) s
/-- A FIFO read pops 4 bytes; bytes not available read 0. -/
def twPop (k : Nat) (s : State) : State × Word :=
  (updTw k (fun x => twPump { x with rx := x.rx.drop 4 }) s, wd (leNat ((s.tw k).rx.take 4)))
/-- The meaning of TWC_FIFO_WRITE. -/
def execTwcFifoWrite (m : Master) (k : Fin 2) (v : Word) (s : State) : Res := .next (cmd m false (twPush k.val v) s)
/-- The meaning of TWC_FIFO_READ. -/
def execTwcFifoRead (m : Master) (k : Fin 2) (s : State) : Res := .next (rdCmd m (twPop k.val) s)
/-- A write of CFG: only while the controller is IDLE (R489). -/
def twCfg (k : Nat) (v : Word) (s : State) : State × Code :=
  if (s.tw k).st = .idle then (s.setReg (twReg k 4) (v &&& 0x0FFF7703), .ok) else (s, .accessErr)
/-- The meaning of TWC_CFG_WRITE. -/
def execTwcCfgWrite (m : Master) (k : Fin 2) (v : Word) (s : State) : Res := .next (cmdC m false (twCfg k.val v) s)
/-- The code of a state. -/
def TwSt.code : TwSt → Nat
  | .idle => 0 | .busy => 1 | .recovering => 2 | .stopping => 3
/-- The controller and the offset within it of a TWC register. -/
def twOff (off : Nat) : Option (Nat × Nat) := if 0x100 ≤ off ∧ off < 0x180 then some ((off - 0x100) / 0x40, off % 0x40) else none
/-- A read of TWC's registers that hold live state. -/
def twcRegRead (off : Nat) (s : State) : Option (State × Word) :=
  match twOff off with
  | some (k, 0x0C) =>
    let x := s.tw k
    some (s, pack [(0, x.st.code), (4, x.result), (8, x.tx.length), (16, x.rx.length)])
  | some (k, 0x10) => some (s, pack [(0, (s.tw k).arbBit), (8, (s.tw k).arbByte)])
  | some (k, 0x14) => some (twPop k s)
  | some (k, 0x18) => some (s, wd (s.tw k).recov)
  | _ => none
/-- A write of TWC's registers that is not plain. -/
def twcRegWrite (off : Nat) (v : Word) (s : State) : Option (State × Code) :=
  match twOff off with
  | some (k, 0x00) => some (twCtrl k v s, .ok)
  | some (k, 0x04) => some (twCfg k v s)
  | some (k, 0x08) => some (xferWrite k v [] s, .ok)
  | some (k, 0x14) => some (twPush k v s, .ok)
  | _ => none

end Sys2Proof.Machine
end

