-- ==== Sys2Proof/Machine/Dma.lean ====
section
/-! DEFINITION. The DMA engine's channels: starts and stops, the run queue, interleave, descriptor checks, registers (R446 to R459).
The data a burst moves is in Burst.lean. -/
namespace Sys2Proof.Machine
open Sys2Proof

/-- The DMA part changes. -/
def updDma (f : Dma → Dma) (s : State) : State := { s with dma := f s.dma }
/-- Channel n. -/
def State.dmaCh (s : State) (n : Nat) : DmaCh := Tab.get (fun _ => {}) s.dma.chs n
/-- Channel n changes. -/
def updCh (n : Nat) (f : DmaCh → DmaCh) (s : State) : State :=
  updDma (fun d => { d with chs := Tab.set (fun _ => ({} : DmaCh)) d.chs n (f (s.dmaCh n)) }) s
/-- The address of a channel's register. -/
def dmaReg (n off : Nat) : Nat := Blk.dma.base + 0x100 + 0x40 * n + off
/-- CTRL.COMPAT. -/
def dmaCompat (s : State) : Bool := s.rbit Blk.dma.base 0
/-- CHn_CFG: PRIO, LC, WAIT_LIM in µs (0 acts as 1). -/
def dmaPrio (s : State) (n : Nat) : Nat := s.fld (dmaReg n 4) 0 4
def dmaLc (s : State) (n : Nat) : Bool := s.rbit (dmaReg n 4) 8
def dmaWaitLim (s : State) (n : Nat) : Nat := max 1 (s.fld (dmaReg n 4) 16 10)
/-- CHn_LIMIT: 0 acts as 1. -/
def dmaLimit (s : State) (n : Nat) : Nat := max 1 (s.fld (dmaReg n 8) 0 16)
/-- The first descriptor's address. -/
def dmaFirst (s : State) (n : Nat) : Nat := (s.reg (dmaReg n 0xC)).toNat + 2 ^ 32 * s.fld (dmaReg n 0x10) 0 4
/-- The channel is IDLE or HALTED. -/
def dmaFree (x : DmaCh) : Bool := x.st == .idle || x.st == .halted

/-! ### Descriptor fields (Tables 18.1 and 18.2) -/

/-- Word i of a descriptor. -/
def dW (d : List Nat) (i : Nat) : Nat := d.getD i 0
/-- KIND, FIXS, FIXD, LAST, INT, BARRIER, ESIZE, BURST, REQ. -/
def dKind (d : List Nat) : Nat := nbits (dW d 0) 28 4
def dFixS (d : List Nat) : Bool := nbit (dW d 0) 26
def dFixD (d : List Nat) : Bool := nbit (dW d 0) 25
def dLast (d : List Nat) : Bool := nbit (dW d 0) 24
def dInt (d : List Nat) : Bool := nbit (dW d 0) 23
def dBarrier (d : List Nat) : Bool := nbit (dW d 0) 22
def dEsize (d : List Nat) : Nat := nbits (dW d 0) 16 4
def dBurst (d : List Nat) : Nat := nbits (dW d 0) 12 4
def dReq (d : List Nat) : Nat := nbits (dW d 0) 8 4
/-- SRC, DST, NEXT, IDX and LEN or COUNT. -/
def dSrc (d : List Nat) : Nat := dW d 1 + 2 ^ 32 * nbits (dW d 3) 0 4
def dDst (d : List Nat) : Nat := dW d 2 + 2 ^ 32 * nbits (dW d 3) 8 4
def dNext (d : List Nat) : Nat := dW d 5 + 2 ^ 32 * nbits (dW d 3) 16 4
def dIdx (d : List Nat) : Nat := dW d 6 + 2 ^ 32 * nbits (dW d 3) 24 4
def dLen (d : List Nat) : Nat := if dKind d = 0 then nbits (dW d 4) 0 25 else nbits (dW d 4) 0 17
/-- Reserved bits of W0, W3, W4 and W7 are 0, codes are in range, and the fields of the other kind are 0 (PCODE FIELD). -/
def dFieldOk (d : List Nat) : Bool :=
  let k := dKind d
  let gather := k == 1
  decide (k ≤ 1) && nbits (dW d 0) 27 1 == 0 && nbits (dW d 0) 20 2 == 0 && nbits (dW d 0) 0 8 == 0 &&
    nbits (dW d 3) 4 4 == 0 && nbits (dW d 3) 12 4 == 0 && nbits (dW d 3) 20 4 == 0 && nbits (dW d 3) 28 4 == 0 && dW d 7 == 0 &&
    decide (dReq d ≤ 6) &&
    (if gather then
      dReq d == 0 && decide (2 ≤ dEsize d ∧ dEsize d ≤ 8) && dBurst d == 0 && nbits (dW d 4) 17 15 == 0 && !dFixS d
    else
      dEsize d == 0 && dW d 6 == 0 && nbits (dW d 3) 24 4 == 0 && nbits (dW d 4) 25 7 == 0 &&
        (if dReq d = 0 then dBurst d == 0 else decide (2 ≤ dBurst d ∧ dBurst d ≤ 8)))
/-- The alignment of SRC, DST and IDX (PCODE ADDR_ALIGN). -/
def dAlignOk (d : List Nat) : Bool :=
  if dKind d = 1 then dSrc d % 2 ^ dEsize d == 0 && dDst d % 2 ^ dEsize d == 0 && dIdx d % 4 == 0
  else
    let b := 2 ^ dBurst d
    dSrc d % 4 == 0 && dDst d % 4 == 0 && (dReq d == 0 || ((dFixS d || dSrc d % b == 0) && (dFixD d || dDst d % b == 0)))
/-- LEN or COUNT, and the ranges that advance stay below 2^36 (PCODE LEN). -/
def dLenOk (d : List Nat) : Bool :=
  let n := dLen d
  if dKind d = 1 then
    decide (1 ≤ n ∧ n ≤ 65536) && decide (dIdx d + 4 * n ≤ 2 ^ 36) && (dFixD d || decide (dDst d + n * 2 ^ dEsize d ≤ 2 ^ 36))
  else
    decide (4 ≤ n ∧ n ≤ 16777216) && n % 4 == 0 && (dReq d == 0 || n % 2 ^ dBurst d == 0) &&
      (dFixS d || decide (dSrc d + n ≤ 2 ^ 36)) && (dFixD d || decide (dDst d + n ≤ 2 ^ 36))
/-- The first failing check of Table 18.4, or 0. -/
def descCheck (addr : Nat) (d : List Nat) : Nat :=
  if addr % 32 ≠ 0 then 1 else if !dFieldOk d then 2 else if !dAlignOk d then 3 else if !dLenOk d then 4 else 0

/-! ### Pacing and selection (R451 to R453) -/

/-- A request line of Table 18.3. -/
def dmaReq (s : State) : Nat → Bool
  | 1 => twTxReq s 0 | 2 => twRxReq s 0 | 3 => twTxReq s 1 | 4 => twRxReq s 1 | 5 => flcRxReq s | 6 => flcTxReq s | _ => true
/-- The channel's line is low: its paced burst has to wait. -/
def dmaHeld (s : State) (n : Nat) : Bool :=
  match (s.dmaCh n).desc with
  | some d => dReq d != 0 && decide ((s.dmaCh n).done < dLen d) && !dmaReq s (dReq d)
  | none => false
/-- A queued channel has work ready. -/
def dmaReady (s : State) (n : Nat) : Bool := !dmaHeld s n
/-- The wait of a channel, in ticks. -/
def dmaWait (s : State) (n : Nat) : Nat := s.sys.tick - (s.dmaCh n).waitFrom
/-- The wait limit of a channel, in ticks. -/
def dmaLimTicks (s : State) (n : Nat) : Nat := s.usTicks (dmaWaitLim s n)
/-- The member of a list with the greatest key, the first one on a tie. -/
def bestBy (key : Nat → Nat) : List Nat → Option Nat
  | [] => none
  | a :: t => match bestBy key t with
    | none => some a
    | some b => if key a < key b then some b else some a
/-- Selection in interleave: a latency-critical channel past its limit, the longest wait first; else the highest priority, the
longest wait first (R453). -/
def interleavePick (s : State) (ready : List Nat) : Option Nat :=
  match bestBy (dmaWait s) (ready.filter fun n => dmaLc s n && decide (dmaLimTicks s n ≤ dmaWait s n)) with
  | some n => some n
  | none =>
    match bestBy (dmaPrio s) ready with
    | none => none
    | some p => bestBy (dmaWait s) (ready.filter fun n => dmaPrio s n == dmaPrio s p)
/-- A burst boundary: interleave begins or ends, and the engine selects the channel it serves next (R452, R453). -/
def dmaSelect (s : State) : State :=
  let ready := s.dma.queue.filter (dmaReady s)
  let lc := ready.any (dmaLc s)
  let s :=
    if s.dma.interleaveDue && !s.dma.interleave then updDma (fun d => { d with interleave := true, interleaveDue := false, entries := (d.entries + 1) % 2 ^ 32 }) s
    else updDma (fun d => { d with interleaveDue := false }) s
  let s := if s.dma.interleave && !lc then updDma (fun d => { d with interleave := false }) s else s
  let pick := if s.dma.interleave then interleavePick s ready else ready.head?
  let s := s.dma.queue.foldl (fun s n =>
    if dmaHeld s n then updCh n (fun x => if x.st = .active then { x with st := .waitReq } else x) s
    else if (s.dmaCh n).st = .waitReq then updCh n (fun x => { x with st := .active, waitFrom := s.sys.tick, waited := false }) s
    else s) s
  let s := updDma (fun d => { d with served := pick }) s
  match pick with
  | some n => updCh n (fun x => if x.st = .queued then { x with st := .active, cur := dmaFirst s n } else x) s
  | none => s
/-- A channel leaves the run queue with a state. -/
def dmaLeave (n : Nat) (st : DmaSt) (s : State) : State :=
  let s := updCh n (fun x => { x with st := st, desc := none, done := 0, waited := false, lateHalt := false }) s
  dmaSelect (updDma (fun d => { d with queue := d.queue.filter (· != n), served := if d.served = some n then none else d.served }) s)
/-- A channel halts with a cause; its source is raised (R455). -/
def dmaHalt (n cause src : Nat) (s : State) : State := dmaLeave n .halted (updCh n (fun x => { x with cause := cause }) (raise .dma src s))
/-- A channel becomes IDLE, and DONE[n] is set. -/
def dmaIdle (n : Nat) (s : State) : State := evt .dma n (dmaLeave n .idle s)
/-- BUS_ERR of a channel at an address. -/
def dmaBusErr (n addr : Nat) (c : Code) (s : State) : State := dmaHalt n 2 1 (updCh n (fun x => { x with errAddr := addr, errCode := c.num }) s)
/-- BUF_UE: the affected burst is not written (R455). -/
def dmaBufUe (n : Nat) (s : State) : State := if dmaFree (s.dmaCh n) then raise .dma 3 s else dmaHalt n 4 3 s

/-! ### Starts and stops (R456) -/

/-- EN = 1: an IDLE or HALTED channel is QUEUED. -/
def dmaStart (n : Nat) (s : State) : State :=
  if dmaFree (s.dmaCh n) then
    let s := updCh n (fun x =>
      { x with st := .queued, cause := 0, pcode := 0, lateErr := false, hops := 0, bytes := 0, desc := none, done := 0, waitFrom := s.sys.tick
               waited := false, lateHalt := false, open_ := false, cur := dmaFirst s n }) s
    let s := updDma (fun d => { d with queue := d.queue ++ [n] }) s
    if s.dma.served.isNone then dmaSelect s else s
  else s
/-- EN = 0: a waiting channel is IDLE; an ACTIVE one stops after its descriptor. -/
def dmaStop (n : Nat) (s : State) : State :=
  match (s.dmaCh n).st with
  | .queued | .waitReq => dmaIdle n s
  | .active => updCh n (fun x => { x with st := .stopping }) s
  | _ => s
/-- FORCE: an abort of a stop with EN = 0, else moot. -/
def dmaForce (n : Nat) (en : Bool) (s : State) : State :=
  if (s.dmaCh n).st = .stopping then
    (if en then s else dmaIdle n (updCh n (fun x => { x with cause := 5 }) s))
  else s.orReg (Blk.dma.base + 0x50) (bm n)
/-- A write of CHn_CTRL: an abort (rank 7) before the rest (rank 8). -/
def dmaCtrl (n : Nat) (v : Word) (s : State) : State :=
  let s := if bit v 1 then dmaForce n (bit v 0) s else s
  if bit v 0 then dmaStart n s else dmaStop n s
/-- The meaning of DMA_CHANNEL_START: a write of CHn_CTRL with EN = 1. -/
def execDmaChannelStart (m : Master) (n : Fin 16) (v : Word) (s : State) : Res := .next (cmd m false (dmaCtrl n.val (v ||| 1)) s)
/-- The meaning of DMA_CHANNEL_STOP: a write with EN = 0 and FORCE = 0. -/
def execDmaChannelStop (m : Master) (n : Fin 16) (s : State) : Res := .next (cmd m false (dmaCtrl n.val 0) s)
/-- The meaning of DMA_FORCE: a write with EN = 0 and FORCE = 1. -/
def execDmaForce (m : Master) (n : Fin 16) (s : State) : Res := .next (cmd m false (dmaCtrl n.val 2) s)
/-- A write of CTRL.COMPAT: only while every channel is IDLE or HALTED. -/
def dmaCompatWrite (v : Word) (s : State) : State × Code :=
  if (upto 16).all fun n => dmaFree (s.dmaCh n) then (s.setReg Blk.dma.base (v &&& 1), .ok) else (s, .accessErr)
/-- The meaning of DMA_COMPAT_WRITE. -/
def execDmaCompatWrite (m : Master) (v : Word) (s : State) : Res := .next (cmdC m false (dmaCompatWrite v) s)
/-- A write of CHn_CFG, CHn_LIMIT or CHn_DESC: only while the channel is IDLE or HALTED (R458). -/
def dmaConfig (n off : Nat) (v : Word) (s : State) : State × Code :=
  if off = 4 ∨ off = 8 ∨ off = 0xC ∨ off = 0x10 then
    if dmaFree (s.dmaCh n) then
      (s.setReg (dmaReg n off) (v &&& (match findRow rowsDma (0x100 + off) with | some r => wd r.wmask | none => 0)), .ok)
    else (s, .accessErr)
  else (s, .ok)
/-- The meaning of DMA_CONFIG_WRITE. -/
def execDmaConfigWrite (m : Master) (n : Fin 16) (off : Fin 64) (v : Word) (s : State) : Res := .next (cmdC m false (dmaConfig n.val off.val v) s)

/-! ### Waiting (R451, R453), late errors (R454) -/

/-- WAIT_LONG: the wait of a latency-critical channel with work ready and unserved reaches its limit (R453). -/
def waitLong (n : Nat) (s : State) : State :=
  let x := s.dmaCh n
  if s.dma.queue.contains n && dmaLc s n && dmaReady s n && s.dma.served != some n && !x.waited && decide (dmaLimTicks s n ≤ dmaWait s n) then
    updDma (fun d => { d with interleaveDue := true }) (updCh n (fun x => { x with waited := true }) (raise .dma 4 s))
  else s
/-- The meaning of WAIT_LONG. -/
def execWaitLong (n : Fin 16) (s : State) : Res := .next (waitLong n.val s)
/-- DMA_REQUEST_ASSERT: the line of a channel that waits for it is high; the engine, if it serves none, takes it up (R451, R452). -/
def dmaRequest (n : Nat) (s : State) : State :=
  if ((s.dmaCh n).st = .waitReq ∨ (s.dmaCh n).st = .stopping) ∧ dmaHeld s n = false then
    if s.dma.served.isNone then dmaSelect s
    else updCh n (fun x => { x with waitFrom := s.sys.tick, waited := false }) s
  else s
/-- The meaning of DMA_REQUEST_ASSERT. -/
def execDmaRequestAssert (n : Fin 16) (s : State) : Res := .next (dmaRequest n.val s)
/-- LATE_WRITE_ERROR: an error response comes after its descriptor has completed under COMPAT without BARRIER (R454). -/
def lateWriteError (n addr code : Nat) (s : State) : State :=
  let x := s.dmaCh n
  if x.open_ && code != 0 then
    let s := updCh n (fun x => { x with lateErr := true, errAddr := addr % 2 ^ 36, errCode := code }) (raise .dma 1 s)
    if dmaFree x then s else updCh n (fun x => { x with lateHalt := true }) s
  else s
/-- The meaning of LATE_WRITE_ERROR. -/
def execLateWriteError (n : Fin 16) (addr : Nat) (code : Fin 7) (s : State) : Res := .next (lateWriteError n.val addr code.val s)
/-- DESCRIPTOR_COMPLETE: the data of the served channel's descriptor has moved; the next is fetched, or the chain ends, stops, or
reaches its limit (R454 to R456). -/
def descriptorComplete (s : State) : State :=
  match s.dma.served with
  | none => s
  | some n =>
    let x := s.dmaCh n
    match x.desc with
    | none => s
    | some d =>
      if x.done < dLen d then s
      else
        let s := if dInt d then evt .dma (16 + n) s else s
        let s := updCh n (fun x => { x with hops := satInc 65535 x.hops, open_ := dmaCompat s && !dBarrier d }) s
        if x.lateHalt then dmaLeave n .halted (updCh n (fun x => { x with cause := 2 }) s)
        else if x.st = .stopping ∨ dLast d = true then dmaIdle n s
        else if dmaLimit s n ≤ x.hops + 1 then dmaHalt n 3 2 s
        else dmaSelect (updCh n (fun x => { x with desc := none, done := 0, cur := dNext d }) s)
/-- The meaning of DESCRIPTOR_COMPLETE. -/
def execDescriptorComplete (s : State) : Res := .next (descriptorComplete s)

/-! ### Registers (R458) -/

/-- The code of a state. -/
def DmaSt.code : DmaSt → Nat
  | .idle => 0 | .queued => 1 | .active => 2 | .waitReq => 3 | .stopping => 4 | .halted => 5
/-- A read of DMA's registers that hold live state. -/
def dmaRegRead (off : Nat) (s : State) : Option Word :=
  if off = 4 then
    let busy := ((upto 16).map fun n => b2n (!dmaFree (s.dmaCh n)) * 2 ^ n).sum
    some (pack [(0, busy), (16, b2n s.dma.interleave), (20, s.dma.served.getD 0), (24, b2n s.dma.served.isSome)])
  else if off = 8 then some (wd s.dma.entries)
  else if 0x100 ≤ off ∧ off < 0x500 then
    let x := s.dmaCh ((off - 0x100) / 0x40)
    match off % 0x40 with
    | 0x00 => some (wd (b2n (x.st == .queued || x.st == .active || x.st == .waitReq)))
    | 0x14 => some (pack [(0, x.st.code), (4, x.cause), (11, b2n x.lateErr), (12, x.pcode), (16, x.hops)])
    | 0x18 => some (wd x.cur)
    | 0x1C => some (wd (x.cur / 2 ^ 32))
    | 0x20 => some (wd x.errAddr)
    | 0x24 => some (pack [(0, x.errAddr / 2 ^ 32), (8, x.errCode)])
    | 0x28 => some (wd x.bytes)
    | _ => none
  else none
/-- A write of DMA's registers that is not plain. -/
def dmaRegWrite (off : Nat) (v : Word) (s : State) : Option (State × Code) :=
  if off = 0 then some (dmaCompatWrite v s)
  else if 0x100 ≤ off ∧ off < 0x500 then
    let n := (off - 0x100) / 0x40
    match off % 0x40 with
    | 0x00 => some (dmaCtrl n v s, .ok)
    | 0x04 | 0x08 | 0x0C | 0x10 => some (dmaConfig n (off % 0x40) v s)
    | _ => none
  else none

end Sys2Proof.Machine
end

