-- ==== Sys2Proof/Machine/Chk.lean ====
section
/-! DEFINITION. The check-value units: algorithms, starts and stops, the verdict, registers (R460 to R467). The reads of a scan are
in Burst.lean. -/
namespace Sys2Proof.Machine
open Sys2Proof

/-- Unit u. -/
def State.chkU (s : State) (u : Nat) : ChkU := Tab.get (fun _ => {}) s.chk u
/-- Unit u changes. -/
def updChk (u : Nat) (f : ChkU → ChkU) (s : State) : State := { s with chk := Tab.set (fun _ => ({} : ChkU)) s.chk u (f (s.chkU u)) }
/-- The address of a unit's register. -/
def chkReg (u off : Nat) : Nat := Blk.chk.base + 0x100 + 0x40 * u + off
/-- ALG, CMP and SEED. -/
def chkAlg (s : State) (u : Nat) : Nat := s.fld (chkReg u 4) 0 2
def chkCmp (s : State) (u : Nat) : Bool := s.rbit (chkReg u 4) 4
def chkSeed (s : State) (u : Nat) : Bool := s.rbit (chkReg u 4) 5
/-- The range of the next scan. -/
def chkAddr (s : State) (u : Nat) : Nat := (s.reg (chkReg u 8)).toNat + 2 ^ 32 * s.fld (chkReg u 0xC) 0 4
def chkLen (s : State) (u : Nat) : Nat := (s.reg (chkReg u 0x10)).toNat

/-- One bit of a reflected CRC with polynomial p. -/
def crcRefl (p c : Nat) : Nat := if c % 2 = 1 then Nat.xor (c / 2) p else c / 2
/-- One bit of CRC-16-CCITT. -/
def crcCcitt (c : Nat) : Nat := if 32768 ≤ c then Nat.xor (2 * c % 65536) 0x1021 else 2 * c
/-- f applied n times. -/
def iter (f : Nat → Nat) : Nat → Nat → Nat
  | 0, x => x
  | n + 1, x => iter f n (f x)
/-- RUNNING after one byte, by algorithm (Table 18.11). -/
def chkByte (alg c : Nat) (b : Byte) : Nat :=
  match alg with
  | 0 => iter (crcRefl 0xEDB88320) 8 (Nat.xor c b.toNat)
  | 1 => iter (crcRefl 0x82F63B78) 8 (Nat.xor c b.toNat)
  | _ => iter crcCcitt 8 (Nat.xor (c % 65536) (b.toNat * 256))
/-- RUNNING after a list of bytes. -/
def chkBytes (alg c : Nat) (l : List Byte) : Nat := l.foldl (chkByte alg) c
/-- The initial value of an algorithm, and the result from RUNNING. -/
def chkInit (alg : Nat) : Nat := if alg = 2 then 0xFFFF else 0xFFFFFFFF
def chkResult (alg c : Nat) : Nat := if alg = 2 then c % 65536 else Nat.xor c 0xFFFFFFFF

/-! ### Starts and stops (R461, R462) -/

/-- The unit is IDLE, and DONE[u] is set. -/
def chkIdle (u r : Nat) (s : State) : State := evt .chk u (updChk u (fun x => { x with st := .idle, result := r, forced := false, second := false }) s)
/-- A write of EN = 1 (R461). -/
def chkStart (u : Nat) (s : State) : State :=
  let a := chkAddr s u
  let l := chkLen s u
  if (s.chkU u).st ≠ .idle then s
  else if chkAlg s u = 3 ∨ a % 4 ≠ 0 ∨ l % 4 ≠ 0 ∨ l = 0 ∨ 2 ^ 36 < a + l then updChk u (fun x => { x with result := 8 }) s
  else
    let run := if chkSeed s u then (if chkAlg s u = 2 then s.fld (chkReg u 0x14) 0 16 else (s.reg (chkReg u 0x14)).toNat) else chkInit (chkAlg s u)
    updChk u (fun x => { x with st := .scanning, rescanned := false, addr0 := a, len0 := l, run0 := run, pos := 0, forced := false, second := false }) s
/-- A write of EN = 0: a graceful stop (R462). -/
def chkStop (u : Nat) (s : State) : State :=
  match (s.chkU u).st with
  | .scanning => updChk u (fun x => { x with st := .stopping, second := false }) s
  | .rescanning => updChk u (fun x => { x with st := .stopping, second := true }) s
  | _ => s
/-- A write of CTRL: FORCE is evaluated before the write of EN. -/
def chkCtrl (u : Nat) (v : Word) (s : State) : State :=
  let s :=
    if bit v 1 then
      (if (s.chkU u).st = .stopping then (if bit v 0 then s else updChk u (fun x => { x with forced := true }) s) else evt .chk (4 + u) s)
    else s
  if bit v 0 then chkStart u s else chkStop u s
/-- The unit belongs to the lantern sweep (R464). -/
def chkSwept (s : State) (u : Nat) : Bool := s.pair.chkUnit == some u
/-- A write of a unit's register by a bus master: the sweep's unit answers ACCESS_ERR (R464). -/
def chkGuard (u : Nat) (m : Master) (k : State → State × Code) (s : State) : State × Code :=
  if chkSwept s u && m != .seq then (s, .accessErr) else k s
/-- The meaning of CHK_START. -/
def execChkStart (m : Master) (u : Fin 4) (s : State) : Res := .next (cmdC m false (chkGuard u.val m fun s => (chkCtrl u.val 1 s, .ok)) s)
/-- The meaning of CHK_SUSPEND. -/
def execChkSuspend (m : Master) (u : Fin 4) (s : State) : Res := .next (cmdC m false (chkGuard u.val m fun s => (chkCtrl u.val 0 s, .ok)) s)
/-- The meaning of CHK_FORCE: EN = 0 with FORCE = 1. -/
def execChkForce (m : Master) (u : Fin 4) (s : State) : Res := .next (cmdC m false (chkGuard u.val m fun s => (chkCtrl u.val 2 s, .ok)) s)
/-- A write of CFG, ADDR, LEN, RUNNING, EXP_V or EXP_C: only while the unit is IDLE (R462). RUNNING of CRC-16 keeps 16 bits. -/
def chkConfig (u off : Nat) (v : Word) (s : State) : State × Code :=
  if off = 4 ∨ off = 8 ∨ off = 0xC ∨ off = 0x10 ∨ off = 0x14 ∨ off = 0x20 ∨ off = 0x24 then
    if (s.chkU u).st ≠ .idle then (s, .accessErr)
    else
      let v := v &&& (match findRow rowsChk (0x100 + off) with | some r => wd r.wmask | none => 0)
      let v := if off = 0x14 ∧ chkAlg s u = 2 then v &&& 0xFFFF else v
      let s := if off = 0x20 ∨ off = 0x24 then updChk u (fun x => { x with parityBad := false }) s else s
      (s.setReg (chkReg u off) v, .ok)
  else (s, .ok)
/-- The meaning of CHK_CONFIG_WRITE. -/
def execChkConfigWrite (m : Master) (u : Fin 4) (off : Fin 64) (v : Word) (s : State) : Res :=
  .next (cmdC m false (chkGuard u.val m (chkConfig u.val off.val v)) s)

/-! ### The end of a scan (R461 to R463) -/

/-- The range not yet read, and RUNNING, are left in their registers. -/
def chkLeave (u a l run : Nat) (s : State) : State :=
  let s := (s.setReg (chkReg u 8) (wd a)).setReg (chkReg u 0xC) (wd (a / 2 ^ 32 % 16))
  (s.setReg (chkReg u 0x10) (wd l)).setReg (chkReg u 0x14) (wd run)
/-- A read of the scan failed: the scan ends with BUS_ERR (R462). -/
def chkBusErr (u a : Nat) (c : Code) (s : State) : State :=
  chkIdle u 5 (updChk u (fun x => { x with errAddr := a, errCode := c.num }) (raise .chk (4 * u + 2) s))
/-- EXP_V as compared, and whether EXP_V and EXP_C hold (R463). -/
def chkExp (s : State) (u : Nat) : Nat := if chkAlg s u = 2 then s.fld (chkReg u 0x20) 0 16 else (s.reg (chkReg u 0x20)).toNat
def chkRefOk (s : State) (u : Nat) : Bool :=
  !(s.chkU u).parityBad && s.reg (chkReg u 0x20) &&& (if chkAlg s u = 2 then 0xFFFF else 0xFFFFFFFF) == ~~~ s.reg (chkReg u 0x24) &&& (if chkAlg s u = 2 then 0xFFFF else 0xFFFFFFFF)
/-- The verdict at the end of a scan or a rescan whose RUNNING is run (R461, R463). -/
def chkVerdict (u run : Nat) (s : State) : State :=
  let x := s.chkU u
  let r := chkResult (chkAlg s u) run
  let s := chkLeave u (x.addr0 + x.len0) 0 run s
  let s := updChk u (fun x => { x with value := wd r }) s
  if x.st = .rescanning then
    if r = chkExp s u then chkIdle u 2 (updChk u (fun x => { x with rescanned := true }) (raise .chk (4 * u + 3) s))
    else chkIdle u 3 (raise .chk (4 * u) s)
  else if !chkCmp s u then chkIdle u 1 s
  else if !chkRefOk s u then chkIdle u 4 (raise .chk (4 * u + 1) s)
  else if r = chkExp s u then chkIdle u 2 s
  else updChk u (fun x => { x with first := wd r, st := .rescanning, pos := 0 }) s
/-- The result of a stopped scan (R462, R463). -/
def chkStopped (x : ChkU) : Nat := if x.forced then 7 else if x.second then 9 else 6

/-- The code of a state. -/
def ChkSt.code : ChkSt → Nat
  | .idle => 0 | .scanning => 1 | .rescanning => 2 | .stopping => 3
/-- How far a running scan has read is timing: a free multiple of 4 bytes, never less than what a read has shown before; ADDR and LEN show
the part not yet read (R461). -/
def chkAdvance (u : Nat) (s : State) : State :=
  let d := s.draw
  updChk u (fun x => { x with pos := x.pos + d.1.toNat % ((x.len0 - x.pos) / 4 + 1) * 4 }) d.2
/-- A read of ADDR_LO, ADDR_HI or LEN while a scan runs. -/
def chkProgress (u k : Nat) (s : State) : State × Word :=
  let s := chkAdvance u s
  let x := s.chkU u
  (s, match k with | 0x08 => wd (x.addr0 + x.pos) | 0x0C => wd ((x.addr0 + x.pos) / 2 ^ 32) | _ => wd (x.len0 - x.pos))
/-- A read of CHK's registers that hold live state. RUNNING of a scan that runs is free; of CRC-16 it reads 16 bits (R460). -/
def chkRegRead (off : Nat) (s : State) : Option (State × Word) :=
  if 0x100 ≤ off ∧ off < 0x200 then
    let u := (off - 0x100) / 0x40
    let x := s.chkU u
    match off % 0x40 with
    | 0x00 => some (s, wd (b2n (x.st == .scanning || x.st == .rescanning)))
    | 0x08 | 0x0C | 0x10 => if x.st = .idle then none else some (chkProgress u (off % 0x40) s)
    | 0x14 =>
      let m : Word := if chkAlg s u = 2 then 0xFFFF else 0xFFFFFFFF
      if x.st = .idle then some (s, s.reg (chkReg u 0x14) &&& m) else some (s.draw.2, s.draw.1 &&& m)
    | 0x18 => some (s, x.value)
    | 0x1C => some (s, x.first)
    | 0x28 => some (s, pack [(0, x.st.code), (4, x.result), (8, b2n x.rescanned), (9, b2n (chkSwept s u))])
    | 0x2C => some (s, wd x.errAddr)
    | 0x30 => some (s, pack [(0, x.errAddr / 2 ^ 32), (8, x.errCode)])
    | _ => none
  else none
/-- A write of CHK's registers that is not plain. -/
def chkRegWrite (m : Master) (off : Nat) (v : Word) (s : State) : Option (State × Code) :=
  if 0x100 ≤ off ∧ off < 0x200 then
    let u := (off - 0x100) / 0x40
    if off % 0x40 = 0 then some (chkGuard u m (fun s => (chkCtrl u v s, .ok)) s) else some (chkGuard u m (chkConfig u (off % 0x40) v) s)
  else none

end Sys2Proof.Machine
end

