-- ==== Sys2Proof/Machine/Crypto.lean ====
section
/-! DEFINITION. The two algorithms that R70 and R71 name: SHA-256, and signature verification by ECDSA over curve P-256. The spec names
them and does not restate them: they are taken from the standards that define the names, FIPS 180-4 and FIPS 186-4
(PRESUMED, notes/assumptions/6). -/
namespace Sys2Proof.Machine
open Sys2Proof

/-! ### SHA-256 -/

/-- The greatest r below 2^37 with r^k ≤ n. -/
def rootFloor (k n : Nat) : Nat := (upto 37).reverse.foldl (fun r i => if (r + 2 ^ i) ^ k ≤ n then r + 2 ^ i else r) 0
/-- The first 64 primes. -/
def primes64 : List Nat := (upto 312).filter fun p => decide (2 ≤ p) && (upto p).all fun d => decide (d < 2) || p % d != 0
/-- The round constants: 32 fraction bits of the cube roots of the first 64 primes. -/
def shaK : List Word := primes64.map fun p => wd (rootFloor 3 (p * 2 ^ 96))
/-- The initial hash value: 32 fraction bits of the square roots of the first eight primes. -/
def shaInit : List Word := (primes64.take 8).map fun p => wd (rootFloor 2 (p * 2 ^ 64))
/-- The message padded to whole blocks of 64 bytes. -/
def shaPad (m : List Byte) : List Byte := m ++ 0x80 :: List.replicate ((119 - m.length % 64) % 64) 0 ++ beBytes 8 (8 * m.length)
/-- The message schedule, the newest word first, after so many more words. -/
def shaSched : Nat → List Word → List Word
  | 0, l => l
  | n + 1, l =>
    let x := l.getD 1 0
    let y := l.getD 14 0
    let u := x.rotateRight 17 ^^^ x.rotateRight 19 ^^^ (x >>> 10)
    let v := y.rotateRight 7 ^^^ y.rotateRight 18 ^^^ (y >>> 3)
    shaSched n ((u + l.getD 6 0 + v + l.getD 15 0) :: l)
/-- One round on the eight working words, with the sum of its constant and its schedule word. -/
def shaRound (st : List Word) (kw : Word) : List Word :=
  let g (i : Nat) : Word := st.getD i 0
  let ch := (g 4 &&& g 5) ^^^ (~~~(g 4) &&& g 6)
  let t1 := g 7 + ((g 4).rotateRight 6 ^^^ (g 4).rotateRight 11 ^^^ (g 4).rotateRight 25) + ch + kw
  let maj := (g 0 &&& g 1) ^^^ (g 0 &&& g 2) ^^^ (g 1 &&& g 2)
  let t2 := ((g 0).rotateRight 2 ^^^ (g 0).rotateRight 13 ^^^ (g 0).rotateRight 22) + maj
  (t1 + t2) :: st.take 3 ++ (g 3 + t1) :: (st.drop 4).take 3
/-- The hash value after a block of 64 bytes. -/
def shaBlock (h : List Word) (b : List Byte) : List Word :=
  let w := (shaSched 48 ((upto 16).map fun i => wd (beNat ((b.drop (4 * i)).take 4))).reverse).reverse
  List.zipWith (· + ·) h ((List.zipWith (· + ·) shaK w).foldl shaRound h)
/-- The hash value after n blocks. -/
def shaBlocks : Nat → List Byte → List Word → List Word
  | 0, _, h => h
  | n + 1, m, h => shaBlocks n (m.drop 64) (shaBlock h (m.take 64))
/-- SHA-256 of a message, as the big-endian number of its 32 bytes. -/
def sha256 (m : List Byte) : Nat :=
  let p := shaPad m
  (shaBlocks (p.length / 64) p shaInit).foldl (fun a w => a * 2 ^ 32 + w.toNat) 0

/-! ### ECDSA over P-256 -/

/-- The field's prime. -/
def p256P : Nat := 2 ^ 256 - 2 ^ 224 + 2 ^ 192 + 2 ^ 96 - 1
/-- The order of the base point. -/
def p256N : Nat := 0xffffffff00000000ffffffffffffffffbce6faada7179e84f3b9cac2fc632551
/-- The curve's coefficient b; the coefficient a is -3. -/
def p256B : Nat := 0x5ac635d8aa3a93e7b3ebbd55769886bc651d06b0cc53b0f63bce3c3e27d2604b
/-- The base point. -/
def p256G : Option (Nat × Nat) :=
  some (0x6b17d1f2e12c4247f8bce6e563a440f277037d812deb33a0f4a13945d898c296,
        0x4fe342e2fe1a7f9b8ee7eb4a7c0f9e162bce33576b315ececbb6406837bf51f5)
/-- x^e mod m for an exponent e of so many bits: that of half the exponent squared, times x where e is odd. -/
def modPow (x m : Nat) : Nat → Nat → Nat
  | 0, _ => 1
  | n + 1, e =>
    let q := modPow x m n (e / 2)
    q * q * x ^ (e % 2) % m
/-- The inverse modulo a prime m below 2^256. -/
def modInv (x m : Nat) : Nat := modPow (x % m) m 256 (m - 2)
/-- The sum of two points of the curve; none is the point at infinity. -/
def ecAdd : Option (Nat × Nat) → Option (Nat × Nat) → Option (Nat × Nat)
  | none, q => q
  | p, none => p
  | some (x, y), some (u, v) =>
    let m := p256P
    if x = u ∧ (y + v) % m = 0 then none
    else
      let l := if x = u then (3 * x * x + (m - 3)) * modInv (2 * y) m % m else (v + m - y) * modInv (u + m - x) m % m
      let a := (l * l + 2 * m - x - u) % m
      some (a, (l * (x + m - a) + m - y) % m)
/-- The multiple of a point by a factor below 2^256. -/
def ecMul (k : Nat) (p : Option (Nat × Nat)) : Option (Nat × Nat) :=
  (upto 256).reverse.foldl (fun r i => let d := ecAdd r r; if nbit k i then ecAdd d p else d) none
/-- The coordinates are a point of the curve. -/
def onCurve (x y : Nat) : Bool :=
  decide (x < p256P) && decide (y < p256P) && y * y % p256P == (x * x * x + (p256P - 3) * x + p256B) % p256P
/-- ECDSA over P-256: the 64 key bytes, the hash as a number, and the 64 signature bytes, laid out as R70 gives them. -/
def ecdsaVerify (key : List Byte) (h : Nat) (sig : List Byte) : Bool :=
  let x := beNat (key.take 32)
  let y := beNat ((key.drop 32).take 32)
  let r := beNat (sig.take 32)
  let t := beNat ((sig.drop 32).take 32)
  let n := p256N
  onCurve x y && decide (0 < r ∧ r < n ∧ 0 < t ∧ t < n) &&
    let w := modInv t n
    match ecAdd (ecMul (h * w % n) p256G) (ecMul (r * w % n) (some (x, y))) with
    | none => false
    | some q => q.1 % n == r

end Sys2Proof.Machine
end

