-- ==== Sys2Proof/Machine/Memc.lean ====
section
/-! DEFINITION. DRAM and carafe: transactions with their error correction, the initialisation map, spare rows, scrubbing, the
registers of MEMC (R468 to R477, R487, R488). -/
namespace Sys2Proof.Machine
open Sys2Proof

/-- The MEMC part changes. -/
def updMemc (f : Memc → Memc) (s : State) : State := { s with memc := f s.memc }
/-- The first address of the carafe, of its system area past the log, and of DRAM (Tables 1.10, 19.1). -/
def carafeBase : Nat := 0x10000000
def carafeEnd : Nat := 0x11000000
def logBase : Nat := 0x10F00000
def logEnd : Nat := 0x10F10000
def dramBase : Nat := 0x100000000
/-- DRAM's data capacity in bytes: 7C/8, and 0 until MEM_READY (R30, R470). -/
def dramCap (s : State) : Nat := if s.img.memReady then 7 * s.img.dramGib * 2 ^ 30 / 8 else 0
/-- The 64-bit words an access of len bytes at a touches. -/
def wordsOf (a len : Nat) : List Nat := if len = 0 then [] else (upto ((a + len - 1) / 8 - a / 8 + 1)).map fun i => 8 * (a / 8 + i)
/-- A 64-bit word is uncorrectable or poisoned. -/
def wordUe (s : State) (w : Nat) : Bool := s.memUe.contains w || s.poisoned.contains w
/-- An address lies in DRAM. -/
def isDram (a : Nat) : Bool := decide (dramBase ≤ a)

/-! ### Carafe rows (R475, R476) -/

/-- The row of a carafe address, counted over all banks; 4,096 rows of 128 bytes make a bank. -/
def carafeRow (a : Nat) : Nat := (a - carafeBase) / 128
/-- A row is replaced by a spare of its bank; its uncorrectable words become poisoned. Without a spare it stays in service. -/
def replaceRow (r : Nat) (s : State) : State :=
  let b := r / 4096
  let used := Tab.get (fun _ => 0) s.memc.spares b
  if used < 4 then
    let ue := s.memUe.filter fun w => decide (carafeBase ≤ w ∧ w < carafeEnd) && carafeRow w == r
    let s := { s with memUe := s.memUe.filter (fun w => !ue.contains w), poisoned := ue ++ s.poisoned }
    let s := updMemc (fun m => { m with spares := Tab.set (fun _ => 0) m.spares b (used + 1), rowCe := Tab.set (fun _ => 0) m.rowCe r 0 }) s
    settle (raise .memc 4 s)
  else raise .memc 5 s
/-- A corrected error of a carafe word: counted, and the row replaced at CE_LIM in one window. -/
def carafeCe (w : Nat) (s : State) : State :=
  let r := carafeRow w
  let n := Tab.get (fun _ => 0) s.memc.rowCe r + 1
  let s := updMemc (fun m => { m with ceCar := m.ceCar + 1, rowCe := Tab.set (fun _ => 0) m.rowCe r n }) s
  if n = max 1 (s.fld (Blk.memc.base + 0x28) 0 4) then replaceRow r s else s
/-- The words of ce are found with a corrected error, those of ue with an uncorrectable one (R472, R476). -/
def findErrors (ce ue : List Nat) (s : State) : State :=
  let s := ce.foldl (fun s w => if isDram w then updMemc (fun m => { m with ceDram := m.ceDram + 1 }) s else carafeCe w s) s
  ue.foldl (fun s w =>
    if wordUe s w then s
    else
      let s := { s with memUe := w :: s.memUe }
      if isDram w then s else replaceRow (carafeRow w) s) s
/-- DRAM_UE or CARAFE_UE at a word. -/
def memUeRaise (w : Nat) (s : State) : State :=
  if isDram w then raise .memc 0 ((s.setReg (Blk.memc.base + 0x1C) (wd w)).setReg (Blk.memc.base + 0x20) (wd (w / 2 ^ 32)))
  else raise .memc 1 s

/-! ### Transactions (R471, R472, R477) -/

/-- The first access to a page of DRAM sets its bit in the initialisation map (R471). -/
def touchPages (a len : Nat) (s : State) : State :=
  if isDram a && !s.memc.initDone then
    updMemc (fun m => { m with pages := (wordsOf a len).foldl (fun t w => Tab.set (fun _ => false) t ((w - dramBase) / 4096) true) m.pages }) s
  else s
/-- A read of len bytes: an uncorrectable word reads 0, ends the access with ACCESS_ERR and raises its source (R472, R477). -/
def memRead (a len : Nat) (s : State) : State × List Byte × Code :=
  let s := touchPages a len s
  match (wordsOf a len).find? (wordUe s) with
  | none => (s, s.bytes a len, .ok)
  | some w => (memUeRaise w s, (upto len).map (fun i => if wordUe s ((a + i) / 8 * 8) then 0 else s.byte (a + i)), .accessErr)
/-- One 64-bit word of a write: a whole word ends an error; a narrower write of an uncorrectable word writes nothing. -/
def memWriteWord (a : Nat) (l : List Byte) (w : Nat) (s : State) : State :=
  let whole := decide (a ≤ w ∧ w + 8 ≤ a + l.length)
  if wordUe s w && !whole then memUeRaise w s
  else
    let lo := max a w
    let hi := min (a + l.length) (w + 8)
    let s := if whole then { s with memUe := s.memUe.erase w, poisoned := s.poisoned.erase w } else s
    s.setBytes lo ((l.drop (lo - a)).take (hi - lo))
/-- A write of bytes (R472, R477). -/
def memWrite (a : Nat) (l : List Byte) (s : State) : State × Code :=
  let s := touchPages a l.length s
  let bad := (wordsOf a l.length).any fun w => wordUe s w && !decide (a ≤ w ∧ w + 8 ≤ a + l.length)
  ((wordsOf a l.length).foldl (fun s w => memWriteWord a l w s) s, if bad then .accessErr else .ok)

/-- A read of carafe by a bus master: the area of STE and SEQ ends with ACCESS_ERR (Table 19.1). -/
def carafeRead (a len : Nat) (s : State) : State × List Byte × Code :=
  if carafeEnd < a + len then (s, List.replicate len 0, .decodeErr)
  else if logEnd < a + len then (s, List.replicate len 0, .accessErr)
  else memRead a len s
/-- The end of the GENERAL granules, which are all that bus masters write of the carafe (R254, Table 9.8). -/
def generalEnd (s : State) : Nat := carafeBase + 256 * min s.ste.general 61440
/-- A write of carafe by a bus master: past the GENERAL granules it ends with ACCESS_ERR (R254, R405, Table 19.1). -/
def carafeWrite (a : Nat) (l : List Byte) (s : State) : State × Code :=
  if carafeEnd < a + l.length then (s, .decodeErr)
  else if generalEnd s < a + l.length then (s, .accessErr)
  else memWrite a l s
/-- A read of DRAM by a bus master: past the data capacity is a reserved address (R30, R470). -/
def dramRead (a len : Nat) (s : State) : State × List Byte × Code :=
  if dramBase + dramCap s < a + len then (s, List.replicate len 0, .decodeErr) else memRead a len s
/-- A write of DRAM by a bus master. -/
def dramWrite (a : Nat) (l : List Byte) (s : State) : State × Code :=
  if dramBase + dramCap s < a + l.length then (s, .decodeErr) else memWrite a l s
/-- The 32-bit words of bytes, the first byte in bits [7:0]. -/
def wordsLe : Nat → List Byte → List Word
  | 0, _ => []
  | _, [] => []
  | n + 1, l => wd (leNat (l.take 4)) :: wordsLe n (l.drop 4)
/-- The errors of an access that lie in the words it touches. -/
def touched (a len : Nat) (l : List Nat) : List Nat := (wordsOf a len).filter l.contains
/-- The words that a write of len bytes at a reads: those it does not cover whole (R472, R477). -/
def touchedW (a len : Nat) (l : List Nat) : List Nat := (touched a len l).filter fun w => !decide (a ≤ w ∧ w + 8 ≤ a + len)
/-- Where the memory that bus masters read, or write, ends (Table 19.1, R254, R470). -/
def carafeLim (s : State) (w : Bool) : Nat := if w then generalEnd s else logEnd
def dramLim (s : State) (_ : Bool) : Nat := dramBase + dramCap s
/-- A transaction of a master with a memory, with the errors it finds. An access that goes past what it may reach reads no word: it has no
effect (R30). -/
def memAccess (t : BusTarget) (m : Master) (lo : Nat) (lim : State → Bool → Nat) (acc : MemAccess) (ce ue : List Nat)
    (rd : Nat → Nat → State → State × List Byte × Code) (wr : Nat → List Byte → State → State × Code) (s : State) : State :=
  match pathErr m t s with
  | some c => respond m c [] s
  | none =>
    match acc with
    | .read a len =>
      if a < lo then respond m .decodeErr [] s
      else
        let r := if lim s false < a + len then rd a len s else rd a len (findErrors (touched a len ce) (touched a len ue) s)
        respond m r.2.2 (wordsLe len r.2.1) r.1
    | .write a l =>
      if a < lo then respond m .decodeErr [] s
      else
        let r := if lim s true < a + l.length then wr a l s else wr a l (findErrors (touchedW a l.length ce) (touchedW a l.length ue) s)
        respond m r.2 [] r.1
/-- The meaning of DRAM_ACCESS. -/
def execDramAccess (m : Master) (acc : MemAccess) (ce ue : List Nat) (s : State) : Res :=
  .next (memAccess .dram m dramBase dramLim acc ce ue dramRead dramWrite s)
/-- The meaning of CARAFE_ACCESS. -/
def execCarafeAccess (m : Master) (acc : MemAccess) (ce ue : List Nat) (s : State) : Res :=
  .next (memAccess .carafe m carafeBase carafeLim acc ce ue carafeRead carafeWrite s)

/-! ### Initialisation, scrubbing, refresh (R471 to R474) -/

/-- MEM_INIT has ended: no page is initialised, so every data word reads zero (R471). -/
def memcInit (s : State) : State :=
  let s := { s with mem := s.mem.filter (fun e => decide (e.1 < dramBase)), memUe := s.memUe.filter (fun w => decide (w < dramBase)) }
  updMemc (fun m => { m with pages := [], initDone := false }) s
/-- DRAM_INIT_DONE: the background initialiser has covered every page. -/
def dramInitDone (s : State) : State :=
  if s.img.memReady && !s.memc.initDone then evt .memc 0 (updMemc (fun m => { m with pages := [], initDone := true }) s) else s
/-- The meaning of DRAM_INIT_DONE. -/
def execDramInitDone (s : State) : Res := .next (dramInitDone s)
/-- A scrubber's reads: corrected words are counted and rewritten; an uncorrectable word raises its source. -/
def scrub (ce ue : List Nat) (s : State) : State :=
  let new := ue.filter fun w => !wordUe s w
  new.foldl (fun s w => memUeRaise w s) (findErrors ce ue s)
/-- The meaning of DRAM_SCRUB: from INIT_DONE onwards. -/
def execDramScrub (ce ue : List Nat) (s : State) : Res :=
  let inD (w : Nat) : Bool := w % 8 == 0 && decide (dramBase ≤ w ∧ w < dramBase + dramCap s)
  .next (if s.memc.initDone then scrub (ce.filter inD) (ue.filter inD) s else s)
/-- The meaning of CARAFE_SCRUB. -/
def execCarafeScrub (ce ue : List Nat) (s : State) : Res :=
  let inC (w : Nat) : Bool := w % 8 == 0 && decide (carafeBase ≤ w ∧ w < carafeEnd)
  .next (scrub (ce.filter inC) (ue.filter inC) s)
/-- A window boundary closes the counts; ECC_HIGH where one exceeds its limit (R473). -/
def memcWindow (s : State) : State :=
  let d := min s.memc.ceDram 65535
  let c := min s.memc.ceCar 65535
  let s := s.setReg (Blk.memc.base + 0x14) (pack [(0, d), (16, c)])
  let high := decide (s.fld (Blk.memc.base + 0x18) 0 16 < s.memc.ceDram) || decide (s.fld (Blk.memc.base + 0x18) 16 16 < s.memc.ceCar)
  let s := updMemc (fun m => { m with ceDram := 0, ceCar := 0, rowCe := [], eccHigh := high }) s
  if high then raise .memc 3 s else s
/-- MR4_POLL: DRAM_HOT is detected when a die first reports above 85 °C (R399, R474). -/
def mr4Poll (hot : Bool) (s : State) : State :=
  let was := s.memc.hot
  let s := updMemc (fun m => { m with hot := hot }) s
  if hot && !was then raise .memc 6 s else s
/-- A detection of ROW_SPARED: the row is replaced (R476). One that SRAM_INIT's test finds comes so as well (R475). -/
def rowSpared (r : Nat) (s : State) : State := if Tab.get (fun _ => 0) s.memc.spares (r / 4096) < 4 then replaceRow r s else raise .memc 4 s
/-- The meaning of MR4_POLL. -/
def execMr4Poll (hot : Bool) (s : State) : Res := .next (mr4Poll hot s)
/-- The meaning of DQS_RETRAIN: no transaction waits longer than its bound, and nothing that software sees changes (R474). -/
def execDqsRetrain (s : State) : Res := .next s
/-- The meaning of DRAM_TIMEOUT: the transaction ends with TIMEOUT (R474). -/
def execDramTimeout (m : Master) (addr : Nat) (s : State) : Res :=
  .next (if dramBase ≤ addr then respond m .timeout [0] (raise .memc 2 s) else s)

/-! ### Registers (R487) -/

/-- A write of CFG, TIM0 to TIM3 or PHY0: only before MEM_READY. -/
def memcConfigWrite (off : Nat) (v : Word) (s : State) : State × Code :=
  if off = 8 ∨ (0x100 ≤ off ∧ off ≤ 0x110) then
    if s.img.memReady then (s, .accessErr)
    else (s.setReg (Blk.memc.base + off) (v &&& (match findRow rowsMemc off with | some r => wd r.wmask | none => 0)), .ok)
  else (s, .ok)
/-- The meaning of MEMC_CONFIG_WRITE. -/
def execMemcConfigWrite (m : Master) (off : Fin 65536) (v : Word) (s : State) : Res := .next (cmdC m false (memcConfigWrite off.val v) s)
/-- A read of MEMC's registers that hold live state. -/
def memcRegRead (off : Nat) (s : State) : Option Word :=
  if off = 4 then some (pack [(0, b2n s.img.memReady), (4, s.memc.trainErr), (8, b2n s.memc.initDone)])
  else if off = 0x24 then some (wd (s.memc.spares.map (·.2)).sum)
  else none
/-- A write of MEMC's registers that is not plain. -/
def memcRegWrite (off : Nat) (v : Word) (s : State) : Option (State × Code) :=
  if off = 8 ∨ (0x100 ≤ off ∧ off ≤ 0x110) then some (memcConfigWrite off v s) else none

end Sys2Proof.Machine
end

