-- ==== Sys2Proof/Machine/Lsp.lean ====
section
/-! DEFINITION. Sensing, calibration, coil resistance, thermal model, limiter and line supervision (R110, R111, R348 to R365). -/
namespace Sys2Proof.Machine
open Sys2Proof

/-- The LSP part changes. -/
def updLsp (f : Lsp → Lsp) (s : State) : State := { s with lsp := f s.lsp }
/-- Loudspeaker channel n. -/
def State.spk (s : State) (n : Nat) : LspCh := Tab.get (fun _ => {}) s.lsp.chs n
/-- Loudspeaker channel n changes. -/
def updSpk (n : Nat) (f : LspCh → LspCh) (s : State) : State :=
  updLsp (fun l => { l with chs := Tab.set (fun _ => ({} : LspCh)) l.chs n (f (Tab.get (fun _ => {}) l.chs n)) }) s
/-- Sense input i: ISNS 0 to 31, VSNS 32 to 63, RAIL 64 to 67. -/
def State.sns (s : State) (i : Nat) : Sense := Tab.get (fun _ => {}) s.lsp.sns i
/-- Sense input i changes. -/
def updSns (i : Nat) (f : Sense → Sense) (s : State) : State :=
  updLsp (fun l => { l with sns := Tab.set (fun _ => ({} : Sense)) l.sns i (f (Tab.get (fun _ => {}) l.sns i)) }) s
/-- Modulator channel n. -/
def State.mod (s : State) (n : Nat) : Mod := Tab.get (fun _ => {}) s.pwr.chs n
/-- Modulator channel n changes. -/
def updMod (n : Nat) (f : Mod → Mod) (s : State) : State :=
  { s with pwr := { s.pwr with chs := Tab.set (fun _ => ({} : Mod)) s.pwr.chs n (f (s.mod n)) } }
/-- The address of a loudspeaker channel's register. -/
def spkReg (n off : Nat) : Nat := Blk.lsp.base + 0x1000 + 0x80 * n + off
/-- CHn_CFG bit i: 0 EN, 1 LIM_EN, 2 SUP_EN, 3 EST_SRC, 4 MAT. -/
def spkCfg (s : State) (n i : Nat) : Bool := s.rbit (spkReg n 0) i
/-- The group of an input. -/
def snsGroup (i : Nat) : Nat := if i < 64 then i % 32 / 8 else i - 64
/-- L_g of SNS_CFG (R348). -/
def snsL (s : State) (g : Nat) : Nat := s.fld (Blk.lsp.base + 8) (4 * g) 4
/-- VFS in 10 mV and IFS in mA. -/
def spkVfs (s : State) (n : Nat) : Nat := s.fld (spkReg n 4) 0 16
def spkIfs (s : State) (n : Nat) : Nat := s.fld (spkReg n 4) 16 16

/-! ### Decimation and calibrated readings (R110, R349) -/

/-- One sampling edge: the three integrators, modulo 2^32, and the run of identical bits, whose end ends a loss (R350). -/
def senseBit (b : Bool) (x : Sense) : Sense :=
  let i1 := (x.i1 + (if b then 1 else 2 ^ 32 - 1)) % 2 ^ 32
  let i2 := (x.i2 + i1) % 2 ^ 32
  let same := b == x.bit
  { x with i1 := i1, i2 := i2, i3 := (x.i3 + i2) % 2 ^ 32, bit := b, run := if same then x.run + 1 else 1, lost := x.lost && same }
/-- The first k bits of a frame, the first one in bit 0. -/
def senseBits : Nat → Nat → Sense → Sense
  | 0, _, x => x
  | k + 1, v, x => senseBits k (v / 2) (senseBit (v % 2 == 1) x)
/-- The boundary that ends D bits: combs, droop compensation, reading (R349). -/
def senseFrame (d : Nat) (x : Sense) : Sense :=
  let c1 := (x.i3 + 2 ^ 32 - x.q3) % 2 ^ 32
  let c2 := (c1 + 2 ^ 32 - x.q1) % 2 ^ 32
  let u := sInt 32 ((c2 + 2 ^ 32 - x.q2) % 2 ^ 32)
  let v := (65536 + 2 * 8192) * x.u1 - 8192 * (u + x.u2)
  let r := satS 20 (rneDiv (v * 2 ^ 19) ((65536 * d ^ 3 : Nat) : Int))
  { x with q3 := x.i3, q1 := c1, q2 := c2, u2 := x.u1, u1 := u, r := if x.lost then 0 else r }
/-- The calibrated reading of R110. -/
def calibrated (off gain : Nat) (r : Int) : Int := satS 20 (rneDiv ((16 * r - sInt 24 off) * (gain : Int)) (2 ^ 26))
/-- The new trims from two sums and REF, where they are in range (R110). -/
def calTrims (s0 s1 ref : Int) : Option (Int × Nat) :=
  if s1 - s0 ≤ 0 then none
  else
    let gain := rneDiv (ref * 2 ^ 34) (s1 - s0)
    if gain < 2 ^ 21 ∨ 2 ^ 23 ≤ gain then none else some (rneDiv s0 256, gain.toNat)
/-- The sine table of R352 over a quarter: rne(2^15 × sin(2πi / 1,024)), i = 0 to 256. -/
def quarterSine : List Int :=
  [0, 201, 402, 603, 804, 1005, 1206, 1407, 1608, 1809, 2009, 2210, 2411, 2611, 2811, 3012, 3212, 3412, 3612, 3812, 4011, 4211, 4410, 4609, 4808, 5007, 5205, 5404, 5602, 5800, 5998, 6195] ++
  [6393, 6590, 6787, 6983, 7180, 7376, 7571, 7767, 7962, 8157, 8351, 8546, 8740, 8933, 9127, 9319, 9512, 9704, 9896, 10088, 10279, 10469, 10660, 10850, 11039, 11228, 11417, 11605, 11793, 11980, 12167, 12354] ++
  [12540, 12725, 12910, 13095, 13279, 13463, 13646, 13828, 14010, 14192, 14373, 14553, 14733, 14912, 15091, 15269, 15447, 15624, 15800, 15976, 16151, 16326, 16500, 16673, 16846, 17018, 17190, 17361, 17531, 17700, 17869, 18037] ++
  [18205, 18372, 18538, 18703, 18868, 19032, 19195, 19358, 19520, 19681, 19841, 20001, 20160, 20318, 20475, 20632, 20788, 20943, 21097, 21251, 21403, 21555, 21706, 21856, 22006, 22154, 22302, 22449, 22595, 22740, 22884, 23028] ++
  [23170, 23312, 23453, 23593, 23732, 23870, 24008, 24144, 24279, 24414, 24548, 24680, 24812, 24943, 25073, 25202, 25330, 25457, 25583, 25708, 25833, 25956, 26078, 26199, 26320, 26439, 26557, 26674, 26791, 26906, 27020, 27133] ++
  [27246, 27357, 27467, 27576, 27684, 27791, 27897, 28002, 28106, 28209, 28311, 28411, 28511, 28610, 28707, 28803, 28899, 28993, 29086, 29178, 29269, 29359, 29448, 29535, 29622, 29707, 29792, 29875, 29957, 30038, 30118, 30196] ++
  [30274, 30350, 30425, 30499, 30572, 30644, 30715, 30784, 30853, 30920, 30986, 31050, 31114, 31177, 31238, 31298, 31357, 31415, 31471, 31527, 31581, 31634, 31686, 31737, 31786, 31834, 31881, 31927, 31972, 32015, 32058, 32099] ++
  [32138, 32177, 32214, 32251, 32286, 32319, 32352, 32383, 32413, 32442, 32470, 32496, 32522, 32546, 32568, 32590, 32610, 32629, 32647, 32664, 32679, 32693, 32706, 32718, 32729, 32738, 32746, 32753, 32758, 32762, 32766, 32767] ++
  [32768]
/-- sn[i] of R352. -/
def sn (i : Nat) : Int :=
  let j := i % 512
  let v := if j ≤ 256 then quarterSine.getD j 0 else quarterSine.getD (512 - j) 0
  if i % 1024 < 512 then v else -v
/-- cs[i] of R352. -/
def cs (i : Nat) : Int := sn (i + 256)
/-- The table index of a pilot of f hertz in frame k (R352). -/
def pilotIdx (s : State) (f k : Nat) : Nat := k * (rneDiv ((f * 2 ^ 32 : Nat) : Int) (s.fs : Nat)).toNat % 2 ^ 32 / 2 ^ 22
/-- The pilot sums take a frame. -/
def Pilot.add (x : Pilot) (i : Nat) (mv mi : Int) : Pilot :=
  { vc := x.vc + mv * cs i, vs := x.vs + mv * sn i, ic := x.ic + mi * cs i, is := x.is + mi * sn i }

/-! ### Thermal model and limiter (R354 to R359) -/

/-- ta, in units of 2^-16 K. -/
def spkTa (s : State) (n : Nat) : Int := sInt 16 (s.fld (spkReg n 0x1C) 16 16) * 4096
/-- The temperature limit, the knee and the least gain in use: the survival values while ALARM acts (R357, R359). -/
def spkTl (s : State) (n : Nat) : Int := ((if s.sys.alarmEff then bits (s.spk n).useLim 16 16 else bits (s.spk n).useLim 0 16 : Nat) : Int) * 4096
def spkKnee (s : State) (n : Nat) : Int := ((bits (s.spk n).useKnee 0 16 : Nat) : Int) * 4096
def spkGmin (s : State) (n : Nat) : Int := if s.sys.alarmEff then ((bits (s.spk n).useKnee 16 16 : Nat) : Int) * 64 else 0
/-- LIMIT, KNEE and RCW as written act from here on: at each model step, at the application of LSP_SETUP, and where EN is set (R364). -/
def latchLim (n : Nat) (s : State) : State :=
  updSpk n (fun x => { x with useLim := s.reg (spkReg n 0x38), useKnee := s.reg (spkReg n 0x3C), useRcw := s.reg (spkReg n 0x30) }) s
/-- The target gain of R357. -/
def targetGain (s : State) (n : Nat) : Nat :=
  let x := s.spk n
  if spkCfg s n 0 && spkCfg s n 1 then
    let knee := spkKnee s n
    let tp := max x.tc (x.tm + floorDivI (x.p * ((bits x.useRcw 0 24 : Nat) : Int)) 256)
    let exc := tp - (spkTl s n - knee)
    if exc ≤ 0 then 4194304
    else if exc ≥ knee then (spkGmin s n).toNat
    else (max (floorDivI (4194304 * (knee - exc)) knee) (spkGmin s n)).toNat
  else 4194304
/-- The channel's target follows its state. -/
def renewGain (n : Nat) (s : State) : State := updSpk n (fun x => { x with gt := targetGain s n }) s
/-- ISNS or VSNS of the channel is lost (R350). -/
def spkLost (s : State) (n : Nat) : Bool := (s.sns n).lost || (s.sns (32 + n)).lost
/-- The power of the 64 frames before a step (R354). -/
def stepPower (s : State) (n : Nat) : Int :=
  max 0 (floorDivI ((s.spk n).sumP * ((spkVfs s n * spkIfs s n : Nat) : Int)) (2 ^ 38 * 6400))
/-- The two-body step (R355). -/
def bodyStep (s : State) (n : Nat) (x : LspCh) : LspCh :=
  let c (off w : Nat) : Int := (s.fld (spkReg n off) 0 w : Nat)
  let dc := x.tc - x.tm
  { x with tc := x.tc + floorDivI (x.p * c 0x20 28 - dc * c 0x24 24) (2 ^ 24)
           tm := x.tm + floorDivI (dc * c 0x28 24 - (x.tm - spkTa s n) * c 0x2C 24) (2 ^ 24) }
/-- SURVIVAL_EXCEEDED while ALARM acts, at each step at which the condition begins anew (R359). -/
def survival (n : Nat) (s : State) : State :=
  let x := s.spk n
  let hot := s.sys.alarmEff && decide (((bits x.useLim 16 16 : Nat) : Int) * 4096 ≤ x.tc)
  let s := if hot && !x.hot then raise .lsp 2 s else s
  updSpk n (fun x => { x with hot := hot }) s
/-- The level of SNS_CLK[g]: rising edges at SEL times j / (2^L × FS), low while L_g is 0 (R348). -/
def snsClk (s : State) (g : Nat) : Bool := snsL s g != 0 && decide (outPhase s (2 ^ snsL s g * s.fs) < fullTurn / 2)
/-- A channel's model step. -/
def spkStep (n : Nat) (s : State) : State :=
  if spkCfg s n 0 then
    let s := latchLim n s
    let s := updSpk n (fun x => bodyStep s n { x with p := if spkLost s n then x.p else stepPower s n, sumP := 0 }) s
    renewGain n (survival n s)
  else s
/-- MODEL_STEP: at every frame boundary whose frame number is a multiple of 64 (R354 to R357). -/
def modelStep (s : State) : State :=
  let k := s.frame
  if s.atFrame && k % 64 == 0 && s.lsp.stepped != some k then
    updLsp (fun l => { l with stepped := some k }) ((upto 32).foldl (fun s n => spkStep n s) s)
  else s
/-- The meaning of MODEL_STEP. -/
def execModelStep (s : State) : Res := .next (modelStep s)
/-- The boundary at which ALARM acts or ceases to act: new targets from the state of the last step (R359). -/
def lspAlarm (s : State) : State := (upto 32).foldl (fun s n => renewGain n s) s

/-! ### Coil resistance (R352, R353, R356) -/

/-- NE: frames of an estimation block. -/
def estFrames (s : State) : Nat := if s.sys.fs48 then 12800 else 25600
/-- The block's sums: sxy and syy. -/
def estSums (s : State) (n : Nat) : Int × Int :=
  let x := s.spk n
  if spkCfg s n 3 then (x.est.vc * x.est.ic + x.est.vs * x.est.is, x.est.ic * x.est.ic + x.est.is * x.est.is) else (x.sxy, x.syy)
/-- The block's current was large enough. -/
def estStrong (s : State) (n : Nat) (syy : Int) : Bool :=
  let im := s.fld (spkReg n 0x44) 0 16
  let ne := estFrames s
  if spkCfg s n 3 then decide ((((ne * im * 32768) ^ 2 : Nat) : Int) ≤ 4 * syy) else decide (((ne * (im * 4096) ^ 2 : Nat) : Int) ≤ syy)
/-- RES and tmeas of a block; open where R353 divides by 0. -/
def estValues (n : Nat) (sxy syy : Int) (s : State) : Int × Int × State :=
  let ifs : Int := (spkIfs s n : Nat)
  let rref : Int := (s.fld (spkReg n 0x18) 0 20 : Nat)
  let alpha : Int := if spkCfg s n 4 then 403 else 393
  let (res, s) := if ifs * syy = 0 then (let d := s.draw; (((bits d.1 0 24 : Nat) : Int), d.2)) else (rneDiv (10 ^ 4 * (spkVfs s n : Nat) * sxy) (ifs * syy), s)
  let (off, s) := if rref = 0 then (let d := s.draw; (sInt 32 d.1.toNat, d.2)) else (rneDiv (2 ^ 16 * 10 ^ 5 * (res - rref)) (rref * alpha), s)
  (res, sInt 16 (s.fld (spkReg n 0x1C) 0 16) * 4096 + off, s)
/-- ESTIMATION_BLOCK_END of a channel: a valid block gives RES and tmeas and corrects the model; an invalid one ages the estimate. -/
def estEnd (n : Nat) (s : State) : State :=
  let k := s.frame
  if s.atFrame && k % estFrames s == 0 && spkCfg s n 0 then
    let x := s.spk n
    let q := estSums s n
    if x.estOk && estStrong s n q.2 then
      let v := estValues n q.1 q.2 s
      let e := v.2.1 - x.tc
      let lc : Int := (s.fld (spkReg n 0x34) 0 16 : Nat)
      let lm : Int := (s.fld (spkReg n 0x34) 16 16 : Nat)
      renewGain n (updSpk n (fun x => { x with
        res := (v.1 % (2 ^ 24 : Int)).toNat, tmeas := v.2.1, estAge := 0, estValid := true, estOk := false
        tc := x.tc + floorDivI (e * lc) 65536, tm := x.tm + floorDivI (e * lm) 65536 }) v.2.2)
    else updSpk n (fun x => { x with estAge := satInc 255 x.estAge, estOk := false }) s
  else s
/-- The meaning of ESTIMATION_BLOCK_END. -/
def execEstimationBlockEnd (n : Fin 32) (s : State) : Res := .next (estEnd n.val s)

/-! ### Line supervision (R360, R361) -/

/-- The integer square root, by bits from 2^(k-1) down. -/
def isqrt : Nat → Nat → Nat → Nat
  | 0, _, r => r
  | k + 1, x, r => let t := r + 2 ^ k; isqrt k x (if t * t ≤ x then t else r)
/-- rne(sqrt(a / b)). -/
def rneSqrt (a b : Nat) : Nat :=
  let r := isqrt 100 (a / b) 0
  let lo := (2 * r + 1) * (2 * r + 1) * b
  if lo < 4 * a ∨ (lo = 4 * a ∧ r % 2 = 1) then r + 1 else r
/-- NS: frames of a supervision block. -/
def supFrames (s : State) : Nat := s.fs / 20
/-- ZMEAS in mΩ; none where it is unbounded (im2 = 0). Where R360 divides by an IFS of 0 it is a free value. -/
def lineZ (s : State) (n : Nat) : Option Nat × State :=
  let x := (s.spk n).sup
  let vm2 := (x.vc * x.vc + x.vs * x.vs).natAbs
  let im2 := (x.ic * x.ic + x.is * x.is).natAbs
  let i := spkIfs s n
  if im2 = 0 then (none, s)
  else if i = 0 then (some s.draw.1.toNat, s.draw.2)
  else (some (rneSqrt ((10 ^ 4 * spkVfs s n) ^ 2 * vm2) (i ^ 2 * im2)), s)
/-- The class of a block of ZMEAS z (Table 14.2). -/
def lineClass (s : State) (n : Nat) (z : Option Nat) : Nat :=
  let x := (s.spk n).sup
  let vm2 := (x.vc * x.vc + x.vs * x.vs).natAbs
  let nom := s.fld (spkReg n 0x48) 0 24
  let band := s.fld (spkReg n 0x48) 24 8
  if 4 * vm2 < (supFrames s * s.fld (spkReg n 0x44) 16 16 * 32768) ^ 2 then 6
  else
    match z with
    | none => 2
    | some z =>
      if 1000 * s.fld (spkReg n 0x4C) 16 16 < z then 2
      else if z < 10 * s.fld (spkReg n 0x4C) 0 16 then 3
      else if nom * (100 + band) < 100 * z then 4
      else if 100 * z < nom * (100 - band) then 5
      else 1
/-- The verdict becomes v; a change is reported. -/
def setLine (n v : Nat) (s : State) : State :=
  if (s.spk n).line = v then s
  else
    let s := updSpk n (fun x => { x with line := v }) s
    let s := match v with
      | 2 => raise .lsp 3 s
      | 3 => raise .lsp 4 s
      | 4 | 5 => raise .lsp 5 s
      | _ => s
    evt .lsp 3 s
/-- SUPERVISION_BLOCK_END of a channel: a block that counts is classified; two in a row decide (R360). -/
def supEnd (n : Nat) (s : State) : State :=
  let k := s.frame
  if s.atFrame && k % supFrames s == 0 && spkCfg s n 0 && spkCfg s n 2 && (s.spk n).supOk then
    let m := lineZ s n
    let c := lineClass s n m.1
    let x := s.spk n
    let z := match m.1 with | some z => min z (2 ^ 24 - 1) | none => 2 ^ 24 - 1
    let twice := x.lastCls == c
    let s := updSpk n (fun x => { x with zmeas := z, lastCls := c, supOk := false, pilotAbsent := if c = 6 then x.pilotAbsent || twice else false }) m.2
    if c ≠ 6 ∧ twice = true then setLine n c s else s
  else s
/-- The meaning of SUPERVISION_BLOCK_END. -/
def execSupervisionBlockEnd (n : Fin 32) (s : State) : Res := .next (supEnd n.val s)
/-- The first limited carrier period of a run: the frames from here on are summed (R361). -/
def lineRunStart (n : Nat) (s : State) : State := updSpk n (fun x => { x with runN := 1, runVI := 0, runII := 0 }) s
/-- An over-current shutdown classifies the line at once (R361); the blocks in progress do not count. -/
def lineShutdown (n : Nat) (s : State) : State :=
  let x := s.spk n
  let short := decide (5 ≤ x.runN) && decide (10 ^ 4 * (spkVfs s n : Nat) * x.runVI * 100 < ((10 * s.fld (spkReg n 0x4C) 0 16 * 10 ^ 3 * spkIfs s n : Nat) : Int) * x.runII)
  let s := updSpk n (fun x => { x with runN := 0, estOk := false, supOk := false }) s
  if spkCfg s n 0 && spkCfg s n 2 then setLine n (if short then 3 else 7) s else s
/-- A channel leaves RUNNING: its blocks no longer count (R353, R360). -/
def lspBlocksOff (n : Nat) (s : State) : State := updSpk n (fun x => { x with estOk := false, supOk := false }) s
/-- A channel starts: its filter states are 0 (R352). -/
def lspChStart (n : Nat) (s : State) : State := updSpk n (fun x => { x with la := 0, lb := 0, ha := 0, hb := 0 }) s

/-! ### Loss of an input (R350) and calibration (R351) -/

/-- A calibration sum ends with a result. -/
def calEnd (r : Nat) (s : State) : State := updLsp (fun l => { l with cal := { l.cal with busy := false, result := r } }) s
/-- The input a calibration reads. -/
def calInput (c : Cal) : Nat := 32 * c.kind + c.index
/-- An input of a clocked group is lost (R350). -/
def loseSense (i : Nat) (s : State) : State :=
  let s := updSns i (fun x => { x with lost := true, r := 0 }) (raise .lsp 1 s)
  let s := if i < 64 then lspBlocksOff (i % 32) s else s
  if s.lsp.cal.busy && calInput s.lsp.cal == i then calEnd 6 s else s
/-- SENSE_LOST: an input has given 4 × D identical bits. -/
def senseLost (i : Nat) (s : State) : State :=
  let l := snsL s (snsGroup i)
  if i < 68 ∧ l ≠ 0 ∧ (s.sns i).lost = false ∧ 4 * 2 ^ l ≤ (s.sns i).run then loseSense i s else s
/-- The meaning of SENSE_LOST. -/
def execSenseLost (input : Nat) (s : State) : Res := .next (senseLost input s)
/-- The meaning of SENSE_INPUT_RESTORED: the input toggles again. -/
def execSenseInputRestored (input : Nat) (s : State) : Res := .next (updSns input (fun x => { x with lost := false, bit := if x.lost then !x.bit else x.bit, run := if x.lost then 1 else x.run }) s)
/-- The sense channel of ISNS or VSNS is OFF with its enable clear. -/
def calOff (s : State) (kind idx : Nat) : Bool := kind == 2 || ((s.mod idx).st == .off && !(s.mod idx).en)
/-- A calibration result without a sum. -/
def calResult (r : Nat) (s : State) : State := updLsp (fun l => { l with cal := { l.cal with result := r } }) s
/-- A command for a different KIND or INDEX clears ZERO_DONE (R351). -/
def calOther (kind idx : Nat) (s : State) : State :=
  updLsp (fun l => { l with cal := { l.cal with zeroDone := l.cal.zeroDone && (l.cal.kind == kind && l.cal.index == idx) } }) s
/-- ZERO or REF for a sense channel (Table 14.1). A KIND or INDEX that names no sense channel has no effect. -/
def calStart (isRef : Bool) (kind idx : Nat) (s : State) : State :=
  if 3 ≤ kind ∨ (kind = 2 ∧ 4 ≤ idx) then s
  else
    let s := calOther kind idx s
    if s.lsp.cal.busy then calResult 2 s else
    let s := updLsp (fun l => { l with cal := { l.cal with kind := kind, index := idx } }) s
    if isRef && !s.lsp.cal.zeroDone then calResult 3 s
    else if !calOff s kind idx then calResult 4 s
    else
      let f := nextBoundary s.sys.tick / 64
      updLsp (fun l => { l with cal := { l.cal with busy := true, isRef := isRef, from_ := f, count := 0, s0 := if isRef then l.cal.s0 else 0, s1 := if isRef then 0 else l.cal.s1 } }) s
/-- CANCEL (Table 14.1). -/
def calCancelOp (kind idx : Nat) (s : State) : State :=
  if s.lsp.cal.busy then updLsp (fun l => { l with cal := { l.cal with zeroDone := false } }) (calEnd 5 s)
  else calResult 8 (calOther kind idx s)
/-- A write of CAL_CTRL. -/
def calWrite (v : Word) (s : State) : State :=
  let s := s.setReg (Blk.lsp.base + 0x20) (v &&& 0x1F30)
  match bits v 0 2 with
  | 1 => calStart false (bits v 4 2) (bits v 8 5) s
  | 2 => calStart true (bits v 4 2) (bits v 8 5) s
  | 3 => calCancelOp (bits v 4 2) (bits v 8 5) s
  | _ => s
/-- The meaning of CAL_ZERO. -/
def execCalZero (m : Master) (v : Word) (s : State) : Res := .next (cmd m true (calWrite (setBits v 0 2 1)) s)
/-- The meaning of CAL_REF. -/
def execCalRef (m : Master) (v : Word) (s : State) : Res := .next (cmd m true (calWrite (setBits v 0 2 2)) s)
/-- The meaning of CAL_CANCEL. -/
def execCalCancel (m : Master) (s : State) : Res := .next (cmd m true (fun s => calWrite (setBits (s.reg (Blk.lsp.base + 0x20)) 0 2 3) s) s)
/-- CAL_ZERO_DONE: the 4,096 readings are summed. -/
def calZeroDone (s : State) : State :=
  let c := s.lsp.cal
  if c.busy && !c.isRef && c.count == 4096 then
    evt .lsp 0 (updLsp (fun l => { l with cal := { l.cal with busy := false, zeroDone := true, result := 1 } }) s)
  else s
/-- The meaning of CAL_ZERO_DONE. -/
def execCalZeroDone (s : State) : Res := .next (calZeroDone s)
/-- The trims of a sense channel are written to its registers (R351). -/
def writeTrims (kind idx : Nat) (off : Int) (gain : Nat) (s : State) : State :=
  let a := match kind with
    | 0 => spkReg idx 0x08
    | 1 => spkReg idx 0x10
    | _ => Blk.pwr.base + 0x104 + 0x10 * idx
  (s.setReg a (wd (uInt 24 off))).setReg (a + 4) (wd gain)
/-- CAL_REF_DONE: the second sum is complete; the trims are computed and written, or CAL_RANGE is raised (R110, R351). -/
def calRefDone (s : State) : State :=
  let c := s.lsp.cal
  if c.busy && c.isRef && c.count == 4096 then
    let ref := sInt 20 (s.fld (Blk.lsp.base + 0x28 + 4 * c.kind) 0 20)
    let s := evt .lsp 1 (updLsp (fun l => { l with cal := { l.cal with busy := false } }) s)
    match calTrims c.s0 c.s1 ref with
    | some (off, gain) => calResult 1 (writeTrims c.kind c.index off gain s)
    | none => raise .lsp 0 (calResult 7 s)
  else s
/-- The meaning of CAL_REF_DONE. -/
def execCalRefDone (s : State) : Res := .next (calRefDone s)

/-! ### The frame (R111, R349, R352, R358) -/

/-- The rail filter at a boundary (R111). -/
def railFrame (g : Nat) (s : State) : State :=
  let x := Tab.get (fun _ => ({} : Rail)) s.rails g
  let vnom := sInt 20 (s.fld (Blk.pwr.base + 0x100 + 16 * g) 0 20)
  let put (y : Rail) (s : State) : State := { s with rails := Tab.set (fun _ => ({} : Rail)) s.rails g y }
  if snsL s g = 0 then put {} s
  else if !x.started then put ⟨true, 256 * vnom, 4194304⟩ s
  else
    let r := if (s.sns (64 + g)).lost then 0
      else calibrated (s.fld (Blk.pwr.base + 0x104 + 16 * g) 0 24) (s.fld (Blk.pwr.base + 0x108 + 16 * g) 0 23) (s.sns (64 + g)).r
    let f := x.f + floorDivI (256 * r - x.f) 64
    let k := if f ≤ 0 then 8388607 else (clampI 2097152 8388607 (rneDiv (vnom * 2 ^ 30) f)).toNat
    let s := if k = 8388607 ∧ x.k ≠ 8388607 then raise .pwr 4 s else s
    put ⟨true, f, k⟩ s
/-- The inputs' readings at a boundary. -/
def senseAll (inp : List (Nat × Nat)) (s : State) : State :=
  (upto 68).foldl (fun s i =>
    let l := snsL s (snsGroup i)
    if l = 0 then s
    else
      let v := ((inp.find? fun e => e.1 == i).map (·.2)).getD 0
      updSns i (fun x => senseFrame (2 ^ l) (senseBits (2 ^ l) v x)) s) s
/-- The gain moves toward its target (R358). -/
def moveGain (s : State) (n : Nat) (x : LspCh) : Nat :=
  let att := s.fld (spkReg n 0x40) 0 16
  let rel := s.fld (spkReg n 0x40) 16 16
  if !spkCfg s n 0 then 4194304 else if x.gt < x.lg then max x.gt (x.lg - att) else min x.gt (x.lg + rel)
/-- The programme-band sums of R352 take a frame. -/
def bandSums (s : State) (x : LspCh) : LspCh :=
  let lpc : Int := (s.fld (Blk.lsp.base + 0xC) 0 24 : Nat)
  let hpc : Int := (s.fld (Blk.lsp.base + 0x10) 0 24 : Nat)
  let la := x.la + floorDivI ((x.mv * 4096 - x.la) * lpc) (2 ^ 24)
  let lb := x.lb + floorDivI ((x.mi * 4096 - x.lb) * lpc) (2 ^ 24)
  let ha := x.ha + floorDivI ((la - x.ha) * hpc) (2 ^ 24)
  let hb := x.hb + floorDivI ((lb - x.hb) * hpc) (2 ^ 24)
  { x with la := la, lb := lb, ha := ha, hb := hb, sxy := x.sxy + (la - ha) * (lb - hb), syy := x.syy + (lb - hb) * (lb - hb) }
/-- A modulator is RUNNING in frame k: the start ramp that ends with the frame before counts (its completion follows at rank 6). -/
def runsIn (s : State) (n k : Nat) : Bool :=
  let x := s.mod n
  x.st == .running || (x.st == .starting && x.ramp.any fun r => r.target == 4194304 && decide (r.start + 64 ≤ k))
/-- A channel's calibrated readings of the frame, the power sum, and the sums of a limited run; LSP delivers them whatever CHn_CFG says
(R349, R354, R361). -/
def spkReadings (n : Nat) (s : State) : State :=
  let k := s.frame
  let mi := if (s.sns n).lost then 0 else calibrated (s.fld (spkReg n 0x08) 0 24) (s.fld (spkReg n 0x0C) 0 23) (s.sns n).r
  let mv := if (s.sns (32 + n)).lost then 0 else calibrated (s.fld (spkReg n 0x10) 0 24) (s.fld (spkReg n 0x14) 0 23) (s.sns (32 + n)).r
  updSpk n (fun x =>
    let x := { x with mi := mi, mv := mv, sumP := (if k % 64 = 0 then 0 else x.sumP) + mv * mi }
    if x.runN = 0 then x else { x with runN := x.runN + 1, runVI := x.runVI + mv * mi, runII := x.runII + mi * mi }) s
/-- A channel with EN, or whose gain is to return, in frame k: its sums and its gain. -/
def spkFrame (n : Nat) (s : State) : State :=
  let k := s.frame
  let on := s.sys.run && runsIn s n k && !spkLost s n
  let lim := decide ((s.spk n).lg < 4194304)
  let s := updSpk n (fun x =>
    let x := if k % estFrames s = 0 then { x with sxy := 0, syy := 0, est := {}, estOk := true } else x
    let x := { x with estOk := x.estOk && on }
    let x := if spkCfg s n 3 then { x with est := x.est.add (pilotIdx s 15 k) x.mv x.mi } else bandSums s x
    let x := if k % supFrames s = 0 then { x with sup := {}, supOk := true } else x
    let x := { x with supOk := x.supOk && on, sup := x.sup.add (pilotIdx s 20000 k) x.mv x.mi }
    { x with lg := moveGain s n x }) s
  if lim != decide ((s.spk n).lg < 4194304) then evt .lsp 2 s else s
/-- LSP at a frame boundary, before PWR forms its values: readings, rails, the channels with EN, the calibration sum. -/
def lspFrame (inp : List (Nat × Nat)) (s : State) : State :=
  let s := senseAll inp s
  let s := (upto 4).foldl (fun s g => railFrame g s) s
  let s := (upto 32).foldl (fun s n => if snsL s (n / 8) = 0 && !spkCfg s n 0 && (s.spk n).sumP = 0 && (s.spk n).runN = 0 then s else spkReadings n s) s
  let s := (upto 32).foldl (fun s n => if spkCfg s n 0 || (s.spk n).lg != 4194304 then spkFrame n s else s) s
  let c := s.lsp.cal
  if c.busy && decide (c.from_ ≤ s.frame) && decide (c.count < 4096) then
    let r := (s.sns (calInput c)).r
    updLsp (fun l => { l with cal := { c with count := c.count + 1, s0 := if c.isRef then c.s0 else c.s0 + r, s1 := if c.isRef then c.s1 + r else c.s1 } }) s
  else s
/-- A channel switches: a running sum of its ISNS or VSNS ends with DISTURBED (R351). -/
def calDisturb (n : Nat) (s : State) : State :=
  let c := s.lsp.cal
  if c.busy && decide (c.kind < 2) && c.index == n then calEnd 6 s else s
/-- Entry to the snuffed state: blocks do not count, a calibration sum ends with DISTURBED (Table 14.3). -/
def lspSnuff (s : State) : State :=
  let s := (upto 32).foldl (fun s n => if (s.spk n).estOk || (s.spk n).supOk then lspBlocksOff n s else s) s
  if s.lsp.cal.busy then calEnd 6 s else s
/-- STATE_UE of a channel (Table 14.3). -/
def lspStateUe (n : Nat) (s : State) : State :=
  let t := spkTl s n - spkKnee s n
  updSpk n (fun x => { x with tc := t, tm := t, la := 0, lb := 0, ha := 0, hb := 0, sxy := 0, syy := 0, est := {}, sup := {}, sumP := 0, runVI := 0, runII := 0, estOk := false, supOk := false }) (raise .lsp 6 s)

/-! ### LSP_SETUP and registers (R363, R364) -/

/-- A channel's gain returns to 2^22 at once; a LIMITING bit that falls posts LIMIT_CHG (R358). -/
def gainFull (n : Nat) (s : State) : State :=
  let s' := updSpk n (fun x => { x with gt := 4194304, lg := 4194304 }) s
  if (s.spk n).lg < 4194304 then evt .lsp 2 s' else s'
/-- The application of a group's LSP_SETUP: tc and tm at ta, lg at 2^22 (R355, R358). -/
def lspGroupReset (g : Nat) (s : State) : State :=
  (upto 8).foldl (fun s i =>
    let n := 8 * g + i
    let s := latchLim n (gainFull n s)
    updSpk n (fun x => { x with tc := spkTa s n, tm := spkTa s n, p := 0 }) s) s
/-- The offsets LSP_SETUP may write for group g. -/
def lspSetupOff (g off : Nat) : Bool :=
  off == 8 || off == 0xC || off == 0x10 || (off % 4 == 0 && decide (0x1000 + 0x400 * g ≤ off ∧ off < 0x1400 + 0x400 * g) && decide (off % 0x80 ≤ 0x4C))
/-- A CHn_CFG write: setting EN forgets the estimate (Table 14.6); clearing it returns the gain to 2^22; without LIM_EN the target is
2^22 (R357, R358). -/
def spkCfgWrite (n : Nat) (v : Word) (s : State) : State :=
  let was := spkCfg s n 0
  let s := s.setReg (spkReg n 0) (v &&& 0x1F)
  if bit v 0 then
    let s := if was then s else latchLim n (updSpk n (fun x => { x with estValid := false, estOk := false, supOk := false }) s)
    if bit v 1 then s else updSpk n (fun x => { x with gt := 4194304 }) s
  else lspBlocksOff n (gainFull n s)
/-- A SNS_CFG write: with L_g = 0 the group's inputs are ignored, K is 2^22 and no rail is low (R111, R348). -/
def snsCfgWrite (v : Word) (s : State) : State :=
  let s := s.setReg (Blk.lsp.base + 8) (v &&& 0xFFFF)
  let s : State := { s with rails := s.rails.map fun e => if snsL s e.1 = 0 then (e.1, {}) else e }
  updLsp (fun l => { l with sns := l.sns.map fun e => if snsL s (snsGroup e.1) = 0 then (e.1, { e.2 with lost := false, run := 0, r := 0 }) else e }) s
/-- One write of a register by a record or a host. -/
def lspPut (off : Nat) (v : Word) (s : State) : State :=
  if off = 8 then snsCfgWrite v s
  else if 0x1000 ≤ off ∧ off % 0x80 = 0 then spkCfgWrite ((off - 0x1000) / 0x80) v s
  else s.setReg (Blk.lsp.base + off) (v &&& (match findRow rowsLsp off with | some r => wd r.wmask | none => 0))
/-- IMG applies an LSP_SETUP record. -/
def applyLspSetup (g : Nat) (ps : List (Nat × Word)) (s : State) : State := lspGroupReset g (ps.foldl (fun s p => lspPut p.1 p.2 s) s)
/-- A LSP_SETUP record keeps R363: s holds the registers before it, and a channel is judged where the record writes its registers, its rate
where it writes SNS_CFG. -/
def lspSetupOk (s : State) (g : Nat) (ps : List (Nat × Word)) : Bool :=
  let t := ps.foldl (fun s p => lspPut p.1 p.2 s) s
  let l := snsL t g
  let lOk := decide (6 ≤ l) && decide (l ≤ if s.sys.fs48 then 9 else 8)
  let keep := t.reg (Blk.lsp.base + 8) &&& ~~~wd (15 * 2 ^ (4 * g)) == s.reg (Blk.lsp.base + 8) &&& ~~~wd (15 * 2 ^ (4 * g))
  let touched (n : Nat) : Bool := ps.any fun p => decide (0x1000 + 0x80 * n ≤ p.1 ∧ p.1 < 0x1080 + 0x80 * n)
  let chOk (n : Nat) : Bool :=
    !spkCfg t n 0 || !touched n || (spkVfs t n != 0 && spkIfs t n != 0 && t.fld (spkReg n 0x18) 0 20 != 0 && t.fld (spkReg n 0x3C) 0 16 != 0
      && decide (t.fld (spkReg n 0x38) 0 16 < t.fld (spkReg n 0x38) 16 16) && !(spkCfg t n 1 && t.fld (spkReg n 0x3C) 16 16 == 0))
  decide (ps.length ≤ 256) && ps.all (fun p => lspSetupOff g p.1) && keep && (upto 8).all (fun i => chOk (8 * g + i))
    && (lOk || (upto 8).all fun i => !spkCfg t (8 * g + i) 0 || !(touched (8 * g + i) || ps.any fun p => p.1 == 8))

/-- A read of LSP's registers that is not plain (Tables 14.5, 14.6). -/
def lspRegRead (off : Nat) (s : State) : Option Word :=
  let c := s.lsp.cal
  if off = 0x024 then some (pack [(0, c.result), (4, b2n c.busy), (5, b2n c.zeroDone)])
  else if off = 0x034 then some (wd (uInt 32 c.s0))
  else if off = 0x038 then some (wd (uInt 32 c.s1))
  else if off = 0x050 then some (wd ((upto 32).map fun n => b2n (decide ((s.spk n).lg < 4194304)) * 2 ^ n).sum)
  else if off = 0x054 then some (wd ((upto 32).map fun n => b2n (decide (2 ≤ (s.spk n).line)) * 2 ^ n).sum)
  else if 0x1000 ≤ off ∧ off < 0x2000 then
    let n := (off - 0x1000) / 0x80
    let x := s.spk n
    match off % 0x80 with
    | 0x60 => some (pack [(0, x.line), (3, b2n x.pilotAbsent), (4, b2n x.estValid), (5, b2n (spkLost s n)), (8, x.estAge)])
    | 0x64 => some (pack [(0, uInt 16 (floorDivI x.tc 4096)), (16, uInt 16 (floorDivI x.tm 4096))])
    | 0x68 => some (wd x.res)
    | 0x6C => some (wd (uInt 16 (floorDivI x.tmeas 4096)))
    | 0x70 => some (wd x.zmeas)
    | 0x74 => some (wd x.lg)
    | 0x78 => some (wd x.gt)
    | _ => none
  else none
/-- A write of LSP's registers that is not plain. -/
def lspRegWrite (off : Nat) (v : Word) (s : State) : Option State :=
  if off = 0x020 then some (calWrite v s)
  else if off = 8 ∨ (0x1000 ≤ off ∧ off < 0x2000 ∧ off % 0x80 = 0) then some (lspPut off v s)
  else none

end Sys2Proof.Machine
end

