-- ==== Sys2Proof/Machine/Pwr.lean ====
section
/-! DEFINITION. The power-stage modulators: signal path, noise shaper, edges, over-current, starts and stops, the DRIVE_EN
interlock, MOD_SETUP and the registers of PWR (R37, R328 to R347). -/
namespace Sys2Proof.Machine
open Sys2Proof

/-- The address of a channel's register. -/
def modReg (n off : Nat) : Nat := Blk.pwr.base + 0x1000 + 0x20 * n + off
/-- Full ramp gain: 2^22. -/
def rgFull : Nat := 4194304
/-- Ticks of a carrier period (R333). -/
def carrierTicks (s : State) : Nat := if s.sys.fs48 then 8 else 16
/-- U: updates of a frame (R330). -/
def updatesPerFrame (s : State) : Nat := if s.sys.fs48 then 16 else 8
/-- DT and MINP of CHn_TIME. -/
def modDt (s : State) (n : Nat) : Nat := s.fld (modReg n 4) 0 12
def modMinp (s : State) (n : Nat) : Nat := s.fld (modReg n 4) 16 12
/-- D of R331: 3 to 8; other values act as 5. -/
def fbDelay (s : State) (n : Nat) : Nat :=
  let d := s.fld (modReg n 0xC) 16 4
  if 3 ≤ d ∧ d ≤ 8 then d else 5
/-- The channel's path runs: every state but OFF, SHUTDOWN and LATCHED. -/
def modActive (st : ModSt) : Bool := st == .starting || st == .running || st == .stopping || st == .sleep
/-- The channel switches: STARTING, RUNNING or STOPPING. -/
def modSwitching (st : ModSt) : Bool := st == .starting || st == .running || st == .stopping
/-- A bit of a register of one bit per channel. -/
def setChBit (off n : Nat) (v : Bool) (s : State) : State := s.setFld (Blk.pwr.base + off) n 1 (b2n v)

/-! ### The DRIVE_EN interlock (R37, R342) -/

/-- A channel is enabled, or in its graceful stop. -/
def driveWanted (s : State) : Bool := s.pwr.chs.any fun e => e.2.en || e.2.st == .stopping
/-- Every condition of R37 and R342 holds, and the clock monitor does not hold the pin low (R410). -/
def driveReq (s : State) : Bool :=
  ((s.sys.run && s.sys.phase != .config) || s.sys.phase == .rampOut) && !s.sys.standby && !s.sys.snuffed && !s.sys.monitorDue && driveWanted s &&
    s.rbit Blk.pwr.base 0 && !s.faultBit .pwr 7 && s.img.accepted && s.pair.cold != .restoring
/-- A channel becomes OFF at once: gates 0, ramp gain 0. A stop that this completes posts CH_IDLE. -/
def modOff (n : Nat) (s : State) : State :=
  let was := (s.mod n).st
  let s := updMod n (fun x => { x with st := .off, rg := 0, ramp := none, forced := false, trunc := none, cut := none }) s
  let s := lspBlocksOff n s
  let s := if was = .sleep then evt .pwr 4 s else s
  if was = .stopping then evt .pwr 0 s else s
/-- DRIVE_EN falls: every channel that runs becomes OFF (R342). -/
def driveFall (s : State) : State :=
  let s := { s with pwr := { s.pwr with driveEn := false } }
  (upto 32).foldl (fun s n => if modActive (s.mod n).st then modOff n s else s) s
/-- DRIVE_EN falls in the tick in which a condition fails. -/
def driveCheck (s : State) : State := if s.pwr.driveEn && !driveReq s then driveFall s else s
/-- DRIVE_EN_RISE: at the first frame boundary at which every condition holds; after a RUN set, not before its b (R37, R47). -/
def driveRise (s : State) : State :=
  let b := match s.sys.phase, s.sys.rampEnd with
    | .rampIn, some e => decide (e ≤ s.sys.tick + 4096)
    | _, _ => true
  if s.atFrame && driveReq s && b && !s.pwr.driveEn then { s with pwr := { s.pwr with driveEn := true } } else s
/-- The meaning of DRIVE_EN_RISE. -/
def execDriveEnRise (s : State) : Res := .next (driveRise s)
/-- A write of CTRL.DRV_ALLOW. -/
def drvAllow (v : Word) (s : State) : State := driveCheck (s.setReg Blk.pwr.base (v &&& 1))
/-- The meaning of DRV_ALLOW_WRITE. -/
def execDrvAllowWrite (m : Master) (v : Word) (s : State) : Res := .next (cmd m true (drvAllow v) s)

/-! ### Starting, stopping, ramps (R339, R340) -/

/-- A ramp toward a target from frame f on. -/
def modRamp (n f target : Nat) (s : State) : State := updMod n (fun x => { x with ramp := some ⟨f, x.rg, target⟩ }) s
/-- A channel starts at frame k: histories, shaper and correction 0, ramp from 0 (R339). -/
def modStart (n k : Nat) (s : State) : State :=
  let s := updMod n (fun x =>
    { x with st := .starting, rg := 0, ramp := some ⟨k, 0, rgFull⟩, w := [], wp := [], e1 := 0, e2 := 0, e3 := 0, e4 := 0, c := 0, upd := [] }) s
  calDisturb n (lspChStart n s)
/-- CH_START of a channel. A STOPPING one is enabled again at once, and its stop reverses at the next frame boundary. -/
def chStart1 (n : Nat) (s : State) : State :=
  match (s.mod n).st with
  | .starting | .running | .sleep => s
  | .stopping => modRamp n (nextBoundary s.sys.tick / 64) rgFull (updMod n (fun x => { x with en := true, forced := false }) s)
  | _ => updMod n (fun x => { x with en := true }) s
/-- CH_STOP of a channel. One whose stop was to reverse keeps stopping. -/
def chStop1 (n : Nat) (s : State) : State :=
  let st := (s.mod n).st
  let back := (s.mod n).en
  let s := updMod n (fun x => { x with en := false }) s
  match st with
  | .starting | .running | .sleep =>
    let s := if st = .sleep then evt .pwr 4 s else s
    modRamp n (nextBoundary s.sys.tick / 64) 0 (lspBlocksOff n (updMod n (fun x => { x with st := .stopping }) s))
  | .stopping => if back then modRamp n (nextBoundary s.sys.tick / 64) 0 s else s
  | .shutdown | .latched => driveCheck (evt .pwr 0 (updMod n (fun x => { x with st := .off }) s))
  | _ => driveCheck s
/-- CH_FORCE of a channel: an abort of its stop, or moot. -/
def chForce1 (n : Nat) (s : State) : State :=
  if (s.mod n).st = .stopping then updMod n (fun x => { x with forced := true }) s else evt .pwr 3 s
/-- A command with one bit per channel. -/
def eachCh (v : Word) (f : Nat → State → State) (s : State) : State := (upto 32).foldl (fun s n => if bit v n then f n s else s) s
/-- The meaning of CH_START. -/
def execChStart (m : Master) (bits : Word) (s : State) : Res := .next (cmd m false (eachCh bits chStart1) s)
/-- The meaning of CH_STOP. -/
def execChStop (m : Master) (bits : Word) (s : State) : Res := .next (cmd m false (eachCh bits chStop1) s)
/-- The meaning of CH_FORCE. -/
def execChForce (m : Master) (bits : Word) (s : State) : Res := .next (cmd m false (eachCh bits chForce1) s)
/-- CH_START_RAMP_END: the start ramp of 64 frames has run (R339). -/
def chStartRampEnd (n : Nat) (s : State) : State :=
  match (s.mod n).ramp with
  | some r =>
    if (s.mod n).st = .starting ∧ r.target = rgFull ∧ r.start + 64 ≤ s.frame then
      evt .pwr 1 (updMod n (fun x => { x with st := .running, ramp := none, rg := rgFull, runSince := s.sys.tick }) s)
    else s
  | none => s
/-- The meaning of CH_START_RAMP_END. -/
def execChStartRampEnd (n : Fin 32) (s : State) : Res := .next (chStartRampEnd n.val s)
/-- CH_STOP_RAMP_END: the stop ramp has run; gates 0, OFF, CH_IDLE (R340). -/
def chStopRampEnd (n : Nat) (s : State) : State :=
  match (s.mod n).ramp with
  | some r => if (s.mod n).st = .stopping ∧ r.target = 0 ∧ r.start + 64 ≤ s.frame then driveCheck (modOff n s) else s
  | none => s
/-- The meaning of CH_STOP_RAMP_END. -/
def execChStopRampEnd (n : Fin 32) (s : State) : Res := .next (chStopRampEnd n.val s)
/-- A RUN set or clear: the channels that run ramp from b on, up or down (R46 to R48). -/
def pwrRunRamp (up : Bool) (s : State) : State :=
  let f := nextBoundary s.sys.tick / 64
  (upto 32).foldl (fun s n =>
    let st := (s.mod n).st
    if st == .starting || st == .running || st == .sleep || (st == .stopping && (s.mod n).en) then
      let s := modRamp n f (if up then rgFull else 0) s
      if up && st != .sleep then updMod n (fun x => { x with st := .starting }) s else s
    else s) s
/-- The carrier period starts at which a forced stop ends (R340). -/
def pwrTick (s : State) : State :=
  if s.sys.tick % carrierTicks s = 0 then
    driveCheck ((upto 32).foldl (fun s n => if (s.mod n).forced then modOff n s else s) s)
  else s
/-- An uncorrectable error of a channel's state: it stops at once and starts again at the next boundary (Table 13.4). -/
def pwrStateUe (n : Nat) (s : State) : State :=
  if modActive (s.mod n).st then driveCheck (modOff n s) else s

/-! ### Over-current (R335 to R338) -/

/-- The limited periods among the last 256 (CHn_LIM.LIMITED). -/
def limitedCount (s : State) (n : Nat) : Nat :=
  ((s.mod n).lims.filter fun j => decide (s.sys.tick / carrierTicks s < j + 256)).length
/-- The positions of a leg's edges in a carrier period. -/
structure Leg where
  rise : Int
  fall : Int
deriving DecidableEq, Repr
/-- Table 13.2: legs A and B for the values of the two updates; ad is mode AD. -/
def legEdges (ad : Bool) (na nb : Int) : Leg × Leg :=
  let a : Leg := ⟨16384 - na, 49152 + nb⟩
  (a, if ad then ⟨a.fall, a.rise⟩ else ⟨16384 + na, 49152 - nb⟩)
/-- The legs of a channel in carrier period j of the frame. -/
def chLegs (s : State) (n j : Nat) : Leg × Leg :=
  let x := s.mod n
  legEdges (s.rbit (modReg n 0) 0) (x.upd.getD (2 * j) 0) (x.upd.getD (2 * j + 1) 0)
/-- OC_FILT and OC_BLANK of CHn_OC. -/
def ocFilt (s : State) (n : Nat) : Nat := s.fld (modReg n 8) 0 4
def ocBlank (s : State) (n : Nat) : Nat := s.fld (modReg n 8) 8 8
/-- Counter period q of a carrier period lies in the blanking after a rising edge of PWM_HA or PWM_HB; a counter period is 16 positions. -/
def ocBlanked (dt blank : Nat) (l : Leg × Leg) (q : Nat) : Bool :=
  let after (rise : Int) : Bool := decide (rise + dt ≤ 16 * (q : Int) + 15 ∧ 16 * (q : Int) < rise + dt + 16 * (blank : Int))
  after l.1.rise || after l.2.rise
/-- The first counter period at which an input active from period q on, for `len` periods, counts as asserted: FILT + 1 unblanked
periods in a row, of which `run` have passed (R335). -/
def ocAsserts (blanked : Nat → Bool) (filt : Nat) : Nat → Nat → Nat → Option Nat
  | 0, _, _ => none
  | len + 1, q, run =>
    if blanked q then ocAsserts blanked filt len (q + 1) 0
    else if filt ≤ run then some q
    else ocAsserts blanked filt len (q + 1) (run + 1)
/-- OC_IN_ASSERT: OC_IN of a channel has a level for `len` counter periods from the one numbered q of this carrier period on. Where
that counts as asserted, the period is truncated at once; ignored while the channel does not switch (R335). The gates respond up to
three counter periods later, which is a free value. -/
def ocInAssert (n : Nat) (level : Bool) (q len : Nat) (s : State) : State :=
  let j := s.sys.tick / carrierTicks s
  let per := s.sys.tick % 64 / carrierTicks s
  if s.pwr.driveEn && modSwitching (s.mod n).st && level != s.rbit (modReg n 0) 2 then
    match ocAsserts (ocBlanked (modDt s n) (ocBlank s n) (chLegs s n per)) (ocFilt s n) (min len 4096) q 0 with
    | some q =>
      let d := s.draw
      let pos := 16 * (q + 1 + bits d.1 0 2)
      updMod n (fun x => { x with
        trunc := if x.trunc.isNone then some s.sys.tick else x.trunc
        cut := match x.cut with
          | some (i, p) => if i = j then some (i, min p pos) else some (j, pos)
          | none => some (j, pos) }) d.2
    | none => s
  else s
/-- The meaning of OC_IN_ASSERT. -/
def execOcInAssert (n : OcIn) (s : State) : Res := .next (ocInAssert n.ch.val n.level n.from_ n.len s)
/-- OC_LIMIT: in the tick after a truncation its period counts as limited, once (R335). One tick raises the source once. -/
def ocLimit (n : Nat) (s : State) : State :=
  match (s.mod n).trunc with
  | some t =>
    if t < s.sys.tick then
      let j := t / carrierTicks s
      let x := s.mod n
      let first := x.lims.isEmpty
      let s := updMod n (fun x => { x with trunc := none }) s
      if x.lims.head? = some j then s
      else
        let s := updMod n (fun x => { x with lims := j :: x.lims.filter (fun i => decide (j < i + 256)) }) s
        let s := if first then lineRunStart n s else s
        if s.sys.detected.contains (Blk.pwr.base, 0) then s else raise .pwr 0 s
    else s
  | none => s
/-- The meaning of OC_LIMIT. -/
def execOcLimit (n : Fin 32) (s : State) : Res := .next (ocLimit n.val s)
/-- The wait before the retry after r retries, in ticks: 500 ms × 2^r, at most 8 s, at most 2 s while ALARM is 1 (R337, R338). -/
def retryWait (s : State) (r : Nat) : Nat :=
  let ms := min 8000 (500 * 2 ^ min r 8)
  s.msTicks (if s.sys.alarm then min ms 2000 else ms)
/-- A truncation that this tick samples, of a period not yet counted (R336). -/
def limitDue (s : State) (n : Nat) : Bool :=
  match (s.mod n).trunc with
  | some t => decide (t < s.sys.tick) && (s.mod n).lims.head? != some (t / carrierTicks s)
  | none => false
/-- The channel latches: LATCHED, OC_LATCH and the fault (R337). -/
def ocLatch (n : Nat) (s : State) : State := raise .pwr 2 (setChBit 0x1C n true (updMod n (fun x => { x with st := .latched }) s))
/-- The shutdown of a channel: SHUTDOWN with a wait, or LATCHED after retry 8 (R336 to R338). A stop of a channel in SHUTDOWN ends at
once (R340), so a channel that is stopping is then OFF with CH_IDLE (DEDUCED, notes/assumptions/12). -/
def shutDown (n : Nat) (s : State) : State :=
  let x := s.mod n
  let due := limitDue s n
  let s := setChBit 0x18 n true (raise .pwr 1 s)
  let s := updMod n (fun x =>
    { x with rg := 0, ramp := none, w := [], wp := [], e1 := 0, e2 := 0, e3 := 0, e4 := 0, c := 0, upd := [], lims := [], trunc := none, cut := none
             forced := false, shutdowns := (x.shutdowns + 1) % 65536 }) s
  let s := lineShutdown n (lspBlocksOff n s)
  let s := if due && !s.sys.detected.contains (Blk.pwr.base, 0) then raise .pwr 0 s else s
  if x.st = .stopping ∧ x.en = false then driveCheck (evt .pwr 0 (updMod n (fun x => { x with st := .off }) s))
  else if 8 ≤ x.retries ∧ s.sys.alarm = false then ocLatch n s
  else updMod n (fun x => { x with st := .shutdown, waitEnd := s.sys.tick + retryWait s x.retries }) s
/-- OC_SHUTDOWN: 64 of the last 256 periods are limited, with the truncation that this tick samples (R336). -/
def ocShutdown (n : Nat) (s : State) : State :=
  if modSwitching (s.mod n).st && decide (64 ≤ limitedCount s n + b2n (limitDue s n)) then shutDown n s else s
/-- A detection of OC_SHUTDOWN or OC_LATCHED as the source reports it, with its local action (Table 13.7). -/
def ocDetect (i n : Nat) (s : State) : State :=
  if i = 1 then (if modSwitching (s.mod n).st then shutDown n s else raise .pwr 1 s)
  else if s.sys.alarm || !(modSwitching (s.mod n).st || (s.mod n).st == .shutdown) then raise .pwr 2 s
  else ocLatch n (updMod n (fun x => { x with rg := 0, ramp := none, lims := [], trunc := none, cut := none }) s)
/-- The meaning of OC_SHUTDOWN. -/
def execOcShutdown (n : Fin 32) (s : State) : Res := .next (ocShutdown n.val s)
/-- OC_RETRY: at the first frame boundary at or after the end of the wait at which DRIVE_EN is high (R337, Table 13.4). -/
def ocRetry (n : Nat) (s : State) : State :=
  let x := s.mod n
  if x.st = .shutdown ∧ s.atFrame = true ∧ x.waitEnd ≤ s.sys.tick ∧ s.pwr.driveEn = true then
    evt .pwr 2 (updMod n (fun x => { x with retries := satInc 255 x.retries }) (modStart n s.frame s))
  else s
/-- The meaning of OC_RETRY. -/
def execOcRetry (n : Fin 32) (s : State) : Res := .next (ocRetry n.val s)
/-- RETRIES_RESET: the channel has run for 10 s without a shutdown (R337). -/
def retriesReset (n : Nat) (s : State) : State :=
  let x := s.mod n
  if (x.st = .running ∨ x.st = .sleep) ∧ x.runSince + s.msTicks 10000 ≤ s.sys.tick then updMod n (fun x => { x with retries := 0 }) s else s
/-- The meaning of RETRIES_RESET. -/
def execRetriesReset (n : Fin 32) (s : State) : Res := .next (retriesReset n.val s)
/-- A 1 written to a set bit of OC_LATCH releases the channel: RETRIES 0, and a latched one starts at the next boundary (R337). -/
def ocRelease1 (n : Nat) (s : State) : State :=
  if s.rbit (Blk.pwr.base + 0x1C) n then
    setChBit 0x1C n false (updMod n (fun x => { x with retries := 0, st := if x.st = .latched then .off else x.st }) s)
  else s
/-- The meaning of OC_LATCH_RELEASE. -/
def execOcLatchRelease (m : Master) (bits : Word) (s : State) : Res := .next (cmd m false (eachCh bits ocRelease1) s)
/-- The boundary b of an ALARM set: waits of more than 2 s end at b + 2 s, latched channels retry then (R49, R338). -/
def pwrAlarm (s : State) : State :=
  let e := s.sys.tick + s.msTicks 2000
  (upto 32).foldl (fun s n =>
    match (s.mod n).st with
    | .shutdown => if e < (s.mod n).waitEnd then updMod n (fun x => { x with waitEnd := e }) s else s
    | .latched => setChBit 0x1C n false (updMod n (fun x => { x with st := .shutdown, waitEnd := e }) s)
    | _ => s) s

/-! ### The signal path (R329 to R332) -/

/-- The modulator value before the correction: limiter and ramp gain, rail compensation (R110, R329). -/
def modValue (lg rg k : Nat) (x : Int) : Int :=
  let gl : Nat := lg * rg / 2 ^ 22
  let a := rneDiv (x * (gl : Int)) (2 ^ 22)
  satS 20 (rneDiv (a * (k : Int)) (2 ^ 22))
/-- The feedback correction, and whether it was limited (R331). -/
def feedback (c wpD mv : Int) (vgain kfb : Nat) : Int × Bool :=
  let err := wpD - rneDiv (mv * (vgain : Int)) (2 ^ 22)
  let c := c + floorDivI (err * (kfb : Int)) (2 ^ 16)
  if 2 ^ 15 < c.natAbs then (clampI (-(2 ^ 15)) (2 ^ 15) c, true) else (c, false)
/-- Update i of a frame from the values of the six frames before it, newest first (R330). -/
def interpUpdate (coef : Nat → Int) (u i : Nat) (w : List Int) : Int :=
  let acc := ((upto 6).map fun m => coef (u * m + i) * w.getD m 0).sum
  clampI (-(2 ^ 27)) (2 ^ 27 - 1) (rneDiv acc (2 ^ 10))
/-- The shaper's error states. -/
structure Shaper where
  e1 : Int
  e2 : Int
  e3 : Int
  e4 : Int
deriving DecidableEq, Repr
/-- One update of the noise shaper: n, whether it was clamped, the new errors (R332). -/
def shape (minp : Nat) (z : Int) (x : Shaper) : Int × Bool × Shaper :=
  let v := z - (4 * x.e1 - 6 * x.e2 + 4 * x.e3 - x.e4)
  let n := floorDivI (v + 2 ^ 12) (2 ^ 13)
  let nmax : Int := 16384 - (minp : Int)
  if nmax < (n.natAbs : Int) then (clampI (-nmax) nmax n, true, ⟨0, x.e1, x.e2, x.e3⟩)
  else (n, false, ⟨n * 2 ^ 13 - v, x.e1, x.e2, x.e3⟩)
/-- The updates of a frame: the outputs, the clamps, the errors. -/
def shapeAll (minp : Nat) : List Int → Shaper → List Int × Nat × Shaper
  | [], x => ([], 0, x)
  | z :: t, x =>
    let r := shape minp z x
    let q := shapeAll minp t r.2.2
    (r.1 :: q.1, q.2.1 + b2n r.2.1, q.2.2)
/-- COEF[i]. -/
def modCoef (s : State) (i : Nat) : Int := s20 (s.reg (Blk.pwr.base + 0x200 + 4 * i)).toNat
/-- A channel's path in the frame. -/
def modFrame (n : Nat) (s : State) : State :=
  let x := s.mod n
  let k := (Tab.get (fun _ => ({} : Rail)) s.rails (n / 8)).k
  let fb := s.rbit (modReg n 0) 1
  let (c, lim) := if fb then feedback x.c (x.wp.getD (fbDelay s n - 1) 0) (s.spk n).mv (s.fld (modReg n 0x10) 0 23) (s.fld (modReg n 0xC) 0 16) else (x.c, false)
  let wp := modValue (s.spk n).lg x.rg k (consumerValue s 2 n)
  let w := if fb then satS 20 (wp + c) else wp
  let u := updatesPerFrame s
  let zs := (upto u).map fun i => interpUpdate (modCoef s) u i x.w
  let r := shapeAll (modMinp s n) zs ⟨x.e1, x.e2, x.e3, x.e4⟩
  let e := r.2.2
  let s := updMod n (fun x => { x with
    w := (w :: x.w).take 6, wp := (wp :: x.wp).take 8, c := c, upd := r.1, nsat := (x.nsat + r.2.1) % 2 ^ 32
    e1 := e.e1, e2 := e.e2, e3 := e.e3, e4 := e.e4 }) s
  let s := if lim then raise .pwr 5 s else s
  if r.2.1 = 0 then s else raise .pwr 6 s
/-- PWR after MXE and DLY have written the frame's values. -/
def pwrFrameEnd (s : State) : State := (upto 32).foldl (fun s n => if modActive (s.mod n).st then modFrame n s else s) s
/-- A channel's MOD destination has SIL_PD, and its SIL_STAT is 1 (R341). -/
def modSilent (s : State) (n : Nat) : Bool :=
  match s.mxe.feeding 2 n with
  | some d => (s.mxe.dpar s.mxe.active d).silPd && (Tab.get (fun _ => ({} : Sil)) s.mxe.sil d).silent
  | none => false
/-- The ramp gain in frame k (R339). -/
def rampStep (k : Nat) (x : Mod) : Mod :=
  match x.ramp with
  | none => x
  | some r =>
    if k < r.start then x
    else
      let r := if k = r.start then { r with r0 := x.rg } else r
      let j := min 64 (k - r.start + 1)
      { x with ramp := some r, rg := ((r.r0 : Int) + floorDivI (((r.target : Int) - (r.r0 : Int)) * (j : Int)) 64).toNat }
/-- A channel at a frame boundary, before MXE: sleep and wake, a due start, a stop that reverses, the ramp. Waking has no ramp by R341;
R49 speaks of a restart with the start ramp at an ALARM set, and the model follows R341 there too (DESIGN CHOICE, notes/assumptions/12). -/
def modBoundary (n : Nat) (s : State) : State :=
  let x := s.mod n
  let s :=
    if x.st = .running ∧ modSilent s n = true then evt .pwr 4 (lspBlocksOff n (updMod n (fun x => { x with st := .sleep }) s))
    else if x.st = .sleep ∧ modSilent s n = false then evt .pwr 4 (calDisturb n (updMod n (fun x => { x with st := .running }) s))
    else if x.st = .off ∧ x.en = true ∧ s.pwr.driveEn = true then modStart n s.frame s
    else if x.st = .stopping ∧ x.en = true then updMod n (fun x => { x with st := .starting }) s
    else s
  if (s.mod n).ramp.isSome then updMod n (rampStep s.frame) s else s
/-- PWR at a frame boundary, before MXE. -/
def pwrFrameStart (s : State) : State := (upto 32).foldl (fun s n => modBoundary n s) s

/-! ### Edges and gates (R333, R334, Table 13.2) -/

/-- The high-side and low-side switches of a leg at position p with dead time dt: never both on. -/
def legGates (dt : Int) (l : Leg) (p : Int) : Bool × Bool :=
  if l.rise ≤ l.fall then
    (decide (l.rise + dt ≤ p ∧ p < l.fall), decide (p < l.rise ∨ l.fall + dt ≤ p))
  else (decide (p < l.fall ∨ l.rise + dt ≤ p), decide (l.fall + dt ≤ p ∧ p < l.rise))
/-- A leg's switches in a period truncated at position t: the high side off, the low side on, after the dead time where it was off (R335). -/
def legCut (dt : Int) (l : Leg) (t p : Int) : Bool × Bool :=
  if p < t then legGates dt l p else (false, (legGates dt l (t - 1)).2 || decide (t + dt ≤ p))
/-- The number of carrier period j of the frame, and where it is truncated, if it is. -/
def cutOf (s : State) (n j : Nat) : Option Nat :=
  match (s.mod n).cut with
  | some (i, t) => if i = s.frame * (64 / carrierTicks s) + j then some t else none
  | none => none
/-- The levels of PWM_HA, PWM_LA, PWM_HB and PWM_LB of a channel at position p of carrier period j of the frame (R333 to R335, R342). -/
def gates (s : State) (n j : Nat) (p : Int) : List Bool :=
  if s.pwr.driveEn && modSwitching (s.mod n).st then
    let e := chLegs s n j
    let g (l : Leg) : Bool × Bool := match cutOf s n j with | some t => legCut (modDt s n) l t p | none => legGates (modDt s n) l p
    [(g e.1).1, (g e.1).2, (g e.2).1, (g e.2).2]
  else [false, false, false, false]
/-- The position in the carrier period at SEL time now (R333). -/
def carrierPos (s : State) : Nat := outPhase s 384000 * 65536 / fullTurn
/-- The gate levels of a channel now. -/
def gatesNow (s : State) (n : Nat) : List Bool := gates s n (s.sys.tick % 64 / carrierTicks s) (carrierPos s)
/-- The level of the DRIVE_EN pad: what PWR commands, but for a pad that does not follow (R343). -/
def drivePad (s : State) : Bool := s.pwr.pad.getD s.pwr.driveEn
/-- The pad's level has differed from the command for two ticks (R343): the pad stays where it is (DESIGN CHOICE, notes/assumptions/12). -/
def padStuck (s : State) : State := { s with pwr := { s.pwr with pad := some !s.pwr.driveEn } }

/-! ### Configuration, MOD_SETUP and registers (R345, R346) -/

/-- A write of channel configuration, feedback or COEF: performed only when allowed (R346). -/
def pwrConfigWrite (off : Nat) (v : Word) (s : State) : State × Code :=
  if 0x200 ≤ off ∧ off < 0x380 ∧ off % 4 = 0 then
    if s.sys.run then (s, .accessErr) else (s.setReg (Blk.pwr.base + off) (v &&& 0xFFFFF), .ok)
  else if 0x1000 ≤ off ∧ off < 0x1400 then
    let n := (off - 0x1000) / 0x20
    let x := s.mod n
    match off % 0x20 with
    | 0 => if x.st = .off ∧ x.en = false then (s.setReg (Blk.pwr.base + off) (v &&& 0x7), .ok) else (s, .accessErr)
    | 4 => if x.st = .off ∧ x.en = false then (s.setReg (Blk.pwr.base + off) (v &&& 0x0FFF0FFF), .ok) else (s, .accessErr)
    | 8 => if x.st = .off ∧ x.en = false then (s.setReg (Blk.pwr.base + off) (v &&& 0xFF0F), .ok) else (s, .accessErr)
    | 0xC => (s.setReg (Blk.pwr.base + off) (v &&& 0xFFFFF), .ok)
    | 0x10 => (s.setReg (Blk.pwr.base + off) (v &&& 0x7FFFFF), .ok)
    | _ => (s, .ok)
  else (s, .ok)
/-- The offsets whose writes R346 guards with RWS. -/
def pwrRws (off : Nat) : Bool := decide (off < 0x1000) || off % 0x20 == 0 || off % 0x20 == 4 || off % 0x20 == 8
/-- The meaning of PWR_CONFIG_WRITE. -/
def execPwrConfigWrite (m : Master) (off : Fin 65536) (v : Word) (s : State) : Res := .next (cmdC m (pwrRws off.val) (pwrConfigWrite off.val v) s)

/-- The channel bits of a group. -/
def groupMask (g : Nat) : Word := wd (255 * 2 ^ (8 * g))
/-- One write of a MOD_SETUP record. -/
def modPut (off : Nat) (v : Word) (s : State) : State :=
  if off = 0xC then eachCh v chStart1 s
  else s.setReg (Blk.pwr.base + off) (v &&& (match findRow rowsPwr off with | some r => wd r.wmask | none => 0))
/-- The offsets MOD_SETUP may write for group g. -/
def modSetupOff (g : Nat) (full : Bool) (off : Nat) : Bool :=
  off % 4 == 0 &&
    ((decide (0x1000 + 0x100 * g ≤ off ∧ off < 0x1100 + 0x100 * g) && decide (off % 0x20 ≤ 0x10)) ||
     (decide (0x100 + 0x10 * g ≤ off ∧ off ≤ 0x108 + 0x10 * g)) ||
     (full && g == 0 && decide (0x200 ≤ off ∧ off < 0x380)) || off == 0xC)
/-- A pair of a MOD_SETUP record sets no MINP below DT + 64 and no FB_EN with MODE BD (R345). -/
def modPairOk (p : Nat × Word) : Bool :=
  if p.1 < 0x1000 then true
  else if p.1 % 0x20 = 4 then decide (bits p.2 0 12 + 64 ≤ bits p.2 16 12)
  else if p.1 % 0x20 = 0 then !bit p.2 1 || bit p.2 0
  else true
/-- A MOD_SETUP record keeps R345, judged on what it sets. -/
def modSetupOk (g : Nat) (full : Bool) (ps : List (Nat × Word)) : Bool :=
  decide (ps.length ≤ 160) && ps.all (fun p => modSetupOff g full p.1) && ps.dropLast.all (fun p => p.1 != 0xC) &&
    ps.all (fun p => p.1 != 0xC || p.2 &&& ~~~groupMask g == 0) && ps.all modPairOk
/-- COEF[0] to COEF[6U - 1] are symmetric and the rest 0 (R345). -/
def coefOk (s : State) (fs48 : Bool) : Bool :=
  let n := if fs48 then 96 else 48
  (upto n).all (fun i => modCoef s i == modCoef s (n - 1 - i)) && (upto 96).all fun i => decide (i < n) || modCoef s i == 0
/-- IMG applies a MOD_SETUP record. -/
def applyModSetup (ps : List (Nat × Word)) (s : State) : State := ps.foldl (fun s p => modPut p.1 p.2 s) s

/-- CHn_STAT.STATE. -/
def ModSt.code : ModSt → Nat
  | .off => 0 | .starting => 1 | .running => 2 | .stopping => 3 | .sleep => 4 | .shutdown => 5 | .latched => 6
/-- Bits of one per channel. -/
def chBits (f : Nat → Bool) : Word := wd ((upto 32).map fun n => b2n (f n) * 2 ^ n).sum
/-- A read of PWR's registers that hold live state. -/
def pwrRegRead (off : Nat) (s : State) : Option Word :=
  if off = 4 then some (pack [(0, b2n (drivePad s)), (1, b2n (driveReq s))])
  else if off = 8 then some (chBits fun n => (s.mod n).en)
  else if off = 0x20 then some (chBits fun n => (s.mod n).st == .sleep)
  else if 0x100 ≤ off ∧ off < 0x140 ∧ off % 16 = 0xC then some (wd (Tab.get (fun _ => ({} : Rail)) s.rails ((off - 0x100) / 16)).k)
  else if 0x1000 ≤ off ∧ off < 0x1400 then
    let n := (off - 0x1000) / 0x20
    let x := s.mod n
    match off % 0x20 with
    | 0x14 =>
      let wait := if x.st = .shutdown then ceilDiv (x.waitEnd - s.sys.tick) (s.msTicks 10) else 0
      some (pack [(0, x.st.code), (8, x.retries), (16, wait)])
    | 0x18 => some (pack [(0, limitedCount s n), (16, x.shutdowns)])
    | 0x1C => some (wd x.nsat)
    | _ => none
  else none
/-- A write of PWR's registers that is not plain. -/
def pwrRegWrite (off : Nat) (v : Word) (s : State) : Option (State × Code) :=
  if off = 0 then some (drvAllow v s, .ok)
  else if off = 0xC then some (eachCh v chStart1 s, .ok)
  else if off = 0x10 then some (eachCh v chStop1 s, .ok)
  else if off = 0x14 then some (eachCh v chForce1 s, .ok)
  else if off = 0x1C then some (eachCh v ocRelease1 s, .ok)
  else if (0x200 ≤ off ∧ off < 0x380) ∨ 0x1000 ≤ off then some (pwrConfigWrite off v s)
  else none

end Sys2Proof.Machine
end

