-- ==== Sys2Proof/Machine/Modes.lean ====
section
/-! DEFINITION. The snuffed state (R408 to R413), the end of a load that meets it, and the mode flags: requests for RUN and ALARM,
their order and result codes, the output ramps and their phases (R34 to R51). -/
namespace Sys2Proof.Machine
open Sys2Proof

/-! ### Cells configured or not (R36, Table 2.4) -/

/-- The S1 configuration is not in the blocks: RUN set and takeover read it from the image store (R78). -/
def unconfigure (s : State) : State :=
  if s.img.accepted then
    let s := s.updImg fun i => { i with cold := true, stale := false }
    { s with cells := s.cells.map fun e =>
        if e.2.role = .active ∧ e.2.mig.phase ≠ .restoring ∧ e.2.mig.phase ≠ .rampIn then (e.1, { e.2 with configured := false }) else e }
  else s
/-- With STANDBY 1, RUN 0 and the output stopped, the chip is a cold standby: not configured (Table 2.4). -/
def coldCheck (s : State) : State :=
  if s.sys.standby && !s.sys.run && s.sys.phase == .stopped && !s.img.cold && s.pair.cold == .none then unconfigure s else s

/-! ### The end of a load (R75, R79, R88) -/

/-- IMG.ERR and ERR_POS take a failing check. -/
def loadErr (f : Failure) (s : State) : State := s.updImg fun i => { i with errCode := f.err.code, errRecord := f.record, errPos := f.pos }
/-- A load or verify ends with an error: before APPLYING nothing changes and the previous image stays active; in APPLYING
STATE becomes EMPTY (R79). A boot's LOADER phase returns to WAIT_IMAGE (Table 3.2). -/
def loadFail (f : Failure) (s : State) : State :=
  let s := loadErr f s
  let applying := s.img.state == .applying
  let s := s.updImg fun i =>
    { i with job := none, partialJob := none, boot := if i.boot = .loader then .waitImage else i.boot,
             state := if applying then .empty else (i.job.map (·.prev)).getD i.state, needFull := i.needFull || applying }
  let s := dequeueMig (boundNext s)
  settle (evt .img 2 s)
/-- A load ended by a snuff or a takeover (Table 3.14): no failing check, so REJECTED is not raised. That ERR.RECORD and ERR_POS read 0
then, and that a takeover ends a partial load as it ends a full one, are the model's choices (notes/assumptions/14). -/
def loadCut (e : LoadErr) (s : State) : State :=
  if (s.img.job.any fun j => !j.verify) || s.img.partialJob.isSome then loadFail ⟨e, 0, 0⟩ s else s

/-! ### RUN clear and ALARM, as every originator causes them -/

/-- Foreground tests end (R38, R150). -/
def endTests (s : State) : State := { s with cells := s.cells.map fun e => if e.2.halt then (e.1, { e.2 with halt := false }) else e }
/-- RUN is cleared in this tick (R48): migrations and tests end (R38), network audio stops, the outputs ramp out from b. -/
def runCleared (by_ : Option HostId) (s : State) : State :=
  if !s.sys.run then s else
  let s := setFlag 0 false by_ s
  let s := (upto 32).foldl (fun s n => if (s.spk n).estOk || (s.spk n).supOk then lspBlocksOff n s else s) s
  let s := endTests (abortMigs .abortedRun true s)
  let s := flushAudio s
  match s.sys.phase with
  | .stopped => s
  | .config =>
    let s := s.updSys fun y => { y with phase := .stopped, rampEnd := none, runStart := false }
    let c := s.pair.cold
    let s := { s with pair := { s.pair with cold := .none } }
    driveCheck (if c = .none then s else unconfigure s)
  | _ => driveCheck (pwrRunRamp false (beginRamp .rampOut s))
/-- ALARM takes a value in this tick (R49): the alarm set is loaded or left at b, tests and proactive migrations end (R38). A
cold chip loads the set when its matrix is configured (R514). -/
def alarmApplied (v : Bool) (by_ : Option HostId) (s : State) : State :=
  let s := setFlag 1 v by_ (s.updSys fun y => { y with alarmRose := y.alarmRose || (v && !y.alarm) })
  let live := s.img.accepted && !s.img.cold
  if v then
    let s := endTests (abortMigs .abortedAlarm false s)
    if live then mxeAlarmSet s else s
  else mxeAlarmClear s

/-! ### The snuffed state (R408, R411, R413) -/

/-- What takes the chip to the snuffed state: a host, or a CHIP fault of a block, with the block a parity error names. -/
inductive SnuffBy where
  | host (m : Master)
  | fault (b : Blk) (src : Nat)
  | parity (block unit : Nat)
deriving DecidableEq, Repr

/-- SYS.SNUFF_CAUSE of a cause (Table 16.7). -/
def SnuffBy.cause : SnuffBy → Word
  | .host m => pack [(31, 1), (30, 1), (26, origCode m.host?)]
  | .fault b src => pack [(31, 1), (16, src), (8, b.index), (0, b.unit)]
  | .parity block unit => pack [(31, 1), (29, 1), (16, 0), (8, block % 32), (0, unit % 128)]
/-- The SNUFF log entry of a cause (Table 16.1). -/
def SnuffBy.log : SnuffBy → State → State
  | .host m => logPush 4 0 0 0 (4 * origCode m.host?)
  | .fault b src => logPush 4 b.index b.unit src 3
  | .parity _ _ => logPush 4 0 0 0 3
/-- The chip's role for checkpoints changes: the base stands until a new cycle completes, and numbering starts anew (R384, R385). -/
def ckptRestart (s : State) : State :=
  { s with ckpt := { s.ckpt with frozen := true, collecting := false, nextSlice := 0, nextDelta := none, last := [], backlog := [], sendSlice := 0 } }
/-- The wick logic at a snuff: no state of it survives, and no configuration for a takeover (Table 15.2, R373). -/
def wickSnuff (s : State) : State :=
  let s := if s.pair.wick = .disarmed then s else evt .pair 0 s
  let s := ckptRestart s
  { s with pair := { s.pair with wick := .disarmed, eligible := false, cold := .none, rampEnd := none, sweepOn := false } }
/-- The recording of a cause: SNUFF_CAUSE keeps the first since VALID was cleared (R413). -/
def snuffRecord (c : SnuffBy) (s : State) : State :=
  s.updSys fun y => if bit y.snuffCause 31 then y else { y with snuffCause := c.cause }
/-- Entry to the snuffed state in this tick (R411, Table 16.3). -/
def enterSnuff (c : SnuffBy) (s : State) : State :=
  let s := c.log (snuffRecord c s)
  if s.sys.snuffed then s
  else
    let s := s.updSys fun y => { y with snuffed := true }
    let s := runCleared none s
    let s := setFlag 2 true none s
    let s := driveFall s
    let s := [0, 1, 2, 3].foldl (fun s n => flushQueues n allQueues s) s
    let s := abortRestores (loadCut .snuffed (lspSnuff s))
    settle (coldCheck (wickSnuff s))
/-- SNUFF: a write of 1 to SNUFF_CTRL.SNUFF (R408). -/
def execSnuff (m : Master) (s : State) : Res := .next (cmd m true (enterSnuff (.host m)) s)
/-- A write of SNUFF_CTRL. -/
def snuffCtrlWrite (m : Master) (v : Word) (s : State) : State := if bit v 0 then enterSnuff (.host m) s else s
/-- A write of SNUFF_CAUSE: 1 to VALID clears every field (R413). -/
def snuffCauseWrite (v : Word) (s : State) : State := if bit v 31 then s.updSys fun y => { y with snuffCause := 0 } else s
/-- SNUFF_CAUSE_CLEAR. -/
def execSnuffCauseClear (m : Master) (s : State) : Res := .next (cmd m false (snuffCauseWrite (bm 31)) s)

/-! ### Wick loss and takeover, as they change the flags (R44) -/

/-- STANDBY is set by a loss or a release of the wick; with REHEARSAL_EN 0 RUN is cleared in the same step (R44). -/
def wickLoss (s : State) : State :=
  let s := setFlag 2 true none s
  let s := driveCheck (flushAudio s)
  let s := if s.sys.run && !s.rbit 0x4000011C 1 then runCleared none s else s
  settle (coldCheck s)

/-! ### RUN set (R43, R47) -/

/-- The outputs ramp up from the amplitude they have: PHASE, the ramp and its end (R45, R46). -/
def rampUp (s : State) : State := pwrRunRamp true (beginRamp .rampIn s)
/-- The configured chip starts at the next boundary: the ramp, and states that begin anew there (R45 to R47). -/
def startRamp (s : State) : State := rampUp (s.updSys fun y => { y with runStart := true })
/-- A full load is in progress (R74). -/
def fullLoading (s : State) : Bool := s.img.job.any fun j => !j.partialImg && !j.verify
/-- No accepted full image, or none after a load that ended in APPLYING (R79). -/
def noImage (s : State) : Bool := !s.img.accepted || s.img.needFull
/-- Why a RUN set is refused: the first code that applies in the order of R43. -/
def runSetRefusal (s : State) : Option Nat :=
  if s.sys.snuffed then some 4
  else if fullLoading s then some 6
  else if noImage s then some 2
  else if !s.sys.aligned then some 3
  else if s.sys.standby && !s.rbit 0x4000011C 1 then some 7
  else if ((s.img.cold && s.pair.cold != .ready) || s.img.stale) && s.img.storeCorrupt then some 8
  else none
/-- A request's result (R43). -/
def modeResult (isAlarm : Bool) (code : Nat) (s : State) : State :=
  s.updSys fun y =>
    let y := { y with resTick := y.tick % 65536, refused := y.refused || code != 1 }
    if isAlarm then { y with alarmResult := code } else { y with runResult := code }
/-- Cells that a partial load into the DRAM copy has overtaken are configured anew (R38: STANDBY, MAINT). -/
def dropStale (s : State) : State :=
  if s.img.stale then { unconfigure s with pair := { s.pair with cold := .none } } else s
/-- RUN is set in this tick: at once where the cells are configured, else once they are (R47). -/
def runApplied (by_ : Option HostId) (s : State) : State :=
  let s := dropStale (setFlag 0 true by_ s)
  if s.img.cold || s.pair.cold == .configuring || s.pair.cold == .restoring then
    let s := s.updSys fun y => { y with phase := .config, rampEnd := none }
    if s.pair.cold = .none then { s with pair := { s.pair with cold := .configuring } } else s
  else startRamp (placeLost { s with pair := { s.pair with cold := .none } })
/-- A RUN request (R41, R43). -/
def runRequest (v : Bool) (by_ : Option HostId) (s : State) : State :=
  if s.sys.run == v then s
  else if v then
    match runSetRefusal s with
    | some c => modeResult false c s
    | none => modeResult false 1 (runApplied by_ s)
  else if s.sys.snuffed then modeResult false 4 s
  else if s.sys.alarm then modeResult false 5 s
  else modeResult false 1 (settle (coldCheck (runCleared by_ s)))
/-- An ALARM request, refused only with SNUFFED (R43). -/
def alarmRequest (v : Bool) (by_ : Option HostId) (s : State) : State :=
  if s.sys.alarm == v then s
  else if s.sys.snuffed then modeResult true 4 s
  else modeResult true 1 (settle ((alarmApplied v by_ s).updSys fun y => { y with alarmMirror := false }))
/-- A write of SYS.MODE_REQ: the ALARM request first, then RUN (R41, R42). -/
def modeReqWrite (m : Master) (v : Word) (s : State) : State :=
  let s := s.setReg 0x40000104 (v &&& 3)
  runRequest (bit v 0) m.host? (alarmRequest (bit v 1) m.host? s)
/-- The word of SYS.MODE_REQ that requests nothing but the given flag. -/
def modeReqWord (s : State) (run alarm : Option Bool) : Word :=
  pack [(0, b2n (run.getD s.sys.run)), (1, b2n (alarm.getD s.sys.alarm))]
/-- RUN_SET. -/
def execRunSet (m : Master) (s : State) : Res := .next (cmd m true (fun s => modeReqWrite m (modeReqWord s (some true) none) s) s)
/-- RUN_CLEAR. -/
def execRunClear (m : Master) (s : State) : Res := .next (cmd m true (fun s => modeReqWrite m (modeReqWord s (some false) none) s) s)
/-- ALARM_SET. -/
def execAlarmSet (m : Master) (s : State) : Res := .next (cmd m true (fun s => modeReqWrite m (modeReqWord s none (some true)) s) s)
/-- ALARM_CLEAR. -/
def execAlarmClear (m : Master) (s : State) : Res := .next (cmd m true (fun s => modeReqWrite m (modeReqWord s none (some false)) s) s)
/-- OUTPUT_RAMP_END: at b + 4,096 PHASE becomes RUNNING, or the cells halt, the players stop, DRIVE_EN falls and PHASE is
STOPPED, and the gain ramps that still run complete at once (R46, R48, R179, R202). -/
def outputRampEnd (s : State) : State :=
  if s.sys.rampEnd = some s.sys.tick then
    match s.sys.phase with
    | .rampIn => s.updSys fun y => { y with phase := .running, rampEnd := none }
    | .rampOut =>
      if s.sys.run then s
      else
        let s := s.updSys fun y => { y with phase := .stopped, rampEnd := none }
        let s := finishRamps ((s.cells.map (·.1)).foldl (fun s p => stopSched p s) s)
        settle (coldCheck (driveCheck (playersStopRun s)))
    | _ => s
  else s
/-- The meaning of OUTPUT_RAMP_END. -/
def execOutputRampEnd (s : State) : Res := .next (outputRampEnd s)

/-! ### The mode registers (R50) -/

/-- The code of a phase (Table 2.10). -/
def Phase.code : Phase → Nat
  | .stopped => 0 | .config => 1 | .rampIn => 2 | .running => 3 | .rampOut => 4
/-- SYS.MODE[5:0]: the combination code (R34). -/
def modeCode (s : State) : Nat := ((upto 6).map fun i => b2n (s.sys.flag i) * 2 ^ i).sum
/-- PHASE as it reads: CONFIG until a restore has ended (R379). -/
def phaseRead (s : State) : Phase := if s.pair.cold = .restoring then .config else s.sys.phase
/-- SYS.MODE (Table 2.10). -/
def modeWord (s : State) : Word := pack [(0, modeCode s), (16, (phaseRead s).code), (19, b2n s.sys.snuffed)]
/-- SYS.MODE_RES (Table 2.12). -/
def modeResWord (s : State) : Word :=
  pack [(0, s.sys.runResult), (4, s.sys.alarmResult), (8, b2n s.sys.refused), (16, s.sys.resTick)]
/-- SYS.MODE_CAUSE (Table 2.14). -/
def modeCauseWord (s : State) : Word :=
  pack [(0, b2n (degFenced s)), (1, b2n (degSpare s)), (8, b2n (maintPartial s)), (9, b2n (maintMigrate s)), (10, b2n (maintTest s)),
        (16, b2n s.sys.alarmMirror)]

end Sys2Proof.Machine
end

