-- ==== Sys2Proof/Machine/Wick.lean ====
section
/-! DEFINITION. The wick logic's timers, eligibility and states, ARM, and the PAIR registers that software and IMG write
(R367 to R375, R388, R395, R396). -/
namespace Sys2Proof.Machine
open Sys2Proof

/-- The PAIR part changes. -/
def State.updPair (s : State) (f : Pair → Pair) : State := { s with pair := f s.pair }
/-- CTRL.ARM, CFG.UNIT and CFG.SOLO (Table 15.10). -/
def armed (s : State) : Bool := s.rbit 0x40160000 0
def unitOf (s : State) : Bool := s.rbit 0x40160008 8
def solo (s : State) : Bool := s.rbit 0x40160008 9
/-- L in ms: CFG.LEASE, values outside 4 to 200 as the nearest bound. -/
def leaseMs (s : State) : Nat := max 4 (min 200 (s.fld 0x40160008 0 8))
/-- L, G and P in ticks. -/
def leaseTicks (s : State) : Nat := s.msTicks (leaseMs s)
def guardTicks (s : State) : Nat := s.msTicks 5
def pilotTicks (s : State) : Nat := min (s.msTicks 5) (leaseTicks s / 4)
/-- The lease threshold: L, or TL while FIRST is 1 (R373). -/
def leaseThr (s : State) : Nat :=
  leaseTicks s + (if s.pair.first && unitOf s then leaseTicks s + guardTicks s else 0)

/-- The link is up and reports a partner with the same UNIT (R373, R377). -/
def unitClash (s : State) : Bool := s.pair.linkUp && s.pair.partner.any fun f => f.unit == unitOf s
/-- A clash that was not there before raises UNIT_CLASH (R377). -/
def clashEdge (before : Bool) (s : State) : State := if !before && unitClash s then raise .pair 7 s else s
/-- The image store bars every use of it (Table 3.22). -/
def storeBarred (s : State) : Bool := s.img.storeCorrupt || s.faultBit .img 2
/-- The conditions of R373; a chip whose clock monitor has acted is as a snuffed one (R410). -/
def eligibleNow (s : State) : Bool :=
  armed s && s.img.activeId != 0 && !storeBarred s && !s.sys.snuffed && !s.sys.monitorDue && !unitClash s

/-- STATUS.WICK takes a value. -/
def setWick (w : WickSt) (s : State) : State := if s.pair.wick = w then s else evt .pair 0 (s.updPair fun p => { p with wick := w })
/-- A cold standby starts configuring its cells and blocks from the image store (R374, R379 step 1). -/
def startCold (s : State) : State :=
  if s.sys.standby && !s.sys.run && s.img.cold && s.pair.cold == .none then
    let s := s.updPair fun p => { p with cold := .configuring }
    let s := { s with ckpt := { s.ckpt with held := none } }
    if s.sys.phase = .stopped then s.updSys fun y => { y with phase := .config } else s
  else s
/-- A configuration for a takeover stops, and everything configured is unconfigured (R374). -/
def dropCold (s : State) : State :=
  if s.pair.cold == .none || s.sys.run then s
  else
    let s := s.updPair fun p => { p with cold := .none }
    let s := if s.sys.phase = .config then s.updSys fun y => { y with phase := .stopped } else s
    unconfigure s
/-- The wick logic leaves PREPARING or LIGHTING for DISARMED or STANDBY. -/
def withdraw (w : WickSt) (s : State) : State := setWick w (dropCold s)
/-- The evaluation of R373 in a tick that runs. -/
def wickSettle (s : State) : State :=
  if !ticksRun s then s
  else
    let e := eligibleNow s
    let s := s.updPair fun p => { p with eligible := e }
    match s.pair.wick with
    | .disarmed => if e then setWick .standby s else s
    | .standby | .preparing | .lighting => if e then s else withdraw .disarmed s
    | _ => s
/-- A takeover's restore that a release cuts short: a chip that keeps RUN goes on in rehearsal, any other is a cold standby again. -/
def cutRestore (s : State) : State :=
  let s := { s with ckpt := { s.ckpt with held := none } }
  if s.pair.cold = .restoring ∨ s.pair.cold = .ready then
    let s := s.updPair fun p => { p with cold := .none }
    if s.sys.phase = .config then
      if s.sys.run then startRamp s else coldCheck (s.updSys fun y => { y with phase := .stopped, runStart := false })
    else coldCheck s
  else s
/-- A release of the wick: a wick loss, and the state of Table 15.2. -/
def releaseWick (s : State) : State :=
  let s := ckptRestart (cutRestore (wickLoss s))
  let s := s.updPair fun p => { p with leaseFrom := s.sys.tick, lastPilot := none }
  setWick (if armed s && s.pair.eligible then .standby else .disarmed) s

/-- CTRL.ARM takes a value (R372, R373): setting it starts the lease timer with FIRST = 1. -/
def setArm (on : Bool) (s : State) : State :=
  let was := armed s
  let s := s.setFld 0x40160000 0 1 (b2n on)
  let s := if on && !was then s.updPair fun p => { p with first := true, leaseFrom := s.sys.tick } else s
  wickSettle s
/-- The chip's own fault cleared ARM (R371, R375). -/
def clearArm (s : State) : State := s.setFld 0x40160000 0 1 0

/-- HO_RES records a result (Table 15.10); DONE, ABORTED and TIMEOUT set EVT.HO_DONE. -/
def hoResult (c : Nat) (s : State) : State :=
  let s := s.updPair fun p => { p with hoResult := c, hoTick := s.sys.tick % 65536 }
  if c = 1 ∨ c = 6 ∨ c = 7 then evt .pair 2 s else s
/-- Why a HANDOVER is refused (R388, Table 15.8): the first code that applies. -/
def handoverRefusal (s : State) : Option Nat :=
  if s.sys.snuffed then some 8
  else if s.pair.wick != .holding then some 2
  else if s.sys.maint then some 3
  else if !s.pair.linkUp || s.pair.linkFenced then some 4
  else if s.pair.partner.any fun f => nbit f.mode 2 && f.arm && (f.wick == 1 || f.wick == 2 || f.wick == 3) && f.ckptValid then none
  else some 5
/-- HANDOVER (R388, R389 steps 1 and 2): RELEASING, REQUEST sent, and the outputs ramp out from the next boundary. -/
def handoverReq (s : State) : State :=
  match handoverRefusal s with
  | some c => hoResult c s
  | none =>
    let s := setWick .releasing s
    let b := nextBoundary s.sys.tick
    let s := s.updPair fun p => { p with sentHandover := 1, rampEnd := some (b + 4096), releasedAt := none }
    if s.sys.run && (s.sys.phase == .running || s.sys.phase == .rampIn) then
      pwrRunRamp false (beginRamp .rampOut s)
    else s
/-- A write of PAIR.CTRL. -/
def pairCtrlWrite (v : Word) (s : State) : State :=
  let s := if bit v 1 then handoverReq s else s
  setArm (bit v 0) s
/-- The link goes down: its partner's frames are no longer current. -/
def linkOff (s : State) : State := s.updPair fun p => { p with linkUp := false }
/-- A write of PAIR.CFG, performed only in DISARMED (R396). SOLO powers the lane down (R367). -/
def pairCfgPut (v : Word) (s : State) : State × Code :=
  if s.pair.wick != .disarmed then (s, .accessErr)
  else
    let was := unitClash s
    let s := s.setReg 0x40160008 (v &&& 0x3FF)
    let s := if solo s then linkOff s else s
    (wickSettle (clashEdge was s), .ok)
/-- A write of a PAIR register that is not plain; REPAIR_CFG is plain. -/
def pairRegWrite (off : Nat) (v : Word) (s : State) : Option (State × Code) :=
  if off = 0 then some (pairCtrlWrite v s, .ok)
  else if off = 8 then some (pairCfgPut v s)
  else if off = 0xC then some (s.setReg 0x4016000C (v &&& 1), .ok)
  else none
/-- ARM: a write of CTRL that keeps HANDOVER 0. -/
def execArm (m : Master) (v : Word) (s : State) : Res := .next (cmd m true (setArm (bit v 0)) s)
/-- HANDOVER: a write of CTRL with HANDOVER 1 and ARM as it stands. -/
def execHandover (m : Master) (s : State) : Res := .next (cmd m true handoverReq s)
/-- PAIR_CFG_WRITE: a write of CFG or REPAIR_CFG; the other offsets of PAIR hold no configuration. -/
def execPairCfgWrite (m : Master) (off : Fin 65536) (v : Word) (s : State) : Res :=
  .next (cmdC m (off.val == 8) (fun s =>
    if off.val = 8 ∨ off.val = 0xC then (pairRegWrite off.val v s).getD (s, .ok) else (s, .accessErr)) s)

/-- A PAIR_SETUP record keeps R395. -/
def pairSetupOk (ps : List (Nat × Word)) : Bool :=
  decide (ps.length ≤ 8) && ps.all (fun p => p.1 == 0 || p.1 == 8 || p.1 == 0xC) && ps.dropLast.all (fun p => p.1 != 0) &&
    ps.all fun p => p.1 != 0 || !bit p.2 1
/-- IMG applies a PAIR_SETUP record. -/
def applyPairSetup (ps : List (Nat × Word)) (s : State) : State :=
  ps.foldl (fun s p => match pairRegWrite p.1 p.2 s with | some r => r.1 | none => s) s

/-! ### PAIR as it reads (Tables 15.9 and 15.10) -/

/-- The code of STATUS.WICK (Table 15.2). -/
def WickSt.code : WickSt → Nat
  | .disarmed => 0 | .standby => 1 | .preparing => 2 | .lighting => 3 | .holding => 4 | .releasing => 5
/-- The partner's STATUS frame came within 100 µs. -/
def partnerValid (s : State) : Bool := s.pair.partner.isSome && decide (s.sys.tick ≤ s.pair.heardAt + s.usTicks 100)
/-- Fenced cells, and cells in role SPARE. -/
def cellsIn (r : Role) (s : State) : Nat := ((upto 72).filter fun p => (s.cell p).role == r).length
/-- A block with a CHANNEL or more severe fault bit set (HEALTH BLOCK_FAULT). -/
def severeFault (s : State) (b : Blk) : Bool :=
  (upto 32).any fun i => s.faultBit b i && (faultSev b i).code != 0
/-- Every block of an index of Table 1.11. -/
def blocksOf (i : Nat) : List Blk :=
  if i = 17 then (upto 16).map .apt else if i = 23 then (upto 72).map .cell else pendBlks.filter fun b => b.index == i
/-- A corrected-error count exceeded its limit in the last window (HEALTH ECC_HIGH). -/
def eccHigh (s : State) : Bool :=
  s.memc.eccHigh || s.cells.any fun e => decide ((s.reg ((Blk.cell e.1).base + 0x10)).toNat % 65536 < e.2.ceCnt)
/-- The health summary (Table 15.6). -/
def health (s : State) : Nat :=
  let f (lo v : Nat) : Nat := v * 2 ^ lo
  f 56 (s.pair.passes % 256) + f 52 (b2n (s.faultBit .img 2)) + f 51 (b2n (s.faultBit .pair 6)) + f 50 (b2n s.pair.sweepLate)
    + f 49 (b2n (s.memc.spares != [])) + f 48 (b2n (eccHigh s)) + f 47 (b2n s.ckpt.valid) + f 46 (b2n s.sys.snuffed)
    + f 40 (modeCode s) + f 36 ((upto 6).filter fun c => (Tab.get (fun _ => ({} : Ref)) s.rsu.refs c).state == 4).length
    + f 32 (((upto 4).map fun n => b2n (Tab.get (fun _ => ({} : Mac)) s.macs n).fenced * 2 ^ n).sum)
    + f 28 (min 15 (cellsIn .fenced s)) + f 24 (min 8 (cellsIn .spare s))
    + ((upto 24).map fun i => b2n ((blocksOf i).any (severeFault s)) * 2 ^ i).sum
/-- The health registers: 0 as reset leaves them (Table 15.9), and the summary from the first tick on. -/
def healthRead (s : State) : Nat := if s.sys.tick = 0 then 0 else health s
/-- DETAIL[i] at the end of a pass: the FAULT_STATUS of block i, the OR over ports and cells (R391). -/
def detailWord (s : State) (i : Nat) : Word := (blocksOf i).foldl (fun w b => w ||| s.reg (b.base + 0x80)) 0
/-- CKPT_AGE in µs, saturating. -/
def ckptAge (s : State) : Nat :=
  if s.ckpt.valid then min (2 ^ 32 - 1) ((s.sys.tick - s.ckpt.baseTick) * 1000000 / (64 * s.fs)) else 2 ^ 32 - 1
/-- A read of PAIR's registers that hold live state. -/
def pairRegRead (off : Nat) (s : State) : Option Word :=
  let p := s.pair
  match off with
  | 0x004 => some (pack [(0, p.wick.code), (4, b2n p.linkUp), (5, b2n s.ckpt.valid), (6, b2n p.line), (7, b2n (s.sys.standby && s.sys.run)),
      (8, (p.partner.map (·.wick)).getD 0 % 8), (11, b2n (partnerValid s)), (12, b2n p.first)])
  | 0x010 => some (wd (min 5000 (250 * leaseMs s)))
  | 0x014 => some (pack [(0, p.hoResult), (16, p.hoTick)])
  | 0x018 => some (pack [(0, s.ckpt.baseNum % 65536), (29, b2n p.imageStart), (30, b2n s.ckpt.collecting), (31, b2n s.ckpt.valid)])
  | 0x01C => some (wd (ckptAge s))
  | 0x020 => some (wd (healthRead s))
  | 0x024 => some (wd (healthRead s / 2 ^ 32))
  | 0x028 => some (wd p.phealth)
  | 0x02C => some (wd (p.phealth / 2 ^ 32))
  | 0x030 => some (wd p.passes)
  | 0x034 => some (wd p.linkErr)
  | _ => none

end Sys2Proof.Machine
end

