-- ==== Sys2Proof/Machine/ImgCheck.lean ====
section
/-! DEFINITION. The checks of AUTH and CHECKING: authentication, layouts and ranges of every record type, regions, the latency
and bound checks, checkpoint sizes (R70 to R72, R80, R84 to R87, R107 to R109, R118, R166 to R168, R186, R187, R198, R203, R254,
R263, R386, R392, R440, R513); and what applying an S0 record does. -/
namespace Sys2Proof.Machine
open Sys2Proof

/-! ### Authentication (R70, R71) -/

/-- A fused key-hash slot that is neither empty nor revoked. -/
def keyUsable (f : Fuses) (k : Nat) : Bool := (if k = 0 then f.keyHash0 else f.keyHash1) != 0 && !nbit f.keyRevoke k
/-- The outcome of R71: none where the image is authentic. -/
def authCheck (s : State) (base : Nat) (sg : ImgRec) : Option LoadErr :=
  let key := s.bytes (sg.pay base) 64
  let h := sha256 key
  let f := s.img.fuses
  if (keyUsable f 0 && f.keyHash0 == h) || (keyUsable f 1 && f.keyHash1 == h) then
    if ecdsaVerify key (sha256 (s.bytes base sg.off)) (s.bytes (sg.pay base + 64) 64) then none else some .signature
  else some .keyHash

/-! ### S0 records -/

/-- The pairs of a pair record. -/
def ImgRec.pairs (r : ImgRec) (s : State) (base : Nat) : List (Nat × Word) := macPairs s (r.pay base) r.len
/-- The entries of a BMX_SLICES payload (R440). -/
def slicesOf (s : State) (a : Nat) : List (Nat × Nat × Nat × Nat) :=
  (upto (s.le a 4)).map fun i =>
    let b := a + 4 + 4 * i
    ((s.byte b).toNat, (s.byte (b + 1)).toNat, (s.byte (b + 2)).toNat, (s.byte (b + 3)).toNat)
/-- The slices take effect; paths not named have none. -/
def applySlices (l : List (Nat × Nat × Nat × Nat)) (s : State) : State :=
  { s with bmx := { s.bmx with slices := l.foldl (fun t e => Tab.set (fun _ => 0) t (6 * e.1 + e.2.1) e.2.2.1) [] } }
/-- SEQ_SERVICE (R59, R392): the pass time, the throttle and the CHK unit, in working RAM from its start; a pass is due at once. -/
def applySeqService (a : Nat) (s : State) : State :=
  let b := s.bytes a 16
  let s := s.updPair fun p =>
    { p with passMs := leNat (b.take 4), scanRate := leNat ((b.drop 4).take 4), chkUnit := some ((b.getD 8 0).toNat), sweepNext := some s.sys.tick }
  s.setBytes 0x80000 b
/-- The latency entries of a payload of len bytes (Table 3.13), by PATH. -/
def latEntries (s : State) (a len : Nat) (t : Tab (Option LatEnt)) : Tab (Option LatEnt) :=
  (upto (len / 24)).foldl (fun t i =>
    let b := a + 24 * i
    Tab.set (fun _ => none) t (s.le b 2) (some ⟨s.le (b + 2) 2, s.le (b + 4) 2, s.le (b + 16) 4⟩)) t
/-- The bound entries of a payload of len bytes (R86), by PATH. -/
def boundEntries (s : State) (a len : Nat) (t : Tab (Option BoundEnt)) : Tab (Option BoundEnt) :=
  (upto (len / 16)).foldl (fun t i =>
    let b := a + 16 * i
    Tab.set (fun _ => none) t (s.le b 2) (some ⟨s.le (b + 2) 2, s.le (b + 4) 4, s.le (b + 8) 4⟩)) t
/-- One S0 record of the image at base is applied. CARAFE_PARTITION goes before every other one (R254). -/
def applyS0Rec (base : Nat) (s : State) (r : ImgRec) : State :=
  let p := r.pay base
  match r.typ with
  | 0x03 => applySeqService p s
  | 0x30 => macSetup r.inst (r.pairs s base) s
  | 0x31 => applyFlowDefaults p s
  | 0x33 => applyTimeSetup (r.pairs s base) s
  | 0x34 => applyRefSetup (r.pairs s base) s
  | 0x60 => applyPairSetup (r.pairs s base) s
  | 0x61 => applySlices (slicesOf s p) s
  | 0x70 => s.setReg 0x4000011C (wd (s.le p 4) &&& 3)
  | 0x80 => s.updImg fun i => { i with latTab := latEntries s p r.len [] }
  | 0x81 => s.updImg fun i => { i with boundTab := boundEntries s p r.len [] }
  | _ => s
/-- The S0 records of a full image are applied, in image order (Table 3.10). -/
def applyS0 (base : Nat) (rs : List ImgRec) (s : State) : State :=
  let s := applySlices [] s
  let s := match rs.find? fun r => r.typ == 0x32 with
    | some r => applyPartition (readPartition s (r.pay base)) s
    | none => s
  macsReload (fun s => rs.foldl (applyS0Rec base) s) s

/-! ### The image being checked -/

/-- The state, the state with the image's rate and S0 records, the image's base, header and records. -/
structure ChkCtx where
  s : State
  t : State
  base : Nat
  h : Header
  rs : List ImgRec
deriving DecidableEq, Repr
/-- A full image. -/
def ChkCtx.full (x : ChkCtx) : Bool := x.h.kind == 0
/-- The payload address of a record of the image. -/
def ChkCtx.pay (x : ChkCtx) (typ inst : Nat) : Option Nat := (x.rs.find? fun r => r.typ == typ && r.inst == inst).map (·.pay x.base)
/-- The payload the configuration has after the load: the image's, or for a partial image the image store's. -/
def ChkCtx.after (x : ChkCtx) (typ inst : Nat) : Option Nat := match x.pay typ inst with
  | some a => some a
  | none => if x.full then none else (storeRec x.s typ inst).map (·.1)
/-- n bytes at a are 0. -/
def zeros (s : State) (a n : Nat) : Bool := (s.bytes a n).all (· == 0)
/-- Strictly ascending. -/
def ascending : List Nat → Bool
  | [] => true
  | a :: t => (match t.head? with | some b => decide (a < b) | none => true) && ascending t

/-! ### Cells (R118, R166 to R168) -/

/-- CELL_MAP keeps R118. -/
def cellMapOk (s : State) (p : Nat) : Bool :=
  let b := (s.bytes p 72).map (·.toNat)
  b.all (fun v => decide (v ≤ 71) || v == 255) && decide (b.filter fun v => v != 255).Nodup &&
    (b.take 64).all fun v => v == 255 || (s.cell v).role != .fenced
/-- The logical cell is mapped. -/
def ChkCtx.mapped (x : ChkCtx) (l : Nat) : Bool := match x.after 0x10 0 with
  | some a => (x.s.byte (a + l)).toNat != 255
  | none => false
/-- A bound descriptor of a CELL_PROGRAM keeps Table 6.9 and R167. -/
def cellDescOk (s : State) (a : Nat) : Bool :=
  let kind := (s.byte (a + 3)).toNat
  let n := s.le (a + 6) 2
  decide ((s.byte (a + 2)).toNat ≤ 15) &&
    (if kind = 1 ∨ kind = 2 then
      decide (1 ≤ n ∧ n ≤ 32768) && decide (s.le (a + 4) 2 + (n + 1) / 2 ≤ 16384) && decide ((s.byte (a + 8)).toNat ≤ 3) && zeros s (a + 9) 3
     else kind == 3 && zeros s (a + 4) 4)
/-- CELL_PROGRAM keeps R165 to R167. -/
def cellProgramOk (x : ChkCtx) (l p : Nat) : Bool :=
  let s := x.s
  let n := s.le p 2
  x.mapped l && decide (1 ≤ n ∧ n ≤ 4096) && s.byte (p + 3) == 0 && zeros s (p + 12) 20 && decide (s.le (p + 10) 2 ≤ 1024) &&
    programOk (fun i => s.le (p + 32 + 8 * i) 8) n (s.byte (p + 2)).toNat (s.le (p + 4) 4) (s.le (p + 8) 2) (x.h.fs == 1) &&
    (upto (s.le (p + 10) 2)).all fun i => cellDescOk s (p + 32 + 8 * n + 12 * i)
/-- The runs of a CELL_STATE payload: start, count and the address of the words, and the offset behind them. -/
def stateRunList (s : State) (p : Nat) : Nat → Nat → List (Nat × Nat × Nat) × Nat
  | 0, off => ([], off)
  | n + 1, off =>
    let c := s.le (p + off + 2) 2
    let r := stateRunList s p n (off + 4 + 8 * c)
    ((s.le (p + off) 2, c, p + off + 4) :: r.1, r.2)
/-- No two runs overlap. -/
def runsApart : List (Nat × Nat × Nat) → Bool
  | [] => true
  | r :: t => t.all (fun q => decide (r.1 + r.2.1 ≤ q.1) || decide (q.1 + q.2.1 ≤ r.1)) && runsApart t
/-- CELL_STATE keeps R168. BASE, LEN - 1 and STEP are judged as the 14-bit values their registers hold: a STEP is its 14-bit two's complement
with bits [15:14] at 0, not sign-extended to 16 bits; and bits [62:56] of an accumulator entry, which the layout does not name, must be 0.
The spec is silent on both (DESIGN CHOICE, notes/assumptions/5). -/
def cellStateOk (x : ChkCtx) (l p : Nat) : Bool :=
  let s := x.s
  let r := stateRunList s p (s.le p 4) 4
  let g := p + r.2
  x.mapped l && r.1.all (fun q => decide (1 ≤ q.2.1 ∧ q.2.1 ≤ 16384) && decide (q.1 + q.2.1 ≤ 16384) &&
      (upto q.2.1).all fun k => zeros s (q.2.2 + 8 * k + 5) 3) && runsApart r.1 &&
    (upto 4).all (fun k =>
      let b := g + 16 * k
      decide (s.le b 2 < 16384 ∧ s.le (b + 2) 2 < 16384 ∧ s.le (b + 4) 2 < 16384) && zeros s (b + 14) 2 &&
        (upto 4).all fun j => decide (s.le (b + 6 + 2 * j) 2 ≤ s.le (b + 2) 2)) &&
    (upto 4).all fun k => (s.byte (g + 64 + 8 * k + 7)).toNat % 128 == 0

/-! ### The matrix (R175, R177, R186, R187) -/

/-- A map entry: reserved bits, kind, and NUMBER in the range of its kind (Table 7.1). -/
def mapEntOk (isDst fs48 : Bool) (x : Nat) : Bool :=
  let n := mapNum x
  let net := decide (n < if fs48 then 4096 else 2048)
  nbits x 12 16 == 0 && (match mapKind x, isDst with
    | 0, _ => n == 0
    | 1, false => net
    | 2, false => decide (n < 512)
    | 3, false => true
    | 4, false => decide (n < 64)
    | 5, false => true
    | 1, true => true
    | 2, true => decide (n < 32)
    | 3, true => decide (n < 512)
    | 4, true => net
    | 5, true => n == 0
    | _, _ => false)
/-- Each consumer appears at most once in a destination map (R177). -/
def consumersOnce (m : Tab Nat) : Bool := decide ((m.map (·.2)).filter fun x => mapKind x != 0 && mapKind x != 5).Nodup
/-- The bank 0 record that gives the maps and the bound descriptors: the full image's, or the active slot's (R184, R186). -/
def ChkCtx.mapRec (x : ChkCtx) : Option Nat :=
  if x.full then x.pay 0x20 0 else (findRec x.s (slotBase x.s.img.slot) 0x20 0).map (·.pay (slotBase x.s.img.slot))
/-- The source and destination maps the configuration has after the load. -/
def ChkCtx.maps (x : ChkCtx) : Tab Nat × Tab Nat := match x.mapRec with
  | some a => (wordTab x.s (a + 0x210000) 4 4096, wordTab x.s (a + 0x214000) 4 4096)
  | none => ([], [])
/-- The destination-parameter area at a keeps Table 7.5. -/
def parAreaOk (s : State) (a : Nat) (dst : Tab Nat) : Bool :=
  (upto 4096).all fun d =>
    let w0 := s.le (a + 16 * d) 4
    nbits w0 28 4 == 0 && nbits w0 6 10 == 0 && s.le (a + 16 * d + 4) 4 / 2 ^ 19 == 0 && s.le (a + 16 * d + 8) 4 / 2 ^ 16 == 0 &&
      zeros s (a + 16 * d + 12) 4 &&
      (if mapKind (Tab.get (fun _ => 0) dst d) = 4 then decide (nbits w0 2 2 ≤ 2) else nbits w0 2 2 == 0)
/-- Every valid entry names mapped indexes, and no two have equal {SRC, DST}. -/
def entriesOk (t : Tab Xpt) (m : Tab Nat × Tab Nat) : Bool :=
  t.all (fun e => !e.2.valid || (mapKind (Tab.get (fun _ => 0) m.1 e.2.src) != 0 && mapKind (Tab.get (fun _ => 0) m.2 e.2.dst) != 0)) && !hasDuplicate t
/-- A matrix bound descriptor keeps Table 7.6. -/
def matDescOk (d : Nat) : Bool := nbits d 24 8 == 0 && decide (nbits d 16 8 ≤ 15) && decide (nbits d 32 16 < 4096) && nbits d 48 16 == 0
/-- MATRIX_BANK keeps R186. -/
def matrixBankOk (x : ChkCtx) (bank p : Nat) : Bool :=
  let s := x.s
  let m := x.maps
  (upto 131072).all (fun e =>
    let a := p + 16 * e
    nbits (s.le a 4) 24 7 == 0 && s.le (a + 4) 4 / 2 ^ 20 == 0 && zeros s (a + 8) 8) &&
  entriesOk (bankEntries s p) m && parAreaOk s (p + 0x200000) m.2 &&
  (if x.full && bank == 0 then
    m.1.all (fun e => mapEntOk false (x.h.fs == 1) e.2) && m.2.all (fun e => mapEntOk true (x.h.fs == 1) e.2) && consumersOnce m.2 &&
      (boundDescs s p).all fun e => matDescOk e.2
   else zeros s (p + 0x210000) 0x10000)
/-- The entries of an ALARM_SET payload. -/
def alarmEntries (s : State) (p : Nat) : Tab Xpt := (upto (s.le p 4)).foldl (fun t i => putXpt t i (alarmEntry s p i)) []
/-- ALARM_SET keeps R187. -/
def alarmSetOk (x : ChkCtx) (p : Nat) : Bool :=
  let s := x.s
  let n := s.le p 4
  decide (n ≤ 32768) && (upto n).all (fun i =>
      let w := s.le (p + 4 + 8 * i) 8
      nbits w 12 4 == 0 && nbits w 28 4 == 0 && nbits w 52 12 == 0) &&
    entriesOk (alarmEntries s p) x.maps && parAreaOk s (p + 4 + 8 * n) x.maps.2
/-- MESSAGE_STORE keeps R198. -/
def messageStoreOk (s : State) (p len : Nat) : Bool :=
  decide (s.le p 4 ≤ 1024) && (upto (s.le p 4)).all fun i =>
    let b := p + 4 + 16 * i
    let off := s.le b 4
    let n := s.le (b + 4) 4
    off % 4 == 0 && decide (1 ≤ n ∧ n ≤ 2 ^ 24) && decide (s.le (b + 8) 4 < n) && decide (off + 4 * n ≤ len) &&
      (upto n).all fun k => s.le (p + off + 4 * k) 4 / 2 ^ 20 == 0
/-- The byte range of a delay line. -/
def lineRange (l : Line) : Nat × Nat := (l.base, l.base + (l.cap + 4) * 4)
/-- Two ranges share no byte. -/
def apart (a b : Nat × Nat) : Bool := decide (a.2 ≤ b.1) || decide (b.2 ≤ a.1)
/-- Every pair of a list is apart. -/
def allApart : List (Nat × Nat) → Bool
  | [] => true
  | r :: t => t.all (apart r) && allApart t
/-- DELAY_LINES keeps R73, R203, R205 and R384. -/
def delayLinesOk (x : ChkCtx) (p : Nat) : Bool :=
  let s := x.s
  let n := s.le p 4
  let ls := (applyLines p s).dly.lines
  decide (n ≤ 1024) && (upto n).all (fun i => zeros s (p + 4 + 24 * i + 12) 4 && decide (s.le (p + 4 + 24 * i) 2 < 4096)) &&
    ls.all (fun e =>
      let l := e.2
      decide (1 ≤ l.xf ∧ l.xf ≤ 4096) && decide (4 ≤ l.cap ∧ l.cap ≤ 192000) && delayOk l l.delay && l.base % 64 == 0 &&
        decide (dramBase ≤ l.base ∧ (lineRange l).2 ≤ dramBase + dramCap s) && apart (lineRange l) (0x100000000, 0x114000000)) &&
    decide (ls.map (·.2.dst)).Nodup && allApart (ls.map fun e => lineRange e.2)

/-! ### The other records -/

/-- SEQ_SERVICE keeps R392. -/
def seqServiceOk (s : State) (p : Nat) : Bool :=
  decide (1000 ≤ s.le p 4 ∧ s.le p 4 ≤ 600000) && decide (8 ≤ s.le (p + 4) 4 ∧ s.le (p + 4) 4 ≤ 800) && decide ((s.byte (p + 8)).toNat ≤ 3) && zeros s (p + 9) 7
/-- The masters and targets of Table 17.5 by index. -/
def masterOf : Nat → Option Master
  | 0 => some .hpa | 1 => some .hpb | 2 => some .dma | 3 => some .seq | 4 => some .img | 5 => some .ste | 6 => some .dly | 7 => some .chk
  | 8 => some .pair | _ => none
def targetOf : Nat → Option BusTarget
  | 0 => some .low | 1 => some .carafe | 2 => some .dram | 3 => some .regs | 4 => some .cellMem | 5 => some .matrix | _ => none
/-- BMX_SLICES keeps R440. -/
def slicesOk (s : State) (p : Nat) : Bool :=
  let l := slicesOf s p
  decide (s.le p 4 ≤ 40) && l.all (fun e => (match masterOf e.1, targetOf e.2.1 with | some m, some t => hasPath m t | _, _ => false)
    && decide (e.2.2.1 ≤ 3) && e.2.2.2 == 0) && decide (l.map fun e => 6 * e.1 + e.2.1).Nodup
/-- LATENCY_TABLE's layout (Table 3.13, R513). -/
def latencyLayoutOk (s : State) (p len : Nat) : Bool :=
  ascending ((upto (len / 24)).map fun i => s.le (p + 24 * i) 2) &&
    (upto (len / 24)).all fun i => zeros s (p + 24 * i + 20) 4 && decide (s.le (p + 24 * i + 2) 2 < 4096 ∧ s.le (p + 24 * i + 4) 2 < 4096)
/-- BOUND_TABLE's layout (R86, R513). -/
def boundLayoutOk (s : State) (p len : Nat) : Bool :=
  ascending ((upto (len / 16)).map fun i => s.le (p + 16 * i) 2) &&
    (upto (len / 16)).all fun i => decide (s.le (p + 16 * i + 2) 2 < 4) && zeros s (p + 16 * i + 12) 4
/-- The flows of FLOW_DEFAULTS staged over the image's other S0 records, so that the load of queue 6 is judged at the line rates the image gives
(R222): the first refusal's code, 1 where none (R263). -/
def flowCode (x : ChkCtx) (r : ImgRec) : Nat :=
  let p := r.pay x.base
  let t := (flowDefPairs x.t p).foldl (fun t q => t.setReg (Blk.ste.base + q.1) (q.2 &&& (match findRow rowsSte q.1 with | some r => wd r.wmask | none => 0))) x.t
  (stageAll (flowDefFlows t p) t).2
/-- FLOW_DEFAULTS keeps R263, guarantees beyond a reservation apart. -/
def flowDefaultsOk (x : ChkCtx) (r : ImgRec) : Bool :=
  let s := x.s
  let p := r.pay x.base
  let ps := flowDefPairs s p
  let c := flowCode x r
  ps.all (fun q => flowDefOff q.1) && ps.dropLast.all (fun q => q.1 != 0) && decide (s.le (p + 4 + 8 * s.le p 4) 4 ≤ 8192) && (c == 1 || c == 11 || c == 12)
/-- A MAC that the image pairs has a partner with a MAC_SETUP record and the same SPEED (R215). -/
def pairMacsOk (x : ChkCtx) (n : Nat) : Bool :=
  !(decide (n < 2) && x.t.rbit (macReg n 8) 4) || ((x.pay 0x30 (n + 2)).isSome && macSpeed x.t n == macSpeed x.t (n + 2))
/-- LSP's registers as the LSP_SETUP records before r leave them. -/
def lspBefore (x : ChkCtx) (r : ImgRec) : State :=
  (x.rs.takeWhile (· != r)).foldl (fun t q => if q.typ = 0x51 then (q.pairs x.s x.base).foldl (fun t p => lspPut p.1 p.2 t) t else t) x.t
/-- A record keeps the layout and the limits of its block's chapter (RESOURCE of R75 and R513). -/
def recOk (x : ChkCtx) (r : ImgRec) : Bool :=
  let s := x.s
  let p := r.pay x.base
  match r.typ with
  | 0x03 => seqServiceOk s p
  | 0x10 => cellMapOk s p
  | 0x11 => cellProgramOk x r.inst p
  | 0x12 => cellStateOk x r.inst p
  | 0x20 => matrixBankOk x r.inst p
  | 0x21 => alarmSetOk x p
  | 0x22 => messageStoreOk s p r.len
  | 0x23 => delayLinesOk x p
  | 0x30 => macSetupOk r.inst (r.pairs s x.base) && pairMacsOk x r.inst
  | 0x31 => flowDefaultsOk x r
  | 0x32 => (readPartition s p).floorsOk
  | 0x33 => timeSetupOk (r.pairs s x.base)
  | 0x34 => refSetupOk (r.pairs s x.base)
  | 0x40 => portSetupOk x.t (r.inst / 2) (if r.inst % 2 = 0 then .rx else .tx) (r.pairs s x.base)
  | 0x50 => modSetupOk r.inst x.full (r.pairs s x.base)
  | 0x51 => lspSetupOk (lspBefore x r) r.inst (r.pairs s x.base)
  | 0x60 => pairSetupOk (r.pairs s x.base)
  | 0x61 => slicesOk s p
  | 0x70 => decide (s.le p 4 < 4)
  | 0x80 => latencyLayoutOk s p r.len
  | 0x81 => boundLayoutOk s p r.len
  | _ => true

/-! ### Checks over several records -/

/-- The bound descriptors of a record, as {PATH, POS} (R86, R167, R184). -/
def recDescs (x : ChkCtx) (r : ImgRec) : List (Nat × Nat) :=
  let s := x.s
  let p := r.pay x.base
  if r.typ = 0x11 then (cellStages s p (fun _ => 0)).map fun g => (g.path, g.pos)
  else if r.typ = 0x20 ∧ r.inst = 0 ∧ x.full = true then (boundDescs s p).map fun e => (nbits e.2 0 16, nbits e.2 16 8)
  else []
/-- The bound table after the load (R82, R86). -/
def ChkCtx.bounds (x : ChkCtx) : Tab (Option BoundEnt) :=
  let old := if x.full then [] else x.s.img.boundTab
  match x.rs.find? fun r => r.typ == 0x81 with
  | some r => boundEntries x.s (r.pay x.base) r.len old
  | none => old
/-- The first record whose descriptors repeat a {PATH, POS} or name a path without an entry. -/
def descFail (x : ChkCtx) : List ImgRec → List (Nat × Nat) → Option ImgRec
  | [], _ => none
  | r :: t, seen =>
    let d := recDescs x r
    if decide d.Nodup && d.all (fun e => !seen.contains e && (Tab.get (fun _ => none) x.bounds e.1).isSome) then descFail x t (d ++ seen) else some r

/-- The data words a schedule can write in one block, every predicated instruction taken as enabled (R386): the writes and the run after it. -/
def collectWrites : Nat → Run → List Nat → List Nat × Cell
  | 0, r, acc => (acc, r.c)
  | fuel + 1, r, acc =>
    match decodeCell (r.c.ins r.idx) with
    | .fin => (acc, r.c)
    | .loop count body =>
      collectWrites fuel { r with cyc := r.cyc + 1, idx := r.idx + 1, loops := ⟨r.idx + 1, r.idx + body, count - 1, 0⟩ :: r.loops } acc
    | ins =>
      let acc := match ins with
        | .wb .x40 _ _ _ _ _ _ _ asb | .wb .pair _ _ _ _ _ _ _ asb => (r.address asb).2 :: acc
        | _ => acc
      let r := r.perform ins
      let nx := nextIndex r.idx r.loops
      collectWrites fuel { r with cyc := r.cyc + issueCycles ins, idx := nx.1, loops := nx.2, writes := [], flagW := [] } acc
/-- The writes of a number of blocks. -/
def collectBlocks : Nat → Cell → List Nat → List Nat
  | 0, _, acc => acc
  | n + 1, c, acc =>
    let r := collectWrites 32768 { c := c } acc
    collectBlocks n r.2 r.1
/-- W_c of the logical cell whose program lies at a: distinct data words written in one delta period, at most 16,384. -/
def writeCount (x : ChkCtx) (a : Nat) (st : Option Nat) : Nat :=
  let c := loadProgramAt x.s a {}
  let c := match st with | some b => loadStateAt x.s b c | none => c
  let blocks := ceilDiv (if x.h.fs = 1 then 48000 else 96000) (1000 * (if c.blockN = 0 then 1 else c.blockN))
  min 16384 (collectBlocks blocks c []).eraseDups.length
/-- S and Δ of R386 within their limits. -/
def ckptSizeOk (x : ChkCtx) : Bool :=
  let ps := (upto 64).filterMap fun l => (x.after 0x11 l).map fun a => writeCount x a (x.after 0x12 l)
  let n := ps.length
  decide (16384 + (2432 + 81920) * n + 4325376 + 327680 ≤ 24 * 2 ^ 20) && decide (4096 + 2432 * n + 8 * ps.sum + 65536 ≤ 448 * 1024)

/-- The first RESOURCE failure: records in image order, then their descriptors, then what belongs to no one record. -/
def resourceFail (x : ChkCtx) : Option Failure :=
  match x.rs.find? fun r => !recOk x r with
  | some r => some ⟨.resource, r.idx, r.off⟩
  | none => match descFail x x.rs [] with
    | some r => some ⟨.resource, r.idx, r.off⟩
    | none =>
      let mods := (x.rs.filter fun r => r.typ == 0x50).foldl (fun t r => applyModSetup ((r.pairs x.s x.base).filter fun p => p.1 != 0xC) t) x.t
      if ckptSizeOk x && (!x.full || coefOk mods (x.h.fs == 1)) then none else some ⟨.resource, x.rs.length, x.h.total⟩
/-- CARAFE_OVER (R254). -/
def carafeFail (x : ChkCtx) : Option Failure :=
  match x.rs.find? fun r => (r.typ == 0x32 && (readPartition x.s (r.pay x.base)).over) || (r.typ == 0x31 && (flowCode x r == 11 || flowCode x r == 12)) with
  | some r => some ⟨.carafeOver, r.idx, r.off⟩
  | none => none
/-- REGION (R80, Table 3.9, Table 3.24). From a swap's admission to its end both banks are in use (R190). -/
def regionFail (x : ChkCtx) : Option Failure :=
  if x.full then none
  else
    let k := x.h.regionKind
    let sel := x.h.regionSel
    let selOk := (k == 1 && sel != 0) || (k == 2 && decide (sel ≤ 1)) || (k == 3 && decide (sel ≤ 31)) || (k == 4 && decide (sel ≤ 3))
    if !selOk then some ⟨.region, 0, 0⟩
    else
      let out (r : ImgRec) : Bool :=
        decide (r.typ < 0x8000) && !(match recType r.typ with
          | some t => t.regions.contains k && (match r.typ with
              | 0x11 | 0x12 => nbit sel r.inst
              | 0x20 => r.inst == sel && (if x.s.img.cold then r.inst != 0 else r.inst != x.s.mxe.active && !x.s.mxe.swapPending)
              | 0x40 | 0x50 | 0x51 => r.inst == sel
              | _ => true)
          | none => false)
      match x.rs.find? out with
      | some r => some ⟨.region, r.idx, r.off⟩
      | none => none
/-- The latency check (R85): entries of the image, against the destination map after the load. -/
def latencyFail (x : ChkCtx) : Option Failure :=
  match x.rs.find? fun r => r.typ == 0x80 with
  | none => none
  | some r =>
    let s := x.s
    let p := r.pay x.base
    let dst := x.maps.2
    let ok (i : Nat) : Bool :=
      let b := p + 24 * i
      let e := (s.byte (b + 7)).toNat
      s.le (b + 16) 4 == 1024 * (s.le (b + 8) 2 + (s.byte (b + 6)).toNat + s.le (b + 10) 2 + e) + s.le (b + 12) 4 &&
        (mapKind (Tab.get (fun _ => 0) dst (s.le (b + 4) 2)) != 2 || e == 4)
    if (upto (r.len / 24)).all ok then none else some ⟨.latency, r.idx, r.off⟩

/-! ### The bound check at a load (R87, R109, R187) -/

/-- The cells' stages after the load: over the words each logical cell will hold. -/
def ChkCtx.cellStages (x : ChkCtx) : List Stage :=
  ((upto 64).map fun l => match x.after 0x11 l with
    | none => []
    | some a =>
      let fresh := x.full || x.s.img.cold || nbit x.h.regionSel l && x.h.regionKind == 1
      let word : Nat → Nat :=
        if fresh then (match x.after 0x12 l with | some b => (loadStateAt x.s b {}).word | none => fun _ => 0)
        else (match physOf x.s l with | some p => (x.s.cell p).word | none => fun _ => 0)
      Machine.cellStages x.s a word).flatten
/-- The matrix descriptors and the bank in use after the load. -/
def ChkCtx.bankAfter (x : ChkCtx) : Tab Nat × Tab Xpt :=
  if x.full || x.s.img.cold then
    (match x.mapRec with | some a => boundDescs x.s a | none => [],
     match x.after 0x20 0 with | some a => bankEntries x.s a | none => [])
  else (x.s.mxe.bounds, x.s.mxe.bank x.s.mxe.active)
/-- The failing paths of the bank in use, and those of the alarm set. -/
def loadBoundFails (x : ChkCtx) : List BoundFail × List BoundFail :=
  let cs := x.cellStages
  let b := x.bankAfter
  let al := match x.after 0x21 0 with | some a => boundFails x.bounds (matrixStages b.1 (alarmEntries x.s a) ++ cs) | none => []
  (boundFails x.bounds (matrixStages b.1 b.2 ++ cs), al)

/-- What the bound check of a load answers: the failure, the paths it reports, the paths it accepts unbounded. -/
structure BoundAns where
  fail : Option Failure
  report : List BoundFail
  accepted : List Nat
deriving DecidableEq, Repr
/-- The bound check of a load or verify: a failing path is accepted where its UNBOUNDED flag is set and the command allows it. The
paths reported are the failing ones, accepted or not, those of the bank in use before those of the alarm set (R109). -/
def loadBound (x : ChkCtx) (allow : Bool) : BoundAns :=
  let f := loadBoundFails x
  let hard := (f.1.filter fun e => !(allow && e.unb)) ++ f.2
  if hard = [] then ⟨none, f.1, f.1.map (·.path)⟩
  else
    let at_ := match x.rs.find? fun r => r.typ == 0x81 with | some r => (r.idx, r.off) | none => (x.rs.length, x.h.total)
    ⟨some ⟨.boundExceeded, at_.1, at_.2⟩, f.1 ++ f.2, []⟩

/-- The checks of CHECKING before the bound check, in the order of Table 3.10. -/
def checkingFail (x : ChkCtx) : Option Failure :=
  let s := x.s
  let hd (e : LoadErr) : Option Failure := some ⟨e, 0, 0⟩
  let boot := x.rs.find? fun r => r.typ == 2
  if s.img.fuses.step < x.h.minStep then hd .stepping
  else if s.img.dramGib < x.h.dramMin then hd .dramSize
  else match (if x.full then boot else none) with
    | some r => if s.img.bootRec ≠ some (s.bytes (x.base + r.off) (16 + r.len)) then some ⟨.bootMismatch, r.idx, r.off⟩ else rest x
    | none => rest x
where
  /-- The checks after BOOT_MISMATCH. -/
  rest (x : ChkCtx) : Option Failure :=
    if !x.full && (x.h.fs == 1) != x.s.sys.fs48 then some ⟨.fsChange, 0, 0⟩
    else if !x.full && x.h.baseId != x.s.img.activeId then some ⟨.baseMismatch, 0, 0⟩
    else (regionFail x).or ((resourceFail x).or ((carafeFail x).or (latencyFail x)))

/-- The context of the image at base. -/
def checkCtx (s : State) (base : Nat) : ChkCtx :=
  let h := headerAt s base
  let rs := imageRecords s base
  let t := { s with sys := { s.sys with fs48 := h.fs == 1 } }
  ⟨s, if h.kind = 0 then applyS0 base (rs.filter fun r => r.typ != 0x31 && r.typ != 0x60) t else t, base, h, rs⟩

end Sys2Proof.Machine
end

