-- ==== Sys2Proof/Machine/Retime.lean ====
section
/-! DEFINITION. The ticks are numbered again, at the alignment of R17 and at a change of FS: what falls due at a tick keeps the
time that remained (R18). -/
namespace Sys2Proof.Machine
open Sys2Proof

/-- A sample frame under a renumbering f of the ticks: the first frame at or after the same time. -/
def reFrame (f : Nat → Nat) (k : Nat) : Nat := ceilDiv (f (64 * k)) 64
/-- The tick of a frame boundary under a renumbering. -/
def reBoundary (f : Nat → Nat) (t : Nat) : Nat := 64 * ceilDiv (f t) 64
/-- The values of a table change. -/
def mapTab {α : Type} (f : α → α) (t : Tab α) : Tab α := t.map fun e => (e.1, f e.2)
/-- The ticks and frames a MAC keeps. -/
def reMac (f : Nat → Nat) (m : Mac) : Mac :=
  { m with enabledAt := m.enabledAt.map f, headSince := mapTab f m.headSince, creditAt := f m.creditAt, pauseSince := f m.pauseSince,
           heldFrom := m.heldFrom.map f, holdoff := m.holdoff.map f, rxTail := m.rxTail.map f }
/-- The ticks a PTP port keeps. -/
def rePtp (f : Nat → Nat) (p : PtpPort) : PtpPort :=
  { p with masters := p.masters.map (fun x => { x with heard := f x.heard }), twoStepAt := f p.twoStepAt, reqAt := p.reqAt.map f,
           syncAt := p.syncAt.map f, annAt := p.annAt.map f,
           syncSince := p.syncSince.map f, upd := p.upd.map fun u => { u with due := f u.due } }
/-- The ticks and frames a port direction keeps. START_AT is a tick number a host wrote: it keeps its number. -/
def reDir (f : Nat → Nat) (x : AptDir) : AptDir :=
  { x with dataAt := if x.st = .armed then x.dataAt else reBoundary f x.dataAt, zeroFrom := f x.zeroFrom, stopAt := f x.stopAt,
           muteAt := x.muteAt.map (reFrame f), unmuteAt := x.unmuteAt.map (reFrame f), zeroUntil := reFrame f x.zeroUntil,
           hizUntil := reFrame f x.hizUntil, startTick := x.startTick.map f }
/-- The ticks and frames a channel keeps. -/
def reMod (f : Nat → Nat) (x : Mod) : Mod :=
  { x with waitEnd := f x.waitEnd, runSince := f x.runSince, trunc := x.trunc.map f, lims := [],
           ramp := x.ramp.map fun r => { r with start := reFrame f r.start } }
/-- The frames a flow keeps. -/
def reFlow (f : Nat → Nat) (x : Flow) : Flow :=
  { x with lastP := x.lastP.map (reFrame f), lastS := x.lastS.map (reFrame f), since := reFrame f x.since, built := x.built.map (reFrame f) }
/-- The ticks PAIR keeps. -/
def rePair (f : Nat → Nat) (p : Pair) : Pair :=
  { p with leaseFrom := f p.leaseFrom, lastPilot := p.lastPilot.map f, pilotTick := p.pilotTick.map f, lightAt := f p.lightAt,
           heardAt := f p.heardAt, rampEnd := p.rampEnd.map (reBoundary f), releasedAt := p.releasedAt.map f,
           sweepNext := p.sweepNext.map f }
/-- The renumbering of the blocks that hold ticks of their own. -/
def reSys (f : Nat → Nat) (y : Sys) : Sys :=
  { y with tick := f y.tick, rampEnd := y.rampEnd.map (reBoundary f), frameAt := none, windowAt := none,
           intA := { y.intA with last := y.intA.last.map f }, intB := { y.intB with last := y.intB.last.map f } }
def reImg (f : Nat → Nat) (i : Img) : Img :=
  { i with doneAt := i.doneAt.map f, partialJob := i.partialJob.map (fun j => { j with due := reBoundary f j.due }) }
def reFabric (f : Nat → Nat) (x : Fabric) : Fabric :=
  { x with mig := x.mig.map (fun m => { m with bs := if m.bs ≤ 1 then m.bs else reBoundary f m.bs }),
           ramps := mapTab (fun r => r.map fun r => { r with start := reFrame f r.start }) x.ramps }
def rePlayer (f : Nat → Nat) (p : Player) : Player :=
  { p with start := if p.state = .armed then p.start else reFrame f p.start, stopFrame := reFrame f p.stopFrame }
def reMxe (f : Nat → Nat) (m : Mxe) : Mxe :=
  { m with alarmDue := m.alarmDue.map (reBoundary f), openedAt := m.openedAt.map f, players := mapTab (rePlayer f) m.players }
def reSte (f : Nat → Nat) (y : Ste) : Ste :=
  { y with flows := mapTab (reFlow f) y.flows, poppedAt := y.poppedAt.map f, hist := y.hist.map (fun e => (reFrame f e.1, e.2)) }
def reRsu (f : Nat → Nat) (r : Rsu) : Rsu :=
  { r with startAt := r.startAt.map f, firstElig := r.firstElig.map f, refs := mapTab (fun x => { x with since := f x.since }) r.refs }
def reLsp (f : Nat → Nat) (l : Lsp) : Lsp :=
  { l with stepped := none, cal := { l.cal with from_ := reFrame f l.cal.from_ } }
/-- The renumbering of the whole part by f. -/
def retime (f : Nat → Nat) (s : State) : State :=
  let s := { s with sys := reSys f s.sys, sems := mapTab (fun x => { x with since := f x.since }) s.sems, img := reImg f s.img }
  let s := { s with fabric := reFabric f s.fabric, mxe := reMxe f s.mxe, macs := mapTab (reMac f) s.macs, ste := reSte f s.ste }
  let s := { s with dly := { s.dly with lines := mapTab (fun l => { l with since := reFrame f l.since }) s.dly.lines } }
  let s := { s with ptu := { s.ptu with portA := rePtp f s.ptu.portA, portB := rePtp f s.ptu.portB }, rsu := reRsu f s.rsu }
  let s := { s with apt := mapTab (reDir f) s.apt, pwr := { s.pwr with chs := mapTab (reMod f) s.pwr.chs }, lsp := reLsp f s.lsp }
  let s := { s with dma := { s.dma with chs := mapTab (fun c => { c with waitFrom := f c.waitFrom }) s.dma.chs } }
  let s := { s with hpa := { s.hpa with resetAt := s.hpa.resetAt.map f }, hpb := { s.hpb with resetAt := s.hpb.resetAt.map f } }
  { s with pair := rePair f s.pair, ckpt := { s.ckpt with baseTick := f s.ckpt.baseTick } }

/-- What falls due at tick t of the old numbering: the first tick of the new one at or after the same selected time (R18). -/
def rateTick (old new t : Nat) : Nat := ceilDiv (t * new) old
/-- The number of the current tick in the new numbering: floor(T * 64 * FS) of its selected time (R16, R18). -/
def rateNow (old new t : Nat) : Nat := t * new / old

end Sys2Proof.Machine
end

