-- ==== Sys2Proof/Machine/Load.lean ====
section
/-! DEFINITION. Boot and loading: the boot phases, the commands of IMG.CTRL, the stages of a load, acceptance, the configuration
of the blocks from the image store, and partial loads (R52 to R90, R119, R121, R513). -/
namespace Sys2Proof.Machine
open Sys2Proof

/-! ### FUSE and SRAM_INIT (R54, R60, R61) -/

/-- Bits [lo+n-1:lo] of the TRIM fuse. -/
def trimField (f : Fuses) (lo n : Nat) : Nat := nbits f.trim lo n
/-- TRIM_CRC matches: CRC-16-CCITT over bits [495:0], bits [7:0] first (R61). -/
def trimOk (f : Fuses) : Bool := chkBytes 2 0xFFFF (leBytes 62 f.trim) == trimField f 496 16
/-- A fused rail gain in the range R110 accepts. -/
def railGainOk (f : Fuses) (g : Nat) : Bool := decide (0x200000 ≤ trimField f (160 + 23 * g) 23)
/-- The trims load into their registers (Table 3.23), or the untrimmed values where R61 says so. -/
def loadTrims (s : State) : State :=
  let f := s.img.fuses
  let ok := trimOk f
  let ref (i : Nat) : Word := if ok then wd (trimField f (20 * i) 20) else 0
  let s := (upto 3).foldl (fun s i => s.setReg (Blk.lsp.base + 0x28 + 4 * i) (ref i)) s
  let s := (upto 4).foldl (fun s g =>
    let fit := ok && railGainOk f g
    let s := s.setReg (Blk.pwr.base + 0x104 + 16 * g) (if fit then wd (trimField f (64 + 24 * g) 24) else 0)
    s.setReg (Blk.pwr.base + 0x108 + 16 * g) (wd (if fit then trimField f (160 + 23 * g) 23 else 0x400000))) s
  let analogue (i : Nat) : Nat :=
    if !ok then 0x800
    else if i < 5 then trimField f (256 + 12 * i) 12 else if i < 10 then trimField f (320 + 12 * (i - 5)) 12 else trimField f (384 + 12 * (i - 10)) 12
  s.updImg fun i => { i with trims := (upto 13).map fun k => (k, analogue k), trimBad := !ok || !((upto 4).all (railGainOk f)) }
/-- FUSE_PHASE_END: the fuses are in their registers, and every port serves reads (R54, R56). -/
def fusePhaseEnd (s : State) : State :=
  if s.img.boot = .fuse then (loadTrims s).updImg fun i => { i with fuseRead := true, boot := .sramInit } else s
/-- The meaning of FUSE_PHASE_END. -/
def execFusePhaseEnd (s : State) : Res := .next (fusePhaseEnd s)
/-- The log starts cleared (R407). -/
def logReset (l : Log) : Log := { l with queue := [], seq := 0, stored := 0, ovw := 0, lost := 0 }

/-! ### The BOOT record and MEM_INIT (R57, R58, R68, R69, R469) -/

/-- A flash boot goes on: not ended by Table 3.2, and no image accepted yet. -/
def flashActive (s : State) : Bool := decide (2 ≤ s.img.bootSrc) && !s.img.flashOver && s.img.boot != .done
/-- The flash offset of the copy in use: 0, or C / 2 (R57). -/
def flashCopy (s : State) : Nat := if s.img.flashTry = 2 then 2 ^ bits s.flc.dev 0 8 / 2 else 0
/-- A copy failed: the second copy is tried, or the flash boot ends by Table 3.2 (R55, R57). -/
def flashFail (s : State) : State :=
  if s.img.flashTry = 1 then s.updImg fun i => { i with flashTry := 2, boot := if i.memReady then .waitImage else .waitBoot }
  else if s.img.bootSrc = 3 then
    s.updImg fun i => { i with flashOver := true, flashFallback := true, boot := if i.memReady then .waitImage else .waitBoot }
  else s.updImg fun i => { i with flashOver := true, boot := .waitImage, state := .empty }
/-- The offset / value pairs of a BOOT record's bytes, header included. -/
def bootPairs (l : List Byte) : List (Nat × Word) :=
  (upto ((l.length - 16) / 8)).map fun i => (leNat ((l.drop (16 + 8 * i)).take 4), wd (leNat ((l.drop (20 + 8 * i)).take 4)))
/-- The BOOT record whose first n bytes `get n` gives, if it is not BOOT_BAD (R58, R469). -/
def bootRecord (get : Nat → List Byte) : Option (List Byte) :=
  let h := get 16
  let len := leNat ((h.drop 4).take 4)
  if leNat (h.take 2) ≠ 2 ∨ len % 8 ≠ 0 ∨ len > 32768 then none
  else
    let r := get (16 + len)
    if crc32c (r.take 12 ++ r.drop 16) ≠ leNat ((r.drop 12).take 4) then none
    else if (bootPairs r).all fun p => p.1 == 8 || (p.1 % 4 == 0 && decide (0x100 ≤ p.1 ∧ p.1 ≤ 0x110)) then some r else none
/-- SEQ checks a BOOT record, applies it, and DRAM initialisation starts; a bad one sets MEM_FAIL and returns to WAIT_BOOT. -/
def startMemInit (r : Option (List Byte)) (s : State) : State :=
  match r with
  | none => (loadErr ⟨.bootBad, 0, 0⟩ s).updImg fun i => { i with memFail := true, boot := .waitBoot, initBusy := false }
  | some l =>
    let s := (bootPairs l).foldl (fun s p => (memcConfigWrite p.1 p.2 s).1) s
    s.updImg fun i => { i with memFail := false, initBusy := true, initRec := l, boot := .memInit }
/-- FLASH_BOOT_RECORD_READ: SFDP gives the device's parameters, and the BOOT record of the copy in use is checked (R57). -/
def flashBootRecordRead (dev : Word) (s : State) : State :=
  if flashActive s && s.img.boot == .waitBoot then
    let s := updFlc (fun x => { x with dev := dev }) (s.updImg fun i => { i with flashTry := max 1 i.flashTry })
    match bootRecord fun n => flashBytes s.flc (flashCopy s + 80) n with
    | none => flashFail (startMemInit none s)
    | some r => startMemInit (some r) s
  else s
/-- The meaning of FLASH_BOOT_RECORD_READ. -/
def execFlashBootRecordRead (dev : Word) (s : State) : Res := .next (flashBootRecordRead dev s)
/-- MEM_INIT_END: training succeeds with a supported capacity, or MEM_FAIL is set and the phase returns to WAIT_BOOT (R58, R69, R468). -/
def memInitEnd (trainErr gib : Nat) (s : State) : State :=
  if s.img.boot = .memInit then
    let bad := if trainErr ≠ 0 then trainErr else if gib = 2 ∨ gib = 4 ∨ gib = 8 ∨ gib = 12 ∨ gib = 16 then 0 else 6
    let s := updMemc (fun m => { m with trainErr := bad }) (s.updImg fun i => { i with initBusy := false })
    if bad ≠ 0 then
      let s := s.updImg fun i => { i with memFail := true, boot := .waitBoot }
      if flashActive s then flashFail s else s
    else
      let s := s.updImg fun i => { i with memReady := true, memFail := false, dramGib := gib, bootRec := some i.initRec, boot := .waitImage }
      evt .img 0 (memcInit s)
  else s
/-- The meaning of MEM_INIT_END. -/
def execMemInitEnd (trainErr : Fin 7) (gib : Nat) (s : State) : Res := .next (memInitEnd trainErr.val gib s)

/-! ### Commands of IMG.CTRL (R74, Table 3.8) -/

/-- IMG.SRC. -/
def imgSrc (s : State) : Nat := (s.reg 0x40010004).toNat + 2 ^ 32 * s.fld 0x40010008 0 4
/-- A load, a verify or an INIT_MEM is in progress. -/
def imgBusy (s : State) : Bool := s.img.job.isSome || s.img.partialJob.isSome || s.img.initBusy
/-- A refusal records its code and leaves STATUS as it is. That ERR.RECORD reads 0 after it is the model's choice (notes/assumptions/14). -/
def imgRefuse (e : LoadErr) (s : State) : State := s.updImg fun i => { i with errCode := e.code, errRecord := 0 }
/-- An admitted load or verify starts READING. -/
def startJob (partialImg verify allow : Bool) (s : State) : State :=
  let src := imgSrc s
  let s := s.updImg fun i =>
    { i with job := some { partialImg := partialImg, verify := verify, allowUnb := allow, src := src, prev := i.state }, state := .reading,
             progress := 0, abortMoot := false, partialImg := if verify then i.partialImg else partialImg,
             boot := if !partialImg && !verify && i.boot == .waitImage then .loader else i.boot }
  settle s
/-- SEQ has not reached WAIT_BOOT. -/
def beforeWaitBoot (s : State) : Bool := s.img.boot == .pllWait || s.img.boot == .fuse || s.img.boot == .sramInit
/-- The BOOT record that an admitted INIT_MEM names is checked and applied (R58). -/
def initFrom (s : State) : State := startMemInit (bootRecord fun n => s.bytes (imgSrc s) n) s
/-- The memories that SRAM_INIT clears: carafe, working RAM, cell memories and matrix tables hold zero (Table 3.1). -/
def sramCleared (s : State) : State :=
  let s := { s with mem := s.mem.filter (fun e => decide (dramBase ≤ e.1)), memUe := s.memUe.filter (fun w => decide (dramBase ≤ w)), poisoned := [] }
  let s := { s with cells := mapTab (fun c => { c with data := [], dataEcc := [], prog := [], progEcc := [] }) s.cells }
  let s := s.updMxe fun m => { m with bank0 := [], bank1 := [], par0 := [], par1 := [], srcMap := [], dstMap := [], bounds := [] }
  (s.updSys fun y => { y with log := logReset y.log }).updImg fun i => { i with boot := .waitBoot }
/-- SRAM_INIT_END: the memories hold zero, and an INIT_MEM that was admitted before is taken up. -/
def sramInitEnd (s : State) : State :=
  if s.img.boot = .sramInit then
    let s := sramCleared s
    if s.img.initBusy then initFrom s else s
  else s
/-- The meaning of SRAM_INIT_END. -/
def execSramInitEnd (s : State) : Res := .next (sramInitEnd s)
/-- INIT_MEM (Table 3.8). Before WAIT_BOOT the admitted command is in progress, and SEQ takes it up in that phase (the order of the
phases is R54's; that the command waits for its phase is the model's reading, notes/assumptions/38). -/
def initMem (s : State) : State :=
  if imgBusy s then imgRefuse .busy s
  else if s.img.memReady then imgRefuse .notAdmitted s
  else
    let s := s.updImg fun i => { i with abortMoot := false }
    if beforeWaitBoot s then s.updImg fun i => { i with initBusy := true } else initFrom s
/-- LOAD_FULL. -/
def loadFull (allow : Bool) (s : State) : State :=
  if s.sys.snuffed then imgRefuse .snuffed s
  else if imgBusy s then imgRefuse .busy s
  else if !s.img.memReady || s.sys.run || s.sys.phase != .stopped || s.sys.maint then imgRefuse .notAdmitted s
  else startJob false false allow s
/-- The region of the partial image at SRC meets a migration: a logical cell of its CELLS region has one, queued ones included (R173). -/
def regionMigrates (s : State) : Bool :=
  let h := headerAt s (imgSrc s)
  h.regionKind == 1 && (upto 64).any fun l => nbit h.regionSel l && (physOf s l).any fun p => (s.cell p).mig.phase != .none
/-- The region of the partial image at SRC is a port direction that a START of this tick has started (Table 12.4). -/
def regionStarts (s : State) : Bool :=
  let h := headerAt s (imgSrc s)
  h.regionKind == 3 && (s.aptDir (h.regionSel / 2) (if h.regionSel % 2 = 0 then .rx else .tx)).startTick == some s.sys.tick
/-- LOAD_PARTIAL. R173 and Table 12.4 refuse a load by its region in the tick of the command, so the header at SRC is read there
(DEDUCED, notes/assumptions/29). -/
def loadPartial (allow : Bool) (s : State) : State :=
  if s.sys.snuffed then imgRefuse .snuffed s
  else if imgBusy s then imgRefuse .busy s
  else if noImage s then imgRefuse .noBase s
  else if s.sys.alarm || storeBarred s || regionMigrates s || regionStarts s then imgRefuse .notAdmitted s
  else startJob true false allow s
/-- VERIFY. -/
def verify (allow : Bool) (s : State) : State :=
  if imgBusy s then imgRefuse .busy s
  else if !s.img.memReady then imgRefuse .notAdmitted s
  else startJob false true allow s
/-- ABORT: ends a load or verify before APPLYING; moot in APPLYING and in the tick of a completion (R88). -/
def imgAbort (s : State) : State :=
  match s.img.job with
  | some j =>
    if s.img.state = .applying then s.updImg fun i => { i with abortMoot := true }
    else s.updImg fun i => { i with job := some { j with aborting := true } }
  | none => if s.img.doneAt = some s.sys.tick then s.updImg fun i => { i with abortMoot := true } else s
/-- The command codes of IMG.CTRL. -/
def imgCommand (c : Nat) (allow : Bool) (s : State) : State :=
  match c with
  | 1 => loadFull allow s | 2 => loadPartial allow s | 3 => verify allow s | 4 => imgAbort s | 5 => initMem s
  | 6 | 7 => imgRefuse .badCmd s
  | _ => s
/-- A write of IMG.CTRL. -/
def imgCtrlWrite (v : Word) (s : State) : State := imgCommand (bits v 0 3) (bit v 8) (s.setReg 0x40010000 (v &&& 0x107))
/-- The word of IMG.CTRL with a command. -/
def imgWord (c : Nat) (allow : Bool) : Word := pack [(0, c), (8, b2n allow)]
/-- INIT_MEM. -/
def execInitMem (m : Master) (s : State) : Res := .next (cmd m true (imgCtrlWrite (imgWord 5 false)) s)
/-- LOAD_FULL. -/
def execLoadFull (m : Master) (allowUnb : Bool) (s : State) : Res := .next (cmd m true (imgCtrlWrite (imgWord 1 allowUnb)) s)
/-- LOAD_PARTIAL. -/
def execLoadPartial (m : Master) (allowUnb : Bool) (s : State) : Res := .next (cmd m true (imgCtrlWrite (imgWord 2 allowUnb)) s)
/-- VERIFY. -/
def execVerify (m : Master) (allowUnb : Bool) (s : State) : Res := .next (cmd m true (imgCtrlWrite (imgWord 3 allowUnb)) s)
/-- IMG_ABORT. -/
def execImgAbort (m : Master) (s : State) : Res := .next (cmd m true (imgCtrlWrite (imgWord 4 false)) s)
/-- IMG_BAD_CMD: codes 6 and 7. -/
def execImgBadCmd (m : Master) (code : Fin 2) (s : State) : Res := .next (cmd m true (imgCtrlWrite (imgWord (6 + code.val) false)) s)
/-- LAT_QUERY: LAT_RESULT then shows the published entry of the path (R85). -/
def execLatQuery (m : Master) (path : Fin 65536) (s : State) : Res := .next (cmd m false (fun s => s.setReg 0x40010030 (wd path.val)) s)
/-- FLASH_IMAGE_COPY_END: the copy's image lies in slot 0, IMG.SRC shows the slot, and the loader starts (R57). -/
def flashImageCopyEnd (s : State) : State :=
  if flashActive s && s.img.boot == .waitImage && s.img.memReady && !imgBusy s && !s.sys.snuffed then
    let a := flashCopy s
    let total := min slotSize (leNat (flashBytes s.flc (a + 40) 4))
    let s := s.setBytes (slotBase 0) (flashBytes s.flc a total)
    let s := (s.setReg 0x40010004 (wd (slotBase 0))).setReg 0x40010008 (wd (slotBase 0 / 2 ^ 32))
    let s := startJob false false false s
    s.updImg fun i => { i with flashTry := max 1 i.flashTry, job := i.job.map fun j => { j with flash := true } }
  else s
/-- The meaning of FLASH_IMAGE_COPY_END. -/
def execFlashImageCopyEnd (s : State) : Res := .next (flashImageCopyEnd s)

/-! ### The stages before APPLYING (R75) -/

/-- A failing check ends the load or verify with REJECTED (R75); a flash boot goes on by R57. -/
def loadReject (f : Failure) (s : State) : State :=
  let fl := s.img.job.any fun j => j.flash
  let s := raise .img 0 (loadFail f s)
  if fl then flashFail s else s
/-- n bytes at a lie in memory that IMG reads, with no uncorrectable word. -/
def imgReads (s : State) (a n : Nat) : Bool :=
  ((decide (carafeBase ≤ a) && decide (a + n ≤ logEnd)) || (decide (dramBase ≤ a) && decide (a + n ≤ dramBase + dramCap s))) &&
    !(wordsOf a n).any (wordUe s)
/-- The job in progress, in a stage, not being aborted. -/
def stageJob (st : LoadState) (s : State) : Option LoadJob := if s.img.state = st then s.img.job.filter fun j => !j.aborting else none
/-- READING_END: the structure checks; a load's image then lies in its slot or at the journal's tail, and AUTH starts (Table 3.10).
STATUS.PROGRESS, the MiB read, takes its value only here and in whole MiB, rounded down: it is 0 while READING runs and after a READING
that failed, since the table has no command at which it could move before (DESIGN CHOICE, notes/assumptions/14). -/
def readingEnd (s : State) : State :=
  match stageJob .reading s with
  | none => s
  | some j =>
    let src := j.src
    let part := if j.verify then (headerAt s src).kind == 1 else j.partialImg
    match readingCheck s (imgReads s) src part with
    | some f =>
      let s := match (if f.err = .busError then (wordsOf (src + f.pos) 67108880).find? (wordUe s) else none) with
        | some w => memUeRaise w s
        | none => s
      loadReject f s
    | none =>
      let n := (headerAt s src).total
      let target := if j.verify then src else if part then journalTail s else slotBase (if s.img.accepted then 1 - s.img.slot else 0)
      let s := if target = src then s else s.setBytes target (s.bytes src n)
      s.updImg fun i => { i with state := .auth, progress := n / 2 ^ 20, job := some { j with partialImg := part, src := target, len := n } }
/-- The meaning of READING_END. -/
def execReadingEnd (s : State) : Res := .next (readingEnd s)
/-- AUTH_END (R71, R72). -/
def authEnd (s : State) : State :=
  match stageJob .auth s with
  | none => s
  | some j =>
    match (imageRecords s j.src).getLast? with
    | none => s
    | some sg =>
      let r := authCheck s j.src sg
      match (if s.img.fuses.secure then r else none) with
      | some e => loadReject ⟨e, sg.idx, sg.off⟩ s
      | none => (s.updImg fun i => { i with state := .checking, job := some { j with authentic := r.isNone } }).updLdg fun g => { g with busy := true }
/-- The meaning of AUTH_END. -/
def execAuthEnd (s : State) : Res := .next (authEnd s)

/-! ### S1 records: the blocks configured from the image store (R73, R78, R119, R121, R186) -/

/-- The mapping of an accepted full image, in the tick of acceptance (R119). -/
def applyMap (s : State) : State :=
  match storeRec s 0x10 0 with
  | none => s
  | some (a, _) =>
    let phys (l : Nat) : Option Nat := cellMapAt s a l
    let order := (upto 8).filterMap fun i => cellMapAt s a (64 + i)
    let s := { s with fabric := { ({} : Fabric) with map := (upto 64).foldl (fun t l => Tab.set (fun _ => none) t l (phys l)) [], spareOrder := fullSpareOrder order } }
    (upto 72).foldl (fun s p =>
      match (upto 64).find? fun l => phys l == some p with
      | some l => s.updCell p fun c => { c with role := if hasProgram s l then .active else .idle, logical := some l, configured := false, halt := false, sched := false, mig := {} }
      | none => s.updCell p fun c => if c.role = .fenced then { c with logical := none } else { c with role := .test, logical := none, configured := false, halt := false, sched := false, mig := {} }) s
/-- One S1 record of a store image at base, cells, lines, alarm set and messages apart. -/
def applyS1Rec (base : Nat) (full : Bool) (s : State) (r : ImgRec) : State :=
  match r.typ with
  | 0x20 => applyBank (r.pay base) r.inst full s
  | 0x40 => portApply r.inst (r.pairs s base) s
  | 0x50 => applyModSetup (r.pairs s base) s
  | 0x51 => applyLspSetup r.inst (r.pairs s base) s
  | _ => s
/-- The blocks are configured from the active slot, then from the journal in journal order (R73, R78). -/
def applyS1 (s : State) : State :=
  let s := (upto 64).foldl placeCell s
  let s := (upto 64).foldl configCell s
  let s := (storeImages s).foldl (fun s b => (imageRecords s b).foldl (applyS1Rec b (b == slotBase s.img.slot)) s) s
  let s := matrixConfigured s
  let s := match storeRec s 0x23 0 with
    | some (a, _) => applyLines a s
    | none => { s with dly := { s.dly with lines := [] } }
  let s := s.updMxe fun m => { m with players := [], queue := [], routeWait := false }
  settle (s.updImg fun i => { i with cold := false, stale := false })

/-! ### CHECKING, APPLYING and acceptance (R75 to R79, R87) -/

/-- The job ends well: READY, LOAD_DONE as a completion. -/
def jobDone (s : State) : State := evt .img 1 (s.updImg fun i => { i with job := none, doneAt := some s.sys.tick })
/-- Paths accepted unbounded by a load: LDG flags them, and UNBOUNDED is raised once (R87, R106, R109). -/
def acceptUnbounded (l : List Nat) (s : State) : State :=
  let s := (s.updLdg fun g => { g with unbPaths := l, unbNext := [] }).updImg fun i => { i with unbounded := l != [] }
  if l = [] then s else raise .ldg 2 s
/-- A partial load completes (R81, R82): the journal, the published tables, READY. -/
def partialDone (j : LoadJob) (s : State) : State :=
  let rs := imageRecords s j.src
  let s := rs.foldl (fun s r =>
    if r.typ = 0x80 then s.updImg fun i => { i with latTab := latEntries s (r.pay j.src) r.len i.latTab }
    else if r.typ = 0x81 then s.updImg fun i => { i with boundTab := boundEntries s (r.pay j.src) r.len i.boundTab }
    else s) s
  let s := s.updImg fun i => { i with journal := i.journal ++ [(j.src, j.len)], state := .ready, partialJob := none, auth := i.auth && j.authentic }
  let s := if j.authentic then s else raise .img 1 s
  settle (dequeueMig (jobDone (acceptUnbounded j.unbounded s)))
/-- The physical cells of the logical cells a CELLS region selects. -/
def selCells (s : State) (sel : Nat) : List Nat := (upto 64).filterMap fun l => if nbit sel l then physOf s l else none
/-- A ramp of the returns of the logical cells a region selects, from a frame on (R81). -/
def rampCells (sel k : Nat) (up : Bool) (s : State) : State :=
  { s with fabric := { s.fabric with ramps := (upto 64).foldl (fun t l => if nbit sel l then Tab.set (fun _ => none) t l (some ⟨k, up⟩) else t) s.fabric.ramps } }
/-- The channels of a group that run, as bits. -/
def runningMask (s : State) (g : Nat) : Nat :=
  ((upto 8).map fun i => let x := s.mod (8 * g + i); if x.en then 2 ^ i else 0).sum
/-- The application of a partial load starts (R81). -/
def startPartial (j : LoadJob) (s : State) : State :=
  let h := headerAt s j.src
  let b := nextBoundary s.sys.tick
  let pj (p : PartialPhase) (due : Nat) : State → State := fun s =>
    s.updImg fun i => { i with state := .applying, partialJob := some { kind := h.regionKind, sel := h.regionSel, addr := j.src, len := j.len, phase := p, due := due } }
  match h.regionKind with
  | 1 => pj .rampOut (b + 4096) (rampCells h.regionSel (b / 64) false s)
  | 2 => pj .config 0 ((imageRecords s j.src).foldl (applyS1Rec j.src false) s)
  | 3 => pj .config 0 (aptClearEn (h.regionSel / 2) (if h.regionSel % 2 = 0 then .rx else .tx) s)
  | _ =>
    let g := h.regionSel
    let mask := runningMask s g
    let s := (upto 8).foldl (fun s i => if (s.mod (8 * g + i)).en then chStop1 (8 * g + i) s else s) s
    (pj .modOff 0 s).updImg fun i => { i with partialJob := i.partialJob.map fun p => { p with mask := mask } }
/-- CHECKING_END: the checks of Table 3.10; a verify ends, a partial load in STANDBY completes, any other load enters APPLYING. -/
def checkingEnd (s : State) : State :=
  match stageJob .checking s with
  | none => s
  | some j =>
    let x := checkCtx s j.src
    let s := boundNext s
    match checkingFail x with
    | some f => loadReject f s
    | none =>
      let b := loadBound x j.allowUnb
      let s := boundResult false (b.accepted != []) b.report s
      match b.fail with
      | some f => loadReject f s
      | none =>
        if j.verify then jobDone (s.updImg fun i => { i with state := j.prev })
        else
          let j := { j with unbounded := b.accepted }
          let s := s.updImg fun i => { i with job := some j, state := .applying }
          if !j.partialImg then s
          else if s.sys.standby then partialDone j (s.updImg fun i => if i.cold then i else { i with stale := true })
          else startPartial j s
/-- The meaning of CHECKING_END. -/
def execCheckingEnd (s : State) : Res := .next (checkingEnd s)
/-- LOAD_ABORT_END: the aborted load or verify ends with ABORTED (R88). -/
def loadAbortEnd (s : State) : State := if s.img.job.any fun j => j.aborting then loadFail ⟨.aborted, 0, 0⟩ s else s
/-- The meaning of LOAD_ABORT_END. -/
def execLoadAbortEnd (s : State) : Res := .next (loadAbortEnd s)
/-- A full image changes FS: the ticks are numbered again (R18, R77). -/
def changeFs (fs48 : Bool) (s : State) : State :=
  if s.sys.fs48 = fs48 then s
  else
    let old := s.fs
    let now := s.sys.tick
    let s := s.updSys fun y => { y with fs48 := fs48 }
    ldgRestart ((retime (rateTick old s.fs) s).updSys fun y => { y with tick := rateNow old s.fs now })
/-- LOAD_ACCEPT: at the end of APPLYING, in one tick, the full image becomes the active one (R59, R77, R78, R119). -/
def loadAccept (s : State) : State :=
  match (if s.img.partialJob.isNone then stageJob .applying s else none) with
  | none => s
  | some j =>
    if j.partialImg then s
    else
      let h := headerAt s j.src
      let s := if j.authentic then s else raise .img 1 s
      let s := changeFs (h.fs == 1) s
      let s := s.updImg fun i =>
        { i with slot := if j.src = slotBase 1 then 1 else 0, journal := [], activeId := h.id, activeLen := j.len, accepted := true, state := .ready,
                 auth := j.authentic, storeCorrupt := false, storeFenced := false, needFull := false, boot := .done, latTab := [], boundTab := [] }
      let s := { s with bmx := { s.bmx with remap := true } }
      let s := s.updMxe fun m => { m with corrupt := [], players := [] }
      let s := applyMap (applyS0 j.src (imageRecords s j.src) s)
      let s := s.updPair fun p => { p with cold := .none }
      let s := if s.sys.phase = .config then s.updSys fun y => { y with phase := .stopped } else s
      let s := if s.sys.standby then unconfigure s else applyS1 s
      wickSettle (settle (jobDone (acceptUnbounded j.unbounded s)))
/-- The meaning of LOAD_ACCEPT. -/
def execLoadAccept (s : State) : Res := .next (loadAccept s)

/-! ### Partial loads being applied (R81) -/

/-- The records of the partial image being applied. -/
def partialRecs (s : State) (p : PartialJob) : List ImgRec := imageRecords s p.addr
/-- A selected logical cell takes the program and the state of the partial image. -/
def partialCell (p : PartialJob) (s : State) (l : Nat) : State :=
  match physOf s l with
  | none => s
  | some q =>
    if !nbit p.sel l then s
    else
      let rs := partialRecs s p
      let find (t : Nat) : Option Nat := (rs.find? fun r => r.typ == t && r.inst == l).map (·.pay p.addr)
      let c := s.cell q
      let c := match find 0x11 with | some a => loadProgramAt s a c | none => c
      let c := match find 0x12 with | some a => loadStateAt s a c | none => loadState s l c
      let c := c.seed l
      s.setCell q { c with configured := false, inFront := [], inBack := [], retFront := [], retBack := [], role := if c.nInstr = 0 then c.role else .active }
/-- PARTIAL_CELLS_HALT: at b1 + 4,096 the schedules halt, and programs and state are written. -/
def partialCellsHalt (s : State) : State :=
  match s.img.partialJob with
  | some p =>
    if p.kind = 1 ∧ p.phase = .rampOut ∧ p.due ≤ s.sys.tick then
      let s := (selCells s p.sel).foldl (fun s q => stopSched q s) s
      let s := (upto 64).foldl (partialCell p) s
      s.updImg fun i => { i with partialJob := some { p with phase := .waitB2, due := s.sys.tick + 1 } }
    else s
  | none => s
/-- The meaning of PARTIAL_CELLS_HALT. -/
def execPartialCellsHalt (s : State) : Res := .next (partialCellsHalt s)
/-- PARTIAL_CELLS_RESTART: at the first frame boundary b2 after the writes the cells run, and their returns ramp in. -/
def partialCellsRestart (s : State) : State :=
  match s.img.partialJob with
  | some p =>
    if p.kind = 1 ∧ p.phase = .waitB2 ∧ p.due ≤ s.sys.tick ∧ s.atFrame = true then
      let s := (selCells s p.sel).foldl (fun s q => s.updCell q fun c => { c with configured := !s.img.cold && c.nInstr != 0 }) s
      let s := rampCells p.sel s.frame true s
      s.updImg fun i => { i with partialJob := some { p with phase := .rampIn, due := s.sys.tick + 4096 } }
    else s
  | none => s
/-- The meaning of PARTIAL_CELLS_RESTART. -/
def execPartialCellsRestart (s : State) : Res := .next (partialCellsRestart s)
/-- The step a PORT or MOD_GROUP load takes once its direction is IDLE or its channels are OFF: the setup, and the start. -/
def partialStep (s : State) : State :=
  match s.img.partialJob with
  | some p =>
    let recs := partialRecs s p
    if p.kind = 3 ∧ p.phase = .config then
      let d : Dir := if p.sel % 2 = 0 then .rx else .tx
      if (s.aptDir (p.sel / 2) d).st = .idle then
        let s := (recs.filter fun r => r.typ == 0x40).foldl (fun s r => portApply r.inst (r.pairs s p.addr) s) s
        s.updImg fun i => { i with partialJob := some { p with phase := .starting } }
      else s
    else if p.kind = 4 ∧ p.phase = .modOff then
      if (upto 8).all fun i => (s.mod (8 * p.sel + i)).st == .off then
        let s := recs.foldl (applyS1Rec p.addr false) s
        let s := (upto 8).foldl (fun s i => if nbit p.mask i then chStart1 (8 * p.sel + i) s else s) s
        s.updImg fun i => { i with partialJob := some { p with phase := .modOn } }
      else s
    else s
  | none => s
/-- The condition under which a partial load completes, by its region. -/
def partialOver (s : State) (p : PartialJob) : Bool :=
  match p.phase with
  | .rampIn => decide (p.due ≤ s.sys.tick)
  | .config => p.kind == 2
  | .starting =>
    let st := (s.aptDir (p.sel / 2) (if p.sel % 2 = 0 then .rx else .tx)).st
    st == .running || st == .idle
  | .modOn => (upto 8).all fun i =>
    let x := s.mod (8 * p.sel + i)
    x.st != .starting && !(x.st == .off && x.en && s.pwr.driveEn)
  | _ => false
/-- PARTIAL_LOAD_DONE: the region's application has ended (R81, R82). -/
def partialLoadDone (s : State) : State :=
  match s.img.partialJob, s.img.job with
  | some p, some j =>
    if partialOver s p then
      let s := if p.kind = 1 then { s with fabric := { s.fabric with ramps := s.fabric.ramps.filter fun e => !nbit p.sel e.1 } } else s
      partialDone j s
    else s
  | _, _ => s
/-- The meaning of PARTIAL_LOAD_DONE. -/
def execPartialLoadDone (s : State) : Res := .next (partialLoadDone s)

/-! ### IMG as it reads (Tables 3.16 to 3.21) -/

/-- The codes of STATE and PHASE. -/
def LoadState.code : LoadState → Nat
  | .empty => 0 | .reading => 1 | .auth => 2 | .checking => 3 | .applying => 4 | .ready => 5
def BootPhase.code : BootPhase → Nat
  | .pllWait => 0 | .fuse => 1 | .sramInit => 2 | .waitBoot => 3 | .memInit => 4 | .waitImage => 5 | .loader => 6 | .done => 7
/-- LAT_RESULT of LAT_QUERY. -/
def latResult (s : State) : Word :=
  match Tab.get (fun _ => none) s.img.latTab (s.fld 0x40010030 0 16) with
  | some e => pack [(31, 1), (0, e.total % 2 ^ 31)]
  | none => 0
/-- A read of IMG's registers that hold live state. -/
def imgRegRead (off : Nat) (s : State) : Option Word :=
  let i := s.img
  let f := i.fuses
  match off with
  | 0x010 => some (pack [(0, i.state.code), (4, b2n i.partialImg), (5, b2n i.cold), (6, i.slot), (7, b2n i.auth), (8, b2n i.abortMoot),
      (9, b2n i.unbounded), (16, i.progress % 65536)])
  | 0x014 => some (pack [(0, i.errCode), (16, i.errRecord % 65536)])
  | 0x018 => some (wd i.errPos)
  | 0x020 => some (wd i.activeId)
  | 0x024 => some (wd (i.activeId / 2 ^ 32))
  | 0x028 => some (pack [(0, i.bootSrc), (2, b2n i.flashFallback), (3, b2n i.trimBad), (4, i.boot.code), (8, b2n i.memReady), (9, b2n i.memFail),
      (10, i.flashTry), (16, i.dramGib)])
  | 0x02C => some (if i.fuseRead then pack [(1, b2n f.secure), (2, b2n f.jtagLock), (3, b2n (keyUsable f 0)), (4, b2n (keyUsable f 1))] else 0)
  | 0x034 => some (latResult s)
  | _ => none

end Sys2Proof.Machine
end

