-- ==== Sys2Proof/Machine/Pair.lean ====
section
/-! DEFINITION. The pair link, checkpoints, the wick's timers and pulses, takeover, manual handover and the lantern sweep
(R366 to R394). -/
namespace Sys2Proof.Machine
open Sys2Proof

/-- The checkpoint area changes. -/
def State.updCkpt (s : State) (f : Ckpt → Ckpt) : State := { s with ckpt := f s.ckpt }
/-- A time span since a tick has passed. While the ticks stop, the pair-island clock runs on, and the command tells that it has (R371). -/
def elapsed (s : State) (from_ d : Nat) : Bool := !ticksRun s || decide (from_ + d ≤ s.sys.tick)
/-- The chip is a holder, or one that is releasing: it closes the deltas (R382). -/
def holder (s : State) : Bool := s.pair.wick == .holding || s.pair.wick == .releasing
/-- A standby chip in rehearsal: configured, with RUN and STANDBY (R38, R387). -/
def rehearsing (s : State) : Bool := s.sys.run && s.sys.standby && !s.img.cold && s.sys.phase != .config

/-! ### What a checkpoint holds (Table 15.4) -/

/-- A flag as an item's value, and back. -/
def bi (b : Bool) : Int := if b then 1 else 0
def ib (v : Int) : Bool := v != 0
/-- The codes of the kinds of state a checkpoint names, back to the kinds. -/
def modStOf : Nat → ModSt
  | 1 => .starting | 2 => .running | 3 => .stopping | 4 => .sleep | 5 => .shutdown | 6 => .latched | _ => .off
def playStOf : Nat → PlayState
  | 1 => .armed | 2 => .playing | 3 => .stopping | _ => .idle
def playResOf : Nat → PlayResult
  | 1 => .done | 2 => .stopped | 3 => .moot | 4 => .busy | 5 => .badMsg | 6 => .corrupt | 7 => .stoppedRun | 8 => .lateArm | 9 => .notRun | _ => .none
def swapResOf : Nat → SwapResult
  | 1 => .done | 2 => .bound | 3 => .duplicate | 4 => .busy | 5 => .alarm | 6 => .loading | 7 => .cancelled | 8 => .preempted | 9 => .moot | _ => .none
def flowStOf : Nat → FlowSt
  | 1 => .staged | 2 => .live | 3 => .retiring | _ => .free

/-- A queued edit as values. -/
def editVals (e : Edit) : List Int := [(e.cmd : Nat), (e.src : Nat), (e.dst : Nat), e.gain, (e.srcOld : Nat), match e.ramp with | some r => ((r : Nat) : Int) | none => -1]
/-- The edits of a list of values. -/
def editsOf : List Int → List Edit
  | c :: a :: d :: g :: o :: r :: t => ⟨c.toNat, a.toNat, d.toNat, g, o.toNat, if r < 0 then none else some r.toNat⟩ :: editsOf t
  | _ => []
/-- The physical cell that carries logical cell l, as its state. -/
def lcell (s : State) (l : Nat) : Cell := match physOf s l with | some p => s.cell p | none => {}
/-- The values of a crosspoint entry. -/
def xptVals (e : Xpt) : List Int := [bi e.valid, bi e.release, (e.dst : Nat), (e.src : Nat), e.tgt, e.cur, e.g0, (e.rl : Nat), (e.left : Nat)]
/-- The values of a player, and the frame they hold for. -/
def playVals (p : Player) (k : Nat) : List Int :=
  [(p.state.code : Nat), (p.result.code : Nat), (p.pass : Nat), (p.pos : Nat), (p.msg : Nat), (p.rep : Nat), (p.start : Nat), bi p.finish,
   (p.stopFrame : Nat), bi p.ended, if p.state = .idle then 0 else (k : Nat)]
/-- The current values of an item (Table 15.4). -/
def ckValue (s : State) : CkKey → List Int
  | .run => [bi s.sys.run]
  | .alarm => [bi s.sys.alarm]
  | .health => [(health s : Nat)]
  | .swap =>
    let m := s.mxe
    [(m.active : Nat), bi m.alarmBank, bi m.swapPending, bi (m.checking || m.boundWait), bi m.swapUnb, bi m.swapDue, bi m.swapWait, (m.result.code : Nat), (m.resTick : Nat), (m.need : Nat)]
  | .edits => (s.mxe.queue.map editVals).flatten
  | .cellWord l w => [((lcell s l).word w : Nat)]
  | .cellAg l g =>
    let x := (lcell s l).ag g
    ([(x.base : Nat), (x.len : Nat), (x.step : Nat)] : List Int) ++ (upto 4).map fun j => ((x.ptr j : Nat) : Int)
  | .cellAcc l a => [((lcell s l).acc a).val, bi ((lcell s l).acc a).ext]
  | .cellEfb l r => [(Tab.get (fun _ => 0) (lcell s l).efb r : Nat)]
  | .cellLfsr l => [((lcell s l).lfsrA : Nat), ((lcell s l).lfsrB : Nat)]
  | .cellRet l r => [Tab.get (fun _ => 0) (lcell s l).retBack r]
  | .entry b e => xptVals (Tab.get (fun _ => ({} : Xpt)) (s.mxe.bank b) e)
  | .param b d => let p := s.mxe.dpar b d; [(p.w0 : Nat), (p.w4 : Nat), (p.w8 : Nat)]
  | .player m => playVals (s.player m) s.frame
  | .flow f => let x := s.flow f; ([(x.st.code : Nat), (x.seq : Nat)] : List Int) ++ x.fe.map fun w => ((w.toNat : Nat) : Int)
  | .line i => [((s.line i).reg : Nat)]
  | .lsp n => let x := s.spk n; [x.tc, x.tm, (x.lg : Nat), (x.line : Nat)]
  | .pwr n =>
    let x := s.mod n
    [bi x.en, (x.st.code : Nat), (x.retries : Nat), ((if x.st = .shutdown then x.waitEnd - s.sys.tick else 0 : Nat) : Int), bi (s.rbit (Blk.pwr.base + 0x1C) n)]
/-- The values of an item in a list of items. -/
def ckFind (l : List CkItem) (k : CkKey) : Option (List Int) := (l.find? fun x => x.key == k).map (·.vals)
/-- The logical cell of a cell item. -/
def ckCell : CkKey → Option Nat
  | .cellWord l _ | .cellAg l _ | .cellAcc l _ | .cellEfb l _ | .cellLfsr l | .cellRet l _ => some l
  | _ => none
/-- The logical cell is in service: a configured cell carries it. One that is being restored, or is lost, is not (Table 15.4). -/
def cellServes (s : State) (l : Nat) : Bool := match physOf s l with | some p => (s.cell p).configured | none => false
/-- The values of an item for a checkpoint; a logical cell that is not in service keeps those it last had there. -/
def ckNow (s : State) (k : CkKey) : List Int :=
  match ckCell k with
  | some l => if cellServes s l then ckValue s k else (ckFind s.ckpt.last k).getD []
  | none => ckValue s k
/-- The items of a logical cell's state set (R142); of one that is not in service, those last held. -/
def cellKeys (s : State) (l : Nat) : List CkKey :=
  if cellServes s l then
    let c := lcell s l
    c.data.map (fun e => .cellWord l e.1) ++ (upto 4).map (.cellAg l ·) ++ (upto 4).map (.cellAcc l ·) ++ c.efb.map (fun e => .cellEfb l e.1)
      ++ [.cellLfsr l] ++ c.retBack.map (fun e => .cellRet l e.1)
  else (s.ckpt.last.map (·.key)).filter fun k => ckCell k == some l
/-- The items that hold something: an item of the tables that is not listed holds nothing. -/
def ckKeys (s : State) : List CkKey :=
  [.run, .alarm, .health, .swap, .edits] ++ ((upto 64).map (cellKeys s)).flatten
    ++ s.mxe.bank0.map (fun e => .entry 0 e.1) ++ s.mxe.bank1.map (fun e => .entry 1 e.1)
    ++ s.mxe.par0.map (fun e => .param 0 e.1) ++ s.mxe.par1.map (fun e => .param 1 e.1)
    ++ s.mxe.players.map (fun e => .player e.1) ++ s.ste.flows.map (fun e => .flow e.1) ++ s.dly.lines.map (fun e => .line e.1)
    ++ (upto 32).map (.lsp ·) ++ (upto 32).map (.pwr ·)
/-- The slice of a snapshot an item travels in; the spec gives the hundredths no order. -/
def ckSlice : CkKey → Nat
  | .run => 0 | .alarm => 0 | .health => 0 | .swap => 1 | .edits => 1
  | .cellWord l w => (16384 * l + w) % 100 | .cellAg l _ | .cellAcc l _ | .cellEfb l _ | .cellLfsr l | .cellRet l _ => l % 100
  | .entry b e => (131072 * b + e) % 100 | .param b d => (4096 * b + d) % 100 | .player m => m % 100 | .flow f => f % 100 | .line i => i % 100
  | .lsp n | .pwr n => n % 100
/-- The bytes a host-driven change takes in a delta (R386); none for an item that is not host-driven. -/
def ckHostBytes : CkKey → Option Nat
  | .entry _ _ | .param _ _ => some 16
  | .flow _ => some 40
  | .line _ => some 4
  | _ => none
/-- An item of a list of items takes its values. -/
def ckPut (l : List CkItem) (it : CkItem) : List CkItem := l.filter (fun x => x.key != it.key) ++ [it]
/-- Items applied in order. -/
def ckApply (l its : List CkItem) : List CkItem := its.foldl ckPut l
/-- The prefix of the backlog that a delta carries: at most 65,536 bytes of host-driven changes (R386). -/
def takeBytes : Nat → List CkKey → List CkKey
  | _, [] => []
  | n, k :: t => match ckHostBytes k with
    | some b => if b ≤ n then k :: takeBytes (n - b) t else []
    | none => takeBytes n t

/-! ### The checkpoint area (R383 to R385) -/

/-- CKPT_STAT.VALID takes a value. -/
def ckptValid (v : Bool) (s : State) : State := if s.ckpt.valid = v then s else evt .pair 5 (s.updCkpt fun c => { c with valid := v })
/-- A delta, received whole and in order, enters the base, unless a loss froze it, and the collecting copy. -/
def ckptDelta (num : Nat) (its : List CkItem) (s : State) : State :=
  s.updCkpt fun c =>
    let live := c.valid && !c.frozen
    { c with base := if live then ckApply c.base its else c.base, baseNum := if live then num else c.baseNum,
             baseTick := if live then s.sys.tick else c.baseTick, collect := if c.collecting then ckApply c.collect its else c.collect,
             nextDelta := some ((num + 1) % 2 ^ 32), newestNum := num }
/-- Slice k of a cycle, whole and in order; the hundredth completes the cycle, and the copies exchange roles. -/
def ckptSlice (k : Nat) (its : List CkItem) (s : State) : State :=
  if k = 0 then s.updCkpt fun c => { c with collecting := true, collect := ckApply [] its, nextSlice := 1 }
  else if !s.ckpt.collecting || k != s.ckpt.nextSlice then s
  else
    let s := s.updCkpt fun c => { c with collect := ckApply c.collect its, nextSlice := k + 1 }
    if k < 99 then s
    else
      let t := s.sys.tick
      let s := s.updCkpt fun c =>
        { c with base := c.collect, collect := [], collecting := false, nextSlice := 0, frozen := false, baseNum := c.newestNum, baseTick := t }
      ckptValid true s
/-- CKPT_LOSS: the base is frozen, and the collecting copy is discarded (R385). -/
def ckptLoss (s : State) : State :=
  raise .pair 5 (s.updCkpt fun c => { c with frozen := true, collecting := false, collect := [], nextSlice := 0, nextDelta := none })

/-! ### The holder's deltas and slices (R382, R386) -/

/-- The items of which every delta carries the current values (Table 15.4). -/
def ckAlways (s : State) : CkKey → Bool
  | .run | .alarm | .health | .lsp _ | .pwr _ => true
  | .cellAg l _ | .cellAcc l _ | .cellEfb l _ | .cellLfsr l | .cellRet l _ => cellServes s l
  | _ => false
/-- The changes since the last delta, and what each delta carries: what no host drives, then the host-driven changes that the delta still has room for. -/
def deltaKeys (s : State) : List CkKey × List CkKey :=
  let keys := (ckKeys s ++ s.ckpt.last.map (·.key)).eraseDups
  let ch := keys.filter fun k => ckAlways s k || ckFind s.ckpt.last k != some (ckNow s k)
  let back := s.ckpt.backlog ++ (ch.filter fun k => (ckHostBytes k).isSome && !s.ckpt.backlog.contains k)
  let now := takeBytes 65536 back
  ((ch.filter fun k => (ckHostBytes k).isNone) ++ now, back.drop now.length)
/-- A delta is closed: its number and items, into the chip's own area, and onto the link unless CFG.SOLO has powered it down (R367). -/
def closeDelta (s : State) : State :=
  let ks := deltaKeys s
  let its : List CkItem := ks.1.map fun k => ⟨k, ckNow s k⟩
  let n := s.ckpt.sendNum
  let s := ckptDelta n its s
  s.updCkpt fun c =>
    { c with last := ckApply c.last its, backlog := ks.2, sendNum := (n + 1) % 2 ^ 32,
             sentDelta := if solo s then c.sentDelta else some ⟨n, true, its⟩ }
/-- The slice of the snapshot that travels with a delta. -/
def sendSlice (s : State) : State :=
  let k := s.ckpt.sendSlice
  let its : List CkItem := ((ckKeys s).filter fun x => ckSlice x == k).map fun x => ⟨x, ckNow s x⟩
  let s := ckptSlice k its s
  s.updCkpt fun c => { c with sendSlice := (k + 1) % 100, sentSlice := if solo s then c.sentSlice else some ⟨k, true, its⟩ }
/-- DELTA_PERIOD_END: at a frame boundary whose frame number is a multiple of FS / 1,000 the holder closes a delta. -/
def deltaPeriodEnd (s : State) : State :=
  if holder s && s.atFrame && s.frame % (s.fs / 1000) == 0 && s.ckpt.sentAt != some s.sys.tick then
    let t := s.sys.tick
    sendSlice (closeDelta (s.updCkpt fun c => { c with sentAt := some t }))
  else s
/-- The meaning of DELTA_PERIOD_END. -/
def execDeltaPeriodEnd (s : State) : Res := .next (deltaPeriodEnd s)

/-! ### Items applied to the blocks (Table 15.4, R379, R387) -/

/-- The player an item describes, advanced by the frames since the checkpoint (R201, R379). -/
def advancePlayer (s : State) : Nat → Player → Player
  | 0, p => p
  | n + 1, p => if p.state = .playing ∧ p.ended = false then advancePlayer s n (playerSample s p).2.1 else p
/-- A flow entry takes a state and an entry: what is there already keeps its packets. -/
def putFlow (f : Nat) (st : FlowSt) (seq : Nat) (fe : List Word) (s : State) : State :=
  let x := s.flow f
  let k := s.frame
  if st ≠ .free ∧ x.st ≠ .free ∧ x.fe = fe then updFlow f (fun x => { x with st := st, seq := seq, since := if x.st = st then x.since else k }) s
  else
    let s := if x.st = .free then s else freeFlow f s
    if st = .free then s else updFlow f (fun x => { x with st := st, seq := seq, since := k }) (doStage f fe s)
/-- The swap state of an item. -/
def putSwap (v : List Int) (s : State) : State :=
  let g (i : Nat) : Int := v.getD i 0
  s.updMxe fun m => { m with
    active := (g 0).toNat % 2, alarmBank := ib (g 1), swapPending := ib (g 2), checking := ib (g 3), swapUnb := ib (g 4), swapDue := ib (g 5)
    swapWait := ib (g 6), result := swapResOf (g 7).toNat, resTick := (g 8).toNat, need := (g 9).toNat }
/-- The entry of a list of values. -/
def xptOf (v : List Int) : Xpt :=
  let g (i : Nat) : Int := v.getD i 0
  { valid := ib (g 0), release := ib (g 1), dst := (g 2).toNat, src := (g 3).toNat, tgt := g 4, cur := g 5, g0 := g 6, rl := (g 7).toNat, left := (g 8).toNat }
/-- An item that a rehearsal applies live, and a takeover of a cold standby at the takeover. -/
def putLive (it : CkItem) (s : State) : State :=
  let g (i : Nat) : Int := it.vals.getD i 0
  let n (i : Nat) : Nat := (g i).toNat
  match it.key with
  | .swap => putSwap it.vals s
  | .edits => s.updMxe fun m => { m with queue := editsOf it.vals }
  | .entry b e => s.updMxe fun m => m.setBank b (putXpt (m.bank b) e (xptOf it.vals))
  | .param b d => s.updMxe fun m => m.setPar b (Tab.set (fun _ => ({} : DestPar)) (m.par b) d ⟨n 0, n 1, n 2⟩)
  | .player m =>
    let p : Player := { state := playStOf (n 0), result := playResOf (n 1), pass := n 2, pos := n 3, msg := n 4, rep := n 5, start := n 6,
                        finish := ib (g 7), stopFrame := n 8, ended := ib (g 9) }
    updPlayer m (fun _ => advancePlayer s (if p.state = .idle then 0 else s.frame - n 10) p) s
  | .flow f => putFlow f (flowStOf (n 0)) (n 1) ((it.vals.drop 2).map fun v => wd v.toNat) s
  | .line i => if (s.line i).valid && delayOk (s.line i) (n 0) && (s.line i).reg != n 0 then updLine i (fun l => { l with reg := n 0, held := some (n 0) }) s else s
  | .lsp c => updSpk c (fun x => { x with tc := g 0, tm := g 1, lg := n 2, line := n 3 }) s
  | _ => s
/-- A PWR channel takes its checkpoint state: a waiting channel waits on, a latched one stays latched, an enabled one starts at b. -/
def putPwr (it : CkItem) (s : State) : State :=
  let g (i : Nat) : Int := it.vals.getD i 0
  match it.key with
  | .pwr n =>
    let st := match modStOf (g 1).toNat with
      | .shutdown => ModSt.shutdown
      | .latched => ModSt.latched
      | _ => ModSt.off
    let t := s.sys.tick
    setChBit 0x1C n (ib (g 4)) (updMod n (fun x => { x with en := ib (g 0), st := st, retries := (g 2).toNat, waitEnd := t + (g 3).toNat }) s)
  | _ => s
/-- The logical cell's state set from a checkpoint; a cell it holds nothing of keeps what configured it. -/
def putCell (its : List CkItem) (s : State) (l : Nat) : State :=
  match physOf s l with
  | none => s
  | some p =>
    if ckptHasCell its l then
      s.updCell p fun c => its.foldl (applyCellItem l) { c with data := [], dataEcc := [], accs := [], ags := [], efb := [], retFront := [], retBack := [] }
    else s
/-- A whole checkpoint is restored into a configured chip: cells, matrix with CUR = TGT, players, flows, delays, LSP, PWR (Table 15.4). -/
def restoreFull (its : List CkItem) (s : State) : State :=
  let s := (upto 64).foldl (putCell its) s
  let s := s.updMxe fun m => { m with bank0 := [], bank1 := [], par0 := [], par1 := [], queue := [], players := [] }
  let s := s.ste.flows.foldl (fun s e => if (ckFind its (.flow e.1)).isNone then freeFlow e.1 s else s) s
  let s := its.foldl (fun s it => putLive it s) s
  let s := s.updMxe fun m => { m with bank0 := mapBank Xpt.finish m.bank0, bank1 := mapBank Xpt.finish m.bank1, routeWait := m.queue != [] }
  let s := { s with dly := { s.dly with lines := mapTab (fun l => { l with delay := l.held.getD l.delay, held := none, xfLeft := 0, xfEnd := false, xfDone := false }) s.dly.lines } }
  let s := (upto 32).foldl (fun s n => renewGain n s) s
  its.foldl (fun s it => putPwr it s) s
/-- The channels that the image's CH_START writes name, or a partial image's after it (R345). -/
def imageChannels (s : State) : Word :=
  (storeImages s).foldl (fun w b =>
    (imageRecords s b).foldl (fun w r => if r.typ = 0x50 then (r.pairs s b).foldl (fun w p => if p.1 = 0xC then w ||| p.2 else w) w else w) w) 0
/-- A takeover without a checkpoint starts from the image store (R381). -/
def restoreImage (s : State) : State :=
  let b := slotBase s.img.slot
  let s : State := (s.ste.flows.map (·.1)).foldl (fun s f => freeFlow f s) s
  let s : State := match findRec s b 0x31 0 with
    | some r => (stageAll (flowDefFlows s (r.pay b)) s).1
    | none => s
  let s := s.updMxe fun m => { m with players := [] }
  let s := (upto 32).foldl (fun s n =>
    if spkCfg s n 0 then
      let s := latchLim n s
      let t := spkTl s n - spkKnee s n
      renewGain n (updSpk n (fun x => { x with tc := t, tm := t }) s)
    else s) s
  let ch := imageChannels s
  let s := (upto 32).foldl (fun s n => setChBit 0x1C n false (updMod n (fun x => { x with en := bit ch n, st := .off, retries := 0 }) s)) s
  raise .pair 5 (s.updPair fun p => { p with imageStart := true })

/-! ### Receiving (R366, R368, R385, R387, R391) -/

/-- The partner's health summary is shown in PHEALTH. -/
def setPhealth (h : Nat) (s : State) : State := if s.pair.phealth = h then s else evt .pair 4 (s.updPair fun p => { p with phealth := h })
/-- A frame with a bad CRC, or a gap in the numbers, counts in LINK_ERR. -/
def linkError (s : State) : State := s.updPair fun p => { p with linkErr := (p.linkErr + 1) % 2 ^ 32 }
/-- STATUS_FRAME_SEND: every 10 µs, unless CFG.SOLO has powered the lane down (R366, R367). -/
def statusSend (s : State) : State :=
  if solo s then s
  else
    let f : PairStatus := { wick := s.pair.wick.code, mode := (modeWord s).toNat, unit := unitOf s, arm := armed s, ckptValid := s.ckpt.valid, health := health s }
    s.updPair fun p => { p with sent := some f }
/-- The meaning of STATUS_FRAME_SEND. -/
def execStatusFrameSend (s : State) : Res := .next (statusSend s)
/-- STATUS_FRAME_RECEIVE; a frame with a bad CRC only counts. -/
def statusReceive (f : PairStatus) (s : State) : State :=
  if solo s then s
  else if !f.ok then linkError s
  else
    let was := unitClash s
    let t := s.sys.tick
    wickSettle (clashEdge was (setPhealth f.health (s.updPair fun p => { p with partner := some f, heardAt := t })))
/-- The meaning of STATUS_FRAME_RECEIVE. -/
def execStatusFrameReceive (f : PairStatus) (s : State) : Res := .next (statusReceive f s)
/-- PAIR_LINK_UP: block lock has held for 1 ms, and a STATUS frame has come (R366). -/
def pairLinkUp (s : State) : State :=
  if solo s || s.pair.linkUp || s.pair.partner.isNone then s
  else
    let was := unitClash s
    wickSettle (clashEdge was (s.updPair fun p => { p with linkUp := true }))
/-- The meaning of PAIR_LINK_UP. -/
def execPairLinkUp (s : State) : Res := .next (pairLinkUp s)
/-- A handover that loses its link before RELEASED: ABORTED, the holder keeps the wick and ramps in (Table 15.8). -/
def handoverAbort (s : State) : State :=
  if s.pair.wick = .releasing then
    let s := hoResult 6 (setWick .holding (s.updPair fun p => { p with rampEnd := none, sentHandover := 0 }))
    if s.sys.run && s.sys.phase == .rampOut then rampUp s else s
  else s
/-- PAIR_LINK_DOWN: LINK_DOWN fences the link; a chip that receives checkpoints loses the cycle (R368, R385). -/
def pairLinkDown (s : State) : State :=
  if !s.pair.linkUp then s
  else
    let s := raise .pair 3 (linkOff s)
    let s := settle (s.updPair fun p => { p with linkFenced := true })
    let s := if !holder s && (s.ckpt.nextDelta.isSome || s.ckpt.collecting) then ckptLoss s else s
    let s := if s.pair.wick = .standby ∧ s.pair.gotReleased = false then dropCold s else s
    wickSettle (handoverAbort s)
/-- The meaning of PAIR_LINK_DOWN. -/
def execPairLinkDown (s : State) : Res := .next (pairLinkDown s)
/-- Checkpoint frames reach this chip: the link is up, and the chip is no holder. -/
def receives (s : State) : Bool := s.pair.linkUp && !holder s
/-- The ALARM mirror of R38: a delta sets the standby's ALARM to the partner's value. -/
def mirrorAlarm (v : Bool) (s : State) : State :=
  if s.sys.standby && s.rbit 0x4000011C 0 && s.sys.alarm != v then
    settle ((alarmApplied v none s).updSys fun y => { y with alarmMirror := true })
  else s
/-- What a received item does besides entering the checkpoint: the mirror, PHEALTH, the live items of a rehearsal. -/
def itemLive (it : CkItem) (s : State) : State :=
  match it.key with
  | .alarm => mirrorAlarm (ib (it.vals.getD 0 0)) s
  | .health => setPhealth (it.vals.getD 0 0).toNat s
  | _ => if rehearsing s then putLive it s else s
/-- DELTA_RECEIVE (R385). -/
def deltaReceive (d : Delta) (s : State) : State :=
  if !receives s then s
  else if !d.ok then ckptLoss (linkError s)
  else
    let gap := s.ckpt.nextDelta.any fun n => n != d.num
    let s := if gap then ckptLoss (linkError s) else s
    let s := ckptDelta d.num d.items s
    let s := d.items.foldl (fun s it => itemLive it s) s
    match ckFind d.items .run, ckFind d.items .alarm with
    | some r, some a => s.updPair fun p => { p with newest := some (ib (r.getD 0 0), ib (a.getD 0 0)) }
    | some r, none => s.updPair fun p => { p with newest := some (ib (r.getD 0 0), (p.newest.map (·.2)).getD false) }
    | none, some a => s.updPair fun p => { p with newest := some ((p.newest.map (·.1)).getD false, ib (a.getD 0 0)) }
    | none, none => s
/-- The meaning of DELTA_RECEIVE. -/
def execDeltaReceive (d : Delta) (s : State) : Res := .next (deltaReceive d s)
/-- SLICE_RECEIVE (R385). A slice outside a cycle waits for the next slice 0. -/
def sliceReceive (x : Slice) (s : State) : State :=
  if !receives s then s
  else if !x.ok then ckptLoss (linkError s)
  else
    let gap := s.ckpt.collecting && x.num != s.ckpt.nextSlice
    let s := if gap then ckptLoss (linkError s) else s
    let s := ckptSlice x.num x.items s
    x.items.foldl (fun s it => match it.key with | .alarm => s | _ => itemLive it s) s
/-- The meaning of SLICE_RECEIVE. -/
def execSliceReceive (sl : Slice) (s : State) : Res := .next (sliceReceive sl s)
/-- DETAIL_FRAME_RECEIVE: PDETAIL takes the partner's 24 words; a frame with any other content is damaged, and counts. -/
def detailReceive (ws : List Word) (s : State) : State :=
  if s.pair.linkUp then if ws.length ≠ 24 then linkError s else (upto 24).foldl (fun s i => match ws[i]? with | some w => s.setReg (0x40160200 + 4 * i) w | none => s) s else s
/-- The meaning of DETAIL_FRAME_RECEIVE. -/
def execDetailFrameReceive (ws : List Word) (s : State) : Res := .next (detailReceive ws s)

/-! ### Pilots and pulses (R369 to R377) -/

/-- A failed readback or a line that is not high at entry: LIGHT_FAIL, ARM cleared, DISARMED (R375). -/
def lightFail (s : State) : State :=
  let s := clearArm (raise .pair 2 s)
  wickSettle (withdraw .disarmed s)
/-- The chip enters LIGHTING, after a check of the line (R375). -/
def enterLighting (lineHigh : Bool) (s : State) : State :=
  let t := s.sys.tick
  let s := setWick .lighting (s.updPair fun p => { p with line := lineHigh, lightAt := t })
  if lineHigh then s else lightFail s
/-- PILOT_SEND: one pilot every P while the tick advances and the chip is not snuffed; both checks of the line must hold (R370, R375). -/
def pilotSend (ok : Bool) (s : State) : State :=
  let p := s.pair
  let sends := (holder s || p.wick == .lighting) && !s.sys.snuffed && ticksRun s && p.pilotTick != some s.sys.tick
    && p.lastPilot.all fun t => (p.wick == .lighting && decide (t < p.lightAt)) || decide (t + pilotTicks s ≤ s.sys.tick)
  if !sends then s
  else
    let t := s.sys.tick
    let s := s.updPair fun p => { p with lastPilot := some t, pilotTick := some t }
    if ok then s
    else if holder s then enterSnuff (.fault .pair 0) (raise .pair 0 s)
    else lightFail s
/-- The meaning of PILOT_SEND. -/
def execPilotSend (readback : Bool) (s : State) : Res := .next (pilotSend readback s)
/-- FOREIGN_PULSE: a lighting chip returns to STANDBY; a holder raises WICK_CONFLICT, and UNIT 1 releases (R375, R377). -/
def foreignPulse (s : State) : State :=
  let t := s.sys.tick
  match s.pair.wick with
  | .lighting => wickSettle (withdraw .standby (s.updPair fun p => { p with leaseFrom := t }))
  | .holding | .releasing =>
    let s := raise .pair 4 s
    if unitOf s then releaseWick (s.updPair fun p => { p with rampEnd := none }) else s
  | _ => s
/-- The meaning of FOREIGN_PULSE. -/
def execForeignPulse (s : State) : Res := .next (foreignPulse s)
/-- PILOT_READ: a valid pilot restarts the lease timer and clears FIRST; a chip that lights or holds reads it as foreign (R369, R372 to R374). -/
def pilotRead (s : State) : State :=
  let t := s.sys.tick
  let hear (s : State) : State := if armed s then s.updPair fun p => { p with first := false, leaseFrom := t } else s
  match s.pair.wick with
  | .lighting | .holding | .releasing => hear (foreignPulse s)
  | .preparing => wickSettle (withdraw .standby (hear s))
  | _ => hear s
/-- The meaning of PILOT_READ. -/
def execPilotRead (s : State) : Res := .next (pilotRead s)
/-- PILOT_GAP: no pilot for L; the chip releases at once, and its flags follow in the first tick that runs (R371). -/
def pilotGap (s : State) : State :=
  if holder s && s.pair.lastPilot.any (fun t => elapsed s t (leaseTicks s)) then
    let s := clearArm s
    let s := s.updPair fun p => { p with rampEnd := none }
    if ticksRun s then wickSettle (releaseWick (raise .pair 1 s))
    else setWick .disarmed ((driveFall s).updPair fun p => { p with released := true, lastPilot := none })
  else s
/-- The meaning of PILOT_GAP. -/
def execPilotGap (s : State) : Res := .next (pilotGap s)
/-- The rest of a release that was made while the ticks stopped, in the first tick that runs. -/
def finishRelease (s : State) : State :=
  if s.pair.released then ckptRestart (cutRestore (wickLoss (raise .pair 1 (s.updPair fun p => { p with released := false })))) else s
/-- LEASE_EXPIRY: the lease timer of a standby chip reaches L, or TL; PREPARING (R373, R374). -/
def leaseExpiry (s : State) : State :=
  if s.pair.wick = .standby ∧ elapsed s s.pair.leaseFrom (leaseThr s) = true then startCold (setWick .preparing s) else s
/-- The meaning of LEASE_EXPIRY. -/
def execLeaseExpiry (s : State) : Res := .next (leaseExpiry s)
/-- GUARD_EXPIRY: the timer reaches L + G, or TL + G; LIGHTING (R375). -/
def guardExpiry (lineHigh : Bool) (s : State) : State :=
  if s.pair.wick = .preparing ∧ elapsed s s.pair.leaseFrom (leaseThr s + guardTicks s) = true then enterLighting lineHigh s else s
/-- The meaning of GUARD_EXPIRY. -/
def execGuardExpiry (lineHigh : Bool) (s : State) : Res := .next (guardExpiry lineHigh s)

/-! ### Takeover (R376, R379 to R381) -/

/-- What the takeover restores: the newest consistent checkpoint, or the image store's state (R379, R381). -/
def restoreSource (s : State) : Restore := if s.ckpt.valid then .full s.ckpt.base else .image
/-- RUN after a takeover: set if the checkpoint shows the partner running; without one, the newest delta's value, or the chip's own (R381). -/
def takeoverRun (s : State) : Bool :=
  if s.ckpt.valid then s.sys.run || ib (((ckFind s.ckpt.base .run).getD []).getD 0 0)
  else match s.pair.newest with
    | some v => v.1
    | none => s.sys.run
/-- ALARM keeps its mirrored value; without a checkpoint it takes the newest delta's (R379, R381). -/
def takeoverAlarm (s : State) : State :=
  if s.ckpt.valid then s
  else match s.pair.newest with
    | some v => if s.sys.alarm = v.2 then s else alarmApplied v.2 none s
    | none => s
/-- The cells are configured anew, or for the first time: PHASE is CONFIG. -/
def beginConfig (s : State) : State :=
  (unconfigure s).updPair (fun p => { p with cold := .configuring }) |>.updSys fun y => { y with phase := .config, rampEnd := none }
/-- The PWR items of all channels, for a rehearsal (Table 15.4). -/
def pwrItems (s : State) : List CkItem := (upto 32).map fun n => ⟨.pwr n, (ckFind s.ckpt.base (.pwr n)).getD []⟩
/-- The steps after the wick is taken: what is left to configure or restore, and the start. -/
def takeoverStart (hot run : Bool) (s : State) : State :=
  if hot && !s.img.stale && s.ckpt.valid && s.pair.cold == .none then
    let its := pwrItems s
    (s.updPair fun p => { p with cold := .restoring }).updCkpt fun c => { c with held := some (.rest its) }
  else
    let s := dropStale s
    let s := match s.pair.cold with
      | .none => let src := restoreSource s; beginConfig (s.updCkpt fun c => { c with held := some src })
      | .configuring => let src := restoreSource s; s.updCkpt fun c => { c with held := some src }
      | _ => s
    match s.pair.cold with
    | .ready =>
      let s := s.updPair fun p => { p with cold := .none }
      if run then startRamp s else s
    | _ => if run then s.updSys fun y => { y with phase := .config, rampEnd := none } else s
/-- TAKEOVER: after P in LIGHTING without a foreign pulse the chip takes the wick at rank 2 (R376, R379). -/
def takeover (s : State) : State :=
  if s.pair.wick = .lighting ∧ ticksRun s = true ∧ s.pair.lightAt + pilotTicks s ≤ s.sys.tick then
    let t := s.sys.tick
    let hot := rehearsing s
    let run := takeoverRun s
    let s := loadCut .takeover s
    let s := evt .pair 1 (setWick .holding s)
    let s := s.updPair fun p => { p with lastPilot := some (p.lastPilot.getD t), sentHandover := if p.gotReleased then 3 else p.sentHandover, gotReleased := false }
    let s := aptStandbyClear (setFlag 2 false none s)
    let s := takeoverAlarm (if run then setFlag 0 true none s else runCleared none s)
    settle (takeoverStart hot run (ckptRestart s))
  else s
/-- The meaning of TAKEOVER. -/
def execTakeover (s : State) : Res := .next (takeover s)
/-- COLD_CONFIG_END: programs and S1 records are in the blocks (R379 step 1, R47, R514). A configuration for a takeover goes on with the
restore; one for a RUN set starts the outputs. -/
def coldConfigEnd (s : State) : State :=
  if s.pair.cold = .configuring ∧ s.img.storeCorrupt = false then
    let s := applyS1 s
    if s.ckpt.held.isNone && s.sys.run then startRamp (s.updPair fun p => { p with cold := .none })
    else
      let src := s.ckpt.held.getD (restoreSource s)
      (s.updPair fun p => { p with cold := .restoring }).updCkpt fun c => { c with held := some src }
  else s
/-- The meaning of COLD_CONFIG_END. -/
def execColdConfigEnd (s : State) : Res := .next (coldConfigEnd s)
/-- The start after a restore, with the outputs from 0: a chip that was in rehearsal keeps its states, any other begins them anew at b
(R379). -/
def restoreStart (src : Restore) (s : State) : State :=
  match src with
  | .rest _ => (rampUp (s.updSys fun y => { y with phase := .config })).updCkpt fun c => { c with held := none }
  | _ => startRamp (s.updSys fun y => { y with phase := .config })
/-- RESTORE_END: the checkpoint, or the image's state, is in the blocks; a running holder starts at the next boundary (R379, R381), and so does a
standby that was set to RUN meanwhile (R47). -/
def restoreEnd (s : State) : State :=
  if s.pair.cold = .restoring then
    let src := s.ckpt.held.getD (restoreSource s)
    let s := match src with
      | .image => restoreImage s
      | .full its => (restoreFull its s).updPair fun p => { p with imageStart := false }
      | .rest its => (its.foldl (fun s it => putPwr it s) s).updPair fun p => { p with imageStart := false }
    if holder s || s.sys.run then
      let s := s.updPair fun p => { p with cold := .none }
      settle (if s.sys.run then restoreStart src s else s.updSys fun y => { y with phase := .stopped })
    else
      (s.updPair fun p => { p with cold := .ready }).updSys fun y => { y with phase := if y.phase = .config then .stopped else y.phase }
  else s
/-- The meaning of RESTORE_END. -/
def execRestoreEnd (s : State) : Res := .next (restoreEnd s)

/-! ### Manual handover (R389) -/

/-- HANDOVER_REQUEST_RECEIVE: a cold partner starts configuring. -/
def handoverRequest (s : State) : State := if receives s && s.pair.wick == .standby then startCold s else s
/-- The meaning of HANDOVER_REQUEST_RECEIVE. -/
def execHandoverRequestReceive (s : State) : Res := .next (handoverRequest s)
/-- RELEASED_RECEIVE: the partner holds RELEASED. -/
def releasedReceive (s : State) : State :=
  if receives s then s.updPair fun p => { p with gotReleased := true } else s
/-- The meaning of RELEASED_RECEIVE. -/
def execReleasedReceive (s : State) : Res := .next (releasedReceive s)
/-- HANDOVER_PILOT_WAIT_END: with RELEASED and the final delta, and no pilot read for G, the partner enters LIGHTING. -/
def pilotWaitEnd (s : State) : State :=
  if s.pair.gotReleased && s.ckpt.nextDelta.isSome && (s.pair.wick == .standby || s.pair.wick == .preparing) && elapsed s s.pair.leaseFrom (guardTicks s) then
    enterLighting s.pair.line s
  else s
/-- The meaning of HANDOVER_PILOT_WAIT_END. -/
def execHandoverPilotWaitEnd (s : State) : Res := .next (pilotWaitEnd s)
/-- The output ramp of a handover has ended: without rehearsal the cells halt, otherwise they run on (R389 step 3). -/
def handoverStop (s : State) : State :=
  if s.sys.phase = .rampOut ∧ s.sys.run = true then
    if s.rbit 0x4000011C 1 then s.updSys fun y => { y with phase := .running, rampEnd := none }
    else
      let s := s.updSys fun y => { y with phase := .stopped, rampEnd := none }
      playersStopRun (finishRamps ((s.cells.map (·.1)).foldl (fun s p => stopSched p s) s))
  else s
/-- HANDOVER_RAMP_END: at b + 4,096 the final delta and RELEASED are sent, and the wick is released (R389 step 3). -/
def handoverRampEnd (s : State) : State :=
  match s.pair.rampEnd with
  | some t =>
    if s.pair.wick = .releasing ∧ t ≤ s.sys.tick then
      let now := s.sys.tick
      let s := closeDelta s
      let s := s.updPair fun p => { p with sentHandover := 2, releasedAt := some now, rampEnd := none }
      wickSettle (releaseWick (handoverStop s))
    else s
  | none => s
/-- The meaning of HANDOVER_RAMP_END. -/
def execHandoverRampEnd (s : State) : Res := .next (handoverRampEnd s)
/-- TAKEN_RECEIVE: HO_RES records DONE. -/
def takenReceive (s : State) : State :=
  if s.pair.linkUp && s.pair.releasedAt.isSome then hoResult 1 (s.updPair fun p => { p with releasedAt := none }) else s
/-- The meaning of TAKEN_RECEIVE. -/
def execTakenReceive (s : State) : Res := .next (takenReceive s)
/-- HANDOVER_TIMEOUT: no TAKEN within L + G + 10 ms of RELEASED. -/
def handoverTimeout (s : State) : State :=
  match s.pair.releasedAt with
  | some t => if t + leaseTicks s + guardTicks s + s.msTicks 10 ≤ s.sys.tick then hoResult 7 (s.updPair fun p => { p with releasedAt := none }) else s
  | none => s
/-- The meaning of HANDOVER_TIMEOUT. -/
def execHandoverTimeout (s : State) : Res := .next (handoverTimeout s)

/-! ### Lantern sweep (R390, R391, Table 15.5) -/

/-- A pass starts with the cells whose vectors it runs. -/
def sweepBegin (s : State) : State :=
  let t := (upto 72).filter fun p => let r := (s.cell p).role; r == .spare || r == .idle || r == .test
  { s with pair := { s.pair with sweepOn := true }, fabric := { s.fabric with tested := t } }
/-- SWEEP_PASS_START: every PASS_MS; a pass still running is late (R390). -/
def sweepStart (s : State) : State :=
  match s.pair.sweepNext with
  | some t =>
    if s.sys.snuffed = false ∧ t ≤ s.sys.tick then
      let s := s.updPair fun p => { p with sweepNext := some (t + s.msTicks p.passMs) }
      if s.pair.sweepOn then raise .pair 6 (s.updPair fun p => { p with sweepOverdue := true, sweepLate := true }) else sweepBegin s
    else s
  | none => s
/-- The meaning of SWEEP_PASS_START. -/
def execSweepPassStart (s : State) : Res := .next (sweepStart s)
/-- STORE_CORRUPT: the store is fenced until a full load is accepted (R90, Table 3.22). -/
def storeCorruptFault (s : State) : State :=
  wickSettle (settle ((raise .img 2 s).updImg fun i => { i with storeCorrupt := true, storeFenced := true }))
/-- Every record of the active slot and the journal against its CRC. -/
def storeBad (s : State) : Bool :=
  s.img.accepted && (storeImages s).any fun b => (imageRecords s b).any fun r => recCrc s b r != r.crc || (wordsOf (b + r.off) (16 + r.len)).any (wordUe s)
/-- The messages whose samples do not match their CRC. -/
def badMessages (s : State) : List Nat :=
  match msgBase s with
  | none => []
  | some a => (upto (msgCount s)).filter fun i => crc32c (s.bytes (a + msgField s i 0) (4 * msgField s i 1)) != msgField s i 3
/-- The cells whose vectors the pass ran: a failing one is FENCED, a TEST cell that passed becomes SPARE (R119, R122, R147). -/
def sweepCells (failed : List Nat) (s : State) : State :=
  s.fabric.tested.foldl (fun s p =>
    let r := (s.cell p).role
    if !(r == .spare || r == .idle || r == .test) then s
    else if failed.contains p then cellUe 6 p s
    else if r = .test then s.updCell p fun c => { c with role := .spare } else s) s
/-- The MACs the pass loops back: a speed, and both directions off. -/
def loopable (s : State) (n : Nat) : Bool := decide (n < 4) && macSpeed s n != 0 && !macEnabled s n
/-- SWEEP_PASS_END: what the pass found, and DETAIL (R390, R391). -/
def sweepEnd (failed macs : List Nat) (s : State) : State :=
  if !s.pair.sweepOn then s
  else
    let s := sweepCells failed s
    let s := if storeBad s then (if s.img.storeCorrupt && s.faultBit .img 2 then s else storeCorruptFault s) else s
    let s := s.updMxe fun m => { m with corrupt := (m.corrupt ++ badMessages s).eraseDups }
    let s := (macs.eraseDups.filter (loopable s)).foldl (fun s _ => raise .pair 6 s) s
    let d := (upto 24).map (detailWord s)
    let s := (upto 24).foldl (fun s i => s.setReg (0x40160100 + 4 * i) (d.getD i 0)) s
    let s := s.updPair fun p => { p with sweepOn := false, passes := (p.passes + 1) % 2 ^ 32, sweepLate := p.sweepOverdue, sweepOverdue := false,
                                         sentDetail := if solo s then p.sentDetail else d }
    let s := settle { s with fabric := { s.fabric with tested := [] } }
    let s := evt .pair 3 s
    if s.pair.sweepLate then sweepBegin s else s
/-- The meaning of SWEEP_PASS_END. -/
def execSweepPassEnd (cells macs : List Nat) (s : State) : Res := .next (sweepEnd cells macs s)

end Sys2Proof.Machine
end

