-- ==== Sys2Proof/Machine/Sem.lean ====
section
/-! DEFINITION. The semaphores: acquisition, release, hold limits, the boot rule for G (R56, R431 to R437). -/
namespace Sys2Proof.Machine
open Sys2Proof

/-- Semaphore i changes its holder; a change of G sets G_CHG. -/
def semOwner (i : Nat) (o : Option HostId) (s : State) : State :=
  let was := (s.sem i).owner
  let s := s.setSem i ⟨o, if o.isSome then s.sys.tick else 0⟩
  if i = 0 ∧ was ≠ o then evt .hp 2 s else s
/-- The code of a holder (Table 17.8). -/
def ownerCode : Option HostId → Nat
  | none => 0 | some .a => 1 | some .b => 2
/-- A host may acquire G now: until the first image is accepted, only the boot source decides (R56). -/
def gPermitted (s : State) (h : HostId) : Bool :=
  s.img.boot == .done ||
    (match s.img.bootSrc with
     | 0 => h == .a
     | 1 => h == .b
     | 2 => false
     | _ => s.img.flashFallback)
/-- The holder a refused acquisition of G shows: the permitted host, or BOOT (R431). -/
def gRefusedCode (s : State) : Nat := if gPermitted s .a then 1 else if gPermitted s .b then 2 else 3
/-- A read of SEM[i]: an acquisition by a host, a plain read by any other master (R431). -/
def semRead (m : Master) (i : Nat) (s : State) : State × Word :=
  match m.host? with
  | none => (s, wd (ownerCode (s.sem i).owner))
  | some h =>
    if i = 0 ∧ gPermitted s h = false then (s, wd (gRefusedCode s))
    else match (s.sem i).owner with
      | some o => (s, wd (ownerCode (some o)))
      | none => (semOwner i (some h) s, wd (ownerCode (some h) + 4))
/-- A write of SEM[i]: the holder releases it; any other master gets ACCESS_ERR (R432). -/
def semWrite (m : Master) (i : Nat) (s : State) : State × Code :=
  if m.host?.isSome ∧ (s.sem i).owner = m.host? then (semOwner i none s, .ok) else (s, .accessErr)
/-- The meaning of SEM_ACQUIRE. -/
def execSemAcquire (m : Master) (i : Fin 64) (s : State) : Res := .next (rdCmd m (semRead m i.val) s)
/-- The meaning of SEM_RELEASE. -/
def execSemRelease (m : Master) (i : Fin 64) (s : State) : Res := .next (cmdC m false (semWrite m i.val) s)
/-- The address of SEM_LIMIT[i]. -/
def semLimitReg (i : Nat) : Nat := Blk.hp.base + 0x1200 + 4 * i
/-- HOLD_EXPIRED: the hold has lasted its limit; the semaphore is FREE (R433). -/
def holdExpired (i : Nat) (s : State) : State :=
  let l := s.fld (semLimitReg i) 0 16
  if (s.sem i).owner.isSome ∧ l ≠ 0 ∧ (s.sem i).since + s.msTicks l ≤ s.sys.tick then semOwner i none (raise .hp 0 s) else s
/-- The meaning of HOLD_EXPIRED. -/
def execHoldExpired (i : Fin 64) (s : State) : Res := .next (holdExpired i.val s)
/-- Every semaphore for which p holds becomes FREE. -/
def semReleaseAll (p : Option HostId → Bool) (s : State) : State :=
  (upto 64).foldl (fun s i => if (s.sem i).owner.isSome && p (s.sem i).owner then semOwner i none s else s) s
/-- SEM_PEEK[i] (Table 17.8). -/
def semPeek (s : State) (i : Nat) : Word :=
  let x := s.sem i
  let held := if x.owner.isSome then min 65535 ((s.sys.tick - x.since) * 1000 / (64 * s.fs)) else 0
  pack [(0, ownerCode x.owner), (16, held)]
/-- The bits of SEM_OWN of a host from semaphore k on. -/
def semOwn (s : State) (h : HostId) (k : Nat) : Word :=
  wd ((upto 32).map fun i => b2n ((s.sem (k + i)).owner == some h) * 2 ^ i).sum

end Sys2Proof.Machine
end

