-- ==== Sys2Proof/Machine/Faults.lean ====
section
/-! DEFINITION. Fault detections as commands, with the local action the source table of each block names; clearing a fault bit; the
event log's writer; the interrupt pins; the clock monitor (R398 to R412, R419). -/
namespace Sys2Proof.Machine
open Sys2Proof

/-! ### Detections (R399) -/

/-- The block exists. -/
def blkValid : Blk → Bool
  | .mac n => decide (n < 4)
  | .apt n => decide (n < 16)
  | .cell p => decide (p < 72)
  | _ => true
/-- The bits of a block's FAULT_STATUS that are sources. -/
def faultMask (b : Blk) : Nat := match findRow (blkRows b) 0x080 with | some r => r.wmask | none => 0
/-- Source i of the block exists. -/
def faultValid (b : Blk) (i : Nat) : Bool := blkValid b && nbit (faultMask b) i
/-- A CHIP fault: the detection, and entry to the snuffed state (R408). -/
def chipFault (b : Blk) (i : Nat) (s : State) : State := enterSnuff (.fault b i) (raise b i s)
/-- REG_PARITY: `d` gives the block index in its low 5 bits and the unit above them (R409). -/
def regParity (d : Nat) (s : State) : State := enterSnuff (.parity (d % 32) (d / 32)) (raise .sys 0 s)
/-- LOG_UE: the entry counts in LOG_LOST (Table 16.8). -/
def logUe (s : State) : State :=
  (raise .sys 1 s).updSys fun y => { y with log := { y.log with lost := satInc (2 ^ 32 - 1) y.log.lost } }
/-- The master of an index of Table 17.5. -/
def masterAt : Nat → Master
  | 0 => .hpa | 1 => .hpb | 2 => .dma | 3 => .seq | 4 => .img | 5 => .ste | 6 => .dly | 7 => .chk | _ => .pair
/-- DMA's sources: channel d mod 16; for PROG_ERR d / 16 is PCODE, for BUS_ERR the code and, above it, the address (R455). -/
def dmaFault (i d : Nat) (s : State) : State :=
  let n := d % 16
  if i = 4 then updDma (fun x => { x with interleaveDue := true }) (raise .dma 4 s)
  else if dmaFree (s.dmaCh n) then raise .dma i s
  else match i with
    | 0 => dmaHalt n 1 0 (updCh n (fun x => { x with pcode := d / 16 % 8 }) s)
    | 1 => dmaHalt n 2 1 (updCh n (fun x => { x with errCode := d / 16 % 8, errAddr := d / 128 % 2 ^ 36 }) s)
    | 2 => dmaHalt n 3 2 s
    | _ => dmaBufUe n s
/-- CHK's sources: an upset of EXP_V or EXP_C is CHK_REF_FAULT, which leaves the unit IDLE; a bus error ends its scan (Table 18.15). -/
def chkFault (i : Nat) (s : State) : State :=
  let u := i / 4
  let s := raise .chk i s
  let busy := (s.chkU u).st != .idle
  if i % 4 = 1 then
    let s := updChk u (fun x => { x with parityBad := true }) s
    if busy then chkIdle u 4 s else s
  else if i % 4 = 2 ∧ busy = true then chkIdle u 5 s
  else s
/-- TWC's sources that change the controller (R478, R481, R482). -/
def twcFault (i : Nat) (s : State) : State :=
  let k := i / 4
  let busy := (s.tw k).st == .busy || (s.tw k).st == .stopping
  match i % 4 with
  | 0 => if (s.tw k).st = .busy ∧ (s.tw k).lost = false then arbLost k 0 0 s else raise .twc i s
  | 2 => if busy && !(s.tw k).sclHeld then sclStuck k s else raise .twc i s
  | _ => raise .twc i s
/-- FLC's sources: the command ends; a device without SFDP fails the flash boot (R485, R486). -/
def flcFault (i : Nat) (s : State) : State :=
  let s := raise .flc i s
  if i = 0 then (if s.flc.st = .idle then s else flcEnd 5 s)
  else if flashActive s then flashFail s else s
/-- An entry of the active bank is invalidated at once (Table 7.17). -/
def entryUe (e : Nat) (s : State) : State :=
  let s := raise .mxe 0 s
  s.updMxe fun m => m.setBank m.active (Tab.set (fun _ => ({} : Xpt)) (m.bank m.active) e {})
/-- A line's output is 0 for the frame that the next FRAME_BOUNDARY forms; detections stand before it in a tick (Table 7.19, R23). -/
def lineErr (i l : Nat) (s : State) : State := updLine l (fun x => { x with miss := x.valid }) (raise .dly i s)
/-- A player's sample was not fetched by its frame: it reads 0 in the frame that the next FRAME_BOUNDARY forms, and the player goes on at
the correct position (R202). -/
def playerUnderrun (p : Nat) (s : State) : State :=
  updPlayer p (fun x => { x with miss := x.state == .playing || x.state == .stopping }) (raise .mxe 1 s)
/-- A slot's measures hold an uncorrectable error: its next closed record has VALID = 0 (Table 4.14). -/
def ledgerEcc (j : Nat) (s : State) : State :=
  (raise .ldg 4 s).updLdg fun g => { g with ecc := if g.ecc.contains j then g.ecc else g.ecc ++ [j] }
/-- OVERRUN: the schedule in flight stops, and the return banks do not swap (Table 5.10, R141). -/
def overrun (p : Nat) (s : State) : State :=
  (raise (.cell p) 5 s).updCell p fun c => if c.sched then { c with retBack := c.retFront } else c
/-- SHADOW_MISMATCH: the migration is abandoned, and the cell returns to SPARE (Table 5.10). -/
def shadowMismatch (p : Nat) (s : State) : State :=
  let s := raise (.cell p) 7 s
  match s.fabric.mig with
  | some m => if m.spare = p then dequeueMig (endMig .mismatch .spare s) else s
  | none => s
/-- SELFTEST_FAIL of a SPARE, IDLE or TEST cell (R147). -/
def selftestFail (p : Nat) (s : State) : State :=
  let r := (s.cell p).role
  if r == .spare || r == .idle || r == .test then cellUe 6 p s else raise (.cell p) 6 s
/-- An uncorrectable memory word at address d: the source, and for the carafe its row (R472, R476, R477). -/
def memFault (i d : Nat) (s : State) : State :=
  let w := d / 8 * 8
  if isDram w == (i == 0) && (i == 0 || decide (carafeBase ≤ w ∧ w < carafeEnd)) then memUeRaise w (findErrors [] [w] s) else raise .memc i s
/-- PAIR's sources (Table 15.11). -/
def pairFault (i : Nat) (s : State) : State :=
  match i with
  | 0 => chipFault .pair 0 s
  | 1 =>
    if holder s then
      let s := (clearArm (raise .pair 1 s)).updPair fun p => { p with rampEnd := none }
      wickSettle (releaseWick s)
    else clearArm (raise .pair 1 s)
  | 2 => lightFail s
  | 3 => if s.pair.linkUp then pairLinkDown s else settle ((raise .pair 3 s).updPair fun p => { p with linkFenced := true })
  | 5 => ckptLoss s
  | _ => raise .pair i s
/-- A detection with its local action. `d` tells which channel, entry, slot or word of the block it is about. -/
def faultAct (b : Blk) (i d : Nat) (s : State) : State :=
  match b, i with
  | .sys, 0 => regParity d s
  | .sys, 1 => logUe s
  | .sys, 2 => chipFault .sys 2 s
  | .img, 2 => storeCorruptFault s
  | .hp, 1 => if (s.port (if d % 2 = 0 then .a else .b)).resetAt == some s.sys.tick then s else raise .hp 1 s
  | .hp, 0 => if (s.sem (d % 64)).owner.isSome then semOwner (d % 64) none (raise .hp 0 s) else raise .hp 0 s
  | .hp, 2 => semReleaseAll (fun _ => true) (raise .hp 2 s)
  | .bmx, _ => respond (masterAt d) .accessErr [] (raise .bmx i s)
  | .dma, i => dmaFault i d s
  | .chk, i => chkFault i s
  | .twc, i => twcFault i s
  | .flc, i => flcFault i s
  | .mac n, 0 => macLinkLost n s
  | .mac n, 1 => macMemUe n d s
  | .mac n, 2 => pauseBreak n s
  | .ste, 0 => steCarafeUe (d % 8192) (d / 8192) s
  | .ste, 1 => steFlowUe (d % 8192) s
  | .ptu, 0 => chipFault .ptu 0 s
  | .ptu, 1 => domainUe (if d % 2 = 0 then .a else .b) s
  | .rsu, 5 => rsuStateUe s
  | .mxe, 0 => entryUe d s
  | .mxe, 1 => playerUnderrun (d % 64) s
  | .ldg, 4 => ledgerEcc (d % 4096) s
  | .apt n, 0 => aptLose n .rx 1 s
  | .apt n, 1 => aptLose n .tx 1 s
  | .apt n, 4 => aptBufUe n (d % 64) s
  | .pwr, 1 => ocDetect 1 (d % 32) s
  | .pwr, 2 => ocDetect 2 (d % 32) s
  | .pwr, 3 => pwrStateUe (d % 32) (raise .pwr 3 s)
  | .pwr, 7 => chipFault .pwr 7 (padStuck s)
  | .lsp, 1 => if d < 68 && !(s.sns d).lost && snsL s (snsGroup d) != 0 then loseSense d s else raise .lsp 1 s
  | .lsp, 6 => lspStateUe (d % 32) s
  | .pair, i => pairFault i s
  | .memc, 0 => memFault 0 d s
  | .memc, 1 => memFault 1 d s
  | .memc, 4 => rowSpared (d % 131072) s
  | .memc, 6 => raise .memc 6 (updMemc (fun m => { m with hot := true }) s)
  | .dly, 0 => lineErr 0 (d % 1024) s
  | .dly, 1 => lineErr 1 (d % 1024) s
  | .cell p, 2 => ceMigrate (raise (.cell p) 2 s) p
  | .cell p, 3 => cellUe 3 p s
  | .cell p, 4 => cellUe 4 p s
  | .cell p, 5 => overrun p s
  | .cell p, 6 => selftestFail p s
  | .cell p, 7 => shadowMismatch p s
  | b, i => raise b i s
/-- A detection as the command brings it: of a source that exists. -/
def faultDetect (b : Blk) (i d : Nat) (s : State) : State := if faultValid b i then wickSettle (settle (faultAct b i d s)) else s
/-- The meaning of FAULT_DETECTION. -/
def execFaultDetection (b : Blk) (src : Fin 32) (detail : Nat) (s : State) : Res := .next (faultDetect b src.val detail s)
/-- The meaning of CNT_MISMATCH: the counter's copies disagree (R268). -/
def execCntMismatch (s : State) : Res := .next (chipFault .ptu 0 s)
/-- The meaning of DRIVE_MISMATCH: the readback of DRIVE_EN differs for two ticks (R343). -/
def execDriveMismatch (s : State) : Res := .next (driveCheck (chipFault .pwr 7 (padStuck s)))

/-! ### Clearing a bit (R400, R401) -/

/-- The cause of a source is a condition that still holds. -/
def persists (b : Blk) (i : Nat) (s : State) : Bool :=
  match b, i with
  | .sys, 2 => s.sys.clockLost != []
  | .img, 2 => s.img.storeCorrupt
  | .mac n, 0 => (s.mac n).fenced && !(s.mac n).link
  | .apt n, 0 => (s.aptDir n .rx).st == .muted && !(s.aptDir n .rx).locked
  | .apt n, 1 => (s.aptDir n .tx).st == .muted && !(s.aptDir n .tx).locked
  | .apt n, 2 => (s.aptDir n .rx).slip
  | .apt n, 3 => (s.aptDir n .tx).slip
  | .pwr, 7 => drivePad s != s.pwr.driveEn
  | .pwr, 4 => s.rails.any fun e => e.2.k == 8388607
  | .lsp, 1 => s.lsp.sns.any fun e => e.2.lost
  | .lsp, 2 => s.lsp.chs.any fun e => e.2.hot
  | .pair, 3 => s.pair.linkFenced && !s.pair.linkUp
  | .pair, 7 => unitClash s
  | .memc, 6 => s.memc.hot
  | .twc, 2 => (s.tw 0).sclHeld
  | .twc, 6 => (s.tw 1).sclHeld
  | _, _ => false
/-- What a block does in the tick in which software clears a bit. -/
def clearAct (b : Blk) (i : Nat) (s : State) : State :=
  match b, i with
  | .mac n, 0 => macClearLinkLost n s
  | .rsu, 5 => rsuClearUe s
  | .apt n, 0 => aptClearLost n .rx s
  | .apt n, 1 => aptClearLost n .tx s
  | .pair, 3 => if s.pair.linkUp then settle (s.updPair fun p => { p with linkFenced := false }) else s
  | .twc, 3 => twRecoverAgain 0 s
  | .twc, 7 => twRecoverAgain 1 s
  | _, _ => s
/-- A source is to be detected again in the next tick. -/
def redetect (b : Blk) (i : Nat) (s : State) : State :=
  if persists b i s && !s.sys.redetect.contains (b, i) then s.updSys fun y => { y with redetect := y.redetect ++ [(b, i)] } else s
/-- One bit of a FAULT_STATUS is cleared, unless its source was detected in this tick. -/
def faultClear1 (m : Master) (b : Blk) (s : State) (i : Nat) : State :=
  if !s.faultBit b i || s.sys.detected.contains (b.base, i) then s
  else
    let s := s.clrReg (b.base + 0x80) (bm i)
    let s := logPush 2 b.index b.unit i (4 * origCode m.host? + (faultSev b i).code) s
    redetect b i (clearAct b i s)
/-- A write of a FAULT_STATUS. -/
def faultClear (m : Master) (b : Blk) (v : Word) (s : State) : State :=
  wickSettle (((upto 32).filter fun i => bit v i).foldl (faultClear1 m b) s)
/-- The meaning of FAULT_CLEAR. -/
def execFaultClear (m : Master) (b : Blk) (v : Word) (s : State) : Res :=
  .next (cmd m false (fun s => if blkValid b then faultClear m b v s else s) s)
/-- The detection is due whatever the condition has become: a clock loss (R410), and a LINK_LOST that was cleared with the link down (R226). -/
def detectSure (s : State) : Blk × Nat → Bool
  | (.sys, 2) => s.sys.monitorDue
  | (.mac n, 0) => (s.mac n).fenced
  | _ => false
/-- The detection of a condition that still holds, a tick after its bit was cleared, with its local action; and of a clock loss
that came while the ticks stood (R400, R410). -/
def detectAgain (s : State) (e : Blk × Nat) : State :=
  if !persists e.1 e.2 s && !detectSure s e then s
  else match e with
    | (.sys, 2) => chipFault .sys 2 (s.updSys fun y => { y with monitorDue := false })
    | (.img, 2) => storeCorruptFault s
    | (.pwr, 7) => chipFault .pwr 7 s
    | (.mac n, 0) => macLinkLost n s
    | (b, i) => raise b i s
/-- The detections due in this tick. -/
def detectDue (s : State) : State :=
  let l := s.sys.redetect
  l.foldl detectAgain (s.updSys fun y => { y with redetect := [] })

/-! ### The log's writer (R405 to R407) -/

/-- The 16 bytes of an entry (Table 16.1). -/
def LogEntry.bytes (e : LogEntry) : List Byte := leBytes 8 e.tick ++ leBytes 2 e.seq ++ leBytes 1 e.kind ++ leBytes 1 e.block ++ leBytes 1 e.unit ++ leBytes 1 e.source ++ leBytes 1 e.attr ++ leBytes 1 0
/-- LOG_STAT.NEXT after so many entries since the last clear. -/
def logNext (stored : Nat) : Nat := if stored < 1024 then stored else 1024 + (stored - 1024) % 3072
/-- LOG_ENTRY_STORE: the oldest queued entry goes to NEXT; over an entry that holds data it counts in LOG_OVW. -/
def logStore (s : State) : State :=
  if sysClockLost s then s
  else match s.sys.log.queue with
    | [] => s
    | e :: t =>
      let a := logBase + 16 * logNext s.sys.log.stored
      let s := s.setBytes a e.bytes
      let ok (l : List Nat) : List Nat := l.filter fun w => w != a && w != a + 8
      let s := { s with memUe := ok s.memUe, poisoned := ok s.poisoned }
      s.updSys fun y =>
        { y with log := { y.log with queue := t, stored := y.log.stored + 1, ovw := if 4096 ≤ y.log.stored then satInc (2 ^ 32 - 1) y.log.ovw else y.log.ovw } }
/-- The meaning of LOG_ENTRY_STORE. -/
def execLogEntryStore (s : State) : Res := .next (logStore s)
/-- LOG_CTRL.CLEAR. -/
def logClear (s : State) : State := s.updSys fun y => { y with log := { y.log with stored := 0, ovw := 0, lost := 0 } }
/-- The meaning of LOG_CLEAR. -/
def execLogClear (m : Master) (s : State) : Res := .next (cmd m false logClear s)
/-- LOG_STAT (Table 16.7). -/
def logStat (s : State) : Word :=
  let n := s.sys.log.stored
  pack [(0, logNext n), (30, b2n (decide (1024 ≤ n))), (31, b2n (decide (4096 < n)))]

/-! ### Interrupt pins (R404) -/

/-- The meaning of INT_ASSERT: the pin asserts if a request waits and M ticks have passed. -/
def execIntAssert (h : HostId) (s : State) : Res := .next (if ticksRun s then settlePin h s else s)

/-! ### The clock monitor (R410) -/

/-- What the monitor does at once: the bit and SNUFF_CAUSE, every gate low, the WICK driver released. -/
def monitorAct (s : State) : State :=
  let s := s.orReg (Blk.sys.base + 0x80) (bm 2)
  let s := snuffRecord (.fault .sys 2) s
  let s := driveFall s
  if s.pair.wick == .disarmed then s else setWick .disarmed s
/-- CLK_LOST: a clock is lost. The monitor acts at once; the detection is applied in the next tick that runs (R22, R410). -/
def clkLost (c : ClkSrc) (s : State) : State :=
  let s := s.updSys fun y => { y with clockLost := if y.clockLost.contains c then y.clockLost else y.clockLost ++ [c] }
  if !s.sys.resetN || !s.sys.suppliesGood then s else
  (monitorAct s).updSys fun y =>
    { y with monitorDue := true, redetect := if y.redetect.contains (.sys, 2) then y.redetect else y.redetect ++ [(.sys, 2)] }
/-- The meaning of CLK_LOST. -/
def execClkLost (c : ClkSrc) (s : State) : Res := .next (clkLost c s)

end Sys2Proof.Machine
end

