-- ==== Sys2Proof/Machine/Tick.lean ====
section
/-! DEFINITION. Time: the tick strobe and what it brings about, the sample frame, the window boundary, the reference waits, reset,
the supplies and the clocks (R16 to R25, R33, R52 to R55, R105, R266, R290, R295, R410, R495). -/
namespace Sys2Proof.Machine
open Sys2Proof

/-! ### The time of the next tick (R16, R17) -/

/-- The time of SEL at which tick n begins: the least T with floor(T * 64 * FS) = n, in units of 2^-32 ns. -/
def tickTime (s : State) (n : Nat) : Nat := ceilDiv (n * 10 ^ 9 * 2 ^ 32) (64 * s.fs)
/-- The first counter period at which SEL has reached a time (R269, R271). -/
def selReach (p : TimePar) (t : Nat) : Nat := p.anchor + ceilDiv ((t - p.base) * 2 ^ 14) p.rate
/-- The counter period in which the next tick's edge lies. -/
def nextCounter (s : State) : Nat :=
  let n := s.sys.tick + 1
  let c := if s.sys.src then selReach s.ptu.sel (tickTime s n) else (if s.sys.fs48 then 320 else 160) * n
  max c (s.ptu.counter + 1)
/-- The renumbering of the tick at alignment: what falls due keeps its time, and LDG's measures are discarded (R17, R105). -/
def realign (f : Nat → Nat) (s : State) : State := ldgRestart (retime f s)

/-! ### EVENT_TICK (R20, R21, R293, R399, R404) -/

/-- In the tick that ends a frame the saturations of the frame are detected (R106, R147). -/
def frameFaults (s : State) : State := if s.sys.tick % 64 = 63 then ldgFrameFault (cellFrameFaults s) else s
/-- ALARM takes its effects at the first frame boundary after it changed, or was cleared and set again (R45, R49, R338). -/
def alarmBoundary (s : State) : State :=
  if s.sys.alarmEff == s.sys.alarm && !s.sys.alarmRose then s
  else
    let s := s.updSys fun y => { y with alarmEff := y.alarm, alarmRose := false }
    if s.sys.alarm then pwrAlarm (lspAlarm (silClear s)) else s
/-- The boundary b of a start: rounding states, histories and lines start anew; a takeover's cells keep what it restored (R98, R99, R204, R379). -/
def startBoundary (s : State) : State :=
  if s.sys.runStart && s.sys.rampEnd == some (s.sys.tick + 4096) then
    let restored := match s.ckpt.held with | some (.full _) => true | _ => false
    let s := if restored then s else cellsSeed s
    let s := dlyRunStart (aptRunStart (steRunStart (mxeSeed s)))
    { s with ckpt := { s.ckpt with held := none }, sys := { s.sys with runStart := false } }
  else s
/-- What a frame boundary changes before its commands. -/
def boundaryOpen (s : State) : State := if s.atFrame then startBoundary (alarmBoundary (selUpdate s)) else s
/-- The tick's number and the counter move on; the detections of the last tick are past. The first tick that runs after the counter stood
still clears ALIGNED (R410). -/
def tickCount (s : State) : State :=
  let c := nextCounter s
  let s := s.updSys fun y => { y with tick := y.tick + 1, detected := [], aligned := y.aligned && !y.tickLoss }
  updPtu (fun p => { p with counter := c }) s
/-- EVENT_TICK: the next tick opens. -/
def eventTick (s : State) : State :=
  if !ticksRun s then s
  else
    let q := qualifiedRefs s
    let s := finishRelease (detectDue (frameFaults (tickCount (settlePins s))))
    let s := boundaryOpen (rsuEvaluate realign q (masterCopy s))
    wickSettle (settle (partialStep (portSetups (pwrTick (stepOuts (macRxTick s))))))
/-- The meaning of EVENT_TICK. -/
def execEventTick (s : State) : Res := .next (eventTick s)

/-! ### FRAME_BOUNDARY (R19, R178, R207) -/

/-- A sample frame: readings and ports, network sources, the matrix after its takeovers, the delay lines, the consumers. -/
def frameBody (inp : FrameIn) (s : State) : State :=
  let s := lspFrame inp.sense (pwrFrameStart s)
  let s := aptFrame inp.slots (steFrameStart s)
  let s := mxeFrame (mxeTakeovers s)
  let s := dlyFrame s
  let s := feedCells (destOut s) s
  shadowCompare (pwrFrameEnd (steFrameEnd s))
/-- FRAME_BOUNDARY: at a tick that is a multiple of 64, once. -/
def frameBoundary (inp : FrameIn) (s : State) : State :=
  if s.atFrame && ticksRun s && s.sys.frameAt != some s.sys.tick then
    let s := s.updSys fun y => { y with frameAt := some y.tick }
    wickSettle (settle (frameBody inp s))
  else s
/-- The meaning of FRAME_BOUNDARY. -/
def execFrameBoundary (inp : FrameIn) (s : State) : Res := .next (frameBoundary inp s)

/-! ### WINDOW_BOUNDARY (R103, R105, R129, R473) -/

/-- The windows close. -/
def closeWindows (s : State) : State :=
  let r := closeCeWindow (ldgWindow s)
  memcWindow (r.2.foldl ceMigrate r.1)
/-- WINDOW_BOUNDARY: at a tick that is a multiple of 2^22, once. -/
def windowBoundary (s : State) : State :=
  if s.sys.tick % 4194304 == 0 && s.sys.tick != 0 && ticksRun s && s.sys.windowAt != some s.sys.tick then
    wickSettle (settle (closeWindows (s.updSys fun y => { y with windowAt := some y.tick })))
  else s
/-- The meaning of WINDOW_BOUNDARY. -/
def execWindowBoundary (s : State) : Res := .next (windowBoundary s)

/-! ### The tick number as it reads (R33) -/

/-- A read of TICK_LO: bits [31:0], with bits [63:32] into the master's capture. -/
def tickLoRead (m : Master) (s : State) : State × Word :=
  (s.updSys fun y => { y with tickHi := Tab.set (fun _ => (0 : Word)) y.tickHi m.idx (wd (y.tick / 2 ^ 32)) }, wd s.sys.tick)
/-- The meaning of TICK_LO_READ. -/
def execTickLoRead (m : Master) (s : State) : Res := .next (rdCmd m (tickLoRead m) s)

/-! ### Reference waits (R290, R295) -/

/-- The meaning of REF_QUALIFIED. -/
def execRefQualified (c : Fin 6) (s : State) : Res := .next (refQualified realign c.val s)
/-- The meaning of WTR_END. -/
def execWtrEnd (c : Fin 6) (s : State) : Res := .next (wtrEnd realign c.val s)
/-- The meaning of DISQ_END. -/
def execDisqEnd (c : Fin 6) (s : State) : Res := .next (disqEnd realign c.val s)
/-- The meaning of FIRST_WAIT_END. -/
def execFirstWaitEnd (s : State) : Res := .next (firstWaitEnd realign s)
/-- The meaning of START_WAIT_END. -/
def execStartWaitEnd (s : State) : Res := .next (startWaitEnd realign s)

/-! ### Reset, supplies, clocks (R52 to R55, R410, R413, R494 to R496) -/

/-- EXTEST drives the pins only while RESET_N is low (R508). -/
def jtagPins (s : State) : Jtag :=
  { s.jtag with driven := if s.jtag.inst = .extest ∧ s.sys.resetN = false then some s.jtag.boundary else none }
/-- The part in reset: every register at its reset value. Fuses, flash, memory bytes, the test port, the supplies, a lost clock and
SNUFF_CAUSE are not the reset's. -/
def inReset (s : State) : State :=
  let r : State := { pending := s.pending, freeCount := s.freeCount, mem := s.mem, memUe := s.memUe, poisoned := s.poisoned, jtag := jtagPins s }
  let r := r.updImg fun i => { i with fuses := s.img.fuses, bootSrc := s.img.bootSrc }
  let r := r.updSys fun y =>
    { y with snuffCause := s.sys.snuffCause, resetN := s.sys.resetN, suppliesGood := s.sys.suppliesGood, clockLost := s.sys.clockLost }
  let r := updFlc (fun x => { x with flash := s.flc.flash }) r
  { r with pair := { r.pair with line := s.pair.line } }
/-- RESET_N_ASSERT: the ticks stop, and the pins take their reset states (R53). -/
def resetAssert (s : State) : State := inReset (s.updSys fun y => { y with resetN := false })
/-- The meaning of RESET_N_ASSERT. -/
def execResetNAssert (s : State) : Res := .next (resetAssert s)
/-- RESET_N_RELEASE: BOOT_SEL is captured, and the boot phases start (R54, R55). -/
def resetRelease (bootSel : Nat) (s : State) : State :=
  if s.sys.resetN then s
  else (inReset (s.updSys fun y => { y with resetN := true })).updImg fun i => { i with bootSrc := bootSel }
/-- The meaning of RESET_N_RELEASE. -/
def execResetNRelease (bootSel : Fin 4) (s : State) : Res := .next (resetRelease bootSel.val s)
/-- PLL_LOCK: SEQ leaves PLL_WAIT (R52). -/
def pllLock (s : State) : State :=
  if s.img.boot == .pllWait && s.sys.resetN && s.sys.suppliesGood then
    (s.updSys fun y => { y with clockLost := [] }).updImg fun i => { i with boot := .fuse }
  else s
/-- The meaning of PLL_LOCK. -/
def execPllLock (s : State) : Res := .next (pllLock s)
/-- SUPPLY_UNDERVOLTAGE: the chip is as with RESET_N low; SNUFF_CAUSE is lost with VDDIO (R413, R495). -/
def undervoltage (vddio : Bool) (s : State) : State :=
  inReset (s.updSys fun y => { y with suppliesGood := false, snuffCause := if vddio then 0 else y.snuffCause })
/-- The meaning of SUPPLY_UNDERVOLTAGE. -/
def execSupplyUndervoltage (vddio : Bool) (s : State) : Res := .next (undervoltage vddio s)
/-- SUPPLY_RESTORED: every monitored supply is back for 1 ms; with RESET_N high a full boot starts (R495). R55 captures BOOT_SEL at the
release of reset; whether this boot captures it again the spec does not say, and the model keeps the last captured value
(DESIGN CHOICE, notes/assumptions/38). -/
def supplyRestored (s : State) : State :=
  if s.sys.suppliesGood then s else inReset (s.updSys fun y => { y with suppliesGood := true })
/-- The meaning of SUPPLY_RESTORED. -/
def execSupplyRestored (s : State) : Res := .next (supplyRestored s)
/-- The time counter after an interval in which its clock ran and no tick did (R266): how many periods passed is a free value. -/
def counterRanOn (s : State) : State :=
  let hi := s.draw
  let lo := hi.2.draw
  updPtu (fun p => { p with counter := p.counter + hi.1.toNat * 2 ^ 32 + lo.1.toNat }) lo.2
/-- CLOCK_RETURN: a lost clock is back. The tick number no longer agrees with other chips if the counter stood still (R410); a loss of
the system PLL alone leaves the time island's clock running. -/
def clockReturn (c : ClkSrc) (s : State) : State :=
  if !s.sys.clockLost.contains c then s
  else
    let s := s.updSys fun y => { y with clockLost := y.clockLost.filter (· != c) }
    if (c == .refclk || c == .timePll) && s.sys.resetN && s.sys.suppliesGood then
      s.updSys fun y => { y with tickLoss := true }
    else if c == .sysPll && s.sys.resetN && s.sys.suppliesGood then counterRanOn s
    else s
/-- The meaning of CLOCK_RETURN. -/
def execClockReturn (c : ClkSrc) (s : State) : Res := .next (clockReturn c s)

end Sys2Proof.Machine
end

