-- ==== Sys2Proof/Machine/Bus.lean ====
section
/-! DEFINITION. The internal bus: the address map, reads and writes of every target by every master, the frames of the host ports,
the port reset, timeouts (R3 to R6, R29 to R32, R417, R420 to R430, R435 to R444). -/
namespace Sys2Proof.Machine
open Sys2Proof

/-! ### The address map (R29, R30, R441) -/

/-- The target of an address; none where Table 1.10 has no range. -/
def busTarget (a : Nat) : Option BusTarget :=
  if a < 0xC0000 then some .low
  else if carafeBase ≤ a ∧ a < carafeEnd then some .carafe
  else if 0x40000000 ≤ a ∧ a < 0x40190000 then some .regs
  else if 0x40200000 ≤ a ∧ a < 0x40248000 then some .regs
  else if 0x50000000 ≤ a ∧ a < 0x50900000 then some .cellMem
  else if 0x60000000 ≤ a ∧ a < 0x62000000 then some .matrix
  else if dramBase ≤ a ∧ a < 0x500000000 then some .dram
  else none
/-- The boot ROM's byte offset that an address of the low region names. -/
def romAt (s : State) (a : Nat) : Option Nat :=
  if s.bmx.remap then (if 0x80000 ≤ a ∧ a < 0x90000 then some (a - 0x80000) else none)
  else if a < 0x10000 then some a else none
/-- The place in working RAM that an address of the low region names, at its position with REMAP = 0. -/
def ramAt (s : State) (a : Nat) : Option Nat :=
  if s.bmx.remap then (if a < 0x40000 then some (0x80000 + a) else none)
  else if 0x80000 ≤ a ∧ a < 0xC0000 then some a else none
/-- A read of a word of the low region. -/
def lowRead (a : Nat) (s : State) : State × Word × Code :=
  match romAt s a, ramAt s a with
  | some r, _ => (s, wd (leNat ((upto 4).map fun i => Config.bootRom (r + i))), .ok)
  | _, some r => (s, wd (s.le r 4), .ok)
  | _, _ => (s, 0, .decodeErr)
/-- A write of a word of the low region: the ROM never, working RAM by hosts and SEQ until the remap, by SEQ after it (R441). -/
def lowWrite (m : Master) (a : Nat) (v : Word) (s : State) : State × Code :=
  match romAt s a, ramAt s a with
  | some _, _ => (s, .accessErr)
  | _, some r => if m != .seq && (s.bmx.remap || m.host?.isNone) then (s, .accessErr) else (s.setBytes r (leBytes 4 v.toNat), .ok)
  | _, _ => (s, .decodeErr)

/-! ### Registers that hold live state (Tables 1.12, 2.9, 16.6, 17.6, 17.10) -/

/-- SYS.FAULT_ANY (R403). -/
def faultAny (s : State) : Word :=
  wd ((upto 24).map fun i => b2n ((blocksOf i).any fun b => s.reg (b.base + 0x80) != 0) * 2 ^ i).sum
/-- A read of SYS's registers that hold live state. -/
def sysRegRead (m : Master) (off : Nat) (s : State) : Option (State × Word) :=
  let y := s.sys
  match off with
  | 0x000 => some (s, pack [(16, 0x4032), (8, if s.img.fuseRead then s.img.fuses.step % 256 else 0)])
  | 0x010 => some (tickLoRead m s)
  | 0x014 => some (s, Tab.get (fun _ => 0) y.tickHi m.idx)
  | 0x018 => some (s, pack [(0, b2n y.src), (1, b2n y.aligned), (2, b2n y.fs48)])
  | 0x100 => some (s, modeWord s)
  | 0x108 => some (s, modeResWord s)
  | 0x118 => some (s, modeCauseWord s)
  | 0x200 => some (s, wd (pendWord s .a))
  | 0x204 => some (s, wd (pendWord s .b))
  | 0x208 => some (s, faultAny s)
  | 0x20C => some (s, pack [(0, pendApt s .a), (16, pendApt s .b)])
  | 0x210 | 0x214 | 0x218 => some (s, wd (pendCells s .a ((off - 0x210) / 4)))
  | 0x220 | 0x224 | 0x228 => some (s, wd (pendCells s .b ((off - 0x220) / 4)))
  | 0x238 => some (s, pack [(0, y.intA.coalCnt), (16, y.intB.coalCnt)])
  | 0x244 => some (s, y.snuffCause)
  | 0x284 => some (s, logStat s)
  | 0x288 => some (s, wd y.log.ovw)
  | 0x28C => some (s, wd y.log.lost)
  | _ => none
/-- A write of SYS's registers that is not plain. -/
def sysRegWrite (m : Master) (off : Nat) (v : Word) (s : State) : Option State :=
  if off = 0x104 then some (modeReqWrite m v s)
  else if off = 0x108 then some (if bit v 8 then s.updSys fun y => { y with refused := false } else s)
  else if off = 0x240 then some (snuffCtrlWrite m v s)
  else if off = 0x244 then some (snuffCauseWrite v s)
  else if off = 0x280 then some (if bit v 0 then logClear s else s)
  else none
/-- A read of a host port's registers. -/
def portRegRead (p : HPort) (k : Nat) : Word :=
  match k with
  | 0 => pack [(0, p.last), (16, b2n p.quad), (17, b2n p.resetArmed)]
  | 1 => wd p.errAddr
  | 2 => wd (p.errAddr / 2 ^ 32 % 16)
  | 3 => wd p.frames
  | _ => wd p.errs
/-- A read of HP's and SEM's registers that hold live state. -/
def hpRegRead (m : Master) (off : Nat) (s : State) : Option (State × Word) :=
  if 0x100 ≤ off ∧ off < 0x114 then some (s, portRegRead s.hpa ((off - 0x100) / 4))
  else if 0x140 ≤ off ∧ off < 0x154 then some (s, portRegRead s.hpb ((off - 0x140) / 4))
  else if off = 0x200 then some (s, semOwn s .a 0)
  else if off = 0x204 then some (s, semOwn s .a 32)
  else if off = 0x208 then some (s, semOwn s .b 0)
  else if off = 0x20C then some (s, semOwn s .b 32)
  else if 0x1000 ≤ off ∧ off < 0x1100 then some (semRead m ((off - 0x1000) / 4) s)
  else if 0x1100 ≤ off ∧ off < 0x1200 then some (s, semPeek s ((off - 0x1100) / 4))
  else none
/-- A read of WAIT_MAX[t]: how long transactions wait is timing, so what is read is free; the read resets the register (R444). Before the
FUSE phase ends no host's access reaches a target (R56), nothing has waited, and the register reads its reset value. -/
def waitMaxRead (t : Nat) (s : State) : State × Word :=
  if !s.img.fuseRead then (s, 0)
  else
    let d := s.draw
    ({ d.2 with bmx := { d.2.bmx with waitMax := Tab.set (fun _ => 0) d.2.bmx.waitMax t 0 } },
     wd (max (Tab.get (fun _ => 0) s.bmx.waitMax t) (d.1.toNat % 65536)))
/-- The meaning of WAIT_MAX_READ. -/
def execWaitMaxRead (m : Master) (t : Fin 6) (s : State) : Res := .next (rdCmd m (waitMaxRead t.val) s)
/-- A read of BMX's registers that hold live state. -/
def bmxRegRead (off : Nat) (s : State) : Option (State × Word) :=
  if off = 0 then some (s, wd (b2n s.bmx.remap))
  else if 0x10 ≤ off ∧ off < 0x34 then
    some (s, pack ((upto 6).map fun t => (2 * t, Tab.get (fun _ => 0) s.bmx.slices (6 * ((off - 0x10) / 4) + t) % 4)))
  else if 0x100 ≤ off ∧ off < 0x118 then some (waitMaxRead ((off - 0x100) / 4) s)
  else none

/-! ### A register of any block (R3 to R6) -/

/-- A read that changes nothing. -/
def still (s : State) (o : Option Word) : Option (State × Word) := o.map fun v => (s, v)
/-- A read of a block's register that is not plain. -/
def blkLiveRead (m : Master) (b : Blk) (off : Nat) (s : State) : Option (State × Word) :=
  match b with
  | .sys => sysRegRead m off s
  | .img => still s (imgRegRead off s)
  | .hp => hpRegRead m off s
  | .bmx => bmxRegRead off s
  | .dma => still s (dmaRegRead off s)
  | .chk => chkRegRead off s
  | .twc => twcRegRead off s
  | .flc => flcRegRead off s
  | .mac n => macRegRead m n off s
  | .ste => steRegRead m off s
  | .ptu => ptuRegRead m off s
  | .rsu => still s (rsuRegRead off s)
  | .mxe => still s (mxeRegRead m off s)
  | .ldg => ldgRegRead m off s
  | .apt n => still s (aptRegRead n off s)
  | .pwr => still s (pwrRegRead off s)
  | .lsp => still s (lspRegRead off s)
  | .pair => still s (pairRegRead off s)
  | .memc => still s (memcRegRead off s)
  | .dly => still s (dlyRegRead off s)
  | .cell p => still s (cellRegRead m p off s)
/-- A write of a block's register that has an effect of its own. -/
def blkLiveWrite (m : Master) (b : Blk) (off : Nat) (v : Word) (s : State) : Option (State × Code) :=
  let ok (o : Option State) : Option (State × Code) := o.map fun s => (s, .ok)
  if off = 0x080 then some (faultClear m b v s, .ok)
  else match b with
    | .sys => ok (sysRegWrite m off v s)
    | .img => if off = 0 then some (imgCtrlWrite v s, .ok) else none
    | .hp => if 0x1000 ≤ off ∧ off < 0x1100 then some (semWrite m ((off - 0x1000) / 4) s) else none
    | .dma => dmaRegWrite off v s
    | .chk => chkRegWrite m off v s
    | .twc => twcRegWrite off v s
    | .flc => flcRegWrite off v s
    | .mac n => macRegWrite n off v s
    | .ste => steRegWrite m off v s
    | .ptu => ptuRegWrite m off v s
    | .rsu => if off = 0 then some (rsuCtrlWrite v s, .ok) else none
    | .mxe => ok (mxeRegWrite m off v s)
    | .ldg => if off = 0x010 then some (recSel m v s, .ok) else none
    | .apt n => aptRegWrite n off v s
    | .pwr => pwrRegWrite off v s
    | .lsp => ok (lspRegWrite off v s)
    | .pair => pairRegWrite off v s
    | .memc => memcRegWrite off v s
    | .dly => if 0x1000 ≤ off ∧ off < 0x2000 then some (lineDelayWrite ((off - 0x1000) / 4) v s, .ok) else none
    | .cell p => cellRegWrite m p off v s
    | .bmx => none
/-- A read of a register by its access code; an unoccupied offset reads 0 (R4, R6). -/
def regRead (m : Master) (b : Blk) (off : Nat) (s : State) : State × Word × Code :=
  if (match b with | .ste => steAccessErr m off | _ => false) then (s, 0, .accessErr)
  else match findRow (blkRows b) off with
    | none => (s, 0, .ok)
    | some r =>
      match blkLiveRead m b off s with
      | some x => (x.1, x.2, .ok)
      | none => (s, if r.acc = .wo then 0 else s.reg (b.base + off), .ok)
/-- A plain write by the access code; reserved bits keep their value (R4, R5). -/
def plainWrite (b : Blk) (off : Nat) (r : RegRow) (v : Word) (s : State) : State :=
  let m := wd r.wmask
  match r.acc with
  | .rw | .rws => s.setReg (b.base + off) (v &&& m)
  | .w1c => s.clrReg (b.base + off) (v &&& m)
  | .w1s => s.orReg (b.base + off) (v &&& m)
  | .ro | .wo => s
/-- A write of a register: an RWS one needs the right (R435, R436). -/
def regWrite (m : Master) (b : Blk) (off : Nat) (v : Word) (s : State) : State × Code :=
  match findRow (blkRows b) off with
  | none => (s, .ok)
  | some r =>
    if r.acc = .rws ∧ rwsOk m s = false then (s, .rwsDenied)
    else match blkLiveWrite m b off v s with
      | some x => x
      | none => (plainWrite b off r v s, .ok)

/-! ### A word of any target -/

/-- A word of memory bytes as a transaction of carafe or DRAM answers it. -/
def memWord (r : State × List Byte × Code) : State × Word × Code := (r.1, wd (leNat r.2.1), r.2.2)
/-- A master's read of the word at an address that has a target. -/
def targetRead (m : Master) (t : BusTarget) (a : Nat) (s : State) : State × Word × Code :=
  match t with
  | .low => lowRead a s
  | .carafe => memWord (carafeRead a 4 s)
  | .dram => memWord (dramRead a 4 s)
  | .regs => match regWindow a with | some (b, off) => regRead m b off s | none => (s, 0, .decodeErr)
  | .cellMem => cellMemRead m ((a - 0x50000000) / 0x20000) (a % 0x20000) s
  | .matrix => match matrixRead ((a - 0x60000000) / 0x1000000) (a % 0x1000000) s with | some v => (s, v, .ok) | none => (s, 0, .decodeErr)
/-- A master's write of the word at an address that has a target. -/
def targetWrite (m : Master) (t : BusTarget) (a : Nat) (v : Word) (s : State) : State × Code :=
  match t with
  | .low => lowWrite m a v s
  | .carafe => carafeWrite a (leBytes 4 v.toNat) s
  | .dram => dramWrite a (leBytes 4 v.toNat) s
  | .regs => match regWindow a with | some (b, off) => regWrite m b off v s | none => (s, .decodeErr)
  | .cellMem => cellMemWrite m ((a - 0x50000000) / 0x20000) (a % 0x20000) v s
  | .matrix => matrixWrite ((a - 0x60000000) / 0x1000000) (a % 0x1000000) v s
/-- Why a master's access to a word does not reach it. The host ports' own registers answer while the system island has no
clock: only a target beyond the host port times out (R410). -/
def wordErr (m : Master) (t : BusTarget) (a : Nat) (s : State) : Option Code :=
  match pathErr m t s with
  | some .timeout => if Blk.hp.base ≤ a ∧ a < Blk.hp.base + 0x1000 then none else some .timeout
  | x => x
/-- The code of an access to no target: what stops a host before the map does comes first. -/
def noTarget (m : Master) (s : State) : Code := if m.host?.isSome then (pathErr m .regs s).getD .decodeErr else .decodeErr
/-- A master's read of the word at an address. -/
def busRead (m : Master) (a : Nat) (s : State) : State × Word × Code :=
  match busTarget a with
  | none => (s, 0, noTarget m s)
  | some t =>
    match wordErr m t a s with
    | some c => (s, 0, c)
    | none => targetRead m t a s
/-- A master's write of the word at an address. -/
def busWrite (m : Master) (a : Nat) (v : Word) (s : State) : State × Code :=
  match busTarget a with
  | none => (s, noTarget m s)
  | some t =>
    match wordErr m t a s with
    | some c => (s, c)
    | none => targetWrite m t a v s
/-- The meaning of REGISTER_WRITE: a write of one word, by the access code of its register. -/
def execRegisterWrite (m : Master) (addr : Nat) (v : Word) (s : State) : Res :=
  .next (let r := busWrite m addr v s; respond m r.2 [] r.1)

/-! ### Frames of a host port (R421 to R428) -/

/-- Words written to ascending addresses; the first failing address with its code. -/
def busWrites (m : Master) (a : Nat) (l : List Word) (s : State) : State × Option (Nat × Code) :=
  match l with
  | [] => (s, none)
  | v :: t =>
    let r := busWrite m a v s
    let q := busWrites m (a + 4) t r.1
    (q.1, if r.2 = .ok then q.2 else some (a, r.2))
/-- Words read from ascending addresses; a failed one reads 0. -/
def busReads (m : Master) (a n : Nat) (s : State) : State × List Word × Option (Nat × Code) :=
  match n with
  | 0 => (s, [], none)
  | n + 1 =>
    let r := busRead m a s
    let q := busReads m (a + 4) n r.1
    (q.1, (if r.2.2 = .ok then r.2.1 else 0) :: q.2.1, if r.2.2 = .ok then q.2.2 else some (a, r.2.2))
/-- R422 rejects the frame. -/
def frameBad (a n : Nat) : Bool := decide (2 ^ 36 ≤ a) || a % 4 != 0 || n == 0 || decide (256 < n)
/-- The status byte of Table 17.2. -/
def statusByte (s : State) (h : HostId) (c : Code) : Nat :=
  128 + 64 * b2n (s.pin h).asserted + 32 * b2n ((s.sem 0).owner == some h) + c.num
/-- The port was reset in this tick: what the tick still brings to it is void (R25). -/
def portVoid (s : State) (h : HostId) : Bool := (s.port h).resetAt == some s.sys.tick
/-- A frame is complete with its status: LAST, the counters, and the first failing address; RESET_ENABLE arms a port reset. -/
def endFrame (h : HostId) (c : Code) (fail : Option Nat) (arms : Bool) (s : State) : State :=
  let p := s.port h
  let st := statusByte s h c
  if portVoid s h then s
  else s.setPort h
    { p with resetArmed := arms, last := st, frames := (p.frames + 1) % 2 ^ 32, errs := if c = .ok then p.errs else (p.errs + 1) % 2 ^ 32
             errAddr := fail.getD p.errAddr }
/-- A frame that ends with FRAME_ERR. -/
def frameErr (h : HostId) (s : State) : State :=
  if portVoid s h then s else respond h.master .frameErr [] (endFrame h .frameErr none false (raise .hp 1 s))
/-- The accesses of a WRITE frame, and its end. -/
def writeFrame (h : HostId) (a : Nat) (ws : List Word) (s : State) : State × Code :=
  let r := busWrites h.master a ws s
  let c := (r.2.map (·.2)).getD .ok
  (endFrame h c (r.2.map (·.1)) false r.1, c)
/-- The accesses of a READ frame, and its end. -/
def readFrame (h : HostId) (a n : Nat) (s : State) : State × List Word × Code :=
  let r := busReads h.master a n s
  let c := (r.2.2.map (·.2)).getD .ok
  (endFrame h c (r.2.2.map (·.1)) false r.1, r.2.1, c)
/-- The meaning of WRITE. -/
def execWrite (h : HostId) (addr : Nat) (ws : List Word) (s : State) : Res :=
  .next (if frameBad addr ws.length then frameErr h s
    else let r := writeFrame h addr ws s; respond h.master r.2 [] r.1)
/-- The meaning of READ. -/
def execRead (h : HostId) (addr len : Nat) (s : State) : Res :=
  .next (if frameBad addr len then frameErr h s
    else let r := readFrame h addr len s; respond h.master r.2.2 r.2.1 r.1)
/-- A frame of a command byte alone, with status OK. -/
def plainFrame (h : HostId) (arms : Bool) (s : State) : State :=
  if portVoid s h then s else respond h.master .ok [] (endFrame h .ok none arms s)
/-- ENTER_QUAD and EXIT_QUAD: the framing from the next frame on. -/
def setQuad (h : HostId) (q : Bool) (s : State) : State :=
  if portVoid s h then s
  else
    let s := plainFrame h false s
    s.setPort h { s.port h with quad := q }
/-- The meaning of ENTER_QUAD. -/
def execEnterQuad (h : HostId) (s : State) : Res := .next (setQuad h true s)
/-- The meaning of EXIT_QUAD. -/
def execExitQuad (h : HostId) (s : State) : Res := .next (setQuad h false s)
/-- The meaning of RESET_ENABLE. -/
def execResetEnable (h : HostId) (s : State) : Res := .next (plainFrame h true s)
/-- PORT_RESET: accepted only after RESET_ENABLE (R428). -/
def portReset (h : HostId) (s : State) : State :=
  if portVoid s h then s
  else if (s.port h).resetArmed then
    let s := plainFrame h false s
    s.setPort h { s.port h with resetDue := true }
  else frameErr h s
/-- The meaning of PORT_RESET. -/
def execPortReset (h : HostId) (s : State) : Res := .next (portReset h s)
/-- The per-bus-master register copies of a master take their reset values (R428). -/
def clearCopies (k : Nat) (s : State) : State :=
  let s := s.updSys fun y => { y with tickHi := Tab.erase k y.tickHi }
  let s := { s with cells := s.cells.map fun (e : Nat × Cell) =>
    (e.1, { e.2 with memHi := Tab.erase k e.2.memHi, stagedHi := Tab.erase k e.2.stagedHi, readHi := Tab.erase k e.2.readHi }) }
  let s := s.updMxe fun x => { x with edits := Tab.erase k x.edits }
  let s := updSte (fun y => { y with stg := Tab.erase k y.stg, fc := Tab.erase k y.fc, fts := Tab.erase k y.fts, txwin := Tab.erase k y.txwin }) s
  let s := s.updLdg fun g => { g with caps := Tab.erase k g.caps, winHi := Tab.erase k g.winHi }
  let s := { s with macs := s.macs.map fun (e : Nat × Mac) => (e.1, { e.2 with capHi := Tab.erase k e.2.capHi }) }
  updPtu (fun p => { p with caps := Tab.erase k p.caps, cntHi := Tab.erase k p.cntHi }) s
/-- PORT_RESET_APPLY: 1-1-1, the copies, the semaphores, the event (R428). -/
def portResetApply (h : HostId) (s : State) : State :=
  if (s.port h).resetDue then
    let s := s.setPort h { s.port h with quad := false, resetDue := false, resetAt := some s.sys.tick }
    let s := semReleaseAll (· == some h) (clearCopies h.master.idx s)
    evt .hp h.idx s
  else s
/-- The meaning of PORT_RESET_APPLY. -/
def execPortResetApply (h : HostId) (s : State) : Res := .next (portResetApply h s)
/-- FRAME_ERR of a frame whose status is not sent. -/
def badFrame (h : HostId) (s : State) : State := if portVoid s h then s else endFrame h .frameErr none false (raise .hp 1 s)
/-- CS_N rises early: before the last host byte no access takes place; after it the accesses run, and the status goes to LAST (R426). -/
def earlyRise (h : HostId) (ph : CsPhase) (s : State) : State :=
  match ph with
  | .sending =>
    if portVoid s h then s else
    let s := raise .hp 1 s
    s.setPort h { s.port h with resetArmed := false, errs := ((s.port h).errs + 1) % 2 ^ 32 }
  | .afterWrite a ws => if frameBad a ws.length then badFrame h s else (writeFrame h a ws s).1
  | .afterRead a n => if frameBad a n then badFrame h s else (readFrame h a n s).1
/-- The meaning of CS_N_EARLY_RISE. -/
def execCsNEarlyRise (h : HostId) (phase : CsPhase) (s : State) : Res := .next (earlyRise h phase s)

/-! ### Timeouts (R417) -/

/-- The check unit whose scan covers an address. -/
def chkAt (s : State) (a : Nat) : Option Nat :=
  (upto 4).find? fun u =>
    let x := s.chkU u
    x.st != .idle && decide (x.addr0 ≤ a ∧ a < x.addr0 + x.len0)
/-- What a timeout does to the work of its master. -/
def timeoutAct (m : Master) (a : Nat) (s : State) : State :=
  match m with
  | .hpa => endFrame .a .timeout (some a) false s
  | .hpb => endFrame .b .timeout (some a) false s
  | .dma => match s.dma.served with | some n => dmaBusErr n a .timeout s | none => s
  | .chk => match chkAt s a with | some u => chkBusErr u a .timeout s | none => s
  | .dly => match s.dly.lines.find? fun e => e.2.valid && decide (e.2.base ≤ a ∧ a < e.2.base + 4 * (e.2.cap + 4)) with
    | some e => lineErr 0 e.1 s
    | none => s
  | _ => s
/-- BUS_TIMEOUT: the transaction ends with TIMEOUT; DRAM reports it through MEMC. -/
def busTimeout (m : Master) (a : Nat) (s : State) : State :=
  let s := if busTarget a == some .dram then raise .memc 2 s else s
  respond m .timeout [0] (timeoutAct m a s)
/-- The meaning of BUS_TIMEOUT. -/
def execBusTimeout (m : Master) (addr : Nat) (s : State) : Res := .next (busTimeout m addr s)

end Sys2Proof.Machine
end

