-- ==== Sys2Proof/Machine/Burst.lean ====
section
/-! DEFINITION. The bus transfers of the DMA engine and of the check units: descriptor fetches, bursts, the reads of a scan
(R446 to R451, R454, R455, R460 to R464). -/
namespace Sys2Proof.Machine
open Sys2Proof

/-! ### Transfers of one master, up to the first failing address (R446, R449) -/

/-- Words read one transaction each, up to the first failing address. -/
def wordsRead (m : Master) (a : Nat) : Nat → State → State × List Byte × Option (Nat × Code)
  | 0, s => (s, [], none)
  | n + 1, s =>
    let r := busRead m a s
    if r.2.2 = .ok then
      let q := wordsRead m (a + 4) n r.1
      (q.1, leBytes 4 r.2.1.toNat ++ q.2.1, q.2.2)
    else (r.1, [], some (a, r.2.2))
/-- Bytes written as words, one transaction each; the bytes written, and the first failing address. -/
def wordsWrite (m : Master) (a : Nat) : Nat → List Byte → State → State × Nat × Option (Nat × Code)
  | 0, _, s => (s, 0, none)
  | n + 1, l, s =>
    let r := busWrite m a (wd (leNat (l.take 4))) s
    if r.2 = .ok then
      let q := wordsWrite m (a + 4) n (l.drop 4) r.1
      (q.1, q.2.1 + 4, q.2.2)
    else (r.1, 0, some (a, r.2))
/-- A read of len bytes at a: one transaction at a memory, words elsewhere. -/
def spanRead (m : Master) (a len : Nat) (s : State) : State × List Byte × Option (Nat × Code) :=
  let one (t : BusTarget) (k : State → State × List Byte × Code) : State × List Byte × Option (Nat × Code) :=
    match pathErr m t s with
    | some c => (s, [], some (a, c))
    | none =>
      let r := k s
      (r.1, r.2.1, if r.2.2 = .ok then none else some (a, r.2.2))
  match busTarget a with
  | some .carafe => one .carafe (carafeRead a len)
  | some .dram => one .dram (dramRead a len)
  | _ => wordsRead m a (len / 4) s
/-- A write of bytes at a: one transaction at a memory, words elsewhere. -/
def spanWrite (m : Master) (a : Nat) (l : List Byte) (s : State) : State × Nat × Option (Nat × Code) :=
  let one (t : BusTarget) (k : State → State × Code) : State × Nat × Option (Nat × Code) :=
    match pathErr m t s with
    | some c => (s, 0, some (a, c))
    | none =>
      let r := k s
      if r.2 = .ok then (r.1, l.length, none) else (r.1, 0, some (a, r.2))
  match busTarget a with
  | some .carafe => one .carafe (carafeWrite a l)
  | some .dram => one .dram (dramWrite a l)
  | _ => wordsWrite m a (l.length / 4) l s

/-! ### Descriptors (R447, R448) -/

/-- The numbers of eight words. -/
def descWords (l : List Byte) : List Nat := (upto 8).map fun i => leNat ((l.drop (4 * i)).take 4)
/-- PROG_ERR with its code. -/
def dmaProgErr (n p : Nat) (s : State) : State := dmaHalt n 1 0 (updCh n (fun x => { x with pcode := p }) s)
/-- DESCRIPTOR_FETCH: the served channel fetches its descriptor and checks it (R448). -/
def descriptorFetch (s : State) : State :=
  match s.dma.served with
  | none => s
  | some n =>
    let x := s.dmaCh n
    if x.desc.isSome then s
    else if x.cur % 32 ≠ 0 then dmaProgErr n 1 s
    else
      let r := spanRead .dma x.cur 32 s
      match r.2.2 with
      | some e => dmaBusErr n e.1 e.2 r.1
      | none =>
        let d := descWords r.2.1
        let p := descCheck x.cur d
        if p ≠ 0 then dmaProgErr n p r.1 else updCh n (fun x => { x with desc := some d, done := 0 }) r.1
/-- The meaning of DESCRIPTOR_FETCH. -/
def execDescriptorFetch (s : State) : Res := .next (descriptorFetch s)

/-! ### Bursts (R449 to R451) -/

/-- The bytes of the next burst of a COPY of which `done` bytes have moved. -/
def copyLen (d : List Nat) (done : Nat) : Nat :=
  if dReq d ≠ 0 then 2 ^ dBurst d
  else min (dLen d - done) (256 - (dSrc d + if dFixS d then 0 else done) % 256)
/-- The elements of the next write burst of a GATHER. -/
def gatherCnt (d : List Nat) (done : Nat) : Nat := min (dLen d - done) (2 ^ (8 - dEsize d))
/-- The elements that a list of indices names, up to an index out of range or a failing read. -/
def gatherRead (d : List Nat) (idx : List Nat) (s : State) : State × List Byte × Bool × Option (Nat × Code) :=
  match idx with
  | [] => (s, [], false, none)
  | i :: t =>
    let a := dSrc d + i * 2 ^ dEsize d
    if 2 ^ 36 < a + 2 ^ dEsize d then (s, [], true, none)
    else
      let r := spanRead .dma a (2 ^ dEsize d) s
      match r.2.2 with
      | some e => (r.1, [], false, some e)
      | none =>
        let q := gatherRead d t r.1
        (q.1, r.2.1 ++ q.2.1, q.2.2.1, q.2.2.2)
/-- The read half of a channel's burst: the bytes in the engine's buffer, how many units of LEN or COUNT they are, a bad index, a
failing read. -/
def burstRead (d : List Nat) (done : Nat) (s : State) : State × List Byte × Nat × Bool × Option (Nat × Code) :=
  if dKind d = 1 then
    let k := gatherCnt d done
    let t := spanRead .dma (dIdx d + 4 * done) (4 * k) s
    match t.2.2 with
    | some e => (t.1, [], 0, false, some e)
    | none =>
      let r := gatherRead d ((upto k).map fun i => leNat ((t.2.1.drop (4 * i)).take 4)) t.1
      (r.1, r.2.1, r.2.1.length / 2 ^ dEsize d, r.2.2.1, r.2.2.2)
  else
    let n := copyLen d done
    let r := spanRead .dma (dSrc d + if dFixS d then 0 else done) n s
    (r.1, r.2.1, n, false, r.2.2)
/-- The address the next burst is written to. -/
def burstDst (d : List Nat) (done : Nat) : Nat :=
  dDst d + if dFixD d then 0 else if dKind d = 1 then done * 2 ^ dEsize d else done
/-- The write half of a channel's burst, and what follows at its burst boundary (R451 to R455). Under COMPAT a write error of the last
burst of a descriptor without BARRIER arrives after its completion (LATE_WRITE_ERROR). -/
def burstWrite (n : Nat) (d : List Nat) (l : List Byte) (k : Nat) (bad : Bool) (s : State) : State :=
  let x := s.dmaCh n
  let w := spanWrite .dma (burstDst d x.done) l s
  let late := dmaCompat s && !dBarrier d && decide (dLen d ≤ x.done + k)
  let s := updCh n (fun x =>
    { x with bytes := (x.bytes + w.2.1) % 2 ^ 32, done := x.done + k, waitFrom := s.sys.tick, waited := false }) w.1
  match if late then none else w.2.2 with
  | some e => dmaBusErr n e.1 e.2 s
  | none =>
    if bad then dmaProgErr n 5 s
    else if (s.dmaCh n).lateHalt then dmaLeave n .halted (updCh n (fun x => { x with cause := 2 }) s)
    else dmaSelect s
/-- DMA_BURST: the served channel reads a burst, writes it, and the engine selects its next burst. -/
def dmaBurst (s : State) : State :=
  match s.dma.served with
  | none => s
  | some n =>
    let x := s.dmaCh n
    match x.desc with
    | none => s
    | some d =>
      if dLen d ≤ x.done ∨ dmaHeld s n = true then s
      else
        let r := burstRead d x.done s
        match r.2.2.2.2 with
        | some e => dmaBusErr n e.1 e.2 r.1
        | none => burstWrite n d r.2.1 r.2.2.1 r.2.2.2.1 r.1
/-- The meaning of DMA_BURST. -/
def execDmaBurst (s : State) : Res := .next (dmaBurst s)

/-! ### Scans (R461 to R464) -/

/-- The reads of a scan over len bytes at a, each up to the next 256-byte boundary, at most n of them: RUNNING, the place reached, and
a failing read. -/
def scanReads (alg : Nat) : Nat → Nat → Nat → Nat → State → State × Nat × Nat × Option (Nat × Code)
  | 0, a, _, run, s => (s, run, a, none)
  | n + 1, a, len, run, s =>
    if len = 0 then (s, run, a, none)
    else
      let k := min len (256 - a % 256)
      let r := spanRead .chk a k s
      match r.2.2 with
      | some e => (r.1, run, a, some e)
      | none => scanReads alg n (a + k) (len - k) (chkBytes alg run r.2.1) r.1
/-- The first len bytes of a unit's range, from the value it started with. -/
def scanOf (u len : Nat) (s : State) : State × Nat × Nat × Option (Nat × Code) :=
  let x := s.chkU u
  scanReads (chkAlg s u) (len / 256 + 2) x.addr0 len x.run0 s
/-- A failing read ends the scan: the part not read, and BUS_ERR (R462). -/
def scanBusErr (u run a : Nat) (e : Nat × Code) (s : State) : State :=
  let x := s.chkU u
  chkBusErr u e.1 e.2 (chkLeave u a (x.addr0 + x.len0 - a) run s)
/-- A mismatch of the sweep's unit over the image store is STORE_CORRUPT (R464). -/
def sweepVerdict (u : Nat) (s t : State) : State :=
  let x := s.chkU u
  if chkSwept s u && (t.chkU u).result == 3 && decide (x.addr0 < dramBase + 0x10000000 ∧ dramBase < x.addr0 + x.len0) then storeCorruptFault t else t
/-- The whole range is read, and the verdict follows. -/
def scanEnd (u : Nat) (s : State) : State :=
  let r := scanOf u (s.chkU u).len0 s
  match r.2.2.2 with
  | some e => scanBusErr u r.2.1 r.2.2.1 e r.1
  | none => sweepVerdict u s (chkVerdict u r.2.1 r.1)
/-- The meaning of CHK_SCAN_END: the first pass ends. -/
def execChkScanEnd (u : Fin 4) (s : State) : Res := .next (if (s.chkU u.val).st = .scanning then scanEnd u.val s else s)
/-- The meaning of CHK_RESCAN_END: the second pass ends. -/
def execChkRescanEnd (u : Fin 4) (s : State) : Res := .next (if (s.chkU u.val).st = .rescanning then scanEnd u.val s else s)
/-- CHK_STOP_END: the stop ends after `done` bytes of the range have been included, not fewer than a read has shown (R462). -/
def stopEnd (u done : Nat) (s : State) : State :=
  let x := s.chkU u
  if x.st ≠ .stopping then s
  else
    let r := scanOf u (min x.len0 (max x.pos (done / 4 * 4))) s
    match r.2.2.2 with
    | some e => scanBusErr u r.2.1 r.2.2.1 e r.1
    | none => chkIdle u (chkStopped x) (chkLeave u r.2.2.1 (x.addr0 + x.len0 - r.2.2.1) r.2.1 r.1)
/-- The meaning of CHK_STOP_END. -/
def execChkStopEnd (u : Fin 4) (done : Nat) (s : State) : Res := .next (stopEnd u.val done s)

end Sys2Proof.Machine
end

