-- ==== Sys2Proof/Machine/Jtag.lean ====
section
/-! DEFINITION. The IEEE 1149.1 port (R61, R508). Its instructions with an effect the spec gives are the four JTAG_LOCK admits. -/
namespace Sys2Proof.Machine
open Sys2Proof

/-- The identification code: (STEP mod 16) * 2^28 + 0x4032B5F. -/
def idcodeOf (step : Nat) : Nat := step % 16 * 2 ^ 28 + 0x4032B5F
/-- The test port takes an instruction, and the pins follow. -/
def jtagLoad (f : Jtag → Jtag) (s : State) : State := let s := { s with jtag := f s.jtag }; { s with jtag := jtagPins s }
/-- The meaning of IDCODE: the code is shifted out. -/
def execIdcode (s : State) : Res := .next (jtagLoad (fun j => { j with inst := .idcode, out := idcodeOf s.img.fuses.step }) s)
/-- The meaning of BYPASS: the one-bit bypass register, which captures 0 (IEEE 1149.1). -/
def execBypass (s : State) : Res := .next (jtagLoad (fun j => { j with inst := .bypass, out := 0 }) s)
/-- The meaning of SAMPLE/PRELOAD: the boundary register captures the pins, which are shifted out, and takes the value shifted in. -/
def execSamplePreload (pins load : Nat) (s : State) : Res := .next (jtagLoad (fun j => { j with inst := .samplePreload, out := pins, boundary := load }) s)
/-- The meaning of EXTEST: the boundary register drives the pins while RESET_N is low. -/
def execExtest (s : State) : Res := .next (jtagLoad (fun j => { j with inst := .extest }) s)

end Sys2Proof.Machine
end

