-- ==== Sys2Proof/Machine/Dispatch.lean ====
section
/-! DEFINITION. The meaning of each command: one arm per constructor of Instr, each a direct call of its meaning. -/
namespace Sys2Proof.Machine
open Sys2Proof

/-- The effect of a command on everything but the queue. -/
def exec (i : Instr) (s : State) : Host.Outcome State Fault Refusal :=
  match i with
  | .eventTick => Sys2Proof.Machine.execEventTick s
  | .frameBoundary inp => Sys2Proof.Machine.execFrameBoundary inp s
  | .tickLoRead m => Sys2Proof.Machine.execTickLoRead m s
  | .resetNAssert => Sys2Proof.Machine.execResetNAssert s
  | .resetNRelease bootSel => Sys2Proof.Machine.execResetNRelease bootSel s
  | .pllLock => Sys2Proof.Machine.execPllLock s
  | .runSet m => Sys2Proof.Machine.execRunSet m s
  | .runClear m => Sys2Proof.Machine.execRunClear m s
  | .alarmSet m => Sys2Proof.Machine.execAlarmSet m s
  | .alarmClear m => Sys2Proof.Machine.execAlarmClear m s
  | .outputRampEnd => Sys2Proof.Machine.execOutputRampEnd s
  | .driveEnRise => Sys2Proof.Machine.execDriveEnRise s
  | .fusePhaseEnd => Sys2Proof.Machine.execFusePhaseEnd s
  | .sramInitEnd => Sys2Proof.Machine.execSramInitEnd s
  | .flashBootRecordRead dev => Sys2Proof.Machine.execFlashBootRecordRead dev s
  | .initMem m => Sys2Proof.Machine.execInitMem m s
  | .memInitEnd trainErr gib => Sys2Proof.Machine.execMemInitEnd trainErr gib s
  | .flashImageCopyEnd => Sys2Proof.Machine.execFlashImageCopyEnd s
  | .loadFull m allowUnb => Sys2Proof.Machine.execLoadFull m allowUnb s
  | .loadPartial m allowUnb => Sys2Proof.Machine.execLoadPartial m allowUnb s
  | .verify m allowUnb => Sys2Proof.Machine.execVerify m allowUnb s
  | .imgAbort m => Sys2Proof.Machine.execImgAbort m s
  | .imgBadCmd m code => Sys2Proof.Machine.execImgBadCmd m code s
  | .latQuery m path => Sys2Proof.Machine.execLatQuery m path s
  | .readingEnd => Sys2Proof.Machine.execReadingEnd s
  | .authEnd => Sys2Proof.Machine.execAuthEnd s
  | .checkingEnd => Sys2Proof.Machine.execCheckingEnd s
  | .loadAbortEnd => Sys2Proof.Machine.execLoadAbortEnd s
  | .loadAccept => Sys2Proof.Machine.execLoadAccept s
  | .partialCellsHalt => Sys2Proof.Machine.execPartialCellsHalt s
  | .partialCellsRestart => Sys2Proof.Machine.execPartialCellsRestart s
  | .partialLoadDone => Sys2Proof.Machine.execPartialLoadDone s
  | .windowBoundary => Sys2Proof.Machine.execWindowBoundary s
  | .ldgRecSel m j => Sys2Proof.Machine.execLdgRecSel m j s
  | .ldgWinLoRead m => Sys2Proof.Machine.execLdgWinLoRead m s
  | .boundCheckDone => Sys2Proof.Machine.execBoundCheckDone s
  | .cellBlockStart p => Sys2Proof.Machine.execCellBlockStart p s
  | .cellScrub p kind => Sys2Proof.Machine.execCellScrub p kind s
  | .cellDataRead m p w => Sys2Proof.Machine.execCellDataRead m p w s
  | .cellDataWrite m p w v => Sys2Proof.Machine.execCellDataWrite m p w v s
  | .cellInstrHiWrite m p k v => Sys2Proof.Machine.execCellInstrHiWrite m p k v s
  | .cellInstrLoWrite m p k v => Sys2Proof.Machine.execCellInstrLoWrite m p k v s
  | .cellInstrLoRead m p k => Sys2Proof.Machine.execCellInstrLoRead m p k s
  | .halt m p on => Sys2Proof.Machine.execHalt m p on s
  | .retire m p => Sys2Proof.Machine.execRetire m p s
  | .fenceClr m p => Sys2Proof.Machine.execFenceClr m p s
  | .agRegisterWrite m p g r v => Sys2Proof.Machine.execAgRegisterWrite m p g r v s
  | .cellStateRegWrite m p r v => Sys2Proof.Machine.execCellStateRegWrite m p r v s
  | .memUe p => Sys2Proof.Machine.execMemUe p s
  | .progUe p => Sys2Proof.Machine.execProgUe p s
  | .migrationLoaded => Sys2Proof.Machine.execMigrationLoaded s
  | .migrationCopyStart => Sys2Proof.Machine.execMigrationCopyStart s
  | .migrationCopyEnd => Sys2Proof.Machine.execMigrationCopyEnd s
  | .migrationShadowStart => Sys2Proof.Machine.execMigrationShadowStart s
  | .migrationSwitch => Sys2Proof.Machine.execMigrationSwitch s
  | .restoreLoaded p => Sys2Proof.Machine.execRestoreLoaded p s
  | .restoreCellStart p => Sys2Proof.Machine.execRestoreCellStart p s
  | .restoreRampEnd p => Sys2Proof.Machine.execRestoreRampEnd p s
  | .set m => Sys2Proof.Machine.execSet m s
  | .remove m => Sys2Proof.Machine.execRemove m s
  | .xfade m => Sys2Proof.Machine.execXfade m s
  | .swap m unb => Sys2Proof.Machine.execSwap m unb s
  | .swapCancel m => Sys2Proof.Machine.execSwapCancel m s
  | .alarmBankSwap => Sys2Proof.Machine.execAlarmBankSwap s
  | .matrixTableWrite m bank off v => Sys2Proof.Machine.execMatrixTableWrite m bank off v s
  | .playStart m pl v => Sys2Proof.Machine.execPlayStart m pl v s
  | .playStop m pl => Sys2Proof.Machine.execPlayStop m pl s
  | .playFinish m pl => Sys2Proof.Machine.execPlayFinish m pl s
  | .playerFirstSample pl => Sys2Proof.Machine.execPlayerFirstSample pl s
  | .playerDone pl => Sys2Proof.Machine.execPlayerDone pl s
  | .playerStopRampEnd pl => Sys2Proof.Machine.execPlayerStopRampEnd pl s
  | .lineDelayWrite m k v => Sys2Proof.Machine.execLineDelayWrite m k v s
  | .xfadeDone k => Sys2Proof.Machine.execXfadeDone k s
  | .linkUp n => Sys2Proof.Machine.execLinkUp n s
  | .linkDown n lock lf rf an => Sys2Proof.Machine.execLinkDown n lock lf rf an s
  | .macLinkTimeout n => Sys2Proof.Machine.execMacLinkTimeout n s
  | .macFrameReceive n frame codeErr => Sys2Proof.Machine.execMacFrameReceive n frame codeErr s
  | .pauseFrame n quanta => Sys2Proof.Machine.execPauseFrame n quanta s
  | .pauseTimerExpiry n => Sys2Proof.Machine.execPauseTimerExpiry n s
  | .pauseWatchdog n => Sys2Proof.Machine.execPauseWatchdog n s
  | .holdoffEnd n => Sys2Proof.Machine.execHoldoffEnd n s
  | .txFrameEnqueue n q frame => Sys2Proof.Machine.execTxFrameEnqueue n q frame s
  | .frameTransmitEnd n => Sys2Proof.Machine.execFrameTransmitEnd n s
  | .macTxDisable m n => Sys2Proof.Machine.execMacTxDisable m n s
  | .macForce m n => Sys2Proof.Machine.execMacForce m n s
  | .macRxDisable m n busy => Sys2Proof.Machine.execMacRxDisable m n busy s
  | .macEnable m n rx tx => Sys2Proof.Machine.execMacEnable m n rx tx s
  | .macTxIdle n => Sys2Proof.Machine.execMacTxIdle n s
  | .macConfigWrite m n off v => Sys2Proof.Machine.execMacConfigWrite m n off v s
  | .macCounterRead m n c => Sys2Proof.Machine.execMacCounterRead m n c s
  | .stage m idx => Sys2Proof.Machine.execStage m idx s
  | .publish m idx => Sys2Proof.Machine.execPublish m idx s
  | .flowRetire m idx => Sys2Proof.Machine.execFlowRetire m idx s
  | .discard m idx => Sys2Proof.Machine.execDiscard m idx s
  | .flowRead m idx => Sys2Proof.Machine.execFlowRead m idx s
  | .steFrameClassify n => Sys2Proof.Machine.execSteFrameClassify n s
  | .flowFreed f => Sys2Proof.Machine.execFlowFreed f s
  | .txPacketBuild f => Sys2Proof.Machine.execTxPacketBuild f s
  | .pathDown f => Sys2Proof.Machine.execPathDown f s
  | .hrxPop m => Sys2Proof.Machine.execHrxPop m s
  | .htxCmd m v => Sys2Proof.Machine.execHtxCmd m v s
  | .steRxDisable m => Sys2Proof.Machine.execSteRxDisable m s
  | .steTxDisable m => Sys2Proof.Machine.execSteTxDisable m s
  | .steForce m => Sys2Proof.Machine.execSteForce m s
  | .steRxIdle => Sys2Proof.Machine.execSteRxIdle s
  | .ptuCntRead m => Sys2Proof.Machine.execPtuCntRead m s
  | .cntMismatch => Sys2Proof.Machine.execCntMismatch s
  | .tcap m => Sys2Proof.Machine.execTcap m s
  | .upd m d => Sys2Proof.Machine.execUpd m d s
  | .ptpPortEnable m d => Sys2Proof.Machine.execPtpPortEnable m d s
  | .ptpPortDisable m d => Sys2Proof.Machine.execPtpPortDisable m d s
  | .syncReceive d msg => Sys2Proof.Machine.execSyncReceive d msg s
  | .followUpReceive d msg => Sys2Proof.Machine.execFollowUpReceive d msg s
  | .delayRespReceive d msg => Sys2Proof.Machine.execDelayRespReceive d msg s
  | .announceReceive d msg => Sys2Proof.Machine.execAnnounceReceive d msg s
  | .delayReqReceive d msg => Sys2Proof.Machine.execDelayReqReceive d msg s
  | .delayReqSend d stamp => Sys2Proof.Machine.execDelayReqSend d stamp s
  | .announceSend d => Sys2Proof.Machine.execAnnounceSend d s
  | .syncSend d stamp => Sys2Proof.Machine.execSyncSend d stamp s
  | .domainUpdate d => Sys2Proof.Machine.execDomainUpdate d s
  | .syncLoss d => Sys2Proof.Machine.execSyncLoss d s
  | .annTimeout d => Sys2Proof.Machine.execAnnTimeout d s
  | .refQualified c => Sys2Proof.Machine.execRefQualified c s
  | .wtrEnd c => Sys2Proof.Machine.execWtrEnd c s
  | .disqEnd c => Sys2Proof.Machine.execDisqEnd c s
  | .measurementWindowEnd => Sys2Proof.Machine.execMeasurementWindowEnd s
  | .firstWaitEnd => Sys2Proof.Machine.execFirstWaitEnd s
  | .startWaitEnd => Sys2Proof.Machine.execStartWaitEnd s
  | .referenceEdge pin stamp => Sys2Proof.Machine.execReferenceEdge pin stamp s
  | .rsuEnable m en => Sys2Proof.Machine.execRsuEnable m en s
  | .aptStart m port dir arm => Sys2Proof.Machine.execAptStart m port dir arm s
  | .aptStop m port dir => Sys2Proof.Machine.execAptStop m port dir s
  | .aptForce m port dir => Sys2Proof.Machine.execAptForce m port dir s
  | .aptClockStart port dir => Sys2Proof.Machine.execAptClockStart port dir s
  | .aptDataStart port dir => Sys2Proof.Machine.execAptDataStart port dir s
  | .asrcAcquired port dir => Sys2Proof.Machine.execAsrcAcquired port dir s
  | .aptStopEnd port dir => Sys2Proof.Machine.execAptStopEnd port dir s
  | .frameSyncEdge port dir stamp bits slots => Sys2Proof.Machine.execFrameSyncEdge port dir stamp bits slots s
  | .aptClockLost port dir => Sys2Proof.Machine.execAptClockLost port dir s
  | .aptRelock port dir => Sys2Proof.Machine.execAptRelock port dir s
  | .aptMaskWrite m port dir v => Sys2Proof.Machine.execAptMaskWrite m port dir v s
  | .aptCfgWrite m port dir v => Sys2Proof.Machine.execAptCfgWrite m port dir v s
  | .chStart m bits => Sys2Proof.Machine.execChStart m bits s
  | .chStop m bits => Sys2Proof.Machine.execChStop m bits s
  | .chForce m bits => Sys2Proof.Machine.execChForce m bits s
  | .ocLatchRelease m bits => Sys2Proof.Machine.execOcLatchRelease m bits s
  | .chStartRampEnd n => Sys2Proof.Machine.execChStartRampEnd n s
  | .chStopRampEnd n => Sys2Proof.Machine.execChStopRampEnd n s
  | .ocInAssert n => Sys2Proof.Machine.execOcInAssert n s
  | .ocLimit n => Sys2Proof.Machine.execOcLimit n s
  | .ocShutdown n => Sys2Proof.Machine.execOcShutdown n s
  | .ocRetry n => Sys2Proof.Machine.execOcRetry n s
  | .retriesReset n => Sys2Proof.Machine.execRetriesReset n s
  | .drvAllowWrite m v => Sys2Proof.Machine.execDrvAllowWrite m v s
  | .driveMismatch => Sys2Proof.Machine.execDriveMismatch s
  | .pwrConfigWrite m off v => Sys2Proof.Machine.execPwrConfigWrite m off v s
  | .senseLost input => Sys2Proof.Machine.execSenseLost input s
  | .calZero m v => Sys2Proof.Machine.execCalZero m v s
  | .calRef m v => Sys2Proof.Machine.execCalRef m v s
  | .calCancel m => Sys2Proof.Machine.execCalCancel m s
  | .calZeroDone => Sys2Proof.Machine.execCalZeroDone s
  | .calRefDone => Sys2Proof.Machine.execCalRefDone s
  | .estimationBlockEnd n => Sys2Proof.Machine.execEstimationBlockEnd n s
  | .modelStep => Sys2Proof.Machine.execModelStep s
  | .supervisionBlockEnd n => Sys2Proof.Machine.execSupervisionBlockEnd n s
  | .pairLinkUp => Sys2Proof.Machine.execPairLinkUp s
  | .pairLinkDown => Sys2Proof.Machine.execPairLinkDown s
  | .statusFrameSend => Sys2Proof.Machine.execStatusFrameSend s
  | .statusFrameReceive f => Sys2Proof.Machine.execStatusFrameReceive f s
  | .deltaPeriodEnd => Sys2Proof.Machine.execDeltaPeriodEnd s
  | .deltaReceive d => Sys2Proof.Machine.execDeltaReceive d s
  | .sliceReceive sl => Sys2Proof.Machine.execSliceReceive sl s
  | .detailFrameReceive ws => Sys2Proof.Machine.execDetailFrameReceive ws s
  | .handoverRequestReceive => Sys2Proof.Machine.execHandoverRequestReceive s
  | .releasedReceive => Sys2Proof.Machine.execReleasedReceive s
  | .takenReceive => Sys2Proof.Machine.execTakenReceive s
  | .pilotSend readback => Sys2Proof.Machine.execPilotSend readback s
  | .pilotRead => Sys2Proof.Machine.execPilotRead s
  | .foreignPulse => Sys2Proof.Machine.execForeignPulse s
  | .pilotGap => Sys2Proof.Machine.execPilotGap s
  | .leaseExpiry => Sys2Proof.Machine.execLeaseExpiry s
  | .guardExpiry lineHigh => Sys2Proof.Machine.execGuardExpiry lineHigh s
  | .takeover => Sys2Proof.Machine.execTakeover s
  | .coldConfigEnd => Sys2Proof.Machine.execColdConfigEnd s
  | .restoreEnd => Sys2Proof.Machine.execRestoreEnd s
  | .arm m v => Sys2Proof.Machine.execArm m v s
  | .handover m => Sys2Proof.Machine.execHandover m s
  | .handoverRampEnd => Sys2Proof.Machine.execHandoverRampEnd s
  | .handoverTimeout => Sys2Proof.Machine.execHandoverTimeout s
  | .pairCfgWrite m off v => Sys2Proof.Machine.execPairCfgWrite m off v s
  | .sweepPassStart => Sys2Proof.Machine.execSweepPassStart s
  | .sweepPassEnd cells macs => Sys2Proof.Machine.execSweepPassEnd cells macs s
  | .faultDetection b src detail => Sys2Proof.Machine.execFaultDetection b src detail s
  | .faultClear m b v => Sys2Proof.Machine.execFaultClear m b v s
  | .intAssert h => Sys2Proof.Machine.execIntAssert h s
  | .logEntryStore => Sys2Proof.Machine.execLogEntryStore s
  | .logClear m => Sys2Proof.Machine.execLogClear m s
  | .snuff m => Sys2Proof.Machine.execSnuff m s
  | .clkLost c => Sys2Proof.Machine.execClkLost c s
  | .clockReturn c => Sys2Proof.Machine.execClockReturn c s
  | .snuffCauseClear m => Sys2Proof.Machine.execSnuffCauseClear m s
  | .write h addr ws => Sys2Proof.Machine.execWrite h addr ws s
  | .read h addr len => Sys2Proof.Machine.execRead h addr len s
  | .enterQuad h => Sys2Proof.Machine.execEnterQuad h s
  | .exitQuad h => Sys2Proof.Machine.execExitQuad h s
  | .resetEnable h => Sys2Proof.Machine.execResetEnable h s
  | .portReset h => Sys2Proof.Machine.execPortReset h s
  | .portResetApply h => Sys2Proof.Machine.execPortResetApply h s
  | .csNEarlyRise h phase => Sys2Proof.Machine.execCsNEarlyRise h phase s
  | .semAcquire m k => Sys2Proof.Machine.execSemAcquire m k s
  | .semRelease m k => Sys2Proof.Machine.execSemRelease m k s
  | .holdExpired k => Sys2Proof.Machine.execHoldExpired k s
  | .busTimeout m addr => Sys2Proof.Machine.execBusTimeout m addr s
  | .dmaChannelStart m n v => Sys2Proof.Machine.execDmaChannelStart m n v s
  | .dmaChannelStop m n => Sys2Proof.Machine.execDmaChannelStop m n s
  | .dmaForce m n => Sys2Proof.Machine.execDmaForce m n s
  | .dmaCompatWrite m v => Sys2Proof.Machine.execDmaCompatWrite m v s
  | .dmaConfigWrite m n off v => Sys2Proof.Machine.execDmaConfigWrite m n off v s
  | .descriptorFetch => Sys2Proof.Machine.execDescriptorFetch s
  | .dmaBurst => Sys2Proof.Machine.execDmaBurst s
  | .descriptorComplete => Sys2Proof.Machine.execDescriptorComplete s
  | .waitLong n => Sys2Proof.Machine.execWaitLong n s
  | .lateWriteError n addr code => Sys2Proof.Machine.execLateWriteError n addr code s
  | .chkStart m u => Sys2Proof.Machine.execChkStart m u s
  | .chkSuspend m u => Sys2Proof.Machine.execChkSuspend m u s
  | .chkForce m u => Sys2Proof.Machine.execChkForce m u s
  | .chkStopEnd u done => Sys2Proof.Machine.execChkStopEnd u done s
  | .chkConfigWrite m u off v => Sys2Proof.Machine.execChkConfigWrite m u off v s
  | .chkScanEnd u => Sys2Proof.Machine.execChkScanEnd u s
  | .chkRescanEnd u => Sys2Proof.Machine.execChkRescanEnd u s
  | .dramAccess m acc ce ue => Sys2Proof.Machine.execDramAccess m acc ce ue s
  | .dramInitDone => Sys2Proof.Machine.execDramInitDone s
  | .dramScrub ce ue => Sys2Proof.Machine.execDramScrub ce ue s
  | .mr4Poll hot => Sys2Proof.Machine.execMr4Poll hot s
  | .dqsRetrain => Sys2Proof.Machine.execDqsRetrain s
  | .dramTimeout m addr => Sys2Proof.Machine.execDramTimeout m addr s
  | .carafeAccess m acc ce ue => Sys2Proof.Machine.execCarafeAccess m acc ce ue s
  | .carafeScrub ce ue => Sys2Proof.Machine.execCarafeScrub ce ue s
  | .memcConfigWrite m off v => Sys2Proof.Machine.execMemcConfigWrite m off v s
  | .xfer m k v resp => Sys2Proof.Machine.execXfer m k v resp s
  | .twcEnable m k => Sys2Proof.Machine.execTwcEnable m k s
  | .twcDisable m k => Sys2Proof.Machine.execTwcDisable m k s
  | .twcForce m k => Sys2Proof.Machine.execTwcForce m k s
  | .twcFifoWrite m k v => Sys2Proof.Machine.execTwcFifoWrite m k v s
  | .twcFifoRead m k => Sys2Proof.Machine.execTwcFifoRead m k s
  | .twcTransferEnd k o => Sys2Proof.Machine.execTwcTransferEnd k o s
  | .nakRetry k => Sys2Proof.Machine.execNakRetry k s
  | .arbLost k byte bit => Sys2Proof.Machine.execArbLost k byte bit s
  | .arbRetry k => Sys2Proof.Machine.execArbRetry k s
  | .sclStuck k => Sys2Proof.Machine.execSclStuck k s
  | .fifoStall k => Sys2Proof.Machine.execFifoStall k s
  | .stuckBusRecovery k ok => Sys2Proof.Machine.execStuckBusRecovery k ok s
  | .twcCfgWrite m k v => Sys2Proof.Machine.execTwcCfgWrite m k v s
  | .flashRead m => Sys2Proof.Machine.execFlashRead m s
  | .program m => Sys2Proof.Machine.execProgram m s
  | .erase4K m => Sys2Proof.Machine.execErase4K m s
  | .erase64K m => Sys2Proof.Machine.execErase64K m s
  | .readSfdp m => Sys2Proof.Machine.execReadSfdp m s
  | .readId m => Sys2Proof.Machine.execReadId m s
  | .flcCommandEnd => Sys2Proof.Machine.execFlcCommandEnd s
  | .flashTimeout => Sys2Proof.Machine.execFlashTimeout s
  | .flcDisable m => Sys2Proof.Machine.execFlcDisable m s
  | .flcForce m => Sys2Proof.Machine.execFlcForce m s
  | .flcFifoAccess m w => Sys2Proof.Machine.execFlcFifoAccess m w s
  | .supplyUndervoltage vddio => Sys2Proof.Machine.execSupplyUndervoltage vddio s
  | .idcode => Sys2Proof.Machine.execIdcode s
  | .bypass => Sys2Proof.Machine.execBypass s
  | .samplePreload pins load => Sys2Proof.Machine.execSamplePreload pins load s
  | .extest => Sys2Proof.Machine.execExtest s
  | .registerWrite m addr v => Sys2Proof.Machine.execRegisterWrite m addr v s
  | .supplyRestored => Sys2Proof.Machine.execSupplyRestored s
  | .senseInputRestored input => Sys2Proof.Machine.execSenseInputRestored input s
  | .autoNegotiationComplete n => Sys2Proof.Machine.execAutoNegotiationComplete n s
  | .dmaRequestAssert n => Sys2Proof.Machine.execDmaRequestAssert n s
  | .handoverPilotWaitEnd => Sys2Proof.Machine.execHandoverPilotWaitEnd s
  | .waitMaxRead m t => Sys2Proof.Machine.execWaitMaxRead m t s
  | .poolLowRead m => Sys2Proof.Machine.execPoolLowRead m s
  | .twSclRelease k => Sys2Proof.Machine.execTwSclRelease k s

end Sys2Proof.Machine
end

