-- ==== Sys2Proof/Machine/Order.lean ====
section
/-! DEFINITION. The order in which the events of one tick are applied (R23, R24, Tables 1.3 and 1.4), the place of the reads after them (R21), the
one write frame of a port in a tick (R26), and a sender that keeps all of it. The step applies the queue as it stands
(notes/assumptions/1). -/
namespace Sys2Proof.Machine
open Sys2Proof

/-- The order of masters in ranks 4, 7 and 8: hardware, host A, host B. -/
def masterKey (m : Master) : Nat :=
  match m with
  | .hpa => 1 | .hpb => 2 | _ => 0
/-- A snuff stands after every reset of rank 1 (Table 1.4): those of CHIP faults by block base and source, then a host's. -/
def snuffKey (k : List Nat) : List Nat := 2 ^ 36 :: k

/-! ### Detections (ranks 1 and 3) -/

/-- The fault source a detection is of. -/
def faultOf : Instr → Option (Blk × Nat)
  | .faultDetection b i _ => some (b, i.val)
  | .linkDown n _ _ _ _ | .macLinkTimeout n => some (.mac n.val, 0)
  | .pauseWatchdog n => some (.mac n.val, 2)
  | .memUe p => some (.cell p.val, 3)
  | .progUe p => some (.cell p.val, 4)
  | .cntMismatch => some (.ptu, 0)
  | .syncLoss d => some (.ptu, 2 + d.idx)
  | .annTimeout d => some (.ptu, 4 + d.idx)
  | .aptClockLost n d => some (.apt n.val, d.idx)
  | .ocLimit _ => some (.pwr, 0)
  | .ocShutdown _ => some (.pwr, 1)
  | .driveMismatch => some (.pwr, 7)
  | .senseLost _ => some (.lsp, 1)
  | .pairLinkDown => some (.pair, 3)
  | .pilotSend false => some (.pair, 0)
  | .holdExpired _ => some (.hp, 0)
  | .dramTimeout _ _ => some (.memc, 2)
  | .mr4Poll true => some (.memc, 6)
  | .waitLong _ => some (.dma, 4)
  | .lateWriteError _ _ _ => some (.dma, 1)
  | .arbLost k _ _ => some (.twc, 4 * k.val)
  | .nakRetry k => some (.twc, 4 * k.val + 1)
  | .sclStuck k => some (.twc, 4 * k.val + 2)
  | .stuckBusRecovery k false => some (.twc, 4 * k.val + 3)
  | .flashTimeout => some (.flc, 0)
  | _ => none
/-- Rank 3: severity, then block base, then source bit. A CHIP detection takes the chip to the snuffed state at rank 1 (R408). -/
def faultKey (i : Instr) : Option (List Nat) :=
  (faultOf i).map fun p =>
    if faultSev p.1 p.2 = .chip then 1 :: snuffKey [0, p.1.base, p.2] else [3, 3 - (faultSev p.1 p.2).code, p.1.base, p.2]

/-! ### Writes of registers (ranks 1, 4, 7 and 8) -/

/-- A write of value v at an offset of a block is an abort: its FORCE, ABORT or CANCEL (rank 7). -/
def abortField (b : Blk) (off : Nat) (v : Word) : Bool :=
  match b with
  | .img => off == 0 && bits v 0 3 == 4
  | .dma => decide (0x100 ≤ off) && off % 0x40 == 0 && bits v 0 2 == 2
  | .chk | .twc => decide (0x100 ≤ off) && off % 0x40 == 0 && bits v 0 2 == 2
  | .flc => off == 0 && bits v 0 2 == 2
  | .mac _ | .ste => off == 0 && bit v 2
  | .mxe => off == 0 && bit v 1
  | .apt _ => off == 0 && bit v 4
  | .pwr => off == 0x014
  | .lsp => off == 0x020 && bits v 0 2 == 3
  | _ => false
/-- The place of one word written by a master. -/
def wordKey (m : Master) (a : Nat) (v : Word) : List Nat :=
  if a = 0x40000240 ∧ bit v 0 = true then 1 :: snuffKey [1, masterKey m]
  else if a = 0x40000104 then [4, masterKey m]
  else match regWindow a with
    | some (b, off) => if abortField b off v then [7, masterKey m, b.base] else [8, masterKey m]
    | none => [8, masterKey m]
/-- The smaller of two keys. -/
def keyLe : List Nat → List Nat → Bool
  | [], _ => true
  | _ :: _, [] => false
  | a :: s, b :: t => decide (a < b) || (a == b && keyLe s t)
/-- The place of a write frame, whose words are applied together in ascending order (R26): that of its foremost word. -/
def frameKey (m : Master) (a : Nat) : List Word → List Nat
  | [] => [8, masterKey m]
  | v :: t => let k := wordKey m a v; let q := frameKey m (a + 4) t; if keyLe k q then k else q
/-- The words of a read frame take in a semaphore, whose read is an acquisition (R431). -/
def readsSem (a n : Nat) : Bool := decide (a < 0x40021100 ∧ 0x40021000 < a + 4 * n)

/-! ### The ranks -/

/-- Rank 1: resets by block base, then snuff. -/
def resetKey : Instr → Option (List Nat)
  | .portResetApply h => some [1, Blk.hp.base, h.idx]
  | .snuff m => some (1 :: snuffKey [1, masterKey m])
  | _ => none
/-- Rank 2: wick loss before takeover. -/
def wickKey : Instr → Option (List Nat)
  | .pilotGap | .foreignPulse | .pilotRead | .handoverRampEnd => some [2, 0]
  | .leaseExpiry | .guardExpiry _ | .handoverPilotWaitEnd | .takeover => some [2, 1]
  | _ => none
/-- Rank 4: changes made by hardware (the mirror of a delta, what the reference selection makes of HOLDOVER), then host A's write, then
host B's. -/
def modeKey : Instr → Option (List Nat)
  | .deltaReceive _ => some [4, 0, Blk.pair.base]
  | .refQualified c | .wtrEnd c | .disqEnd c => some [4, 0, Blk.rsu.base, c.val]
  | .firstWaitEnd | .startWaitEnd => some [4, 0, Blk.rsu.base, 6]
  | .runSet m | .runClear m | .alarmSet m | .alarmClear m => some [4, masterKey m]
  | _ => none
/-- Rank 5: the starts and takeovers of a boundary by block base and offset (Table 1.4), the windows' end among them, and then the sample frame
itself, which forms its samples after all of them (notes/assumptions/1). -/
def swapKey : Instr → Option (List Nat)
  | .txPacketBuild f => some [5, 0, Blk.ste.base, f.val]
  | .alarmBankSwap => some [5, 0, Blk.mxe.base, 0]
  | .playerFirstSample pl => some [5, 0, Blk.mxe.base, 0x1000 + 0x20 * pl.val]
  | .windowBoundary => some [5, 0, Blk.ldg.base, 0]
  | .aptClockStart n d | .aptDataStart n d => some [5, 0, (Blk.apt n.val).base, d.idx]
  | .driveEnRise => some [5, 0, Blk.pwr.base, 0]
  | .modelStep => some [5, 0, Blk.lsp.base, 0]
  | .estimationBlockEnd n | .supervisionBlockEnd n => some [5, 0, Blk.lsp.base, 0x1000 + 0x80 * n.val]
  | .migrationSwitch | .partialCellsHalt | .partialCellsRestart => some [5, 0, (Blk.cell 0).base, 0]
  | .restoreCellStart p => some [5, 0, (Blk.cell p.val).base, 1]
  | .cellBlockStart p => some [5, 0, (Blk.cell p.val).base, 0x100]
  | .deltaPeriodEnd => some [5, 0, (Blk.cell 72).base, 0]
  | .frameBoundary _ => some [5, 1]
  | _ => none
/-- Rank 6: completions, by block base, then channel or unit. Of DMA's the engine serves one at a time. -/
def completionOf : Instr → Option (Blk × Nat)
  | .pllLock | .outputRampEnd => some (.sys, 0)
  | .fusePhaseEnd | .sramInitEnd | .flashBootRecordRead _ | .memInitEnd _ _ | .flashImageCopyEnd | .readingEnd | .authEnd | .checkingEnd
  | .loadAbortEnd | .loadAccept | .partialLoadDone => some (.img, 0)
  | .descriptorComplete => some (.dma, 0)
  | .chkScanEnd u | .chkRescanEnd u | .chkStopEnd u _ => some (.chk, u.val)
  | .twcTransferEnd k _ | .arbRetry k | .fifoStall k | .stuckBusRecovery k true | .twSclRelease k => some (.twc, k.val)
  | .flcCommandEnd => some (.flc, 0)
  | .linkUp n | .autoNegotiationComplete n | .pauseTimerExpiry n | .holdoffEnd n | .frameTransmitEnd n | .macTxIdle n => some (.mac n.val, 0)
  | .flowFreed f | .pathDown f => some (.ste, f.val)
  | .steRxIdle => some (.ste, 8192)
  | .domainUpdate d => some (.ptu, d.idx)
  | .measurementWindowEnd => some (.rsu, 0)
  | .playerDone pl | .playerStopRampEnd pl => some (.mxe, pl.val)
  | .boundCheckDone => some (.ldg, 0)
  | .asrcAcquired n d | .aptStopEnd n d | .aptRelock n d => some (.apt n.val, d.idx)
  | .chStartRampEnd n | .chStopRampEnd n | .ocRetry n | .retriesReset n => some (.pwr, n.val)
  | .calZeroDone | .calRefDone | .senseInputRestored _ => some (.lsp, 0)
  | .pairLinkUp | .coldConfigEnd | .restoreEnd | .takenReceive | .releasedReceive | .handoverRequestReceive | .handoverTimeout
  | .sweepPassStart | .sweepPassEnd _ _ => some (.pair, 0)
  | .dramInitDone => some (.memc, 0)
  | .xfadeDone i => some (.dly, i.val)
  | .restoreLoaded p | .restoreRampEnd p => some (.cell p.val, 0)
  | .migrationLoaded | .migrationCopyStart | .migrationCopyEnd | .migrationShadowStart => some (.cell 0, 0)
  | _ => none
def completionKey (i : Instr) : Option (List Nat) := (completionOf i).map fun p => [6, p.1.base, p.2]
/-- Rank 7: aborts, host A before host B, then block base. -/
def abortKey : Instr → Option (List Nat)
  | .imgAbort m => some [7, masterKey m, Blk.img.base]
  | .dmaForce m _ => some [7, masterKey m, Blk.dma.base]
  | .chkForce m _ => some [7, masterKey m, Blk.chk.base]
  | .twcForce m _ => some [7, masterKey m, Blk.twc.base]
  | .flcForce m => some [7, masterKey m, Blk.flc.base]
  | .macForce m n => some [7, masterKey m, (Blk.mac n.val).base]
  | .steForce m => some [7, masterKey m, Blk.ste.base]
  | .swapCancel m => some [7, masterKey m, Blk.mxe.base]
  | .aptForce m n _ => some [7, masterKey m, (Blk.apt n.val).base]
  | .chForce m _ => some [7, masterKey m, Blk.pwr.base]
  | .calCancel m => some [7, masterKey m, Blk.lsp.base]
  | _ => none
/-- Rank 8: the other writes, and the reads that are events of their own (a semaphore, FT_CMD READ): hardware, host A, host B. -/
def writeKey : Instr → Option (List Nat)
  | .portReset h | .enterQuad h | .exitQuad h | .resetEnable h | .csNEarlyRise h .sending => some [8, h.idx + 1]
  | .write h a ws | .csNEarlyRise h (.afterWrite a ws) => some (frameKey h.master a ws)
  | .read h a n | .csNEarlyRise h (.afterRead a n) => if readsSem a n then some [8, h.idx + 1] else none
  | .registerWrite m a v => some (wordKey m a v)
  | .initMem m | .loadFull m _ | .loadPartial m _ | .verify m _ | .imgBadCmd m _ | .latQuery m _ | .ldgRecSel m _
  | .cellDataWrite m _ _ _ | .cellInstrHiWrite m _ _ _ | .cellInstrLoWrite m _ _ _ | .halt m _ _ | .retire m _ | .fenceClr m _
  | .agRegisterWrite m _ _ _ _ | .cellStateRegWrite m _ _ _ | .set m | .remove m | .xfade m | .swap m _
  | .matrixTableWrite m _ _ _ | .playStart m _ _ | .playStop m _ | .playFinish m _ | .lineDelayWrite m _ _ | .macTxDisable m _
  | .macRxDisable m _ _ | .macEnable m _ _ _ | .macConfigWrite m _ _ _ | .stage m _ | .publish m _ | .flowRetire m _
  | .discard m _ | .flowRead m _ | .htxCmd m _ | .steRxDisable m | .steTxDisable m | .tcap m | .upd m _ | .ptpPortEnable m _
  | .ptpPortDisable m _ | .rsuEnable m _ | .aptStart m _ _ _ | .aptStop m _ _ | .aptMaskWrite m _ _ _ | .aptCfgWrite m _ _ _
  | .chStart m _ | .chStop m _ | .ocLatchRelease m _ | .drvAllowWrite m _ | .pwrConfigWrite m _ _ | .calZero m _ | .calRef m _
  | .arm m _ | .handover m | .pairCfgWrite m _ _ | .faultClear m _ _ | .logClear m | .snuffCauseClear m | .semAcquire m _ | .semRelease m _
  | .dmaChannelStart m _ _ | .dmaChannelStop m _ | .dmaCompatWrite m _ | .dmaConfigWrite m _ _ _ | .chkStart m _
  | .chkSuspend m _ | .chkConfigWrite m _ _ _ | .memcConfigWrite m _ _ | .xfer m _ _ _ | .twcEnable m _ | .twcDisable m _
  | .twcFifoWrite m _ _ | .twcCfgWrite m _ _ | .flashRead m | .program m | .erase4K m | .erase64K m | .readSfdp m | .readId m
  | .flcDisable m | .flcFifoAccess m (some _) => some [8, masterKey m]
  | .dramAccess m (.write ..) _ _ | .carafeAccess m (.write ..) _ _ => some [8, masterKey m]
  | _ => none
/-- After every rank: a read is held until the commit phase ends, and returns what all events of the tick have left (R21). -/
def readKey : Instr → Option (List Nat)
  | .read h _ _ | .csNEarlyRise h (.afterRead _ _) => some [9, h.idx + 1]
  | .tickLoRead m | .ldgWinLoRead m | .cellDataRead m _ _ | .cellInstrLoRead m _ _ | .macCounterRead m _ _ | .hrxPop m | .ptuCntRead m
  | .twcFifoRead m _ | .flcFifoAccess m none | .waitMaxRead m _ | .poolLowRead m => some [9, masterKey m]
  | .dramAccess m (.read ..) _ _ | .carafeAccess m (.read ..) _ _ => some [9, masterKey m]
  | _ => none
/-- The place of a command among the events of its tick: the rank first. None: data moved at an island's clock, a local action, or a pin, which are no
events of Table 1.3 (R22). -/
def eventKey (i : Instr) : Option (List Nat) :=
  [resetKey, wickKey, faultKey, modeKey, swapKey, completionKey, abortKey, writeKey, readKey].findSome? (· i)

/-! ### Queues in order -/

/-- The keyed events of a list stand in order, up to each tick strobe. -/
def inOrderFrom (last : List Nat) : List Instr → Bool
  | [] => true
  | .eventTick :: t => inOrderFrom [] t
  | i :: t =>
    match eventKey i with
    | none => inOrderFrom last t
    | some k => keyLe last k && inOrderFrom k t
/-- The commands of a queue stand in the order of R23. -/
def inOrder (q : List Instr) : Bool := inOrderFrom [] q
/-- The host that completes a write frame with this command. -/
def frameHost : Instr → Option HostId
  | .write h _ _ | .csNEarlyRise h (.afterWrite _ _) => some h
  | _ => none
/-- A port that is in the list completes no further write frame in the tick (R26). -/
def oneFrameFrom (seen : List HostId) : List Instr → Bool
  | [] => true
  | .eventTick :: t => oneFrameFrom [] t
  | i :: t =>
    match frameHost i with
    | none => oneFrameFrom seen t
    | some h => !seen.contains h && oneFrameFrom (h :: seen) t
/-- A queue as the part can meet it: in the order of R23, and no port with two write frames in one tick (R26). -/
def legalQueue (q : List Instr) : Bool := inOrder q && oneFrameFrom [] q

/-- An event of place k enters the events of a tick before the first that stands behind it in the order, and at the end otherwise. -/
def place (k : List Nat) (c : Instr) : List Instr → List Instr
  | [] => [c]
  | i :: t =>
    match eventKey i with
    | none => i :: place k c t
    | some j => if keyLe j k then i :: place k c t else c :: i :: t
/-- An event that is sampled for the tick whose strobe stands `n` strobes on in the queue takes its place there. -/
def submit (n : Nat) (c : Instr) (q : List Instr) : List Instr :=
  let before := q.takeWhile (· != .eventTick)
  let rest := q.dropWhile (· != .eventTick)
  match n, rest with
  | 0, _ | _ + 1, [] => (match eventKey c with | some k => place k c before | none => before ++ [c]) ++ rest
  | n + 1, e :: t => before ++ e :: submit n c t
/-- The sender: a command takes its place in the part's queue. -/
def State.submit (s : State) (n : Nat) (c : Instr) : State := { s with pending := Machine.submit n c s.pending }

end Sys2Proof.Machine
end

