-- ==== Sys2Proof/Safety.lean ====
section
/-! DEFINITION. The terms the statements use: an access that reaches the registers, a holder of G, the part in service, and what
an invariant of a run holds. -/
namespace Sys2Proof.Machine
open Sys2Proof

/-- A bus master's access reaches the registers (R56, R410, R438): a host's port serves and the system island has its clock, or the
master has a path to them. -/
abbrev Reaches (m : Master) (s : State) : Prop := pathErr m .regs s = none
/-- A bus master's write of an RWS register is admitted (R435, R436): the register is reached, and a host holds G. -/
abbrev MayWrite (m : Master) (s : State) : Prop := Reaches m s ∧ rwsOk m s = true

/-- The part in reset: t holds every field at its reset value, but the queue, the free values drawn, the fuses, the flash, the memory
bytes, the test port, the supplies and clocks, the level of the wick line and SNUFF_CAUSE, which a reset does not clear (R53, R413,
R495; that the memory bytes stay is the model's, notes/assumptions/16). -/
def InReset (s t : State) : Prop :=
  t = { State.reset with
    pending := s.pending, freeCount := s.freeCount, mem := s.mem, memUe := s.memUe, poisoned := s.poisoned, jtag := t.jtag
    sys := { State.reset.sys with snuffCause := t.sys.snuffCause, resetN := t.sys.resetN, suppliesGood := t.sys.suppliesGood, clockLost := s.sys.clockLost }
    img := { State.reset.img with fuses := s.img.fuses, bootSrc := t.img.bootSrc }
    flc := { State.reset.flc with flash := s.flc.flash }
    pair := { State.reset.pair with line := s.pair.line } }

/-- The memory holds its canonical form. -/
def State.memOk (s : State) : Prop := Memory.wf s.mem = true

/-- A proactive migration's source is not its own spare (R170). -/
def State.migApart (s : State) : Prop := ∀ g, s.fabric.mig = some g → g.src ≠ g.spare

end Sys2Proof.Machine
end

