-- ==== Sys2Proof/Certificates/Slice0/Obligations.lean ====
section
/-! DEFINITION. The statements for the provers. Each docstring names the rules a statement rests on. -/
open Sys2Proof Sys2Proof.Machine

/-- A RUN set by a master that holds the right to write completes with OK. Where RUN is 1 already it requests nothing. Otherwise the first of these decides the code recorded with the tick: snuffed 4, a full load in progress 6, no image 2, not aligned 3, STANDBY without REHEARSAL_EN 7, a corrupt store that has to be read 8, else APPLIED 1. A refused request leaves RUN 0, sets REFUSED, and changes nothing but SYS and the MODE_REQ register; an applied one sets RUN, and PHASE is CONFIG where the cells are not configured or a partial load into the store has overtaken them, else RAMP_IN until b + 4,096 with b the next frame boundary (R41, R43, R45 to R47). -/
def Obligations.RunSetRequest : Prop :=
  ∀ (s : State) (m : Master), MayWrite m s →
    ∃ t, exec (.runSet m) s = .next t ∧ t.resp m = ⟨.ok, []⟩ ∧ t.sys.alarm = s.sys.alarm ∧ t.sys.run = (s.sys.run || (runSetRefusal s).isNone) ∧
      (s.sys.run = true → t = { s with regs := t.regs, bus := t.bus }) ∧
      (s.sys.run = false →
        runSetRefusal s =
          (if s.sys.snuffed then some 4
           else if fullLoading s then some 6
           else if noImage s then some 2
           else if !s.sys.aligned then some 3
           else if s.sys.standby && !s.rbit 0x4000011C 1 then some 7
           else if ((s.img.cold && s.pair.cold != .ready) || s.img.stale) && s.img.storeCorrupt then some 8
           else none) ∧
        t.sys.resTick = s.sys.tick % 65536 ∧ t.sys.runResult = (runSetRefusal s).getD 1 ∧
        (∀ c, runSetRefusal s = some c → t.sys.refused = true ∧ t.sys.phase = s.sys.phase ∧
          t = { s with regs := t.regs, sys := t.sys, bus := t.bus }) ∧
        (runSetRefusal s = none → s.img.cold = false → s.img.stale = false → s.pair.cold ≠ .configuring → s.pair.cold ≠ .restoring →
          t.sys.phase = .rampIn ∧ t.sys.rampEnd = some (64 * (s.sys.tick / 64 + 1) + 4096)) ∧
        (runSetRefusal s = none → s.img.cold = true ∨ s.img.stale = true → t.sys.phase = .config ∧ t.sys.rampEnd = none))

/-- A RUN clear by a master that holds the right to write completes with OK. With RUN 1 and ALARM 1 the result is ALARM_HELD (5), and nothing but SYS and the MODE_REQ register changes; with ALARM 0 and the chip not snuffed it is applied (1): RUN is 0, and from RAMP_IN, RUNNING or RAMP_OUT the phase is RAMP_OUT until b + 4,096. With RUN 0 it requests nothing (R41, R43, R48). An ALARM set, and an ALARM clear, by a master that holds the right to write complete with OK. In the snuffed state a request for the other value is refused with SNUFFED (4) and ALARM keeps its value; otherwise ALARM takes the value in this tick with result 1, and a change sets the sticky bit 1 of SYS.MODE_CHG. A request for the value ALARM has requests nothing. RUN keeps its value (R41 to R43, R45, R49). -/
def Obligations.RunClearAndAlarmRequests : Prop :=
  (
  ∀ (s : State) (m : Master), MayWrite m s → s.sys.snuffed = false →
    ∃ t, exec (.runClear m) s = .next t ∧ t.resp m = ⟨.ok, []⟩ ∧ t.sys.alarm = s.sys.alarm ∧
      (s.sys.run = false → t = { s with regs := t.regs, bus := t.bus }) ∧
      (s.sys.run = true → s.sys.alarm = true →
        t.sys.run = true ∧ t.sys.runResult = 5 ∧ t.sys.refused = true ∧ t.sys.phase = s.sys.phase ∧
        t = { s with regs := t.regs, sys := t.sys, bus := t.bus }) ∧
      (s.sys.run = true → s.sys.alarm = false →
        t.sys.run = false ∧ t.sys.runResult = 1 ∧ t.sys.resTick = s.sys.tick % 65536 ∧
        (s.sys.phase ≠ .stopped → s.sys.phase ≠ .config → t.sys.phase = .rampOut ∧ t.sys.rampEnd = some (64 * (s.sys.tick / 64 + 1) + 4096)))
  ) ∧ (
  ∀ (s : State) (m : Master) (v : Bool), MayWrite m s →
    ∃ t, exec (if v then .alarmSet m else .alarmClear m) s = .next t ∧ t.resp m = ⟨.ok, []⟩ ∧ t.sys.run = s.sys.run ∧
      (s.sys.alarm = v → t = { s with regs := t.regs, bus := t.bus }) ∧
      (s.sys.alarm ≠ v → s.sys.snuffed = true →
        t.sys.alarm = s.sys.alarm ∧ t.sys.alarmResult = 4 ∧ t.sys.refused = true ∧ t = { s with regs := t.regs, sys := t.sys, bus := t.bus }) ∧
      (s.sys.alarm ≠ v → s.sys.snuffed = false →
        t.sys.alarm = v ∧ t.sys.alarmResult = 1 ∧ t.sys.resTick = s.sys.tick % 65536 ∧ t.rbit 0x4000010C 1 = true)
  )

/-- OUTPUT_RAMP_END completes. In the tick at which the output ramp ends, RAMP_IN becomes RUNNING and nothing else changes; RAMP_OUT with RUN 0 becomes STOPPED and DRIVE_EN is low. In any other tick, and in any other phase, nothing changes (R46 to R48). DRIVE_EN_RISE completes: in a tick that starts a sample frame, with RUN 1 and PHASE not CONFIG (or PHASE RAMP_OUT), STANDBY 0, the chip not snuffed and no clock loss still to be applied, a channel enabled or stopping, DRV_ALLOW 1, DRIVE_MISMATCH clear, an image accepted and no restore in progress, and in RAMP_IN not before its b, DRIVE_EN is high and nothing else changes; in every other case nothing changes. A write of DRV_ALLOW that is admitted completes with OK: with 0 DRIVE_EN is low after it, and DRV_ALLOW reads as written (R37, R342). -/
def Obligations.OutputRampAndDriveEnable : Prop :=
  (
  ∀ s : State,
    (s.sys.rampEnd = some s.sys.tick → s.sys.phase = .rampIn →
      exec .outputRampEnd s = .next { s with sys := { s.sys with phase := .running, rampEnd := none } }) ∧
    (s.sys.rampEnd = some s.sys.tick → s.sys.phase = .rampOut → s.sys.run = false →
      ∃ t, exec .outputRampEnd s = .next t ∧ t.sys.phase = .stopped ∧ t.sys.rampEnd = none ∧ t.pwr.driveEn = false ∧ t.sys.run = false) ∧
    (s.sys.rampEnd ≠ some s.sys.tick ∨ (s.sys.phase = .rampOut ∧ s.sys.run = true) ∨ (s.sys.phase ≠ .rampIn ∧ s.sys.phase ≠ .rampOut) →
      exec .outputRampEnd s = .next s)
  ) ∧ (
  ∀ s : State,
    (s.atFrame = true → ((s.sys.run = true ∧ s.sys.phase ≠ .config) ∨ s.sys.phase = .rampOut) → s.sys.standby = false → s.sys.snuffed = false →
      s.sys.monitorDue = false →
      (∃ e ∈ s.pwr.chs, e.2.en = true ∨ e.2.st = .stopping) → s.rbit Blk.pwr.base 0 = true → s.faultBit .pwr 7 = false →
      s.img.accepted = true → s.pair.cold ≠ .restoring → (s.sys.phase = .rampIn → ∀ e, s.sys.rampEnd = some e → e ≤ s.sys.tick + 4096) →
      exec .driveEnRise s = .next { s with pwr := { s.pwr with driveEn := true } }) ∧
    (s.atFrame = false ∨ (s.sys.run = false ∧ s.sys.phase ≠ .rampOut) ∨ s.sys.standby = true ∨ s.sys.snuffed = true ∨ s.sys.monitorDue = true ∨
      s.rbit Blk.pwr.base 0 = false ∨ s.faultBit .pwr 7 = true → exec .driveEnRise s = .next s) ∧
    (∀ (m : Master) (v : Word), MayWrite m s →
      ∃ t, exec (.drvAllowWrite m v) s = .next t ∧ t.resp m = ⟨.ok, []⟩ ∧ t.rbit Blk.pwr.base 0 = bit v 0 ∧ t.sys = s.sys ∧
        (bit v 0 = false → t.pwr.driveEn = false))
  )

/-- A host's SNUFF that is admitted, the counter mismatch of PTU, the DRIVE_EN readback mismatch, and the detection of a clock loss complete in a chip that is not snuffed: SNUFFED is 1, RUN 0, STANDBY 1, DRIVE_EN low, the wick logic DISARMED, and SNUFF_CAUSE, if its VALID was 0, holds the cause: for a host HOST and its number, for a fault the source and the block's index. ALARM keeps its value. CLK_LOST completes in a chip out of reset: at once CLK_LOST is set in FAULT_STATUS with the cause in SNUFF_CAUSE, DRIVE_EN is low and the wick logic DISARMED; the detection is applied in the next tick, where the chip is snuffed (R22, R268, R343, R408, R410, R411, R413). -/
def Obligations.EntryToTheSnuffedState : Prop :=
  ∀ s : State, s.sys.snuffed = false →
    (∀ h : HostId, MayWrite h.master s →
      ∃ t, exec (.snuff h.master) s = .next t ∧ t.resp h.master = ⟨.ok, []⟩ ∧ t.sys.snuffed = true ∧ t.sys.run = false ∧ t.sys.standby = true ∧
        t.pwr.driveEn = false ∧ t.pair.wick = .disarmed ∧ t.sys.alarm = s.sys.alarm ∧
        (bit s.sys.snuffCause 31 = false → t.sys.snuffCause = pack [(31, 1), (30, 1), (26, h.idx + 1)])) ∧
    (∃ t, exec .cntMismatch s = .next t ∧ t.sys.snuffed = true ∧ t.sys.run = false ∧ t.sys.standby = true ∧
      t.pwr.driveEn = false ∧ t.pair.wick = .disarmed ∧ t.faultBit .ptu 0 = true ∧
      (bit s.sys.snuffCause 31 = false → t.sys.snuffCause = pack [(31, 1), (8, 13)])) ∧
    (∃ t, exec .driveMismatch s = .next t ∧ t.sys.snuffed = true ∧ t.sys.run = false ∧ t.sys.standby = true ∧
      t.pwr.driveEn = false ∧ t.pair.wick = .disarmed ∧ t.faultBit .pwr 7 = true ∧
      (bit s.sys.snuffCause 31 = false → t.sys.snuffCause = pack [(31, 1), (16, 7), (8, 18)])) ∧
    (∀ d, ∃ t, exec (.faultDetection .sys 2 d) s = .next t ∧ t.sys.snuffed = true ∧ t.sys.run = false ∧ t.sys.standby = true ∧
      t.pwr.driveEn = false ∧ t.pair.wick = .disarmed ∧ t.faultBit .sys 2 = true ∧
      (bit s.sys.snuffCause 31 = false → t.sys.snuffCause = pack [(31, 1), (16, 2)])) ∧
    (∀ c : ClkSrc, s.sys.resetN = true → s.sys.suppliesGood = true →
      ∃ t, exec (.clkLost c) s = .next t ∧ t.pwr.driveEn = false ∧ t.pair.wick = .disarmed ∧ t.faultBit .sys 2 = true ∧ c ∈ t.sys.clockLost ∧
        t.sys.snuffed = false ∧ t.sys.run = s.sys.run ∧
        (bit s.sys.snuffCause 31 = false → t.sys.snuffCause = pack [(31, 1), (16, 2)]) ∧
        (ticksRun t = true → ∃ u, exec .eventTick t = .next u ∧ u.sys.snuffed = true ∧ u.faultBit .sys 2 = true))

/-- A host's read of SEM[i] that reaches the registers completes: a free semaphore (for G, one R56 permits the host) is taken from this tick on and reads OWNER with NEW = 1; a held one reads OWNER with NEW = 0 and keeps its holder; G that R56 does not permit stays as it is and reads the permitted host, or 3. A read by any other bus master takes nothing. Every other semaphore, the memory and every other part of the state keep their values (R56, R431). HOLD_EXPIRED completes. A held semaphore whose SEM_LIMIT is L ≠ 0, in a tick at which L × 64 × FS / 1,000 ticks have passed since its acquiring tick, becomes FREE, and the detection sets FAULT_STATUS bit 0 of HP; otherwise nothing changes. No other semaphore and no other part of the state but the registers and SYS's log change (R433). -/
def Obligations.SemaphoreReadAndHoldLimit : Prop :=
  (
  ∀ (s : State) (i : Fin 64),
    (∀ h : HostId, Reaches h.master s →
      ∃ t, exec (.semAcquire h.master i) s = .next t ∧
        t = { s with regs := t.regs, bus := t.bus, sems := t.sems } ∧
        (∀ a, a ≠ Blk.hp.base + 0x40 → t.reg a = s.reg a) ∧
        (∀ j, j ≠ i.val → t.sem j = s.sem j) ∧
        (i.val = 0 ∧ gPermitted s h = false →
          t.sem i.val = s.sem i.val ∧
          t.resp h.master = ⟨.ok, [if gPermitted s .a then 1 else if gPermitted s .b then 2 else 3]⟩) ∧
        ((i.val ≠ 0 ∨ gPermitted s h = true) → (s.sem i.val).owner = none →
          t.sem i.val = ⟨some h, s.sys.tick⟩ ∧ t.resp h.master = ⟨.ok, [if h = .a then 5 else 6]⟩) ∧
        (∀ o, (i.val ≠ 0 ∨ gPermitted s h = true) → (s.sem i.val).owner = some o →
          t.sem i.val = s.sem i.val ∧ t.resp h.master = ⟨.ok, [if o = .a then 1 else 2]⟩)) ∧
    (∀ m : Master, m.host? = none → Reaches m s →
      ∃ t, exec (.semAcquire m i) s = .next t ∧ t = { s with bus := t.bus } ∧
        t.resp m = ⟨.ok, [match (s.sem i.val).owner with | none => 0 | some .a => 1 | some .b => 2]⟩)
  ) ∧ (
  ∀ (s : State) (i : Fin 64),
    (
      ((s.sem i.val).owner.isSome = true → s.fld (semLimitReg i.val) 0 16 ≠ 0 →
        (s.sem i.val).since + s.fld (semLimitReg i.val) 0 16 * 64 * s.fs / 1000 ≤ s.sys.tick →
        ∃ t, exec (.holdExpired i) s = .next t ∧ t = { s with regs := t.regs, sys := t.sys, sems := t.sems } ∧ (∀ j, j ≠ i.val → t.sem j = s.sem j) ∧
        (t.sem i.val).owner = none ∧ t.faultBit .hp 0 = true) ∧
      (((s.sem i.val).owner = none ∨ s.fld (semLimitReg i.val) 0 16 = 0 ∨
        s.sys.tick < (s.sem i.val).since + s.fld (semLimitReg i.val) 0 16 * 64 * s.fs / 1000) → exec (.holdExpired i) s = .next s))
  )

/-- A write of SEM[i] that reaches the registers completes: from the host that holds it, it leaves the semaphore FREE and answers OK; from any other bus master it changes nothing and answers ACCESS_ERR. Every other semaphore and every other part of the state keep their values (R432). -/
def Obligations.SemaphoreRelease : Prop :=
  ∀ (s : State) (m : Master) (i : Fin 64), Reaches m s →
    ∃ t, exec (.semRelease m i) s = .next t ∧
      t = { s with regs := t.regs, bus := t.bus, sems := t.sems } ∧
      (∀ a, a ≠ Blk.hp.base + 0x40 → t.reg a = s.reg a) ∧
      (∀ j, j ≠ i.val → t.sem j = s.sem j) ∧
      (∀ h, m = h.master → (s.sem i.val).owner = some h → (t.sem i.val).owner = none ∧ t.resp m = ⟨.ok, []⟩) ∧
      ((∀ h, m = h.master → (s.sem i.val).owner ≠ some h) → t.sems = s.sems ∧ t.regs = s.regs ∧ t.resp m = ⟨.accessErr, []⟩)

/-- IDCODE shifts out (STEP mod 16) × 2^28 + 0x4032B5F; BYPASS selects the bypass register; SAMPLE/PRELOAD shifts out the pins and loads the boundary register; under EXTEST the boundary register drives the pins while RESET_N is low, and nothing is driven otherwise. Each completes in every state and changes the test port alone (R508; that the bypass register captures 0 is the model's, log entry 27). -/
def Obligations.TestPort : Prop :=
  ∀ s : State,
    (∃ t, exec .idcode s = .next t ∧ t = { s with jtag := t.jtag } ∧ t.jtag.inst = .idcode ∧ t.jtag.boundary = s.jtag.boundary ∧
      t.jtag.out = s.img.fuses.step % 16 * 2 ^ 28 + 0x4032B5F ∧ t.jtag.driven = none) ∧
    (∃ t, exec .bypass s = .next t ∧ t = { s with jtag := t.jtag } ∧ t.jtag.inst = .bypass ∧ t.jtag.boundary = s.jtag.boundary ∧
      t.jtag.driven = none) ∧
    (∀ pins load, ∃ t, exec (.samplePreload pins load) s = .next t ∧ t = { s with jtag := t.jtag } ∧
      t.jtag.inst = .samplePreload ∧ t.jtag.out = pins ∧ t.jtag.boundary = load ∧ t.jtag.driven = none) ∧
    (∃ t, exec .extest s = .next t ∧ t = { s with jtag := t.jtag } ∧ t.jtag.inst = .extest ∧ t.jtag.boundary = s.jtag.boundary ∧
      t.jtag.driven = if s.sys.resetN then none else some s.jtag.boundary)

/-- A write of CHn_CTRL with EN = 1 that reaches the registers completes with OK. An IDLE or HALTED channel joins the end of the run queue, its cause, codes, hops and byte count become 0, and its descriptor address is CHn_DESC; a channel in any other state keeps its registers and its place. A FORCE in the same write only sets the channel's ABORT_MOOT bit, and only where the channel is not STOPPING. Memory and every part of the state but DMA keep their values (R456). A write of CHn_CTRL with EN = 0 that reaches the registers completes with OK. Without FORCE, a QUEUED or WAIT_REQ channel leaves the run queue IDLE with its DONE bit set, an ACTIVE one becomes STOPPING, and any other keeps its state. With FORCE, a STOPPING channel is IDLE with cause ABORTED (5) and DONE set; a channel in another state sets its ABORT_MOOT bit and then stops as without FORCE. Nothing outside DMA, the registers and the answer changes (R456). -/
def Obligations.DmaStartStopAndForce : Prop :=
  (
  ∀ (s : State) (m : Master) (n : Fin 16) (v : Word), Reaches m s →
    ∃ t, exec (.dmaChannelStart m n v) s = .next t ∧ t.resp m = ⟨.ok, []⟩ ∧
      t = { s with regs := t.regs, bus := t.bus, dma := t.dma } ∧
      (∀ a, a ≠ Blk.dma.base + 0x50 ∨ bit v 1 = false ∨ (s.dmaCh n.val).st = .stopping → t.reg a = s.reg a) ∧
      (dmaFree (s.dmaCh n.val) = true →
        t.dma.queue = s.dma.queue ++ [n.val] ∧ dmaFree (t.dmaCh n.val) = false ∧ (t.dmaCh n.val).cause = 0 ∧
        (t.dmaCh n.val).pcode = 0 ∧ (t.dmaCh n.val).hops = 0 ∧ (t.dmaCh n.val).bytes = 0 ∧ (t.dmaCh n.val).desc = none ∧
        (t.dmaCh n.val).cur = dmaFirst s n.val) ∧
      (dmaFree (s.dmaCh n.val) = false → t.dma = s.dma)
  ) ∧ (
  ∀ (s : State) (m : Master) (n : Fin 16), Reaches m s →
    (∃ t, exec (.dmaChannelStop m n) s = .next t ∧ t.resp m = ⟨.ok, []⟩ ∧
      t = { s with regs := t.regs, bus := t.bus, dma := t.dma } ∧
      (∀ a, a ≠ Blk.dma.base + 0x40 → t.reg a = s.reg a) ∧
      ((s.dmaCh n.val).st = .queued ∨ (s.dmaCh n.val).st = .waitReq →
        n.val ∉ t.dma.queue ∧ (t.dmaCh n.val).st = .idle ∧ t.rbit (Blk.dma.base + 0x40) n.val = true) ∧
      ((s.dmaCh n.val).st = .active → (t.dmaCh n.val).st = .stopping ∧ t.dma.queue = s.dma.queue ∧ t.regs = s.regs) ∧
      (dmaFree (s.dmaCh n.val) = true ∨ (s.dmaCh n.val).st = .stopping → t.dma = s.dma ∧ t.regs = s.regs)) ∧
    (∃ t, exec (.dmaForce m n) s = .next t ∧ t.resp m = ⟨.ok, []⟩ ∧
      t = { s with regs := t.regs, bus := t.bus, dma := t.dma } ∧
      (∀ a, a ≠ Blk.dma.base + 0x40 → a ≠ Blk.dma.base + 0x50 → t.reg a = s.reg a) ∧
      ((s.dmaCh n.val).st = .stopping →
        n.val ∉ t.dma.queue ∧ (t.dmaCh n.val).st = .idle ∧ (t.dmaCh n.val).cause = 5 ∧ t.rbit (Blk.dma.base + 0x40) n.val = true) ∧
      ((s.dmaCh n.val).st ≠ .stopping → t.rbit (Blk.dma.base + 0x50) n.val = true))
  )

/-- Writes that reach the registers. DMA CTRL.COMPAT is performed exactly while every channel is IDLE or HALTED, and CHn_CFG, CHn_LIMIT and CHn_DESC (offsets 4, 8, 0xC, 0x10) exactly while that channel is; CFG, ADDR, LEN, RUNNING, EXP_V and EXP_C of a check unit exactly while the unit is IDLE, and a unit the lantern sweep owns answers ACCESS_ERR to every master but SEQ. A write that is performed answers OK and leaves every other register as it is; one that is not answers ACCESS_ERR and changes nothing (R456, R458, R462, R464). A write of a check unit's CTRL that reaches the registers, of a unit the lantern sweep does not own, completes with OK. EN = 1 starts an IDLE unit on its range (or records BAD_CFG, 8, where ALG is 3, ADDR or LEN is no multiple of 4, LEN is 0, or the range passes 2^36) and leaves a busy one alone; EN = 0 makes a SCANNING or RESCANNING unit STOPPING; FORCE makes a STOPPING unit abort, and otherwise sets FORCE_MOOT (EVT bit 4 + u). Nothing outside the unit, EVT and the answer changes (R461, R462). -/
def Obligations.UnitConfigurationAndCheckControl : Prop :=
  (
  ∀ (s : State) (m : Master) (v : Word), Reaches m s →
    ((∀ k < 16, dmaFree (s.dmaCh k) = true) →
      ∃ t, exec (.dmaCompatWrite m v) s = .next t ∧ t = { s with regs := t.regs, bus := t.bus } ∧ t.resp m = ⟨.ok, []⟩ ∧
        dmaCompat t = bit v 0 ∧ ∀ a, a ≠ Blk.dma.base → t.reg a = s.reg a) ∧
    ((∃ k < 16, dmaFree (s.dmaCh k) = false) →
      ∃ t, exec (.dmaCompatWrite m v) s = .next t ∧ t = { s with bus := t.bus } ∧ t.resp m = ⟨.accessErr, []⟩) ∧
    (∀ (n : Fin 16) (off : Fin 64), off.val = 4 ∨ off.val = 8 ∨ off.val = 0xC ∨ off.val = 0x10 →
      ∃ t, exec (.dmaConfigWrite m n off v) s = .next t ∧ t = { s with regs := t.regs, bus := t.bus } ∧
        (dmaFree (s.dmaCh n.val) = true → t.resp m = ⟨.ok, []⟩ ∧
          (off.val = 0xC → t.reg (dmaReg n.val 0xC) = v) ∧ ∀ a, a ≠ dmaReg n.val off.val → t.reg a = s.reg a) ∧
        (dmaFree (s.dmaCh n.val) = false → t.regs = s.regs ∧ t.resp m = ⟨.accessErr, []⟩)) ∧
    (∀ (u : Fin 4) (off : Fin 64), off.val = 4 ∨ off.val = 8 ∨ off.val = 0xC ∨ off.val = 0x10 ∨ off.val = 0x14 ∨ off.val = 0x20 ∨ off.val = 0x24 →
      ∃ t, exec (.chkConfigWrite m u off v) s = .next t ∧ t = { s with regs := t.regs, bus := t.bus, chk := t.chk } ∧
        ((s.chkU u.val).st = .idle → (chkSwept s u.val = false ∨ m = .seq) → t.resp m = ⟨.ok, []⟩ ∧
          (off.val = 0x10 → t.reg (chkReg u.val 0x10) = v) ∧ ∀ a, a ≠ chkReg u.val off.val → t.reg a = s.reg a) ∧
        ((s.chkU u.val).st ≠ .idle ∨ (chkSwept s u.val = true ∧ m ≠ .seq) → t.regs = s.regs ∧ t.chk = s.chk ∧ t.resp m = ⟨.accessErr, []⟩))
  ) ∧ (
  ∀ (s : State) (m : Master) (u : Fin 4), Reaches m s → chkSwept s u.val = false →
    (∃ t, exec (.chkStart m u) s = .next t ∧ t.resp m = ⟨.ok, []⟩ ∧ t = { s with bus := t.bus, chk := t.chk } ∧
      (∀ k, k ≠ u.val → t.chkU k = s.chkU k) ∧
      ((s.chkU u.val).st ≠ .idle → t.chk = s.chk) ∧
      ((s.chkU u.val).st = .idle →
        if chkAlg s u.val = 3 ∨ chkAddr s u.val % 4 ≠ 0 ∨ chkLen s u.val % 4 ≠ 0 ∨ chkLen s u.val = 0 ∨ 2 ^ 36 < chkAddr s u.val + chkLen s u.val
        then (t.chkU u.val).st = .idle ∧ (t.chkU u.val).result = 8
        else (t.chkU u.val).st = .scanning ∧ (t.chkU u.val).addr0 = chkAddr s u.val ∧ (t.chkU u.val).len0 = chkLen s u.val)) ∧
    (∃ t, exec (.chkSuspend m u) s = .next t ∧ t.resp m = ⟨.ok, []⟩ ∧ t = { s with bus := t.bus, chk := t.chk } ∧
      (∀ k, k ≠ u.val → t.chkU k = s.chkU k) ∧
      ((s.chkU u.val).st = .scanning ∨ (s.chkU u.val).st = .rescanning → (t.chkU u.val).st = .stopping) ∧
      ((s.chkU u.val).st = .idle ∨ (s.chkU u.val).st = .stopping → t.chk = s.chk)) ∧
    (∃ t, exec (.chkForce m u) s = .next t ∧ t.resp m = ⟨.ok, []⟩ ∧ t = { s with regs := t.regs, bus := t.bus, chk := t.chk } ∧
      (∀ k, k ≠ u.val → t.chkU k = s.chkU k) ∧
      ((s.chkU u.val).st = .stopping → (t.chkU u.val).forced = true ∧ t.regs = s.regs) ∧
      ((s.chkU u.val).st ≠ .stopping → t.rbit (Blk.chk.base + 0x40) (4 + u.val) = true))
  )

/-- CHK_SCAN_END, CHK_RESCAN_END and CHK_STOP_END complete. With every read of the range answered OK (w is the state they leave, r the running value after them, and v the result the algorithm gives r): a first scan with CMP = 0 ends IDLE with COMPLETE (1); with CMP = 1 and EXP_V and EXP_C complementary it ends with MATCH (2) where v is EXP_V, else a rescan starts; a rescan ends with MATCH and RESCANNED or with MISMATCH (3). A stop ends IDLE with SUSPENDED (6), or ABORTED (7) after FORCE. Each end sets the unit's DONE bit. A unit in another state is left alone (R461 to R463). -/
def Obligations.CheckUnitVerdict : Prop :=
  ∀ (s w : State) (u : Fin 4) (r : Nat) (e : Nat), scanOf u.val (s.chkU u.val).len0 s = (w, r, e, none) → w.chkU u.val = s.chkU u.val →
    ((s.chkU u.val).st ≠ .scanning → exec (.chkScanEnd u) s = .next s) ∧
    ((s.chkU u.val).st = .scanning → ∃ t, exec (.chkScanEnd u) s = .next t ∧
      (chkCmp w u.val = false → (t.chkU u.val).st = .idle ∧ (t.chkU u.val).result = 1 ∧
        (t.chkU u.val).value = wd (chkResult (chkAlg w u.val) r) ∧ t.rbit (Blk.chk.base + 0x40) u.val = true ∧ t.mem = w.mem)) ∧
    ((s.chkU u.val).st ≠ .rescanning → exec (.chkRescanEnd u) s = .next s) ∧
    ((s.chkU u.val).st = .rescanning → ∃ t, exec (.chkRescanEnd u) s = .next t ∧
      ((t.chkU u.val).st = .idle ∧ t.mem = w.mem ∧
        (chkResult (chkAlg w u.val) r = chkExp w u.val → (t.chkU u.val).result = 2 ∧ (t.chkU u.val).rescanned = true) ∧
        (chkResult (chkAlg w u.val) r ≠ chkExp w u.val → (t.chkU u.val).result = 3))) ∧
    ((s.chkU u.val).st ≠ .stopping → exec (.chkStopEnd u (s.chkU u.val).len0) s = .next s) ∧
    ((s.chkU u.val).st = .stopping → ∃ t, exec (.chkStopEnd u (s.chkU u.val).len0) s = .next t ∧
      ((s.chkU u.val).len0 % 4 = 0 → (s.chkU u.val).pos ≤ (s.chkU u.val).len0 → (s.chkU u.val).second = false →
        (t.chkU u.val).st = .idle ∧ (t.chkU u.val).result = (if (s.chkU u.val).forced then 7 else 6) ∧ t.mem = w.mem ∧
        t.rbit (Blk.chk.base + 0x40) u.val = true))

/-- EVENT_TICK completes. While RESET_N is low, a supply is out of range, or the time island has no clock, nothing changes. Otherwise, outside the start-up wait of RSU, the tick number is one more and the counter is at the new tick's edge: with SRC 0 that is 160 counter periods a tick at 96 kHz and 320 at 48 kHz, wherever the counter lies before it. No memory byte, no fuse and no byte of the flash changes (R16, R17, R20, R266, R410; that the counter moves at EVENT_TICK only is the model's, log entry 16). FRAME_BOUNDARY completes. In a tick that is no multiple of 64, while the ticks stand, or a second time in one tick, it changes nothing; otherwise the frame counts as evaluated, and the tick number, the counter and RUN, ALARM and STANDBY keep their values. WINDOW_BOUNDARY completes in the same way at the multiples of 2^22 other than 0, where it closes the window: WIN shows the number of the window that ended, and the counts of corrected errors start again at 0 (R19, R103, R105, R473; that a second command in one tick changes nothing is the model's, log entry 2). -/
def Obligations.TicksFramesAndWindows : Prop :=
  (
  ∀ s : State,
    (ticksRun s = false → exec .eventTick s = .next s) ∧
    (ticksRun s = true → ∃ t, exec .eventTick s = .next t ∧
    t.mem = s.mem ∧ t.img.fuses = s.img.fuses ∧ t.flc.flash = s.flc.flash ∧
    (s.rsu.startup = false →
      t.sys.tick = s.sys.tick + 1 ∧ s.ptu.counter < t.ptu.counter ∧
      (s.sys.src = false → s.ptu.counter < (if s.sys.fs48 then 320 else 160) * (s.sys.tick + 1) →
        t.ptu.counter = (if s.sys.fs48 then 320 else 160) * (s.sys.tick + 1))))
  ) ∧ (
  ∀ (s : State),
    (∀ inp,
      (s.sys.tick % 64 ≠ 0 ∨ ticksRun s = false ∨ s.sys.frameAt = some s.sys.tick → exec (.frameBoundary inp) s = .next s) ∧
      (s.sys.tick % 64 = 0 → ticksRun s = true → s.sys.frameAt ≠ some s.sys.tick → ∃ t, exec (.frameBoundary inp) s = .next t ∧
        t.sys.frameAt = some s.sys.tick ∧ t.sys.tick = s.sys.tick ∧ t.ptu.counter = s.ptu.counter ∧
        t.sys.run = s.sys.run ∧ t.sys.alarm = s.sys.alarm ∧ t.sys.standby = s.sys.standby ∧
        ∀ again, exec (.frameBoundary again) t = .next t)) ∧
    (
      (s.sys.tick % 2 ^ 22 ≠ 0 ∨ s.sys.tick = 0 ∨ ticksRun s = false ∨ s.sys.windowAt = some s.sys.tick → exec .windowBoundary s = .next s) ∧
      (s.sys.tick % 2 ^ 22 = 0 → s.sys.tick ≠ 0 → ticksRun s = true → s.sys.windowAt ≠ some s.sys.tick → ∃ t, exec .windowBoundary s = .next t ∧
        t.sys.windowAt = some s.sys.tick ∧ t.sys.tick = s.sys.tick ∧ t.ldg.lastWin = s.sys.tick / 2 ^ 22 - 1 ∧
        t.memc.ceDram = 0 ∧ t.memc.ceCar = 0 ∧ exec .windowBoundary t = .next t))
  )

/-- RESET_N_ASSERT completes with RESET_N low, and SUPPLY_UNDERVOLTAGE completes with the supplies out of range: in both the part is in reset, no tick passes, and BOOT_SEL's capture stays. SNUFF_CAUSE is lost with VDDIO only. RESET_N_RELEASE of a low RESET_N and SUPPLY_RESTORED after an undervoltage complete with the part in reset at the PLL_WAIT phase, the first with BOOT_SEL captured; both change nothing where RESET_N is high, or the supplies are good, already (R52, R53, R55, R413, R495). CLK_LOST of REFCLK_IN, the system PLL or the time PLL in a chip out of reset completes: the ticks no longer run, CLK_LOST is set in FAULT_STATUS, SNUFF_CAUSE is VALID, DRIVE_EN is low and the WICK driver is released. CLOCK_RETURN of a lost clock completes: the clock is no longer lost, after REFCLK_IN the first tick that runs clears ALIGNED, and after the system PLL alone the time counter, whose clock ran on, may have moved on; of a clock that is not lost it changes nothing. Writing VALID clears every field of SNUFF_CAUSE and leaves the chip snuffed or not as it was (R410, R413). -/
def Obligations.ResetSuppliesAndClocks : Prop :=
  (
  ∀ (s : State),
    (∃ t, exec .resetNAssert s = .next t ∧ InReset s t ∧ t.sys.resetN = false ∧ t.sys.suppliesGood = s.sys.suppliesGood ∧
      t.sys.snuffCause = s.sys.snuffCause ∧ t.img.bootSrc = s.img.bootSrc ∧ exec .eventTick t = .next t) ∧
    (∀ vddio, ∃ t, exec (.supplyUndervoltage vddio) s = .next t ∧ InReset s t ∧ t.sys.suppliesGood = false ∧ t.sys.resetN = s.sys.resetN ∧
      t.sys.snuffCause = (if vddio then 0 else s.sys.snuffCause) ∧ exec .eventTick t = .next t) ∧
    (s.sys.resetN = true → ∀ b : Fin 4, exec (.resetNRelease b) s = .next s) ∧
    (s.sys.resetN = false → ∀ b : Fin 4, ∃ t, exec (.resetNRelease b) s = .next t ∧ (InReset s t ∧ t.sys.resetN = true ∧ t.img.bootSrc = b.val ∧ t.img.boot = .pllWait ∧
        t.sys.snuffCause = s.sys.snuffCause ∧ t.sys.suppliesGood = s.sys.suppliesGood)) ∧
    (s.sys.suppliesGood = true → exec .supplyRestored s = .next s) ∧
    (s.sys.suppliesGood = false → ∃ t, exec .supplyRestored s = .next t ∧ (InReset s t ∧ t.sys.suppliesGood = true ∧ t.img.boot = .pllWait ∧ t.img.bootSrc = s.img.bootSrc ∧
        t.sys.snuffCause = s.sys.snuffCause))
  ) ∧ (
  ∀ s : State,
    (∀ c : ClkSrc, c = .refclk ∨ c = .sysPll ∨ c = .timePll → s.sys.resetN = true → s.sys.suppliesGood = true →
      ∃ t, exec (.clkLost c) s = .next t ∧ ticksRun t = false ∧ t.faultBit .sys 2 = true ∧ bit t.sys.snuffCause 31 = true ∧
        t.pwr.driveEn = false ∧ t.pair.wick = .disarmed ∧ t.sys.tick = s.sys.tick ∧ t.sys.run = s.sys.run) ∧
    (∀ c : ClkSrc, c ∈ s.sys.clockLost → ∃ t, exec (.clockReturn c) s = .next t ∧
      t = { s with sys := t.sys, ptu := { s.ptu with counter := t.ptu.counter }, freeCount := t.freeCount } ∧
      t.sys.tick = s.sys.tick ∧ c ∉ t.sys.clockLost ∧ s.ptu.counter ≤ t.ptu.counter ∧ (c ≠ .sysPll → t.ptu.counter = s.ptu.counter) ∧
      (c = .refclk → s.sys.resetN = true → s.sys.suppliesGood = true → t.sys.aligned = s.sys.aligned ∧
        (ticksRun t = true → ∃ u, exec .eventTick t = .next u ∧ u.sys.aligned = false))) ∧
    (∀ c : ClkSrc, c ∉ s.sys.clockLost → exec (.clockReturn c) s = .next s) ∧
    (∀ m : Master, Reaches m s →
      ∃ t, exec (.snuffCauseClear m) s = .next t ∧ t.resp m = ⟨.ok, []⟩ ∧ t = { s with sys := { s.sys with snuffCause := 0 }, bus := t.bus })
  )

/-- Each boot event completes, and in any other phase than its own changes nothing. PLL_LOCK leaves PLL_WAIT for FUSE while the part is out of reset. The end of FUSE loads the trims and serves reads; with a TRIM_CRC that does not match, TRIM_BAD is 1 and the sense references and the rail gains are untrimmed. The end of SRAM_INIT leaves every byte below DRAM zero and the log cleared, and changes no byte of DRAM; an INIT_MEM that waits for WAIT_BOOT is then taken up. A flash boot in WAIT_BOOT with a good BOOT record at the copy in use starts MEM_INIT; with a bad one the first copy gives way to the second. The end of MEM_INIT after training and with 2, 4, 8, 12 or 16 GiB sets MEM_READY, DRAM_GIB and the event and goes to WAIT_IMAGE, and every byte of DRAM reads zero; a failure of a host boot sets MEM_FAIL and TRAIN_ERR and returns to WAIT_BOOT (R54, R55, R57, R58, R61, R69, R468, R471). -/
def Obligations.BootPhases : Prop :=
  ∀ (s : State),
    (s.img.boot = .pllWait → s.sys.resetN = true → s.sys.suppliesGood = true →
      exec .pllLock s = .next { s with sys := { s.sys with clockLost := [] }, img := { s.img with boot := .fuse } }) ∧
    (s.img.boot ≠ .pllWait ∨ s.sys.resetN = false ∨ s.sys.suppliesGood = false → exec .pllLock s = .next s) ∧
    (s.img.boot ≠ .fuse → exec .fusePhaseEnd s = .next s) ∧
    (s.img.boot = .fuse → ∃ t, exec .fusePhaseEnd s = .next t ∧ t = { s with regs := t.regs, img := t.img } ∧
      (t.img.boot = .sramInit ∧ t.img.fuseRead = true ∧ t.img.fuses = s.img.fuses ∧
        (trimOk s.img.fuses = false → t.img.trimBad = true ∧ (∀ i < 3, t.reg (Blk.lsp.base + 0x28 + 4 * i) = 0) ∧
          ∀ g < 4, t.reg (Blk.pwr.base + 0x104 + 16 * g) = 0 ∧ t.reg (Blk.pwr.base + 0x108 + 16 * g) = 0x400000))) ∧
    (s.img.boot ≠ .sramInit → exec .sramInitEnd s = .next s) ∧
    (s.img.boot = .sramInit → ∃ t, exec .sramInitEnd s = .next t ∧
      (∀ a < dramBase, t.byte a = 0 ∧ (a % 8 = 0 → wordUe t a = false)) ∧ (∀ a, dramBase ≤ a → t.byte a = s.byte a) ∧
      t.sys = { s.sys with log := {} } ∧
      (s.img.initBusy = false → t.img = { s.img with boot := .waitBoot } ∧
        t = { s with mem := t.mem, memUe := t.memUe, poisoned := t.poisoned, cells := t.cells, mxe := t.mxe, sys := t.sys, img := t.img }) ∧
      (s.img.initBusy = true → (t.img.boot = .memInit ∧ t.img.initBusy = true) ∨ (t.img.boot = .waitBoot ∧ t.img.memFail = true ∧ t.img.initBusy = false))) ∧
    (flashActive s = false ∨ s.img.boot ≠ .waitBoot → ∀ dev, exec (.flashBootRecordRead dev) s = .next s) ∧
    (flashActive s = true → s.img.boot = .waitBoot → s.img.flashTry < 2 → ∀ dev, ∃ t, exec (.flashBootRecordRead dev) s = .next t ∧
      (t.flc.dev = dev ∧ t.flc.flash = s.flc.flash ∧
        (∀ r, bootRecord (fun n => flashBytes s.flc 80 n) = some r →
          t.img.boot = .memInit ∧ t.img.initBusy = true ∧ t.img.initRec = r ∧ t.img.memFail = false ∧ t.img.flashTry = 1) ∧
        (bootRecord (fun n => flashBytes s.flc 80 n) = none → s.img.memReady = false →
          t.img.boot = .waitBoot ∧ t.img.flashTry = 2 ∧ t.img.errCode = LoadErr.bootBad.code))) ∧
    (s.img.boot ≠ .memInit → ∀ (e : Fin 7) gib, exec (.memInitEnd e gib) s = .next s) ∧
    (s.img.boot = .memInit → ∀ (e : Fin 7) gib, ∃ t, exec (.memInitEnd e gib) s = .next t ∧
      (e.val = 0 → gib ∈ [2, 4, 8, 12, 16] →
        t.img.boot = .waitImage ∧ t.img.memReady = true ∧ t.img.memFail = false ∧ t.img.dramGib = gib ∧ t.img.bootRec = some s.img.initRec ∧
        t.rbit (Blk.img.base + 0x40) 0 = true ∧ (∀ a, dramBase ≤ a → t.byte a = 0) ∧ ∀ a < dramBase, t.byte a = s.byte a) ∧
      ((e.val ≠ 0 ∨ gib ∉ [2, 4, 8, 12, 16]) → s.img.bootSrc < 2 →
        t.img.boot = .waitBoot ∧ t.img.memFail = true ∧ t.img.memReady = s.img.memReady ∧ t.img.initBusy = false ∧
        t.memc.trainErr = (if e.val = 0 then 6 else e.val) ∧ t.mem = s.mem))

/-- For a master that may write, each command completes with OK. A refused one records its code with record 0 and changes nothing else but IMG.CTRL. LOAD_FULL is refused in the snuffed state (SNUFFED), while IMG is busy (BUSY), and before MEM_READY, with RUN 1, a PHASE other than STOPPED or MAINT 1 (NOT_ADMITTED); LOAD_PARTIAL in the snuffed state, while busy, without a base image or where a load that ended in APPLYING made a full load necessary (NO_BASE), and with ALARM 1, a store that is barred, a migration of a logical cell of its CELLS region, or a START of its port direction in this tick (NOT_ADMITTED); VERIFY while busy and before MEM_READY; INIT_MEM while busy and once MEM_READY is 1. An admitted load or verify is in READING with the job as commanded; an admitted INIT_MEM is in progress before WAIT_BOOT, and from WAIT_BOOT on starts initialisation with a good BOOT record, and records BOOT_BAD and MEM_FAIL otherwise (R58, R69, R74, R79, R81, R173, R324; that it waits before WAIT_BOOT is the model's, log entry 38). For a master that may write, ABORT completes with OK: a load or verify before APPLYING is then being aborted; in APPLYING, and in the tick of a completion, ABORT_MOOT is set; with nothing in progress nothing changes. LOAD_ABORT_END ends an aborted job with ABORTED and LOAD_FAIL: the previous state and image stand, and REJECTED is not set. Codes 6 and 7 record BAD_CMD. A LAT_QUERY by a master that reaches the registers completes, and a read of LAT_RESULT then gives the published entry of the path, or 0 (R75, R79, R85, R88). -/
def Obligations.LoadCommandsAbortAndQueries : Prop :=
  (
  ∀ (s : State) (m : Master) (u : Bool), MayWrite m s →
    let refused (t : State) (e : LoadErr) : Prop := t = { s with regs := t.regs, bus := t.bus, img := { s.img with errCode := e.code, errRecord := 0 } }
    let started (t : State) (p v : Bool) : Prop :=
      t.img.state = .reading ∧ t.img.progress = 0 ∧ t.img.abortMoot = false ∧
      t.img.job = some { partialImg := p, verify := v, allowUnb := u, src := imgSrc s, prev := s.img.state } ∧
      t = { s with regs := t.regs, bus := t.bus, sys := t.sys, img := t.img }
    (∃ t, exec (.loadFull m u) s = .next t ∧ t.resp m = ⟨.ok, []⟩ ∧
      (if s.sys.snuffed then refused t .snuffed else if imgBusy s then refused t .busy
       else if s.img.memReady = false ∨ s.sys.run = true ∨ s.sys.phase ≠ .stopped ∨ s.sys.maint = true then refused t .notAdmitted
       else started t false false)) ∧
    (∃ t, exec (.loadPartial m u) s = .next t ∧ t.resp m = ⟨.ok, []⟩ ∧
      (if s.sys.snuffed then refused t .snuffed else if imgBusy s then refused t .busy
       else if s.img.accepted = false ∨ s.img.needFull = true then refused t .noBase
       else if s.sys.alarm = true ∨ storeBarred s = true ∨ regionMigrates s = true ∨ regionStarts s = true then refused t .notAdmitted
       else started t true false)) ∧
    (∃ t, exec (.verify m u) s = .next t ∧ t.resp m = ⟨.ok, []⟩ ∧
      (if imgBusy s then refused t .busy else if s.img.memReady = false then refused t .notAdmitted else started t false true)) ∧
    (∃ t, exec (.initMem m) s = .next t ∧ t.resp m = ⟨.ok, []⟩ ∧
      (if imgBusy s then refused t .busy else if s.img.memReady = true then refused t .notAdmitted
       else if s.img.boot = .pllWait ∨ s.img.boot = .fuse ∨ s.img.boot = .sramInit then
         t = { s with regs := t.regs, bus := t.bus, img := { s.img with abortMoot := false, initBusy := true } }
       else t.mem = s.mem ∧ t.cells = s.cells ∧ match bootRecord (fun n => s.bytes (imgSrc s) n) with
        | some r => t.img.boot = .memInit ∧ t.img.initBusy = true ∧ t.img.initRec = r ∧ t.img.memFail = false
        | none => t.img.boot = .waitBoot ∧ t.img.memFail = true ∧ t.img.initBusy = false ∧ t.img.errCode = LoadErr.bootBad.code ∧
            t.img.errRecord = 0 ∧ t.img.errPos = 0))
  ) ∧ (
  ∀ (s : State) (m : Master),
    (MayWrite m s →
      (∃ t, exec (.imgAbort m) s = .next t ∧ t.resp m = ⟨.ok, []⟩ ∧ t = { s with regs := t.regs, bus := t.bus, img := t.img } ∧
        (∀ j, s.img.job = some j → s.img.state ≠ .applying → t.img = { s.img with job := some { j with aborting := true } }) ∧
        (s.img.job.isSome = true → s.img.state = .applying → t.img = { s.img with abortMoot := true }) ∧
        (s.img.job = none → s.img.doneAt = some s.sys.tick → t.img = { s.img with abortMoot := true }) ∧
        (s.img.job = none → s.img.doneAt ≠ some s.sys.tick → t.img = s.img)) ∧
      (∀ c, ∃ t, exec (.imgBadCmd m c) s = .next t ∧ t.resp m = ⟨.ok, []⟩ ∧
        t = { s with regs := t.regs, bus := t.bus, img := { s.img with errCode := LoadErr.badCmd.code, errRecord := 0 } })) ∧
    (Reaches m s → ∀ p, ∃ t, exec (.latQuery m p) s = .next t ∧ t.resp m = ⟨.ok, []⟩ ∧ t = { s with regs := t.regs, bus := t.bus } ∧
      (∀ a, a ≠ 0x40010030 → t.reg a = s.reg a) ∧
      (busRead m 0x40010034 t).2 = (match Tab.get (fun _ => none) s.img.latTab p.val with
        | some e => pack [(31, 1), (0, e.total % 2 ^ 31)]
        | none => 0, .ok)) ∧
    ((∀ j, s.img.job = some j → j.aborting = false) → exec .loadAbortEnd s = .next s) ∧
    (∀ j, s.img.job = some j → j.aborting = true → s.img.state ≠ .applying → ∃ t, exec .loadAbortEnd s = .next t ∧
      (t.img.job = none ∧ t.img.state = j.prev ∧ t.img.errCode = LoadErr.aborted.code ∧ t.img.activeId = s.img.activeId ∧ t.mem = s.mem ∧
        t.rbit (Blk.img.base + 0x40) 2 = true ∧ t.faultBit .img 0 = s.faultBit .img 0 ∧ (s.fabric.queue = [] → t.cells = s.cells)))
  )

/-- Each stage event completes, and changes nothing outside its stage or while the job is being aborted. READING: an image that passes the structure checks lies byte for byte in its target (the slot not in use, the journal's tail, or its place for a verify), no other byte changes, and AUTH starts. AUTH goes to CHECKING with the signature's verdict; with SECURE blown a failing signature ends the load. CHECKING: a load whose checks and bounds pass is in APPLYING, or is complete for a partial load in STANDBY, and a verify ends with the state before it. A failing check of an image that does not come from flash ends the load: its code, record and position in IMG.ERR, LOAD_FAIL and REJECTED, the previous state and image kept. The end of a flash copy puts the copy's bytes in slot 0 and starts READING there (R57, R71, R72, R75, R79, R87). -/
def Obligations.LoadStages : Prop :=
  ∀ (s : State),
    let rejected (t : State) (j : LoadJob) (f : Failure) : Prop :=
      t.img.job = none ∧ t.img.state = j.prev ∧ t.img.errCode = f.err.code ∧ t.img.errRecord = f.record ∧ t.img.errPos = f.pos ∧
      t.img.activeId = s.img.activeId ∧ t.faultBit .img 0 = true ∧ t.rbit (Blk.img.base + 0x40) 2 = true ∧ t.mem = s.mem ∧
      (s.fabric.queue = [] → t.cells = s.cells)
    (stageJob .reading s = none → exec .readingEnd s = .next s) ∧
    (∀ j, stageJob .reading s = some j → ∃ t, exec .readingEnd s = .next t ∧
      (
        let part := if j.verify then (headerAt s j.src).kind == 1 else j.partialImg
        let n := (headerAt s j.src).total
        let at_ := if j.verify then j.src else if part then journalTail s else slotBase (if s.img.accepted then 1 - s.img.slot else 0)
        (∀ f, readingCheck s (imgReads s) j.src part = some f → j.flash = false → rejected t j f) ∧
        (readingCheck s (imgReads s) j.src part = none →
          t.img.state = .auth ∧ t.img.job = some { j with partialImg := part, src := at_, len := n } ∧
          (∀ i < n, t.byte (at_ + i) = s.byte (j.src + i)) ∧ (∀ a, a < at_ ∨ at_ + n ≤ a → t.byte a = s.byte a) ∧
          t = { s with mem := t.mem, img := t.img }))) ∧
    (stageJob .auth s = none → exec .authEnd s = .next s) ∧
    (∀ j r, stageJob .auth s = some j → (imageRecords s j.src).getLast? = some r → ∃ t, exec .authEnd s = .next t ∧
      ((authCheck s j.src r = none → t.img.state = .checking ∧ t.img.job = some { j with authentic := true }) ∧
        (∀ e, authCheck s j.src r = some e → s.img.fuses.secure = false → t.img.state = .checking ∧ t.img.job = some { j with authentic := false }) ∧
        (∀ e, authCheck s j.src r = some e → s.img.fuses.secure = true → j.flash = false → rejected t j ⟨e, r.idx, r.off⟩))) ∧
    (stageJob .checking s = none → exec .checkingEnd s = .next s) ∧
    (∀ j, stageJob .checking s = some j → ∃ t, exec .checkingEnd s = .next t ∧
      (
        let x := checkCtx s j.src
        (∀ f, checkingFail x = some f → j.flash = false → rejected t j f) ∧
        (∀ f, checkingFail x = none → (loadBound x j.allowUnb).fail = some f → j.flash = false → rejected t j f) ∧
        (checkingFail x = none → (loadBound x j.allowUnb).fail = none →
          (j.verify = true → t.img.job = none ∧ t.img.state = j.prev ∧ t.img.doneAt = some s.sys.tick ∧ t.rbit (Blk.img.base + 0x40) 1 = true) ∧
          (j.verify = false → (j.partialImg = false ∨ s.sys.standby = false) →
            t.img.state = .applying ∧ t.img.job = some { j with unbounded := (loadBound x j.allowUnb).accepted } ∧
            (t.img.partialJob.isSome = true ↔ j.partialImg = true ∨ s.img.partialJob.isSome = true)) ∧
          (j.verify = false → j.partialImg = true → s.sys.standby = true →
            t.img.state = .ready ∧ t.img.job = none ∧ t.img.journal = s.img.journal ++ [(j.src, j.len)] ∧ t.rbit (Blk.img.base + 0x40) 1 = true)))) ∧
    (flashActive s = false ∨ s.img.boot ≠ .waitImage ∨ s.img.memReady = false ∨ imgBusy s = true ∨ s.sys.snuffed = true →
      exec .flashImageCopyEnd s = .next s) ∧
    (flashActive s = true → s.img.boot = .waitImage → s.img.memReady = true → imgBusy s = false → s.sys.snuffed = false →
      ∃ t, exec .flashImageCopyEnd s = .next t ∧
      (
        let a := flashCopy s
        let n := min slotSize (leNat (flashBytes s.flc (a + 40) 4))
        (∀ i < n, t.byte (slotBase 0 + i) = flashByte s.flc (a + i)) ∧ (∀ b, b < slotBase 0 ∨ slotBase 0 + n ≤ b → t.byte b = s.byte b) ∧
        t.img.state = .reading ∧ t.img.boot = .loader ∧ t.img.job = some { partialImg := false, verify := false, allowUnb := false, src := slotBase 0, prev := s.img.state, flash := true } ∧
        imgSrc t = slotBase 0))

/-- LOAD_ACCEPT of a full image at the end of APPLYING completes: the image is the active one in the slot it lies in, STATE is READY, the journal is empty, FS is the image's, the boot has ended, REMAP is 1, and LOAD_DONE is posted; in any other case it changes nothing. A CELLS load writes programs and state when its ramp-out has ended and waits for the next frame boundary; there its cells restart and their returns ramp in for 4,096 ticks; a partial load whose region's application has ended is complete: STATE is READY and its place and length are appended to the journal. Before their conditions hold, the events change nothing (R59, R77, R81, R82). -/
def Obligations.AcceptanceAndPartialLoads : Prop :=
  ∀ (s : State),
    (s.img.partialJob.isSome = true ∨ stageJob .applying s = none → exec .loadAccept s = .next s) ∧
    (∀ j, s.img.partialJob = none → stageJob .applying s = some j → j.partialImg = false → ∃ t, exec .loadAccept s = .next t ∧
      (t.img.needFull = false ∧ t.img.state = .ready ∧ t.img.job = none ∧ t.img.accepted = true ∧ t.img.boot = .done ∧ t.img.journal = [] ∧
        t.img.activeId = (headerAt s j.src).id ∧ t.img.slot = (if j.src = slotBase 1 then 1 else 0) ∧ t.img.activeLen = j.len ∧
        t.bmx.remap = true ∧ t.sys.fs48 = ((headerAt s j.src).fs == 1) ∧ t.rbit (Blk.img.base + 0x40) 1 = true)) ∧
    (∀ p, s.img.partialJob = some p → p.kind = 1 → p.phase = .rampOut → p.due ≤ s.sys.tick → ∃ t, exec .partialCellsHalt s = .next t ∧
      (t.img = { s.img with partialJob := some { p with phase := .waitB2, due := s.sys.tick + 1 } } ∧ t.mem = s.mem)) ∧
    ((∀ p, s.img.partialJob = some p → p.kind ≠ 1 ∨ p.phase ≠ .rampOut ∨ s.sys.tick < p.due) → exec .partialCellsHalt s = .next s) ∧
    (∀ p, s.img.partialJob = some p → p.kind = 1 → p.phase = .waitB2 → p.due ≤ s.sys.tick → s.atFrame = true →
      ∃ t, exec .partialCellsRestart s = .next t ∧
      (t.img = { s.img with partialJob := some { p with phase := .rampIn, due := s.sys.tick + 4096 } } ∧
        t = { s with cells := t.cells, fabric := { s.fabric with ramps := t.fabric.ramps }, img := t.img } ∧
        ∀ l < 64, nbit p.sel l = true → Tab.get (fun _ => none) t.fabric.ramps l = some ⟨s.frame, true⟩)) ∧
    ((∀ p, s.img.partialJob = some p → p.kind ≠ 1 ∨ p.phase ≠ .waitB2 ∨ s.sys.tick < p.due ∨ s.atFrame = false) →
      exec .partialCellsRestart s = .next s) ∧
    (∀ p j, s.img.partialJob = some p → s.img.job = some j → partialOver s p = true → ∃ t, exec .partialLoadDone s = .next t ∧
      (t.img.state = .ready ∧ t.img.job = none ∧ t.img.partialJob = none ∧ t.img.journal = s.img.journal ++ [(j.src, j.len)] ∧
        t.img.doneAt = some s.sys.tick ∧ t.rbit (Blk.img.base + 0x40) 1 = true)) ∧
    ((∀ p, s.img.partialJob = some p → partialOver s p = false) → exec .partialLoadDone s = .next s)

/-- For a bus master that reaches the registers, each completes and changes nothing but the controller, the answer, and the free values drawn. XFER: with EN 0 and the controller IDLE nothing happens; a controller that is not IDLE records BUSY (7); WLEN = RLEN = 0 records BAD_XFER (10); a set BUS_STUCK bit records BUS_STUCK (6); otherwise the controller is BUSY with the address, WLEN and RLEN of the write and no NAK or loss counted. Outside a transfer a FIFO write appends 4 bytes, bits [7:0] first, and bytes past 64 find no room; a FIFO read returns the oldest 4 received bytes, 0 for those not there, and takes them out. CFG is written only while the controller is IDLE, and answers ACCESS_ERR otherwise (R479, R480, R489). For a bus master that reaches the registers, a write of CTRL completes; no memory byte, no other controller and no other block changes, and no register but CTRL and TWC's EVT. Enabling a controller that was disabled and IDLE starts the bus recovery. Disabling an enabled one stops a transfer (STOPPING) and ends a recovery (IDLE). FORCE together with EN 0 ends a stopping transfer at once with ABORTED (8) and DONE, where SCL is not held; otherwise it does what the write of EN does and posts FORCE_MOOT (R414, R483, R484). -/
def Obligations.TwoWireTransferFifoAndEnable : Prop :=
  (
  ∀ (s : State) (m : Master) (k : Fin 2) (v : Word), Reaches m s →
    (∀ resp, ∃ t, exec (.xfer m k v resp) s = .next t ∧ t.resp m = ⟨.ok, []⟩ ∧
      t = { s with twc := t.twc, bus := t.bus, freeCount := t.freeCount } ∧ (∀ j, j ≠ k.val → t.tw j = s.tw j) ∧
      (twEn s k = false → (s.tw k).st = .idle → t.tw k = s.tw k) ∧
      ((s.tw k).st ≠ .idle → t.tw k = { s.tw k with result := 7 }) ∧
      (twEn s k = true → (s.tw k).st = .idle → bits v 8 8 = 0 → bits v 16 8 = 0 → t.tw k = { s.tw k with result := 10 }) ∧
      (twEn s k = true → (s.tw k).st = .idle → (bits v 8 8 ≠ 0 ∨ bits v 16 8 ≠ 0) → s.faultBit .twc (4 * k + 3) = true →
        t.tw k = { s.tw k with result := 6 }) ∧
      (twEn s k = true → (s.tw k).st = .idle → (bits v 8 8 ≠ 0 ∨ bits v 16 8 ≠ 0) → s.faultBit .twc (4 * k + 3) = false →
        (t.tw k).st = .busy ∧ (t.tw k).taddr = bits v 0 7 ∧ (t.tw k).wlen = bits v 8 8 ∧ (t.tw k).rlen = bits v 16 8 ∧
        (t.tw k).naks = 0 ∧ (t.tw k).losses = 0 ∧ (t.tw k).lost = false ∧ (t.tw k).result = (s.tw k).result)) ∧
    (∃ t, exec (.twcFifoWrite m k v) s = .next t ∧ t.resp m = ⟨.ok, []⟩ ∧ t = { s with twc := t.twc, bus := t.bus } ∧
      (∀ j, j ≠ k.val → t.tw j = s.tw j) ∧
      ((s.tw k).st ≠ .busy → t.tw k = { s.tw k with tx := ((s.tw k).tx ++ leBytes 4 v.toNat).take 64 })) ∧
    (∃ t, exec (.twcFifoRead m k) s = .next t ∧ t.resp m = ⟨.ok, [wd (leNat ((s.tw k).rx.take 4))]⟩ ∧ t = { s with twc := t.twc, bus := t.bus } ∧
      (∀ j, j ≠ k.val → t.tw j = s.tw j) ∧
      ((s.tw k).st ≠ .busy → t.tw k = { s.tw k with rx := (s.tw k).rx.drop 4 })) ∧
    (∃ t, exec (.twcCfgWrite m k v) s = .next t ∧ t = { s with regs := t.regs, bus := t.bus } ∧ (∀ a, a ≠ twReg k 4 → t.reg a = s.reg a) ∧
      ((s.tw k).st = .idle → t.resp m = ⟨.ok, []⟩ ∧ t.reg (twReg k 4) = v &&& 0x0FFF7703) ∧
      ((s.tw k).st ≠ .idle → t.resp m = ⟨.accessErr, []⟩ ∧ t.regs = s.regs))
  ) ∧ (
  ∀ (s : State) (m : Master) (k : Fin 2), Reaches m s →
    (∀ c ∈ [Instr.twcEnable m k, .twcDisable m k, .twcForce m k], ∃ t, exec c s = .next t ∧ t.resp m = ⟨.ok, []⟩ ∧
      t = { s with regs := t.regs, twc := t.twc, bus := t.bus } ∧ (∀ j, j ≠ k.val → t.tw j = s.tw j) ∧
      (∀ a, a ≠ twReg k 0 → a ≠ Blk.twc.base + 0x40 → t.reg a = s.reg a)) ∧
    (∃ t, exec (.twcEnable m k) s = .next t ∧ twEn t k = true ∧
      (twEn s k = false → (s.tw k).st = .idle → t.tw k = { s.tw k with st := .recovering }) ∧ (twEn s k = true → t.tw k = s.tw k)) ∧
    (∃ t, exec (.twcDisable m k) s = .next t ∧ twEn t k = false ∧
      (twEn s k = true → (s.tw k).st = .busy → t.tw k = { s.tw k with st := .stopping }) ∧
      (twEn s k = true → (s.tw k).st = .recovering → t.tw k = { s.tw k with st := .idle }) ∧
      ((twEn s k = false ∨ (s.tw k).st = .idle ∨ (s.tw k).st = .stopping) → t.tw k = s.tw k)) ∧
    (∃ t, exec (.twcForce m k) s = .next t ∧ twEn t k = false ∧
      ((s.tw k).st = .stopping → (s.tw k).sclHeld = false →
        (t.tw k).st = .idle ∧ (t.tw k).result = 8 ∧ (t.tw k).tx = [] ∧ (t.tw k).rx = (s.tw k).rx ∧ t.rbit (Blk.twc.base + 0x40) k.val = true) ∧
      (((s.tw k).st ≠ .stopping ∨ (s.tw k).sclHeld = true) → t.rbit (Blk.twc.base + 0x40) (2 + k.val) = true) ∧
      (twEn s k = true → (s.tw k).st = .busy → t.tw k = { s.tw k with st := .stopping }))
  )

/-- Each of the eight events completes and changes nothing but its controller, the registers and SYS (a detection is logged there). TRANSFER_END ends a busy transfer whose bytes have all moved with OK (1), one whose write byte was not acknowledged with DATA_NAK (3), and a stopping one with ABORTED (8). An address NAK is retried while fewer than NAK_RETRY were counted, and then ends with ADDR_NAK (2). A lost arbitration is recorded with its place and detected; after the wait it starts again, or ends with ARB_FAIL (4) once 8 were lost. SCL held low ends the transfer with SCL_STUCK (5), and the controller stays STOPPING until the line is released. A stalled FIFO ends it with FIFO_STALL (9). A recovery counts, leaves the controller IDLE, and detects BUS_STUCK where SDA is still low. An event whose condition does not hold changes nothing (R478 to R483). -/
def Obligations.TwoWireEvents : Prop :=
  ∀ (s : State) (k : Fin 2),
    let kept (t : State) : Prop := t = { s with regs := t.regs, sys := t.sys, twc := t.twc } ∧ ∀ j, j ≠ k.val → t.tw j = s.tw j
    ((s.tw k).st = .busy → (s.tw k).out.length = (s.tw k).wlen → (s.tw k).got = (s.tw k).rlen →
      ∃ t, exec (.twcTransferEnd k .ok) s = .next t ∧ kept t ∧
        (t.tw k).st = .idle ∧ (t.tw k).result = 1 ∧ (t.tw k).rx = (s.tw k).rx ∧ t.rbit (Blk.twc.base + 0x40) k.val = true) ∧
    (∀ n, (s.tw k).st = .busy → n < (s.tw k).out.length →
      ∃ t, exec (.twcTransferEnd k (.dataNak n)) s = .next t ∧ kept t ∧
        (t.tw k).st = .idle ∧ (t.tw k).result = 3 ∧ t.rbit (Blk.twc.base + 0x40) k.val = true) ∧
    ((s.tw k).st = .stopping → (s.tw k).sclHeld = false → ∀ o, ∃ t, exec (.twcTransferEnd k o) s = .next t ∧ kept t ∧
      (t.tw k).st = .idle ∧ (t.tw k).result = 8) ∧
    ((s.tw k).st = .idle ∨ (s.tw k).st = .recovering → ∀ o, exec (.twcTransferEnd k o) s = .next s) ∧
    ((s.tw k).st = .busy → (s.tw k).lost = false → ∃ t, exec (.nakRetry k) s = .next t ∧ kept t ∧
      ((s.tw k).naks < s.fld (twReg k 4) 24 4 → t.tw k = { s.tw k with naks := (s.tw k).naks + 1 }) ∧
      (s.fld (twReg k 4) 24 4 ≤ (s.tw k).naks → (t.tw k).st = .idle ∧ (t.tw k).result = 2)) ∧
    ((s.tw k).st ≠ .busy → exec (.nakRetry k) s = .next s) ∧
    ((s.tw k).st = .busy → (s.tw k).lost = false → ∀ (byte : Fin 256) (bit : Fin 8), ∃ t, exec (.arbLost k byte bit) s = .next t ∧ kept t ∧
      t.tw k = { s.tw k with lost := true, losses := (s.tw k).losses + 1, arbByte := byte.val, arbBit := bit.val } ∧ t.faultBit .twc (4 * k) = true) ∧
    ((s.tw k).st ≠ .busy ∨ (s.tw k).lost = true → ∀ (byte : Fin 256) (bit : Fin 8), exec (.arbLost k byte bit) s = .next s) ∧
    ((s.tw k).lost = true → ∃ t, exec (.arbRetry k) s = .next t ∧ kept t ∧ t.sys = s.sys ∧
      ((s.tw k).st = .stopping → (t.tw k).st = .idle ∧ (t.tw k).result = 8) ∧
      ((s.tw k).st ≠ .stopping → 8 ≤ (s.tw k).losses → (t.tw k).st = .idle ∧ (t.tw k).result = 4) ∧
      ((s.tw k).st ≠ .stopping → (s.tw k).losses < 8 → (t.tw k).lost = false ∧ (t.tw k).st = (s.tw k).st)) ∧
    ((s.tw k).lost = false → exec (.arbRetry k) s = .next s) ∧
    ((s.tw k).st = .busy ∨ (s.tw k).st = .stopping → (s.tw k).sclHeld = false → ∃ t, exec (.sclStuck k) s = .next t ∧ kept t ∧
      (t.tw k).st = .stopping ∧ (t.tw k).sclHeld = true ∧ (t.tw k).result = 5 ∧ t.faultBit .twc (4 * k + 2) = true) ∧
    ((s.tw k).st = .idle ∨ (s.tw k).st = .recovering ∨ (s.tw k).sclHeld = true → exec (.sclStuck k) s = .next s) ∧
    ((s.tw k).sclHeld = true → ∃ t, exec (.twSclRelease k) s = .next t ∧ t = { s with twc := t.twc } ∧ (∀ j, j ≠ k.val → t.tw j = s.tw j) ∧
      t.tw k = { s.tw k with sclHeld := false, st := .idle }) ∧
    ((s.tw k).sclHeld = false → exec (.twSclRelease k) s = .next s) ∧
    ((s.tw k).st = .busy → (s.tw k).lost = false → (s.tw k).out.length < (s.tw k).wlen → (s.tw k).tx = [] →
      ∃ t, exec (.fifoStall k) s = .next t ∧ kept t ∧ t.sys = s.sys ∧ (t.tw k).st = .idle ∧ (t.tw k).result = 9) ∧
    ((s.tw k).st ≠ .busy → exec (.fifoStall k) s = .next s) ∧
    ((s.tw k).st = .recovering → ∀ ok, ∃ t, exec (.stuckBusRecovery k ok) s = .next t ∧ kept t ∧
      t.tw k = { s.tw k with st := .idle, recov := ((s.tw k).recov + 1) % 2 ^ 32 } ∧ (ok = false → t.faultBit .twc (4 * k + 3) = true)) ∧
    ((s.tw k).st = .busy ∨ (s.tw k).st = .stopping → ∀ ok, exec (.stuckBusRecovery k ok) s = .next s)

/-- READ, PROGRAM, ERASE_4K, ERASE_64K, READ_SFDP and READ_ID, by a bus master that reaches the registers, complete and change nothing but FLC, the answer and the free values drawn. FLC that is not IDLE, or a boot that has not ended, records BUSY (2); with EN 0 nothing happens; an argument R486 does not admit records BAD_ARG (3); a PROGRAM or an ERASE with WR_EN 0 records PROTECTED (4); a refused command moves no byte. Otherwise FLC is BUSY with the command, and an erase leaves every byte of its block 0xFF and every other byte of the device as it was. Only PROGRAM and the erases change a byte of the device (R414, R486). COMMAND_END: a stopping command ends with ABORTED (6), a busy erase or a busy command that has moved all its bytes with OK (1), both with DONE; in any other state nothing changes. FLASH_TIMEOUT detects DEV_FAIL and ends a busy PROGRAM or ERASE with FAILED (5). For a bus master that may write, clearing EN stops a busy command, and FORCE with EN 0 ends a stopping one at once with ABORTED, and posts FORCE_MOOT otherwise. For one that reaches the registers, a FIFO read returns the oldest 4 bytes, 0 for those not there; with FLC IDLE a read takes out those 4 bytes and a write appends its 4 bytes up to 256 (R414, R485, R486). -/
def Obligations.FlashCommandsAndPort : Prop :=
  (
  ∀ (s : State) (m : Master), Reaches m s →
    ∀ p ∈ [(Instr.flashRead m, 1), (.program m, 2), (.erase4K m, 3), (.erase64K m, 4), (.readSfdp m, 5), (.readId m, 6)],
      let a := s.fld (Blk.flc.base + 8) 0 28
      let l := s.fld (Blk.flc.base + 0xC) 0 28
      ∃ t, exec p.1 s = .next t ∧ t.resp m = ⟨.ok, []⟩ ∧ t = { s with flc := t.flc, bus := t.bus, freeCount := t.freeCount } ∧
        (p.2 ≠ 2 → p.2 ≠ 3 → p.2 ≠ 4 → ∀ b, flashByte t.flc b = flashByte s.flc b) ∧
        (s.flc.st ≠ .idle ∨ s.img.boot ≠ .done → t.flc = { s.flc with result := 2 }) ∧
        (s.flc.st = .idle → s.img.boot = .done → flcEn s = false → t.flc = s.flc) ∧
        (s.flc.st = .idle → s.img.boot = .done → flcEn s = true → flcArgsOk p.2 a l = false → t.flc = { s.flc with result := 3 }) ∧
        (s.flc.st = .idle → s.img.boot = .done → flcEn s = true → flcArgsOk p.2 a l = true → 2 ≤ p.2 → p.2 ≤ 4 →
          s.rbit Blk.flc.base 2 = false → t.flc = { s.flc with result := 4 }) ∧
        (s.flc.st = .idle → s.img.boot = .done → flcEn s = true → flcArgsOk p.2 a l = true →
          (p.2 = 1 ∨ 5 ≤ p.2 ∨ s.rbit Blk.flc.base 2 = true) →
          t.flc.st = .busy ∧ t.flc.cmd = p.2 ∧ t.flc.addr = a ∧ t.flc.len = l ∧
          (p.2 = 3 ∨ p.2 = 4 → ∀ b, flashByte t.flc b = if a ≤ b ∧ b < a + eraseSize p.2 then 0xFF else flashByte s.flc b))
  ) ∧ (
  ∀ (s : State),
    (s.flc.st = .stopping ∨ (s.flc.st = .busy ∧ (s.flc.cmd = 3 ∨ s.flc.cmd = 4 ∨ s.flc.len ≤ s.flc.done)) →
      ∃ t, exec .flcCommandEnd s = .next t ∧ t = { s with regs := t.regs, flc := t.flc } ∧
        t.flc = { s.flc with st := .idle, result := if s.flc.st = .stopping then 6 else 1 } ∧ t.rbit (Blk.flc.base + 0x40) 0 = true) ∧
    (s.flc.st = .idle ∨ (s.flc.st = .busy ∧ s.flc.cmd ≠ 3 ∧ s.flc.cmd ≠ 4 ∧ s.flc.done < s.flc.len) → exec .flcCommandEnd s = .next s) ∧
    (s.flc.st = .busy → 2 ≤ s.flc.cmd → s.flc.cmd ≤ 4 → ∃ t, exec .flashTimeout s = .next t ∧
      t = { s with regs := t.regs, sys := t.sys, flc := t.flc } ∧ t.flc = { s.flc with st := .idle, result := 5 } ∧ t.faultBit .flc 0 = true) ∧
    (s.flc.st ≠ .busy → exec .flashTimeout s = .next s) ∧
    (∀ m, MayWrite m s →
      (∃ t, exec (.flcDisable m) s = .next t ∧ t.resp m = ⟨.ok, []⟩ ∧ t = { s with regs := t.regs, flc := t.flc, bus := t.bus } ∧ flcEn t = false ∧
        t.rbit Blk.flc.base 2 = s.rbit Blk.flc.base 2 ∧
        t.flc = { s.flc with st := if flcEn s = true ∧ s.flc.st = .busy then .stopping else s.flc.st }) ∧
      (∃ t, exec (.flcForce m) s = .next t ∧ t.resp m = ⟨.ok, []⟩ ∧ t = { s with regs := t.regs, flc := t.flc, bus := t.bus } ∧ flcEn t = false ∧
        (s.flc.st = .stopping → t.flc = { s.flc with st := .idle, result := 6 }) ∧
        (s.flc.st ≠ .stopping → t.rbit (Blk.flc.base + 0x40) 1 = true ∧
          t.flc = { s.flc with st := if flcEn s = true ∧ s.flc.st = .busy then .stopping else s.flc.st }))) ∧
    (∀ m, Reaches m s →
      (∃ t, exec (.flcFifoAccess m none) s = .next t ∧ t.resp m = ⟨.ok, [wd (leNat (s.flc.fifo.take 4))]⟩ ∧
        t = { s with flc := t.flc, bus := t.bus, freeCount := t.freeCount } ∧ (s.flc.st = .idle → t.flc = { s.flc with fifo := s.flc.fifo.drop 4 })) ∧
      (∀ v, ∃ t, exec (.flcFifoAccess m (some v)) s = .next t ∧ t.resp m = ⟨.ok, []⟩ ∧
        t = { s with flc := t.flc, bus := t.bus, freeCount := t.freeCount } ∧
        (s.flc.st = .idle → t.flc = { s.flc with fifo := (s.flc.fifo ++ leBytes 4 v.toNat).take 256 })))
  )

/-- A read or write that reaches DRAM or the carafe, and whose words hold no uncorrectable error, completes with OK: a read returns the bytes memory holds, little-endian by words, and changes no byte; a write stores its bytes, and every byte outside them keeps its value. Corrected errors on the way are counted and change no byte. Past DRAM's data capacity the access ends with DECODE_ERR and changes nothing, and a carafe write past the GENERAL granules with ACCESS_ERR; a read of a word with an uncorrectable error ends with ACCESS_ERR and DRAM_UE or CARAFE_UE is detected, a narrower write of one writes nothing to it. In every case no byte outside the access changes (R30, R254, R470 to R472, R477). -/
def Obligations.MemoryTransactions : Prop :=
  ∀ (s : State) (m : Master) (a : Nat) (ce : List Nat),
    (∀ n, pathErr m .dram s = none → dramBase ≤ a →
      ∃ t, exec (.dramAccess m (.read a n) ce []) s = .next t ∧ t.mem = s.mem ∧
        (a + n ≤ dramBase + dramCap s → (∀ w ∈ wordsOf a n, wordUe s w = false) → t.resp m = ⟨.ok, wordsLe n (s.bytes a n)⟩) ∧
        (dramBase + dramCap s < a + n → (t.resp m).code = .decodeErr) ∧
        (a + n ≤ dramBase + dramCap s → (∃ w ∈ wordsOf a n, wordUe s w = true) → (t.resp m).code = .accessErr ∧ t.faultBit .memc 0 = true)) ∧
    (∀ l, pathErr m .dram s = none → dramBase ≤ a →
      ∃ t, exec (.dramAccess m (.write a l) ce []) s = .next t ∧ (∀ b, b < a ∨ a + l.length ≤ b → t.byte b = s.byte b) ∧
        (a + l.length ≤ dramBase + dramCap s → (∀ w ∈ wordsOf a l.length, wordUe s w = false) →
          t.resp m = ⟨.ok, []⟩ ∧ ∀ j (h : j < l.length), t.byte (a + j) = l[j]) ∧
        (dramBase + dramCap s < a + l.length → t.resp m = ⟨.decodeErr, []⟩ ∧ t.mem = s.mem)) ∧
    (∀ n, pathErr m .carafe s = none → carafeBase ≤ a →
      ∃ t, exec (.carafeAccess m (.read a n) ce []) s = .next t ∧ t.mem = s.mem ∧
        (a + n ≤ logEnd → (∀ w ∈ wordsOf a n, wordUe s w = false) → t.resp m = ⟨.ok, wordsLe n (s.bytes a n)⟩) ∧
        (logEnd < a + n → a + n ≤ carafeEnd → (t.resp m).code = .accessErr)) ∧
    (∀ l, pathErr m .carafe s = none → carafeBase ≤ a →
      ∃ t, exec (.carafeAccess m (.write a l) ce []) s = .next t ∧ (∀ b, b < a ∨ a + l.length ≤ b → t.byte b = s.byte b) ∧
        (a + l.length ≤ generalEnd s → (∀ w ∈ wordsOf a l.length, wordUe s w = false) →
          t.resp m = ⟨.ok, []⟩ ∧ ∀ j (h : j < l.length), t.byte (a + j) = l[j]) ∧
        (generalEnd s < a + l.length → a + l.length ≤ carafeEnd → t.resp m = ⟨.accessErr, []⟩ ∧ t.mem = s.mem))

/-- Each completes. INIT_DONE after MEM_READY sets INIT_DONE and posts its event. A scrub of DRAM before INIT_DONE changes nothing; a scrub changes no byte; one that finds an uncorrectable word not known yet records it and detects DRAM_UE or CARAFE_UE. A die that first reports above 85 °C detects DRAM_HOT, and one that is still hot does not detect it again. Retraining changes nothing that software sees. A DRAM transaction that is not served ends with TIMEOUT and detects MEM_TIMEOUT. CFG, TIM0 to TIM3 and PHY0 are written before MEM_READY and answer ACCESS_ERR after it; no other state changes (R471 to R474, R487). -/
def Obligations.MemoryController : Prop :=
  ∀ (s : State),
    (s.img.memReady = true → s.memc.initDone = false → ∃ t, exec .dramInitDone s = .next t ∧ t = { s with regs := t.regs, memc := t.memc } ∧
      t.memc = { s.memc with initDone := true } ∧ t.rbit (Blk.memc.base + 0x40) 0 = true) ∧
    (s.img.memReady = false ∨ s.memc.initDone = true → exec .dramInitDone s = .next s) ∧
    (s.memc.initDone = false → ∀ ce ue, exec (.dramScrub ce ue) s = .next s) ∧
    (s.memc.initDone = true → ∀ ce ue, ∃ t, exec (.dramScrub ce ue) s = .next t ∧ t.mem = s.mem ∧
      (∀ w ∈ ue, w % 8 = 0 → dramBase ≤ w → w < dramBase + dramCap s → wordUe s w = false →
        wordUe t w = true ∧ t.faultBit .memc 0 = true)) ∧
    (∀ ce ue, ∃ t, exec (.carafeScrub ce ue) s = .next t ∧ t.mem = s.mem ∧
      (∀ w ∈ ue, w % 8 = 0 → carafeBase ≤ w → w < carafeEnd → wordUe s w = false → wordUe t w = true ∧ t.faultBit .memc 1 = true)) ∧
    (∀ hot, ∃ t, exec (.mr4Poll hot) s = .next t ∧ t = { s with regs := t.regs, sys := t.sys, memc := { s.memc with hot := hot } } ∧
      (hot = true → s.memc.hot = false → t.faultBit .memc 6 = true) ∧ (hot = false ∨ s.memc.hot = true → t.regs = s.regs ∧ t.sys = s.sys)) ∧
    exec .dqsRetrain s = .next s ∧
    (∀ m a, dramBase ≤ a → ∃ t, exec (.dramTimeout m a) s = .next t ∧ t = { s with regs := t.regs, sys := t.sys, bus := t.bus } ∧
      t.resp m = ⟨.timeout, [0]⟩ ∧ t.faultBit .memc 2 = true) ∧
    (∀ m v (off : Fin 65536), Reaches m s → (off.val = 8 ∨ (0x100 ≤ off.val ∧ off.val ≤ 0x110)) →
      ∃ t, exec (.memcConfigWrite m off v) s = .next t ∧ t = { s with regs := t.regs, bus := t.bus } ∧
        (∀ b, b ≠ Blk.memc.base + off.val → t.reg b = s.reg b) ∧
        (s.img.memReady = true → t.resp m = ⟨.accessErr, []⟩ ∧ t.regs = s.regs) ∧
        (s.img.memReady = false → t.resp m = ⟨.ok, []⟩ ∧
          t.reg (Blk.memc.base + off.val) = v &&& (match findRow rowsMemc off.val with | some r => wd r.wmask | none => 0)))

/-- FAULT_DETECTION completes for every block, source and detail. A source that exists has its FAULT_STATUS bit set afterwards, whatever local action its block takes, but for a FRAME_ERR of a host port in the tick of its reset, which is void (R25); what is no source changes nothing. No memory byte and no fuse changes. CNT_MISMATCH and DRIVE_MISMATCH, two such detections, set PTU's bit 0 and PWR's bit 7 and leave the chip snuffed with DRIVE_EN low (R268, R343, R399, R408; which details a detection carries is the model's, log entry 16). -/
def Obligations.FaultDetectionSetsItsBit : Prop :=
  ∀ (s : State),
    (∀ (b : Blk) (i : Fin 32) (d : Nat), faultValid b i = false → exec (.faultDetection b i d) s = .next s) ∧
    (∀ (b : Blk) (i : Fin 32) (d : Nat), faultValid b i = true → ∃ t, exec (.faultDetection b i d) s = .next t ∧
      (¬(b = .hp ∧ i.val = 1 ∧ (s.port (if d % 2 = 0 then .a else .b)).resetAt = some s.sys.tick) → t.faultBit b i = true) ∧ t.mem = s.mem ∧ t.img.fuses = s.img.fuses) ∧
    (∃ t, exec .cntMismatch s = .next t ∧ t.faultBit .ptu 0 = true ∧ t.sys.snuffed = true) ∧
    (∃ t, exec .driveMismatch s = .next t ∧ t.faultBit .pwr 7 = true ∧ t.sys.snuffed = true ∧ (s.sys.snuffed = false → t.pwr.driveEn = false))

/-- FAULT_CLEAR of an existing block by a master that reaches the registers completes with OK: a bit it names that was not detected in this tick is 0, every other bit of that FAULT_STATUS keeps its value. LOG_ENTRY_STORE, with an entry in the queue and the system clock running, stores the entry's 16 bytes at NEXT, counts it in OVW where the place held data, and changes no other byte; with none it changes nothing. LOG_CLEAR by a master that reaches the registers leaves no stored entry and OVW and LOST 0, and keeps the queue and the sequence number (R400, R405 to R407). INT_ASSERT completes and changes nothing but the pin's own state. While the ticks run: with nothing pending toward the host the pin is released; a pin that is asserted and has a request stays so; a released pin with a request asserts where it never asserted, or M = ceil(MIN_US × 64 × FS / 10^6) ticks have passed since its last assertion began, and that tick is recorded; a request that has to wait counts once in COAL_CNT (R402 to R404). -/
def Obligations.FaultClearLogAndInterruptPin : Prop :=
  (
  ∀ (s : State) (m : Master),
    (Reaches m s → ∀ (b : Blk) (v : Word), blkValid b = true → ∃ t, exec (.faultClear m b v) s = .next t ∧ t.resp m = ⟨.ok, []⟩ ∧ t.mem = s.mem ∧
      ∀ i < 32, (bit v i = true → s.sys.detected.contains (b.base, i) = false → t.faultBit b i = false) ∧
        (bit v i = false ∨ s.sys.detected.contains (b.base, i) = true → t.faultBit b i = s.faultBit b i)) ∧
    (sysClockLost s = true ∨ s.sys.log.queue = [] → exec .logEntryStore s = .next s) ∧
    (∀ e q, sysClockLost s = false → s.sys.log.queue = e :: q → ∃ t, exec .logEntryStore s = .next t ∧
      (
        let a := logBase + 16 * (if s.sys.log.stored < 1024 then s.sys.log.stored else 1024 + (s.sys.log.stored - 1024) % 3072)
        t = { s with mem := t.mem, memUe := t.memUe, poisoned := t.poisoned, sys := t.sys } ∧
        t.bytes a 16 = e.bytes ∧ (∀ b, b < a ∨ a + 16 ≤ b → t.byte b = s.byte b) ∧
        t.sys = { s.sys with log := { s.sys.log with queue := q, stored := s.sys.log.stored + 1, ovw := t.sys.log.ovw } } ∧
        t.sys.log.ovw = (if 4096 ≤ s.sys.log.stored then satInc (2 ^ 32 - 1) s.sys.log.ovw else s.sys.log.ovw))) ∧
    (Reaches m s → ∃ t, exec (.logClear m) s = .next t ∧ t.resp m = ⟨.ok, []⟩ ∧
      t = { s with bus := t.bus, sys := { s.sys with log := { s.sys.log with stored := 0, ovw := 0, lost := 0 } } })
  ) ∧ (
  ∀ (s : State) (h : HostId), ∃ t, exec (.intAssert h) s = .next t ∧ t = { s with sys := { s.sys with intA := t.sys.intA, intB := t.sys.intB } } ∧
    (∀ k, k ≠ h → t.pin k = s.pin k) ∧
    (ticksRun s = false → t = s) ∧
    (ticksRun s = true → pendWord s h = 0 → t.pin h = { s.pin h with asserted := false, waiting := false }) ∧
    (ticksRun s = true → pendWord s h ≠ 0 → (s.pin h).asserted = true → t = s) ∧
    (ticksRun s = true → pendWord s h ≠ 0 → (s.pin h).asserted = false →
      let M := ceilDiv (s.fld (0x40000230 + 4 * h.idx) 0 16 * 64 * s.fs) 1000000
      ((s.pin h).last = none → t.pin h = { s.pin h with asserted := true, last := some s.sys.tick, waiting := false }) ∧
      (∀ l, (s.pin h).last = some l → l + M ≤ s.sys.tick → t.pin h = { s.pin h with asserted := true, last := some s.sys.tick, waiting := false }) ∧
      (∀ l, (s.pin h).last = some l → s.sys.tick < l + M → (s.pin h).waiting = false →
        t.pin h = { s.pin h with waiting := true, coalCnt := ((s.pin h).coalCnt + 1) % 65536 }) ∧
      (∀ l, (s.pin h).last = some l → s.sys.tick < l + M → (s.pin h).waiting = true → t = s))
  )

/-- REGISTER_WRITE completes. A write of an RWS register by a host that does not hold G, or by DMA, STE, DLY or CHK where they have a path, answers RWS_DENIED and changes nothing else. A write that reaches a register whose write has no effect of its own answers OK, and the register takes the value in its writable bits (RW and RWS), loses the bits written as 1 (W1C) or gains them (W1S); no other register and no other state changes. A write before the end of FUSE by a host answers NOT_READY and changes nothing (R4, R5, R56, R435, R436). -/
def Obligations.RegisterWriteRights : Prop :=
  ∀ (s : State) (m : Master) (addr : Nat) (v : Word) (b : Blk) (off : Nat) (r : RegRow),
    busTarget addr = some .regs → regWindow addr = some (b, off) → findRow (blkRows b) off = some r →
    (Reaches m s → r.acc = .rws → rwsOk m s = false →
      ∃ t, exec (.registerWrite m addr v) s = .next t ∧ t.resp m = ⟨.rwsDenied, []⟩ ∧ t = { s with bus := t.bus }) ∧
    (rwsOk m s = (match m with
      | .hpa => (s.sem 0).owner == some .a
      | .hpb => (s.sem 0).owner == some .b
      | .seq | .img | .pair => true
      | .dma | .ste | .dly | .chk => false)) ∧
    (Reaches m s → (r.acc ≠ .rws ∨ rwsOk m s = true) → blkLiveWrite m b off v s = none →
      ∃ t, exec (.registerWrite m addr v) s = .next t ∧ t.resp m = ⟨.ok, []⟩ ∧ t = { s with bus := t.bus, regs := t.regs } ∧
        (∀ a, a ≠ b.base + off → t.reg a = s.reg a) ∧
        (r.acc = .rw ∨ r.acc = .rws → t.reg (b.base + off) = v &&& wd r.wmask) ∧
        (r.acc = .w1c → t.reg (b.base + off) = s.reg (b.base + off) &&& ~~~(v &&& wd r.wmask)) ∧
        (r.acc = .w1s → t.reg (b.base + off) = s.reg (b.base + off) ||| (v &&& wd r.wmask)) ∧
        (r.acc = .ro ∨ r.acc = .wo → t.regs = s.regs)) ∧
    (m.host?.isSome = true → s.img.fuseRead = false →
      ∃ t, exec (.registerWrite m addr v) s = .next t ∧ t.resp m = ⟨.notReady, []⟩ ∧ t = { s with bus := t.bus })

/-- WRITE and READ frames complete. A frame R422 rejects (an address of 2^36 or more or not a multiple of 4, a length of 0 or over 256) makes no access, answers FRAME_ERR, detects FRAME_ERR and counts in FRAMES and ERRS. Any other frame accesses its words at ascending addresses as the single accesses do, one after another, and ends with OK or the code of the first access that failed, whose address ERR_ADDR then shows; FRAMES counts it, ERRS where it failed, LAST holds its status, and a pending port reset is disarmed. A failed word of a READ reads 0. In the tick of the port's reset a frame has no status and counts nowhere (R25, R421 to R424). -/
def Obligations.HostFrames : Prop :=
  ∀ (s : State) (h : HostId) (addr : Nat),
    let bad (n : Nat) : Prop := 2 ^ 36 ≤ addr ∨ addr % 4 ≠ 0 ∨ n = 0 ∨ 256 < n
    let counted (p q : HPort) (c : Code) : Prop :=
      q.frames = (p.frames + 1) % 2 ^ 32 ∧ q.errs = (if c = .ok then p.errs else (p.errs + 1) % 2 ^ 32) ∧ q.last % 16 = c.num ∧ q.resetArmed = false
    (∀ ws, ∃ t, exec (.write h addr ws) s = .next t ∧
      (portVoid s h = true → bad ws.length → t = s) ∧
      (portVoid s h = false → bad ws.length → counted (s.port h) (t.port h) .frameErr ∧ (t.resp h.master).code = .frameErr ∧ t.faultBit .hp 1 = true ∧ (t.port h).errAddr = (s.port h).errAddr ∧
        t = { s with regs := t.regs, sys := t.sys, bus := t.bus, hpa := t.hpa, hpb := t.hpb }) ∧
      (¬ bad ws.length → t.resp h.master = ⟨((busWrites h.master addr ws s).2.map (·.2)).getD .ok, []⟩ ∧
        (portVoid (busWrites h.master addr ws s).1 h = false →
          counted ((busWrites h.master addr ws s).1.port h) (t.port h) (t.resp h.master).code ∧
          (t.port h).errAddr = ((busWrites h.master addr ws s).2.map (·.1)).getD (((busWrites h.master addr ws s).1.port h).errAddr)) ∧
        t = { (busWrites h.master addr ws s).1 with bus := t.bus, hpa := t.hpa, hpb := t.hpb })) ∧
    (∀ n, ∃ t, exec (.read h addr n) s = .next t ∧
      (portVoid s h = true → bad n → t = s) ∧
      (portVoid s h = false → bad n → counted (s.port h) (t.port h) .frameErr ∧ (t.resp h.master).code = .frameErr ∧ t.faultBit .hp 1 = true ∧ (t.port h).errAddr = (s.port h).errAddr ∧
        t = { s with regs := t.regs, sys := t.sys, bus := t.bus, hpa := t.hpa, hpb := t.hpb }) ∧
      (¬ bad n → (portVoid (busReads h.master addr n s).1 h = false →
          counted ((busReads h.master addr n s).1.port h) (t.port h) (t.resp h.master).code) ∧ t.resp h.master = ⟨((busReads h.master addr n s).2.2.map (·.2)).getD .ok, (busReads h.master addr n s).2.1⟩ ∧
        (t.resp h.master).words.length = n ∧ t = { (busReads h.master addr n s).1 with bus := t.bus, hpa := t.hpa, hpb := t.hpb }))

/-- The frames of a command byte alone complete with OK, count in FRAMES, and change nothing but their port and the answer: ENTER_QUAD and EXIT_QUAD set the framing, RESET_ENABLE arms a port reset, and every other frame disarms it. PORT_RESET right after RESET_ENABLE is accepted; otherwise it answers FRAME_ERR, which is detected, and nothing else happens. The accepted reset leaves the port at 1-1-1, frees every semaphore the host holds and no other, clears the host's copies of registers, and posts the port's event; what else the tick brings to the port is void. CS_N that rises while the host sends makes no access and detects FRAME_ERR; after the host's last byte the accesses run as the whole frame would (R25, R421, R426 to R428). -/
def Obligations.PortFramingAndReset : Prop :=
  ∀ (s : State) (h : HostId),
    let k := h.master
    (portVoid s h = true → ∀ c ∈ [Instr.enterQuad h, .exitQuad h, .resetEnable h, .portReset h, .csNEarlyRise h .sending], exec c s = .next s) ∧
    (portVoid s h = false → ∀ q, ∃ t, exec (if q then .enterQuad h else .exitQuad h) s = .next t ∧ t.resp k = ⟨.ok, []⟩ ∧
      t = { s with bus := t.bus, hpa := t.hpa, hpb := t.hpb } ∧
      t.port h = { s.port h with quad := q, resetArmed := false, last := (t.port h).last, frames := ((s.port h).frames + 1) % 2 ^ 32 } ∧
      ∀ o, o ≠ h → t.port o = s.port o) ∧
    (portVoid s h = false → ∃ t, exec (.resetEnable h) s = .next t ∧ t.resp k = ⟨.ok, []⟩ ∧ t = { s with bus := t.bus, hpa := t.hpa, hpb := t.hpb } ∧
      t.port h = { s.port h with resetArmed := true, last := (t.port h).last, frames := ((s.port h).frames + 1) % 2 ^ 32 } ∧
      ∀ o, o ≠ h → t.port o = s.port o) ∧
    (portVoid s h = false → ∃ t, exec (.portReset h) s = .next t ∧ (∀ o, o ≠ h → t.port o = s.port o) ∧ (t.port h).resetArmed = false ∧
      t = { s with bus := t.bus, regs := t.regs, sys := t.sys, hpa := t.hpa, hpb := t.hpb } ∧
      ((s.port h).resetArmed = true → t.resp k = ⟨.ok, []⟩ ∧ (t.port h).resetDue = true ∧ t.regs = s.regs) ∧
      ((s.port h).resetArmed = false → t.resp k = ⟨.frameErr, []⟩ ∧ (t.port h).resetDue = (s.port h).resetDue ∧ t.faultBit .hp 1 = true)) ∧
    ((s.port h).resetDue = false → exec (.portResetApply h) s = .next s) ∧
    ((s.port h).resetDue = true → ∃ t, exec (.portResetApply h) s = .next t ∧ t.mem = s.mem ∧ (∀ o, o ≠ h → t.port o = s.port o) ∧
      (t.port h = { s.port h with quad := false, resetDue := false, resetAt := some s.sys.tick } ∧ portVoid t h = true ∧ t.rbit (Blk.hp.base + 0x40) h.idx = true ∧
        (∀ i < 64, (t.sem i).owner = if (s.sem i).owner = some h then none else (s.sem i).owner) ∧
        (∀ c, (Tab.get (fun _ => ({} : RecCap)) t.ldg.caps k.idx) = {} ∧ ((t.cell c).memHi = (s.cell c).memHi.filter fun e => e.1 != k.idx)) ∧
        (∀ j, j ≠ k.idx → Tab.get (fun _ => ({} : EditRegs)) t.mxe.edits j = Tab.get (fun _ => {}) s.mxe.edits j) ∧
        Tab.get (fun _ => ({} : EditRegs)) t.mxe.edits k.idx = {})) ∧
    (portVoid s h = false → ∃ t, exec (.csNEarlyRise h .sending) s = .next t ∧ t = { s with regs := t.regs, sys := t.sys, hpa := t.hpa, hpb := t.hpb } ∧
      t.faultBit .hp 1 = true ∧ t.port h = { s.port h with resetArmed := false, errs := ((s.port h).errs + 1) % 2 ^ 32 }) ∧
    (∀ a ws, ∃ t u, exec (.csNEarlyRise h (.afterWrite a ws)) s = .next t ∧ exec (.write h a ws) s = .next u ∧ t = { u with bus := t.bus }) ∧
    (∀ a n, ∃ t u, exec (.csNEarlyRise h (.afterRead a n)) s = .next t ∧ exec (.read h a n) s = .next u ∧ t = { u with bus := t.bus })

/-- For a master that reaches the registers each read completes. TICK_LO returns bits [31:0] of the tick number, and the master's TICK_HI holds bits [63:32]; CNT_LO does the same with the counter. WAIT_MAX, once a host can have waited, returns a value the spec leaves open (how long a transaction waits is timing) and is 0 after the read; before the end of FUSE it is 0. POOL_LOW returns the least free count and starts again from the count now. No other master's capture changes. BUS_TIMEOUT ends the access with TIMEOUT and a word of 0, and MEMC detects it where the target is DRAM (R33, R258, R268, R417, R444). -/
def Obligations.CapturesAndTimeouts : Prop :=
  ∀ (s : State) (m : Master),
    (Reaches m s →
      (∃ t, exec (.tickLoRead m) s = .next t ∧ t.resp m = ⟨.ok, [wd s.sys.tick]⟩ ∧ t = { s with bus := t.bus, sys := { s.sys with tickHi := t.sys.tickHi } } ∧
        ∀ k, Tab.get (fun _ => 0) t.sys.tickHi k = if k = m.idx then wd (s.sys.tick / 2 ^ 32) else Tab.get (fun _ => 0) s.sys.tickHi k) ∧
      (∃ t, exec (.ptuCntRead m) s = .next t ∧ t.resp m = ⟨.ok, [wd s.ptu.counter]⟩ ∧ t = { s with bus := t.bus, ptu := { s.ptu with cntHi := t.ptu.cntHi } } ∧
        ∀ k, Tab.get (fun _ => 0) t.ptu.cntHi k = if k = m.idx then wd (s.ptu.counter / 2 ^ 32) else Tab.get (fun _ => 0) s.ptu.cntHi k) ∧
      (∀ i : Fin 6, s.img.fuseRead = false → ∃ t, exec (.waitMaxRead m i) s = .next t ∧ t.resp m = ⟨.ok, [0]⟩ ∧ t = { s with bus := t.bus }) ∧
      (∀ i : Fin 6, s.img.fuseRead = true → ∃ t w, exec (.waitMaxRead m i) s = .next t ∧ t.resp m = ⟨.ok, [w]⟩ ∧
        t = { s with bus := t.bus, freeCount := s.freeCount + 1, bmx := { s.bmx with waitMax := t.bmx.waitMax } } ∧
        ∀ k, Tab.get (fun _ => 0) t.bmx.waitMax k = if k = i.val then 0 else Tab.get (fun _ => 0) s.bmx.waitMax k) ∧
      (∃ t, exec (.poolLowRead m) s = .next t ∧ t.resp m = ⟨.ok, [wd s.ste.poolLow]⟩ ∧
        t = { s with bus := t.bus, ste := { s.ste with poolLow := s.ste.shFree } })) ∧
    (∀ a, ∃ t, exec (.busTimeout m a) s = .next t ∧ t.resp m = ⟨.timeout, [0]⟩ ∧ t.mem = s.mem ∧ t.cells = s.cells ∧
      (busTarget a = some .dram → t.faultBit .memc 2 = true) ∧
      (m = .hpa → portVoid s .a = false → t.hpa.errAddr = a ∧ t.hpa.last % 16 = Code.timeout.num))

/-- CELL_BLOCK_START completes and changes no memory byte. Where a block is due and the cell's memories hold no error, its schedule runs: the front input bank is what the back bank held, the role is kept, and no other cell changes but the shadow that a migration copies it to. Where none is due, a halted cell with a running schedule stops it at a block boundary, with its return banks 0, and in every other case nothing changes (R130, R139 to R141, R150; that a block's instructions run whole in the tick it starts is the model's, log entry 4). -/
def Obligations.CellBlock : Prop :=
  ∀ (s : State) (p : Fin 72),
    (blockDue s p = true → ∃ t, exec (.cellBlockStart p) s = .next t ∧ t.mem = s.mem) ∧
    (blockDue s p = true → (s.cell p).dataEcc = [] → (s.cell p).progEcc = [] → ∃ t, exec (.cellBlockStart p) s = .next t ∧
      (t.cell p).sched = true ∧ (t.cell p).ranLast = true ∧ (t.cell p).inFront = (s.cell p).inBack ∧ (t.cell p).role = (s.cell p).role ∧
      (t.cell p).prog = (s.cell p).prog ∧ (t.cell p).cyclesLast ≤ (t.cell p).cyclesMax ∧
      ∀ q, q ≠ p.val → (∀ g, s.fabric.mig = some g → q ≠ g.spare) → t.cell q = s.cell q) ∧
    (blockDue s p = false → (s.atFrame = false ∨ (s.cell p).halt = false ∨ s.frame % (s.cell p).blockN ≠ 0) →
      exec (.cellBlockStart p) s = .next s) ∧
    (blockDue s p = false → s.atFrame = true → (s.cell p).halt = true → s.frame % (s.cell p).blockN = 0 → (s.cell p).sched = true →
      ∃ t, exec (.cellBlockStart p) s = .next t ∧ t.mem = s.mem ∧ (t.cell p).sched = false ∧ (t.cell p).retFront = [] ∧ (t.cell p).retBack = [] ∧ (t.cell p).data = (s.cell p).data ∧
      ∀ q, q ≠ p.val → t.cell q = s.cell q)

/-- For a master with a path to the cell memories each access completes. A read of a correct data word returns bits [31:0] and captures bits [39:32] in the master's MEM_HI; a write stores the 40 bits, with MEM_HI above, in that word and in no other of the cell, and is refused with ACCESS_ERR on a FENCED cell. Bits [63:32] of an instruction are staged, and the write of bits [31:0] then stores all 64 in that word and in no other; both are refused with ACCESS_ERR on a FENCED cell and while the schedule runs, where they change nothing. A read of bits [31:0] of a correct program word captures bits [63:32] (R144 to R146). -/
def Obligations.CellMemoryWindows : Prop :=
  ∀ (s : State) (m : Master) (p : Fin 72), pathErr m .cellMem s = none →
    let c := s.cell p
    let hi (t : Tab Nat) : Nat := Tab.get (fun _ => 0) t m.idx
    (∀ w : Fin 16384, ∃ t, exec (.cellDataRead m p w) s = .next t ∧
      (c.dataState w = .good → t.resp m = ⟨.ok, [wd (c.word w)]⟩ ∧ hi (t.cell p).memHi = c.word w / 2 ^ 32 ∧
        t = { s with bus := t.bus, cells := t.cells } ∧ t.cell p = { c with memHi := (t.cell p).memHi } ∧ ∀ q, q ≠ p.val → t.cell q = s.cell q) ∧
      (c.dataState w = .ue → t.resp m = ⟨.accessErr, [0]⟩ ∧ t.faultBit (.cell p) 3 = true)) ∧
    (∀ (w : Fin 16384) v, ∃ t, exec (.cellDataWrite m p w v) s = .next t ∧ t = { s with bus := t.bus, cells := t.cells } ∧
      (c.role = .fenced → t.resp m = ⟨.accessErr, []⟩ ∧ t.cells = s.cells) ∧
      (c.role ≠ .fenced → s.fabric.mig = none → t.resp m = ⟨.ok, []⟩ ∧ (t.cell p).word w = (hi c.memHi * 2 ^ 32 + v.toNat) % 2 ^ 40 ∧
        (∀ k : Fin 16384, k ≠ w → (t.cell p).word k = c.word k) ∧ (∀ k, (t.cell p).ins k = c.ins k) ∧ ∀ q, q ≠ p.val → t.cell q = s.cell q)) ∧
    (∀ (i : Fin 4096) v, ∃ t, exec (.cellInstrHiWrite m p i v) s = .next t ∧ t = { s with bus := t.bus, cells := t.cells } ∧
      (c.role = .fenced ∨ c.sched = true → t.resp m = ⟨.accessErr, []⟩ ∧ t.cells = s.cells) ∧
      (c.role ≠ .fenced → c.sched = false → t.resp m = ⟨.ok, []⟩ ∧ t.cell p = { c with stagedHi := (t.cell p).stagedHi } ∧
        Tab.get (fun _ => 0) (t.cell p).stagedHi m.idx = v ∧ ∀ q, q ≠ p.val → t.cell q = s.cell q)) ∧
    (∀ (i : Fin 4096) v, ∃ t, exec (.cellInstrLoWrite m p i v) s = .next t ∧ t = { s with bus := t.bus, cells := t.cells } ∧
      (c.role = .fenced ∨ c.sched = true → t.resp m = ⟨.accessErr, []⟩ ∧ t.cells = s.cells) ∧
      (c.role ≠ .fenced → c.sched = false → t.resp m = ⟨.ok, []⟩ ∧
        (t.cell p).ins i = (Tab.get (fun _ => (0 : Word)) c.stagedHi m.idx).toNat * 2 ^ 32 + v.toNat ∧
        (∀ k : Fin 4096, k ≠ i → (t.cell p).ins k = c.ins k) ∧ (∀ w, (t.cell p).word w = c.word w) ∧ ∀ q, q ≠ p.val → t.cell q = s.cell q)) ∧
    (∀ i : Fin 4096, ∃ t, exec (.cellInstrLoRead m p i) s = .next t ∧
      (c.progState i = .good → t.resp m = ⟨.ok, [wd (c.ins i)]⟩ ∧ Tab.get (fun _ => 0) (t.cell p).readHi m.idx = wd (c.ins i / 2 ^ 32) ∧
        t = { s with bus := t.bus, cells := t.cells } ∧ ∀ q, q ≠ p.val → t.cell q = s.cell q) ∧
      (c.progState i = .ue → t.resp m = ⟨.accessErr, [0]⟩ ∧ t.faultBit (.cell p) 4 = true))

/-- Each completes with OK where its write is admitted. A HALT set of a cell that is not halted, with ALARM 1, RUN 0 or a role other than ACTIVE, is refused with EVT.REQ_REFUSED and changes no cell; otherwise HALT is 1, and a clear makes it 0. RETIRE is refused in the same cases, without a spare, and under a partial load; the first request starts a migration onto the first spare in order. FENCE_CLR makes a FENCED cell TEST and has no effect on another. A generator write waits while a schedule runs and takes effect at once otherwise, a pointer modulo the buffer length. Accumulators, LFSRs and error-feedback registers are written only while no schedule runs, and answer ACCESS_ERR otherwise. A scrub of a correct data word, and while no schedule runs of a correct program word, only moves the scrubber on (R122, R128, R138, R139, R149, R150, R170). -/
def Obligations.CellControl : Prop :=
  ∀ (s : State) (m : Master) (p : Fin 72),
    let c := s.cell p
    let barred : Prop := s.sys.alarm = true ∨ s.sys.run = false ∨ c.role ≠ .active
    (MayWrite m s →
      (∃ t, exec (.halt m p true) s = .next t ∧ t.resp m = ⟨.ok, []⟩ ∧ t = { s with bus := t.bus, regs := t.regs, sys := t.sys, cells := t.cells } ∧
        (c.halt = false → barred → t.rbit ((Blk.cell p).base + 0x40) 4 = true ∧ t.cells = s.cells) ∧
        (c.halt = false → ¬ barred → t.cell p = { c with halt := true } ∧ t.sys.maint = true) ∧ (c.halt = true → t = { s with bus := t.bus })) ∧
      (∃ t, exec (.halt m p false) s = .next t ∧ t.resp m = ⟨.ok, []⟩ ∧ t = { s with bus := t.bus, regs := t.regs, sys := t.sys, cells := t.cells } ∧
        t.cell p = { c with halt := false } ∧ ∀ q, q ≠ p.val → t.cell q = s.cell q) ∧
      (∃ t, exec (.retire m p) s = .next t ∧ t.resp m = ⟨.ok, []⟩ ∧ t.mem = s.mem ∧
        (barred ∨ takeSpare s = none ∨ underPartial s p = true → t.rbit ((Blk.cell p).base + 0x40) 4 = true ∧ t.cells = s.cells ∧ t.fabric = s.fabric) ∧
        (∀ q, ¬ barred → takeSpare s = some q → underPartial s p = false → restoring s p = false → s.fabric.mig = none → s.fabric.queue = [] →
          t.fabric = { s.fabric with mig := some ⟨p, q, .loading, false, 0⟩ } ∧ (t.cell q).role = .shadow ∧ (t.cell q).logical = c.logical ∧
          (t.cell p).mig.phase = .loading ∧ (t.cell p).role = .active)) ∧
      (∃ t, exec (.fenceClr m p) s = .next t ∧ t.resp m = ⟨.ok, []⟩ ∧ t = { s with bus := t.bus, regs := t.regs, sys := t.sys, cells := t.cells } ∧
        (c.role = .fenced → t.cell p = { c with role := .test, configured := false, logical := none }) ∧ (c.role ≠ .fenced → t = { s with bus := t.bus }))) ∧
    (Reaches m s → ∀ (g : Fin 4) (r : Fin 7) (v : Word), ∃ t, exec (.agRegisterWrite m p g r v) s = .next t ∧ t.resp m = ⟨.ok, []⟩ ∧
      t = { s with bus := t.bus, regs := t.regs, cells := t.cells } ∧ (∀ q, q ≠ p.val → t.cell q = s.cell q) ∧
      let x := v.toNat % 16384
      let a := (t.cell p).ag g
      (c.sched = true → a.base = (c.ag g).base ∧ a.len = (c.ag g).len ∧ a.p = (c.ag g).p ∧
        (r.val = 0 → a.pendBase = some x) ∧ (r.val = 1 → a.pendLen = some x) ∧ (r.val = 6 → a.pendStep = some x)) ∧
      (c.sched = false → a.pendBase = none ∧ a.pendLen = none ∧ a.pendStep = none ∧ a.pendP = [] ∧
        (r.val = 0 → a.base = x) ∧ (r.val = 1 → a.len = x) ∧ (r.val = 6 → a.step = x) ∧ (2 ≤ r.val → r.val ≤ 5 → a.ptr (r.val - 2) = x % (a.len + 1)))) ∧
    (Reaches m s → ∀ (r : CellReg) (v : Word), ∃ t, exec (.cellStateRegWrite m p r v) s = .next t ∧ t = { s with bus := t.bus, cells := t.cells } ∧
      (∀ q, q ≠ p.val → t.cell q = s.cell q) ∧
      (c.sched = true → t.resp m = ⟨.accessErr, []⟩ ∧ t.cells = s.cells) ∧
      (c.sched = false → t.resp m = ⟨.ok, []⟩ ∧ (t.cell p).data = c.data ∧
        (r = .lfsrA → (t.cell p) = { c with lfsrA := v.toNat }) ∧ (r = .lfsrB → (t.cell p) = { c with lfsrB := v.toNat }) ∧
        (∀ k, r = .efb k → Tab.get (fun _ => 0) (t.cell p).efb k.val = v.toNat % 2 ^ 29) ∧
        (∀ k, r = .accLo k → uInt 56 ((t.cell p).acc k).val = uInt 56 (c.acc k).val / 2 ^ 32 * 2 ^ 32 + v.toNat ∧ ((t.cell p).acc k).ext = (c.acc k).ext) ∧
        (∀ k, r = .accHi k → uInt 56 ((t.cell p).acc k).val = v.toNat % 2 ^ 24 * 2 ^ 32 + uInt 56 (c.acc k).val % 2 ^ 32 ∧
          ((t.cell p).acc k).ext = bit v 31))) ∧
    (c.dataState c.dataScrub = .good → ∃ t, exec (.cellScrub p .data) s = .next t ∧ t.mem = s.mem ∧
      (t.cell p = { c with
        dataScrub := (c.dataScrub + 1) % 16384, dataPass := if (c.dataScrub + 1) % 16384 = 0 then (c.dataPass + 1) % 65536 else c.dataPass } ∧
        ∀ q, q ≠ p.val → t.cell q = s.cell q)) ∧
    (c.sched = false → c.progState c.progScrub = .good → ∃ t, exec (.cellScrub p .prog) s = .next t ∧ t.mem = s.mem ∧
      (t.cell p = { c with
        progScrub := (c.progScrub + 1) % 4096, progPass := if (c.progScrub + 1) % 4096 = 0 then (c.progPass + 1) % 65536 else c.progPass } ∧
        ∀ q, q ≠ p.val → t.cell q = s.cell q))

/-- MEM_UE and PROG_UE complete: the source's bit is set and the cell is FENCED. With RUN 1 and no migration in progress, an ACTIVE cell that carries logical cell l is followed by the first cell in spare order: it is ACTIVE, carries l, and is being restored. No memory byte changes. The premise on a running migration is an invariant of the part, StepKeepsInvariants below (R120, R127, R147, R172). -/
def Obligations.CellHardFaults : Prop :=
  ∀ (s : State) (p : Fin 72), s.migApart →
    ∀ e ∈ [(Instr.memUe p, 3), (.progUe p, 4)], ∃ t, exec e.1 s = .next t ∧ t.mem = s.mem ∧
      t.faultBit (.cell p) e.2 = true ∧ (t.cell p).role = .fenced ∧ t.sys.degraded = true ∧
      (∀ l q, s.sys.run = true → (s.cell p).role = .active → (s.cell p).logical = some l → physOf s l = some p.val → s.fabric.mig = none →
        takeSpare s = some q → physOf t l = some q ∧ (t.cell q).role = .active ∧ (t.cell q).logical = some l)

/-- Each step completes, and out of its phase or before its boundary changes nothing. Loaded: the spare holds the logical cell's program. From the next block boundary of the source it is COPYING; when every word is copied the spare's data are the source's, corrected words are counted, and an uncorrectable one is MEM_UE of the source, which is FENCED; at the next block boundary the rest of the state set moves, and both cells are in SHADOW from that tick bs on. At bs + 4,096 × 64 the spare is ACTIVE and carries the logical cell, and the source is FENCED (R169 to R171). Each step completes, and out of its phase, before its boundary or on a cell of another role changes nothing. RESTORE_LOADED gives a restoring cell that is not configured the logical cell's program and the state of the latest checkpoint, or of CELL_STATE where none exists. RESTORE_CELL_START, at a block boundary of N frames, starts the ramp of its returns from the frame N later; a promoted shadow becomes ACTIVE there and ramps from that boundary. RESTORE_RAMP_END, at the tick 4,096 after that frame, ends the migration with DONE, or PROMOTED for a promoted shadow (R127, R129, R172, R173). -/
def Obligations.CellMigrations : Prop :=
  (
  ∀ (s : State), s.migApart →
    ((∀ g, s.fabric.mig = some g → g.phase ≠ .loading) → exec .migrationLoaded s = .next s) ∧
    (∀ g, s.fabric.mig = some g → g.phase = .loading → ∃ t, exec .migrationLoaded s = .next t ∧
      (t = { s with cells := t.cells } ∧ (t.cell g.spare).configured = true ∧
        (t.cell g.spare).prog = (loadProgram s ((s.cell g.spare).logical.getD 0) (s.cell g.spare)).prog ∧ ∀ q, q ≠ g.spare → t.cell q = s.cell q)) ∧
    ((∀ g, s.fabric.mig = some g → g.phase ≠ .loading ∨ (s.cell g.spare).configured = false ∨ atBlock s g.src = false) →
      exec .migrationCopyStart s = .next s) ∧
    (∀ g, s.fabric.mig = some g → g.phase = .loading → (s.cell g.spare).configured = true → atBlock s g.src = true →
      ∃ t, exec .migrationCopyStart s = .next t ∧
      (t.fabric = { s.fabric with mig := some { g with phase := .copying, bs := 0 } } ∧ (t.cell g.src).mig.phase = .copying ∧ (t.cell g.spare).mig.phase = .copying)) ∧
    ((∀ g, s.fabric.mig = some g → g.phase ≠ .copying ∨ g.bs = 1) → exec .migrationCopyEnd s = .next s) ∧
    (∀ g, s.fabric.mig = some g → g.phase = .copying → g.bs ≠ 1 → (∀ x ∈ (s.cell g.src).dataEcc, x.2 ≠ .ue) →
      ∃ t, exec .migrationCopyEnd s = .next t ∧ (t.cell g.spare).data = (s.cell g.src).data ∧ (t.cell g.spare).dataEcc = [] ∧
        t.fabric = { s.fabric with mig := some { g with bs := 1 } } ∧
        t.cell g.src = { s.cell g.src with ceRun := (s.cell g.src).ceRun + ((s.cell g.src).dataEcc.filter fun x => x.2 == .ce).length } ∧
        ∀ q, q ≠ g.spare → q ≠ g.src → t.cell q = s.cell q) ∧
    (∀ g, s.fabric.mig = some g → g.phase = .copying → g.bs ≠ 1 → (∃ x ∈ (s.cell g.src).dataEcc, x.2 = .ue) →
      ∃ t, exec .migrationCopyEnd s = .next t ∧ t.mem = s.mem ∧ t.faultBit (.cell g.src) 3 = true ∧ (t.cell g.src).role = .fenced) ∧
    ((∀ g, s.fabric.mig = some g → g.phase ≠ .copying ∨ g.bs ≠ 1 ∨ atBlock s g.src = false) → exec .migrationShadowStart s = .next s) ∧
    (∀ g, s.fabric.mig = some g → g.phase = .copying → g.bs = 1 → atBlock s g.src = true → ∃ t, exec .migrationShadowStart s = .next t ∧
      (
        let a := s.cell g.src
        let b := t.cell g.spare
        t.fabric = { s.fabric with mig := some { g with phase := .shadow, bs := s.sys.tick } } ∧ b.mig.phase = .shadow ∧
        b.data = a.data ∧ b.ags = a.ags ∧ b.accs = a.accs ∧ b.efb = a.efb ∧ b.lfsrA = a.lfsrA ∧ b.lfsrB = a.lfsrB ∧
        b.retFront = a.retFront ∧ b.retBack = a.retBack ∧ b.inFront = a.inFront ∧ b.inBack = a.inBack)) ∧
    ((∀ g, s.fabric.mig = some g → g.phase ≠ .shadow ∨ s.sys.tick ≠ g.bs + 4096 * 64) → exec .migrationSwitch s = .next s) ∧
    (∀ g l, s.fabric.mig = some g → g.phase = .shadow → s.sys.tick = g.bs + 4096 * 64 → (s.cell g.src).logical = some l →
      ∃ t, exec .migrationSwitch s = .next t ∧
      (physOf t l = some g.spare ∧ (t.cell g.spare).role = .active ∧ (t.cell g.src).role = .fenced ∧
        t.rbit ((Blk.cell g.src).base + 0x24) 0 = true ∧ t.mem = s.mem))
  ) ∧ (
  ∀ (s : State) (p : Fin 72),
    let c := s.cell p
    let l := c.logical.getD 0
    ((c.role ≠ .active ∧ c.role ≠ .idle) ∨ c.mig.phase ≠ .restoring ∨ c.configured = true → exec (.restoreLoaded p) s = .next s) ∧
    (c.role = .active → c.mig.phase = .restoring → c.configured = false → ∃ t, exec (.restoreLoaded p) s = .next t ∧
      (t = { s with cells := t.cells } ∧
        t.cell p = { loadLatest s l (loadProgram s l c) with configured := true } ∧ ∀ q, q ≠ p.val → t.cell q = s.cell q)) ∧
    ((c.role ≠ .active ∧ c.role ≠ .idle ∧ c.role ≠ .shadow) ∨ c.mig.phase ≠ .restoring ∨ c.configured = false ∨ atBlock s p = false →
      exec (.restoreCellStart p) s = .next s) ∧
    (c.role = .active ∨ c.role = .shadow → c.mig.phase = .restoring → c.configured = true → atBlock s p = true →
      ∃ t, exec (.restoreCellStart p) s = .next t ∧
      (t = { s with cells := t.cells, fabric := { s.fabric with ramps := t.fabric.ramps } } ∧ (t.cell p).mig.phase = .rampIn ∧ (t.cell p).role = .active ∧
        ∀ k, Tab.get (fun _ => none) t.fabric.ramps k =
          if k = l then some ⟨s.frame + (if c.role = .shadow then 0 else c.blockN), true⟩ else Tab.get (fun _ => none) s.fabric.ramps k)) ∧
    ((∀ r, Tab.get (fun _ => none) s.fabric.ramps l = some r → (c.role ≠ .active ∧ c.role ≠ .idle) ∨ c.mig.phase ≠ .rampIn ∨ s.sys.tick ≠ 64 * r.start + 4096) →
      exec (.restoreRampEnd p) s = .next s) ∧
    (∀ r, Tab.get (fun _ => none) s.fabric.ramps l = some r → c.role = .active → c.mig.phase = .rampIn → s.sys.tick = 64 * r.start + 4096 → c.mig.partner ≠ some p.val →
      ∃ t, exec (.restoreRampEnd p) s = .next t ∧
      ((s.fabric.queue = [] → (t.cell p).mig.phase = .none ∧ (t.cell p).mig.result = (if c.mig.result = .promoted then .promoted else .done)) ∧
        Tab.get (fun _ => none) t.fabric.ramps l = none ∧ t.mem = s.mem))
  )

/-- For a master that reaches the registers, a write of REC_SEL captures the closed record of its slot and a read of WIN_LO returns bits [31:0] of the last window and captures bits [63:32]; each changes that master's capture alone. BOUND_CHECK_DONE of a pending safe-load completes: a duplicate {SRC, DST} in the inactive bank ends it with DUPLICATE; a failing path without the unbounded option ends it with BOUND, which is detected, and the result registers name the first failing path and its H; otherwise the swap is due, and the paths it accepts are counted from the swap on. With no check in progress nothing changes (R33, R106, R108, R109, R113, R191). -/
def Obligations.LedgerAndBoundCheck : Prop :=
  ∀ (s : State),
    (∀ m, Reaches m s →
      (∀ j : Fin 4096, ∃ t, exec (.ldgRecSel m j) s = .next t ∧ t.resp m = ⟨.ok, []⟩ ∧ t = { s with bus := t.bus, ldg := { s.ldg with caps := t.ldg.caps } } ∧
        ∀ k, Tab.get (fun _ => ({} : RecCap)) t.ldg.caps k =
          if k = m.idx then { (Tab.get (fun _ => ({} : Closed)) s.ldg.closed j.val).words with sel := wd j.val } else Tab.get (fun _ => {}) s.ldg.caps k) ∧
      (∃ t, exec (.ldgWinLoRead m) s = .next t ∧ t.resp m = ⟨.ok, [wd s.ldg.lastWin]⟩ ∧ t = { s with bus := t.bus, ldg := { s.ldg with winHi := t.ldg.winHi } } ∧
        ∀ k, Tab.get (fun _ => 0) t.ldg.winHi k = if k = m.idx then wd (s.ldg.lastWin / 2 ^ 32) else Tab.get (fun _ => 0) s.ldg.winHi k)) ∧
    (s.mxe.swapPending = false ∨ s.mxe.checking = false → exec .boundCheckDone s = .next s) ∧
    (s.mxe.swapPending = true → s.mxe.checking = true → ∃ t, exec .boundCheckDone s = .next t ∧
      t = { s with regs := t.regs, sys := t.sys, mxe := t.mxe, ldg := t.ldg } ∧
      (
        let bank := s.mxe.bank s.mxe.inactive
        let fails := boundFails s.img.boundTab (matrixStages s.mxe.bounds bank ++ currentCellStages s)
        t.mxe.checking = false ∧ t.ldg.busy = (s.img.state == .checking) ∧ t.ldg.unbPaths = s.ldg.unbPaths ∧ t.rbit (Blk.ldg.base + 0x40) 1 = true ∧ t.mxe.bank0 = s.mxe.bank0 ∧ t.mxe.bank1 = s.mxe.bank1 ∧
        (hasDuplicate bank = true → t.mxe.swapPending = false ∧ t.mxe.result = .duplicate) ∧
        (∀ f r, hasDuplicate bank = false → fails = f :: r → s.mxe.swapUnb = false →
          t.mxe.swapPending = false ∧ t.mxe.result = .bound ∧ t.ldg.resFail = true ∧ t.ldg.resPath = f.path ∧ t.ldg.boundSum = f.h ∧ t.faultBit .ldg 3 = true) ∧
        (hasDuplicate bank = false → (fails = [] ∨ s.mxe.swapUnb = true) →
          t.mxe.swapPending = true ∧ t.mxe.swapDue = true ∧ t.ldg.unbNext = fails.map (·.path))))

/-- For a master that reaches the registers, SET, REMOVE and XFADE complete: the edit of the master's EDIT0 to EDIT2 joins the end of the queue, or, where an index names an entry of kind NONE, only EDIT_BAD is set, or, with 256 edits queued, OVERFLOW is set and EDIT_OVERFLOW detected and the queue keeps its edits. Where its write is admitted, SWAP completes: with ALARM 1 the result is ALARM, with a swap pending BUSY, during a partial matrix load LOADING, and otherwise a swap is pending and its check runs, or waits while that of a load or verify runs; SWAP_CANCEL ends a pending swap with CANCELLED and is MOOT without one. ALARM_BANK_SWAP, in the tick it is due, with ALARM 1 and the chip not snuffed, makes the inactive bank active; in any other it changes nothing. A write in a bank window changes one word of the inactive bank and no other entry, and ends with ACCESS_ERR and no change for the active bank, with a swap pending, with ALARM 1, and over the maps and bound descriptors; past the window it ends with DECODE_ERR (R183 to R185, R188, R190, R193, R194). -/
def Obligations.MatrixCommands : Prop :=
  ∀ (s : State) (m : Master),
    let x := s.mxe
    let r := Tab.get (fun _ => ({} : EditRegs)) x.edits m.idx
    (Reaches m s → ∀ e ∈ [(Instr.set m, 1), (.remove m, 2), (.xfade m, 3)], ∃ t, exec e.1 s = .next t ∧ t.resp m = ⟨.ok, []⟩ ∧
      t = { s with bus := t.bus, regs := t.regs, sys := t.sys, mxe := { x with queue := t.mxe.queue, bad := t.mxe.bad, overflow := t.mxe.overflow } } ∧
      let named : Prop := mapKind (x.srcEnt (bits r.e0 0 12)) ≠ 0 ∧ mapKind (x.dstEnt (bits r.e0 16 12)) ≠ 0 ∧
        (e.2 = 3 → mapKind (x.srcEnt (bits r.e2 0 12)) ≠ 0)
      (¬ named → t = { s with bus := t.bus, mxe := { x with bad := true } }) ∧
      (named → 256 ≤ x.queue.length → t.mxe.queue = x.queue ∧ t.mxe.overflow = true ∧ t.faultBit .mxe 3 = true) ∧
      (named → x.queue.length < 256 → t = { s with bus := t.bus, mxe := { x with queue := x.queue ++
        [⟨e.2, bits r.e0 0 12, bits r.e0 16 12, sInt 20 (bits r.e1 0 20), bits r.e2 0 12, if bit r.e2 31 then some (bits r.e2 16 12) else none⟩] } })) ∧
    (MayWrite m s → ∀ unb, ∃ t, exec (.swap m unb) s = .next t ∧ t.resp m = ⟨.ok, []⟩ ∧
      t = { s with bus := t.bus, regs := t.regs, mxe := t.mxe, ldg := { s.ldg with busy := t.ldg.busy } } ∧ (∀ a, a ≠ 0x40100000 → t.reg a = s.reg a) ∧
      t.mxe.bank0 = x.bank0 ∧ t.mxe.bank1 = x.bank1 ∧ t.mxe.active = x.active ∧
      (s.sys.alarm = true → t.mxe.result = .alarm ∧ t.mxe.swapPending = x.swapPending) ∧
      (s.sys.alarm = false → x.swapPending = true → t.mxe.result = .busy ∧ t.mxe.swapPending = true ∧ t.mxe.swapUnb = x.swapUnb) ∧
      (s.sys.alarm = false → x.swapPending = false → matrixLoading s = true → t.mxe.result = .loading ∧ t.mxe.swapPending = false) ∧
      (s.sys.alarm = false → x.swapPending = false → matrixLoading s = false →
        t.mxe = { x with swapPending := true, checking := s.img.state != .checking, boundWait := s.img.state == .checking, swapUnb := unb, swapDue := false } ∧
        t.ldg.busy = true)) ∧
    (MayWrite m s → ∃ t, exec (.swapCancel m) s = .next t ∧ t.resp m = ⟨.ok, []⟩ ∧ t = { s with bus := t.bus, mxe := t.mxe, ldg := t.ldg } ∧
      t.mxe.swapPending = false ∧ t.mxe.resTick = s.sys.tick % 65536 ∧
      (x.swapPending = true → t.mxe.result = .cancelled ∧ t.mxe.checking = false ∧ t.mxe.boundWait = false ∧ t.mxe.swapDue = false ∧ t.ldg.busy = (s.img.state == .checking)) ∧
      (x.swapPending = false → t.mxe = { x with result := .moot, resTick := s.sys.tick % 65536 } ∧ t.ldg = s.ldg)) ∧
    (x.alarmDue ≠ some s.sys.tick ∨ s.sys.alarm = false ∨ s.sys.snuffed = true → exec .alarmBankSwap s = .next s) ∧
    (x.alarmDue = some s.sys.tick → s.sys.alarm = true → s.sys.snuffed = false → ∃ t, exec .alarmBankSwap s = .next t ∧
      t = { s with regs := t.regs, sys := t.sys, mxe := t.mxe } ∧
      (t.mxe.active = x.inactive ∧ t.mxe.alarmBank = true ∧ t.mxe.alarmDue = none)) ∧
    (pathErr m .matrix s = none → ∀ (b : Fin 2) (off : Fin 16777216) (v : Word), ∃ t, exec (.matrixTableWrite m b off v) s = .next t ∧
      t = { s with bus := t.bus, mxe := { x with bank0 := t.mxe.bank0, bank1 := t.mxe.bank1, par0 := t.mxe.par0, par1 := t.mxe.par1 } } ∧
      (0x220000 ≤ off.val → t.resp m = ⟨.decodeErr, []⟩ ∧ t.mxe = x) ∧
      (off.val < 0x220000 → (0x210000 ≤ off.val ∨ b.val = x.active ∨ x.swapPending = true ∨ s.sys.alarm = true) → t.resp m = ⟨.accessErr, []⟩ ∧ t.mxe = x) ∧
      (off.val < 0x210000 → b.val ≠ x.active → x.swapPending = false → s.sys.alarm = false → t.resp m = ⟨.ok, []⟩ ∧
        let ent (y : Mxe) (n k : Nat) : Xpt := Tab.get (fun _ => ({} : Xpt)) (y.bank n) k
        let k := off.val / 16
        let d := off.val % 0x10000 / 16
        (∀ n j, n < 2 → (n ≠ b.val ∨ j ≠ k ∨ 0x200000 ≤ off.val) → ent t.mxe n j = ent x n j) ∧
        (∀ n j, n < 2 → (n ≠ b.val ∨ j ≠ d ∨ off.val < 0x200000) → t.mxe.dpar n j = x.dpar n j) ∧
        (off.val < 0x200000 → ent t.mxe b.val k = (match off.val % 16 / 4 with
          | 0 => { ent x b.val k with valid := bit v 31, dst := bits v 12 12, src := bits v 0 12 }
          | 1 => { ent x b.val k with tgt := sInt 20 (bits v 0 20) }
          | _ => ent x b.val k)) ∧
        (0x200000 ≤ off.val → t.mxe.dpar b.val d = (match off.val % 16 / 4 with
          | 0 => { x.dpar b.val d with w0 := (v &&& 0x0FFF003F).toNat }
          | 1 => { x.dpar b.val d with w4 := bits v 0 19 }
          | 2 => { x.dpar b.val d with w8 := bits v 0 16 }
          | _ => x.dpar b.val d))))

/-- For a master that reaches the registers each write completes with OK, and each event completes. START of a player that is not IDLE is BUSY, with RUN 0 NOT_RUN, of a message past COUNT BAD_MSG, of a corrupt one CORRUPT, which is detected; otherwise the player is ARMED on pass 1 of the message, to start at the next boundary, or with ARM at the first boundary at or after PLAYm_AT, or LATE_ARM where that has passed. STOP ends an ARMED player and ramps a PLAYING one out from the next boundary, FINISH ends a PLAYING one after its pass, and both are MOOT on any other, but FINISH leaves an ARMED one. The first sample makes an ARMED player PLAYING at its frame; the end of the last pass and of the stop's 64 frames make it IDLE with DONE and STOPPED; out of their state these events change nothing. No other player changes. A LINE_DELAY write keeps a valid delay for the next boundary and refuses any other with RANGE; the boundary after the XF frames of a crossfade posts XFADE_DONE and, where a delay waits, starts the next crossfade, for an equal delay too (R199 to R201, R205). -/
def Obligations.PlayersAndLines : Prop :=
  ∀ (s : State) (m : Master) (pl : Fin 64) (i : Fin 1024) (v : Word),
    let p := s.player pl
    let l := s.line i
    let w := setBits v 0 2 1
    let msg := bits w 8 10
    let at_ := (s.reg (0x40101004 + 0x20 * pl)).toNat + (s.reg (0x40101008 + 0x20 * pl)).toNat * 2 ^ 32
    let late := bit w 2 && decide (at_ < s.sys.tick)
    let only (t : State) : Prop := t.mxe = { s.mxe with players := t.mxe.players } ∧ ∀ j, j ≠ pl.val → t.player j = s.player j
    (Reaches m s →
      (∃ t, exec (.playStart m pl v) s = .next t ∧ t.resp m = ⟨.ok, []⟩ ∧ t = { s with bus := t.bus, regs := t.regs, sys := t.sys, mxe := t.mxe } ∧ only t ∧
        (p.state ≠ .idle → t.player pl = { p with result := .busy }) ∧
        (p.state = .idle → s.sys.run = false → t.player pl = { p with result := .notRun }) ∧
        (p.state = .idle → s.sys.run = true → msgCount s ≤ msg → t.player pl = { p with result := .badMsg }) ∧
        (p.state = .idle → s.sys.run = true → msg < msgCount s → s.mxe.corrupt.contains msg = true →
          t.player pl = { p with result := .corrupt } ∧ t.faultBit .mxe 2 = true) ∧
        (p.state = .idle → s.sys.run = true → msg < msgCount s → s.mxe.corrupt.contains msg = false →
          t.player pl = { state := PlayState.armed, result := if late then .lateArm else .none, pass := 1, pos := 0, msg := msg, rep := bits w 24 8, start := (if bit w 2 && !late then 64 * ceilDiv at_ 64 else nextBoundary s.sys.tick) / 64 })) ∧
      (∃ t, exec (.playStop m pl) s = .next t ∧ t.resp m = ⟨.ok, []⟩ ∧ t = { s with bus := t.bus, mxe := t.mxe } ∧ only t ∧
        t.player pl = (match p.state with
          | .armed => { p with state := .idle, result := .stopped }
          | .playing => { p with state := .stopping, stopFrame := nextBoundary s.sys.tick / 64 }
          | _ => { p with result := .moot })) ∧
      (∃ t, exec (.playFinish m pl) s = .next t ∧ t.resp m = ⟨.ok, []⟩ ∧ t = { s with bus := t.bus, mxe := t.mxe } ∧ only t ∧
        t.player pl = (match p.state with | .playing => { p with finish := true } | .armed => p | _ => { p with result := .moot })) ∧
      (∃ t, exec (.lineDelayWrite m i v) s = .next t ∧ t.resp m = ⟨.ok, []⟩ ∧ t = { s with bus := t.bus, regs := t.regs, sys := t.sys, dly := t.dly } ∧
        (∀ j, j ≠ i.val → t.line j = s.line j) ∧
        ((l.valid && delayOk l (v.toNat % 2 ^ 28)) = true → t = { s with bus := t.bus, dly := t.dly } ∧
          t.line i = { l with reg := v.toNat % 2 ^ 28, held := some (v.toNat % 2 ^ 28) }) ∧
        ((l.valid && delayOk l (v.toNat % 2 ^ 28)) = false → t.dly = s.dly ∧ t.faultBit .dly 2 = true))) ∧
    (p.state ≠ .armed ∨ s.atFrame = false ∨ s.frame < p.start → exec (.playerFirstSample pl) s = .next s) ∧
    (p.state = .armed → s.atFrame = true → p.start ≤ s.frame → ∃ t, exec (.playerFirstSample pl) s = .next t ∧ (t = { s with mxe := t.mxe } ∧ only t ∧ t.player pl = { p with state := .playing })) ∧
    (p.state ≠ .playing ∨ p.ended = false → exec (.playerDone pl) s = .next s) ∧
    (p.state = .playing → p.ended = true → ∃ t, exec (.playerDone pl) s = .next t ∧ (t = { s with regs := t.regs, mxe := t.mxe } ∧ only t ∧
        t.player pl = { p with state := .idle, result := .done, ended := false } ∧ t.rbit (Blk.mxe.base + 0x40) 4 = true)) ∧
    (p.state ≠ .stopping ∨ s.sys.tick ≠ 64 * p.stopFrame + 4096 → exec (.playerStopRampEnd pl) s = .next s) ∧
    (p.state = .stopping → s.sys.tick = 64 * p.stopFrame + 4096 → ∃ t, exec (.playerStopRampEnd pl) s = .next t ∧ (t = { s with mxe := t.mxe } ∧ only t ∧
        t.player pl = { p with state := .idle, result := .stopped })) ∧
    (l.valid = false ∨ (l.xfDone = false ∧ (l.xfEnd = false ∨ s.atFrame = false ∨ s.sys.frameAt = some s.sys.tick)) → exec (.xfadeDone i) s = .next s) ∧
    (l.valid = true → (l.xfDone = true ∨ (l.xfEnd = true ∧ s.atFrame = true ∧ s.sys.frameAt ≠ some s.sys.tick)) →
      ∃ t, exec (.xfadeDone i) s = .next t ∧ t = { s with regs := t.regs, dly := t.dly } ∧ (∀ j, j ≠ i.val → t.line j = s.line j) ∧
        t.rbit (Blk.dly.base + 0x40) 0 = true ∧
        ((l.xfEnd = false ∨ s.atFrame = false ∨ s.sys.frameAt = some s.sys.tick) → t.line i = { l with xfDone := false }) ∧
        (l.xfEnd = true → s.atFrame = true → s.sys.frameAt ≠ some s.sys.tick →
          (l.held = none → t.line i = { l with xfEnd := false, xfDone := false }) ∧
          (∀ d, l.held = some d → l.xfLeft = 0 → t.line i = { l with old := l.delay, delay := d, held := none, xfLeft := l.xf, xfEnd := false, xfDone := false })))

/-- Each event completes, changes no other MAC and, out of its condition, nothing. LINK_UP sets the link, its lock and EVT, unless CFG.SPEED is off or auto-negotiation has not completed. LINK_DOWN clears it; a MAC with an enable set, like one whose link is not up 500 ms after its enable, detects LINK_LOST, is fenced, and its queues are empty. A PAUSE frame on an up link counts in RX_PAUSE; in hold-off and in a drain it counts as ignored as well, and with PAUSE_EN 1 it sets the pause timer to its quanta. The expiry makes the timer 0; the watchdog, after WD_LIMIT of unbroken pause, detects PAUSE_BREAK, makes it 0 and starts hold-off, which ends after HOLDOFF (R213, R214, R223 to R225). -/
def Obligations.MacLinkAndPause : Prop :=
  ∀ (s : State) (n : Fin 4),
    let x := s.mac n
    let only (t : State) : Prop := ∀ k, k ≠ n.val → t.mac k = s.mac k
    let lost (t : State) : Prop := (t.mac n).fenced = true ∧ t.faultBit (.mac n) 0 = true ∧ t.sys.degraded = true ∧ ∀ q, q < 8 → (t.mac n).queue q = []
    let waits : Prop := x.link = true ∨ macSpeed s n = 0 ∨ (macSpeed s n = 1 ∧ s.rbit (macReg n 8) 2 = true ∧ x.anDone = false)
    (waits → exec (.linkUp n) s = .next s) ∧
    (¬ waits → ∃ t, exec (.linkUp n) s = .next t ∧ (t = { s with regs := t.regs, macs := t.macs } ∧ only t ∧
      t.mac n = { x with link := true, lock := true, localFault := false, remoteFault := false, enabledAt := none } ∧
      t.rbit ((Blk.mac n).base + 0x40) 0 = true)) ∧
    (∀ lock lf rf an, ∃ t, exec (.linkDown n lock lf rf an) s = .next t ∧ t = { s with regs := t.regs, sys := t.sys, macs := t.macs } ∧ only t ∧
      (t.mac n).link = false ∧ (t.mac n).lock = lock ∧ (t.mac n).localFault = lf ∧ (t.mac n).remoteFault = rf ∧
      (x.link = false → t = { s with macs := t.macs }) ∧ (x.link = true → t.rbit ((Blk.mac n).base + 0x40) 0 = true) ∧
      (x.link = true → macEnabled s n = true → lost t) ∧ (x.link = true → macEnabled s n = false → (t.mac n).fenced = x.fenced ∧ t.sys = s.sys)) ∧
    (
      let due : Prop := ∃ a, x.enabledAt = some a ∧ x.link = false ∧ macEnabled s n = true ∧ a + s.msTicks 500 ≤ s.sys.tick
      (¬ due → exec (.macLinkTimeout n) s = .next s) ∧
      (due → ∃ t, exec (.macLinkTimeout n) s = .next t ∧ t = { s with regs := t.regs, sys := t.sys, macs := t.macs } ∧ only t ∧ lost t)) ∧
    (x.link = false → ∀ quanta : Fin 65536, exec (.pauseFrame n quanta) s = .next s) ∧
    (x.link = true → ∀ quanta : Fin 65536, ∃ t, exec (.pauseFrame n quanta) s = .next t ∧ t = { s with macs := t.macs } ∧ only t ∧
      (macCounter t n 8 = (macCounter s n 8 + 1) % 2 ^ 64) ∧
      ((x.holdoff.isSome = true ∨ x.draining = true) → (t.mac n).pauseQ = x.pauseQ ∧ macCounter t n 9 = (macCounter s n 9 + 1) % 2 ^ 64) ∧
      (x.holdoff = none → x.draining = false → macCounter t n 9 = macCounter s n 9 ∧
        (t.mac n).pauseQ = if s.rbit (macReg n 0x1C) 0 then quanta.val else x.pauseQ)) ∧
    (x.pauseQ = 0 → exec (.pauseTimerExpiry n) s = .next s) ∧
    (x.pauseQ ≠ 0 → ∃ t, exec (.pauseTimerExpiry n) s = .next t ∧ t = { s with macs := t.macs } ∧ only t ∧ (t.mac n).pauseQ = 0) ∧
    (
      let due : Prop := x.pauseQ ≠ 0 ∧ x.pauseSince + pauseTicks s n 4 8 ≤ s.sys.tick
      (¬ due → exec (.pauseWatchdog n) s = .next s) ∧ (due → ∃ t, exec (.pauseWatchdog n) s = .next t ∧ t = { s with regs := t.regs, sys := t.sys, macs := t.macs } ∧ only t ∧ (t.mac n).pauseQ = 0 ∧
        (t.mac n).holdoff = some (s.sys.tick + pauseTicks s n 16 8) ∧ t.faultBit (.mac n) 2 = true)) ∧
    ((∀ e, x.holdoff = some e → s.sys.tick < e) → exec (.holdoffEnd n) s = .next s) ∧
    (∀ e, x.holdoff = some e → e ≤ s.sys.tick → ∃ t, exec (.holdoffEnd n) s = .next t ∧ (t = { s with macs := t.macs } ∧ only t ∧ t.mac n = { x with holdoff := none })) ∧
    (
      let due : Prop := macSpeed s n = 1 ∧ s.rbit (macReg n 8) 2 = true ∧ x.anDone = false
      (¬ due → exec (.autoNegotiationComplete n) s = .next s) ∧ (due → ∃ t, exec (.autoNegotiationComplete n) s = .next t ∧ t = { s with regs := t.regs, macs := t.macs } ∧ only t ∧ t.mac n = { x with anDone := true } ∧
        t.rbit ((Blk.mac n).base + 0x40) 3 = true))

/-- Where its write is admitted, MAC_ENABLE turns the named sides of a MAC that is not fenced on and leaves a fenced one as it is; MAC_TX_DISABLE starts a running transmitter's drain, and MAC_RX_DISABLE stops a receiver; MAC_FORCE empties the queues of a draining one and sets FORCE_MOOT otherwise; TX_IDLE follows the drain's last frame. A guarded register takes its writable bits while both enables are 0 and the transmitter is idle, with valid sizes, and ends with ACCESS_ERR and no change otherwise; a CFG of another line mode takes the link down. A counter's read returns its low word and captures its high word. A frame handed over is refused by a fenced, disabled or snuffed MAC; a length out of range, and a lack of room, count in TX_QFULL; an accepted one is sent at once by an idle MAC with empty queues and joins the tail of its queue behind a frame in progress, whose end counts it. A frame received on an up, enabled MAC counts as a code error, too short, too long, with a bad FCS or filtered, in that order, and otherwise enters the receive buffer with its stamp (R212, R216 to R221, R225, R228 to R230, R232, R234). -/
def Obligations.MacControlAndFrames : Prop :=
  ∀ (s : State) (m : Master) (n : Fin 4),
    let x := s.mac n
    let only (t : State) : Prop := ∀ k, k ≠ n.val → t.mac k = s.mac k
    let up (t : State) (c : Nat) : Prop := macCounter t n c = (macCounter s n c + 1) % 2 ^ 64
    (MayWrite m s → ∀ rx tx, ∃ t, exec (.macEnable m n rx tx) s = .next t ∧ t.resp m = ⟨.ok, []⟩ ∧
      t = { s with bus := t.bus, regs := t.regs, macs := t.macs } ∧ only t ∧ t.reg (macReg n 0) = (s.reg (macReg n 0) ||| wd (b2n rx + 2 * b2n tx)) &&& 3 ∧
      (x.fenced = false → rx = true → (t.mac n).rxOn = true ∧ (t.mac n).rxIdle = false) ∧
      (x.fenced = false → tx = true → (t.mac n).txOn = true ∧ (t.mac n).draining = false ∧ (t.mac n).txIdle = false) ∧
      (x.fenced = true → rx = true → tx = true → t.mac n = x)) ∧
    (MayWrite m s → ∃ t, exec (.macTxDisable m n) s = .next t ∧ t.resp m = ⟨.ok, []⟩ ∧ t = { s with bus := t.bus, regs := t.regs, macs := t.macs } ∧ only t ∧
      t.rbit (macReg n 0) 1 = false ∧ (t.mac n).txOn = x.txOn ∧ (x.txOn = true → (t.mac n).draining = true)) ∧
    (MayWrite m s → ∀ busy, ∃ t, exec (.macRxDisable m n busy) s = .next t ∧ t.resp m = ⟨.ok, []⟩ ∧
      t = { s with bus := t.bus, regs := t.regs, macs := t.macs } ∧ only t ∧ t.rbit (macReg n 0) 0 = false ∧
      (x.rxOn = true → (t.mac n).rxOn = false ∧ (t.mac n).rxTail = (if busy then some (s.sys.tick + frameTicks s n) else none) ∧ (t.mac n).rxIdle = !busy)) ∧
    (MayWrite m s → ∃ t, exec (.macForce m n) s = .next t ∧ t.resp m = ⟨.ok, []⟩ ∧ t = { s with bus := t.bus, regs := t.regs, macs := t.macs } ∧ only t ∧
      (x.draining = true → ∀ q, q < 8 → (t.mac n).queue q = []) ∧ (x.draining = false → t.rbit ((Blk.mac n).base + 0x40) 2 = true)) ∧
    (
      let due : Prop := x.draining = true ∧ x.cur = none ∧ ∀ q, q < 8 → x.queue q = []
      (¬ due → exec (.macTxIdle n) s = .next s) ∧
      (due → ∃ t, exec (.macTxIdle n) s = .next t ∧ t = { s with regs := t.regs, macs := t.macs } ∧ only t ∧
        t.mac n = { x with draining := false, txOn := false, txIdle := true, heldFrom := none, heldTime := heldTotal s x } ∧ t.rbit ((Blk.mac n).base + 0x40) 1 = true)) ∧
    (∀ (off : Fin 65536) (v : Word), macGuarded off = true → MayWrite m s → ∃ t, exec (.macConfigWrite m n off v) s = .next t ∧
      let w := v &&& macMask n off
      let fits : Prop := macEnabled s n = false ∧ x.txIdle = true ∧
        (off.val = 0x14 → sizesOk w (s.reg (macReg n 0x18)) (macMaxLen s n) = true) ∧ (off.val = 0x18 → sizesOk (s.reg (macReg n 0x14)) w (macMaxLen s n) = true)
      (¬ fits → t.resp m = ⟨.accessErr, []⟩ ∧ t = { s with bus := t.bus }) ∧
      (fits → t.resp m = ⟨.ok, []⟩ ∧ t = { s with bus := t.bus, regs := t.regs, sys := t.sys, macs := t.macs } ∧ only t ∧ t.reg (macReg n off) = w ∧
        (∀ a, a ≠ macReg n off → a ≠ 0x4000010C → a ≠ (Blk.mac n).base + 0x40 → t.reg a = s.reg a) ∧
        (off.val ≠ 8 ∨ lineMode w = lineMode (s.reg (macReg n 8)) → t.mac n = x) ∧
        (off.val = 8 → lineMode w ≠ lineMode (s.reg (macReg n 8)) →
          t.mac n = { x with link := false, lock := false, localFault := false, remoteFault := false, anDone := false }))) ∧
    (∀ off : Fin 65536, (off.val = 0x1C ∨ off.val = 0x20 ∨ (0x100 ≤ off.val ∧ off.val < 0x140 ∧ off.val % 4 = 0)) → Reaches m s → ∀ v,
      ∃ t, exec (.macConfigWrite m n off v) s = .next t ∧ t.resp m = ⟨.ok, []⟩ ∧ t = { s with bus := t.bus, regs := t.regs } ∧
        ∀ a, t.reg a = if a = macReg n off then v &&& macMask n off else s.reg a) ∧
    (Reaches m s → ∀ c : Fin 24, ∃ t, exec (.macCounterRead m n c) s = .next t ∧ t.resp m = ⟨.ok, [wd (macCounter s n c)]⟩ ∧
      t = { s with bus := t.bus, macs := t.macs } ∧ only t ∧ t.mac n = { x with capHi := (t.mac n).capHi } ∧
      Tab.get (fun _ => 0) (t.mac n).capHi m.idx = wd (macCounter s n c / 2 ^ 32)) ∧
    (∀ (q : Fin 8) (f : List Byte),
      let closed : Prop := x.txOn = false ∨ x.draining = true ∨ ((q.val = 5 ∨ q.val = 6) ∧ (s.sys.run = false ∨ s.sys.standby = true))
      let long : Prop := f.length < 14 ∨ macMaxLen s n - 4 < f.length
      (x.fenced = true ∨ s.sys.snuffed = true ∨ closed → exec (.txFrameEnqueue n q f) s = .next s) ∧
      (x.fenced = false → s.sys.snuffed = false → ¬ closed → ∃ t, exec (.txFrameEnqueue n q f) s = .next t ∧
        t = { s with regs := t.regs, sys := t.sys, macs := t.macs } ∧ only t ∧
      (x.fenced = false → s.sys.snuffed = false → ¬ closed → long → up t 21 ∧ t.faultBit (.mac n) 3 = true ∧ (t.mac n).queue q = x.queue q) ∧
      (x.fenced = false → s.sys.snuffed = false → ¬ closed → ¬ long → queueSize s n q < queueUsed x q + txOctets f →
        up t 21 ∧ t.sys = s.sys ∧ (t.mac n).queue q = x.queue q) ∧
      (x.fenced = false → s.sys.snuffed = false → ¬ closed → ¬ long → queueUsed x q + txOctets f ≤ queueSize s n q →
        (x.cur.isSome = true → (t.mac n).cur = x.cur ∧ (t.mac n).queue q = x.queue q ++ [f]) ∧
        (x.cur = none → x.pauseQ = 0 → macSpeed s n ≠ 0 → (∀ k, k < 8 → x.queue k = []) → (t.mac n).cur = some ⟨q, f, false⟩ ∧ (t.mac n).queue q = [])))) ∧
    (x.cur = none → exec (.frameTransmitEnd n) s = .next s) ∧
    (∀ c, x.cur = some c → ∃ t, exec (.frameTransmitEnd n) s = .next t ∧ t = { s with macs := t.macs } ∧ only t ∧
      (c.q < 8 → up t (12 + c.q) ∧ macCounter t n 11 = (macCounter s n 11 + (max 60 c.frame.length + 4)) % 2 ^ 64)) ∧
    (x.link = false → ∀ f ce c, exec (.macFrameReceive n ⟨f, c⟩ ce) s = .next s) ∧
    (x.link = true → ∀ f ce c, ∃ t, exec (.macFrameReceive n ⟨f, c⟩ ce) s = .next t ∧ t = { s with regs := t.regs, sys := t.sys, macs := t.macs } ∧ only t ∧
      (x.rxOn = true →
        (ce = true → up t 5 ∧ (t.mac n).rx = x.rx) ∧
        (ce = false → f.length < 64 → up t 3 ∧ (t.mac n).rx = x.rx) ∧
        (ce = false → 64 ≤ f.length → macMaxLen s n < f.length → up t 4 ∧ (t.mac n).rx = x.rx) ∧
        (ce = false → 64 ≤ f.length → f.length ≤ macMaxLen s n → fcsMatch f = false → up t 2 ∧ (t.mac n).rx = x.rx) ∧
        (ce = false → 64 ≤ f.length → f.length ≤ macMaxLen s n → fcsMatch f = true → isControl f = false → addrOk s n f = false →
          up t 6 ∧ (t.mac n).rx = x.rx) ∧
        (ce = false → 64 ≤ f.length → f.length ≤ macMaxLen s n → fcsMatch f = true → isControl f = false → addrOk s n f = true → x.fenced = false →
          if 65536 < x.rxOctets + f.length then up t 7 ∧ t.faultBit (.mac n) 4 = true ∧ (t.mac n).rx = x.rx
          else up t 0 ∧ (t.mac n).rx = x.rx ++ [⟨f, toStamp c⟩] ∧ t.sys = s.sys)))

/-- For a master that reaches the registers each flow command completes with OK: FT_RES and FT_RES_IDX of that master show the result, the tick, the command and the entry, CMD_DONE is set, and no other entry changes. STAGE of an entry that is not FREE is NOT_FREE; of a FREE one it gives the first check that fails or, where none does, the entry is STAGED with the staging words and its guarantee is admitted in its class. PUBLISH makes a STAGED entry LIVE, FLOW_RETIRE a LIVE one RETIRING, DISCARD a STAGED one FREE; on any other entry each gives its code and changes nothing. A read gives the master the entry's words and counters. A retiring receive flow without packets is freed at a frame boundary. A path that is silent for 16 packet times, while the other of the pair is heard, is down. In a frame at a multiple of SPP a transmit flow in service builds its packet once: its sequence number and TX count go on by one. Out of their conditions the events change nothing (R240 to R243, R253, R255, R257). -/
def Obligations.StreamFlows : Prop :=
  ∀ (s : State) (m : Master) (f : Fin 8192),
    let x := s.flow f
    let only (t : State) : Prop := ∀ g, g ≠ f.val → t.flow g = s.flow g
    let done (t : State) (c r : Nat) : Prop := t.resp m = ⟨.ok, []⟩ ∧ t = { s with bus := t.bus, regs := t.regs, ste := t.ste } ∧ only t ∧
      Tab.get (fun _ => ({} : FtRes)) t.ste.fts m.idx = ⟨r, s.sys.tick % 65536, c, f⟩ ∧ t.rbit (Blk.ste.base + 0x40) 0 = true
    (Reaches m s →
      (∃ t, exec (.stage m f) s = .next t ∧
        let fe := setBits (feWord (staging s m) 0) 30 2 0 :: (staging s m).tail
        (x.st ≠ .free → done t 1 2 ∧ t.flow f = x) ∧
        (x.st = .free → stageCheck s (staging s m) ≠ 1 → done t 1 (stageCheck s (staging s m)) ∧ t.flow f = x) ∧
        (x.st = .free → stageCheck s (staging s m) = 1 → done t 1 1 ∧ (t.flow f).st = .staged ∧ (t.flow f).fe = fe ∧ (t.flow f).pkts = [] ∧
          (t.ste.clsOf (feCls fe)).admitted = (s.ste.clsOf (feCls fe)).admitted + guarOf fe)) ∧
      (∃ t, exec (.publish m f) s = .next t ∧ (x.st = .staged → done t 2 1 ∧ t.flow f = { x with st := .live, since := s.frame }) ∧
        (x.st ≠ .staged → done t 2 3 ∧ t.flow f = x)) ∧
      (∃ t, exec (.flowRetire m f) s = .next t ∧ (x.st = .live → done t 3 1 ∧ t.flow f = { x with st := .retiring, since := s.frame }) ∧
        (x.st ≠ .live → done t 3 4 ∧ t.flow f = x)) ∧
      (∃ t, exec (.discard m f) s = .next t ∧ (x.st = .staged → done t 4 1 ∧ t.flow f = {}) ∧ (x.st ≠ .staged → done t 4 3 ∧ t.flow f = x)) ∧
      (∃ t, exec (.flowRead m f) s = .next t ∧ done t 5 1 ∧ t.flow f = x ∧ ∀ i, i < 8 →
        Tab.get (fun _ => 0) (Tab.get (fun _ => []) t.ste.stg m.idx) i = (if i = 0 then setBits (feWord x.fe 0) 30 2 x.st.code else feWord x.fe i) ∧
        Tab.get (fun _ => 0) (Tab.get (fun _ => []) t.ste.fc m.idx) i = (flowCounters x).getD i 0)) ∧
    (
      let due : Prop := x.st = .retiring ∧ feTx x.fe = false ∧ x.pkts = [] ∧ s.atFrame = true
      (¬ due → exec (.flowFreed f) s = .next s) ∧ (due → ∃ t, exec (.flowFreed f) s = .next t ∧ t = { s with regs := t.regs, ste := t.ste } ∧ only t ∧ t.flow f = {} ∧ t.rbit (Blk.ste.base + 0x40) 1 = true)) ∧
    (
      let w := 16 * feSpp x.fe
      let silent (o : Option Nat) : Prop := o.getD x.since + w ≤ s.frame
      let heard (o : Option Nat) : Prop := o.isSome = true ∧ ¬ silent o
      let pair : Prop := x.st = .live ∧ feTx x.fe = false ∧ 4 ≤ feLink x.fe
      let p : Prop := pair ∧ silent x.lastP ∧ heard x.lastS ∧ x.pDown = false
      let q : Prop := pair ∧ silent x.lastS ∧ heard x.lastP ∧ x.sDown = false
      (¬ p → ¬ q → exec (.pathDown f) s = .next s) ∧
      (p → ∃ t, exec (.pathDown f) s = .next t ∧ t = { s with regs := t.regs, ste := t.ste } ∧ only t ∧ t.flow f = { x with pDown := true } ∧ t.rbit (Blk.ste.base + 0x40) 2 = true) ∧
      (q → ∃ t, exec (.pathDown f) s = .next t ∧ t = { s with regs := t.regs, ste := t.ste } ∧ only t ∧ t.flow f = { x with sDown := true } ∧ t.rbit (Blk.ste.base + 0x40) 2 = true)) ∧
    (
      let due : Prop := (x.st = .live ∨ x.st = .retiring) ∧ feTx x.fe = true ∧ s.ste.txOn = true ∧ s.sys.run = true ∧ s.sys.standby = false ∧
        s.sys.snuffed = false ∧ feSpp x.fe ≠ 0 ∧ s.frame % feSpp x.fe = 0 ∧ x.built ≠ some s.frame ∧ x.since < s.frame
      (¬ due → exec (.txPacketBuild f) s = .next s) ∧
      (due → ∃ t, exec (.txPacketBuild f) s = .next t ∧
        t = { s with regs := t.regs, sys := t.sys, macs := t.macs, ste := t.ste, freeCount := t.freeCount } ∧ only t ∧
        t.flow f = { x with built := some s.frame, seq := (x.seq + 1) % 65536, cnt := (t.flow f).cnt } ∧
        Tab.get (fun _ => 0) (t.flow f).cnt 0 = (Tab.get (fun _ => 0) x.cnt 0 + 1) % 2 ^ 32))

/-- STE_FRAME_CLASSIFY takes the oldest frame of a MAC's receive buffer, and with an empty one changes nothing: the stamp of a PTP message that a port may take is kept for PTU, any other PTP message counts in RX_OTHER of the enabled ports on that MAC, and with 64 stamps held RX_OVERRUN is raised; a bad IPv4 or UDP packet counts in BAD_IP; with RX_EN 0 any other is dropped; one that matches no flow and no filter counts in NO_FLOW. For a master that reaches the registers HRX_POP releases the head frame and its granules, and nothing else, and does nothing without one. HTX_CMD of a host with QUEUE 0 to 4 hands the octets of its TXWIN to the MAC, and HTX_RES shows whether it was taken; a master without a TXWIN gets ACCESS_ERR. Where the write is admitted, clearing RX_EN stops reception, clearing TX_EN makes every LIVE transmit flow RETIRING and stops the transmitter at the next boundary, and FORCE releases every stored packet of a draining receiver, or sets FORCE_MOOT. STE_RX_IDLE follows the last stored packet (R244, R258 to R261, Table 9.4). -/
def Obligations.StreamFramesAndHosts : Prop :=
  ∀ (s : State) (m : Master) (n : Fin 4) (v : Word),
    ((s.mac n).rx = [] → exec (.steFrameClassify n) s = .next s) ∧
    (∀ g r, (s.mac n).rx = g :: r → ∃ t, exec (.steFrameClassify n) s = .next t ∧ t.mem = s.mem ∧
      (t.mac n = { s.mac n with rx := r } ∧ (∀ k, k ≠ n.val → t.mac k = s.mac k) ∧
        let b := g.bytes.take (g.bytes.length - 4)
        let p := parseFrame b
        let known : Bool := ptpKnown (octs (if p.ety = 0x88F7 then b.drop p.ip else p.pay) 0 1 % 16)
        let h := (s.stamps n).length
        let ptp : Prop := p.ety = 0x88F7 ∨ (p.udp = true ∧ (p.dport = 319 ∨ p.dport = 320))
        let bad : Prop := p.ety = 0x0800 ∧ (p.ipOk = false ∨ (p.proto = 17 ∧ p.udpOk = false))
        (ptp → h < 64 → t.ste = { s.ste with ptp := (s.ste.ptp + 1) % 2 ^ 32 } ∧
          t.stamps n = (if known then s.stamps n ++ [g.stamp] else s.stamps n) ∧
          ∀ d : Dom, (t.ptu.port d).rxOther = if !known && (s.ptu.port d).en && !(s.ptu.port d).faulty && domLink s d == n.val
            then ((s.ptu.port d).rxOther + 1) % 2 ^ 32 else (s.ptu.port d).rxOther) ∧
        (ptp → 64 ≤ h → t.faultBit .ptu 7 = true ∧ t.ste = s.ste ∧ t.ptu = s.ptu) ∧
        (bad → t = { s with macs := t.macs, ste := { s.ste with badIp := (s.ste.badIp + 1) % 2 ^ 32 } }) ∧
        (¬ ptp → ¬ bad → s.ste.rxOn = false → t = { s with macs := t.macs }) ∧
        (¬ ptp → ¬ bad → s.ste.rxOn = true → matchFlow s n p = none → hostFilter s p = false → s.rbit (Blk.ste.base + 8) 0 = false →
          t = { s with macs := t.macs, ste := { s.ste with noFlow := (s.ste.noFlow + 1) % 2 ^ 32 } }))) ∧
    (Reaches m s → ∃ t, exec (.hrxPop m) s = .next t ∧ t.resp m = ⟨.ok, []⟩ ∧ t = { s with bus := t.bus, ste := t.ste } ∧
      (hrxHead s = none → t = { s with bus := t.bus }) ∧
      (∀ h c, hrxHead s = some (h, c) → t.ste.poppedAt = some s.sys.tick ∧ hrxHead t = none ∧
        t.ste.ctl = (if c = 1 then s.ste.ctl.tail else s.ste.ctl) ∧ t.ste.be = (if c = 1 then s.ste.be else s.ste.be.tail) ∧
        (h.src = .shared → t.ste.shFree = s.ste.shFree + h.n) ∧ (h.src = .own → (t.ste.clsOf c).xr = (s.ste.clsOf c).xr - h.n))) ∧
    (Reaches m s → ∃ t, exec (.htxCmd m v) s = .next t ∧
      (hasTxwin m = false → t.resp m = ⟨.accessErr, []⟩ ∧ t = { s with bus := t.bus }) ∧
      (hasTxwin m = true → bits v 20 3 ≤ 4 → t.resp m = ⟨.ok, []⟩ ∧
        let r := macEnqueue (bits v 16 2) (bits v 20 3) ((upto (bits v 0 14)).map (txwinOctet s m)) s
        t = { r.1 with bus := t.bus, ste := { r.1.ste with htx := t.ste.htx } } ∧
        Tab.get (fun _ => 0) t.ste.htx m.idx = (match r.2 with | .ok => 1 | .qfull => 2 | .fenced => 3) ∧
        ∀ k, k ≠ m.idx → Tab.get (fun _ => 0) t.ste.htx k = Tab.get (fun _ => 0) s.ste.htx k) ∧
      (hasTxwin m = true → 4 < bits v 20 3 → t.resp m = ⟨.ok, []⟩ ∧
        t = { s with bus := t.bus, freeCount := s.freeCount + 1, ste := { s.ste with htx := t.ste.htx } })) ∧
    (MayWrite m s → s.reg Blk.ste.base &&& ~~~3 = 0 →
      (∃ t, exec (.steRxDisable m) s = .next t ∧ t.resp m = ⟨.ok, []⟩ ∧ t = { s with bus := t.bus, regs := t.regs, ste := t.ste } ∧
        t.rbit Blk.ste.base 0 = false ∧ t.ste.rxOn = false ∧ t.ste.rxIdle = s.ste.rxIdle) ∧
      (∃ t, exec (.steTxDisable m) s = .next t ∧ t.resp m = ⟨.ok, []⟩ ∧ t = { s with bus := t.bus, regs := t.regs, ste := t.ste } ∧
        t.rbit Blk.ste.base 1 = false ∧ (s.ste.txOn = true → s.ste.txStop = false → t.ste.txStop = true ∧
          t.ste.flows = s.ste.flows.map fun e => if e.2.st = .live ∧ feTx e.2.fe = true then (e.1, { e.2 with st := .retiring, since := s.frame }) else e)) ∧
      (∃ t, exec (.steForce m) s = .next t ∧ t.resp m = ⟨.ok, []⟩ ∧ t = { s with bus := t.bus, regs := t.regs, ste := t.ste } ∧
        (s.rbit Blk.ste.base 0 = false → s.rbit Blk.ste.base 1 = true → s.ste.rxIdle = false → stored s = true →
          ∀ f, (t.flow f).pkts = []) ∧
        (s.ste.rxIdle = true ∨ stored s = false → t.rbit (Blk.ste.base + 0x40) 4 = true))) ∧
    (
      let due : Prop := s.ste.rxOn = false ∧ s.ste.rxIdle = false ∧ stored s = false
      (¬ due → exec .steRxIdle s = .next s) ∧
      (due → ∃ t, exec .steRxIdle s = .next t ∧ t = { s with regs := t.regs, ste := { s.ste with rxIdle := true } } ∧ t.rbit (Blk.ste.base + 0x40) 3 = true))

/-- A received message takes the oldest stamp its MAC holds, which is its own, and without a held frame there is no message; a port that is disabled or FAULTY ignores it, and one that does not fit the port's MAC, transport, version, domainNumber and role counts in RX_OTHER. An Announce that the port hears enters its table of up to 8 masters, and qualifies its master where it follows within 4 intervals; the port's own and those of 255 steps or more are discarded. A change of best master clears LOCKED and the delay estimate, keeps the integral, and posts GM_CHG. A Sync of the best master is accepted, a two-step one with its Follow_Up within one interval, and gives e, OFS, and with SERVO_EN the step or the new integral, rate, count and LOCKED of R280; a clamp raises RATE_CLAMP. A Delay_Resp to the port's own last request moves mpd. ANN_TIMEOUT removes the best master with an update of its own that waits; SYNC_LOSS clears LOCKED. A due update changes the domain's parameters by R270. Out of their conditions the events change nothing (R270, R273, R275, R278 to R281, Table 10.5; the formats of IEEE 1588-2019 are the model's, notes/assumptions/8). -/
def Obligations.PtpSlave : Prop :=
  ∀ (s : State) (d : Dom) (w : PtpMsg),
    let p := s.ptu.port d
    let now := s.sys.tick
    let x : PtpMsg := { w with stamp := (s.stamps w.mac).headD 0 }
    let held : Prop := s.stamps w.mac ≠ []
    let up : Prop := p.en = true ∧ p.faulty = false
    let fits : Prop := msgFits s d x = true ∧ roleMaster s d = false
    let only (t : State) : Prop := t = { s with regs := t.regs, sys := t.sys, ptu := { s.ptu.setPort d (t.ptu.port d) with stamps := t.ptu.stamps } } ∧
      t.sys.tick = now
    let took (t : State) : Prop := only t ∧
      (∀ n, t.stamps n = if n = w.mac then (s.stamps n).tail else s.stamps n) ∧
      (¬ up → t.ptu.port d = p) ∧ (up → ¬ fits → t.ptu.port d = { p with rxOther := (p.rxOther + 1) % 2 ^ 32 })
    let lock : Int := ((s.fld (domReg d 0x10) 0 16 : Nat) : Int) * 2 ^ 16
    let stepT : Int := ((s.fld (domReg d 0x10) 16 16 : Nat) : Int) * 1000 * 2 ^ 16
    let accepted (t1 t2 : Int) (t : State) : Prop :=
      let q := t.ptu.port d
      let ms := t2 - t1
      q.ms = some ms ∧ q.twoStep = none ∧ q.mpd = p.mpd ∧ q.best = p.best ∧
      (p.mpd = none → q.ofs = p.ofs ∧ q.fi = p.fi ∧ q.good = p.good ∧ q.locked = p.locked ∧ q.upd = p.upd) ∧
      ∀ v, p.mpd = some v →
        let e := ms - v
        let a : Int := (e.natAbs : Int)
        let x1 := p.fi - floorDivI (e * ((s.reg (domReg d 0xC)).toNat : Int)) (2 ^ 24)
        let fi := clampI (-(2 ^ 36)) (2 ^ 36) x1
        let x2 := fi - floorDivI (e * ((s.reg (domReg d 0x8)).toNat : Int)) (2 ^ 24)
        let adj := clampI (-(2 ^ 36)) (2 ^ 36) x2
        let good := if a < lock then min (p.good + 1) 16 else 0
        q.ofs = e ∧
        (servoEn s d = false → q.fi = p.fi ∧ q.good = p.good ∧ q.locked = p.locked ∧ q.upd = p.upd) ∧
        (servoEn s d = true → stepT ≤ a → q.fi = p.fi ∧ q.good = 0 ∧ q.locked = false ∧
          q.upd = some ⟨-e * 2 ^ 16, none, p.best.getD (0, 0), now + 1⟩) ∧
        (servoEn s d = true → a < stepT → q.fi = fi ∧ q.good = good ∧
          q.locked = (if 4 * lock ≤ a then false else if good = 16 then true else p.locked) ∧
          q.upd = some ⟨0, some ((nominalRate : Int) + adj).toNat, p.best.getD (0, 0), now + 1⟩ ∧
          (x1 ≠ fi ∨ x2 ≠ adj → t.faultBit .ptu 6 = true))
    let chosen (t : State) : Prop :=
      let q := t.ptu.port d
      q.best = (bestOf q.masters).map (fun y => (y.src, y.srcPort)) ∧ q.fi = p.fi ∧
      (q.best = p.best → q.locked = p.locked ∧ q.mpd = p.mpd) ∧
      (q.best ≠ p.best → q.locked = false ∧ q.mpd = none ∧ t.rbit (Blk.ptu.base + 0x40) 1 = true)
    (¬ held → ∀ c ∈ [Instr.announceReceive d w, .syncReceive d w, .followUpReceive d w, .delayRespReceive d w], exec c s = .next s) ∧
    (held → ∃ t, exec (.announceReceive d w) s = .next t ∧ took t ∧
      (up → fits → (x.src = clockId s d ∨ 255 ≤ x.steps) → t.ptu.port d = p) ∧
      (up → fits → x.src ≠ clockId s d → x.steps < 255 → chosen t ∧
        let q := t.ptu.port d
        let same (f : Foreign) : Prop := f.msg.src = x.src ∧ f.msg.srcPort = x.srcPort
        q.rxAnn = (p.rxAnn + 1) % 2 ^ 32 ∧ (p.masters.length ≤ 8 → q.masters.length ≤ 8) ∧
        (∀ f ∈ p.masters, same f → ⟨x, now, f.qualified || decide (now ≤ f.heard + 4 * logTicks s (logAnn s d))⟩ ∈ q.masters) ∧
        ((∀ f ∈ p.masters, ¬ same f) → p.masters.length < 8 → q.masters = p.masters ++ [⟨x, now, false⟩]))) ∧
    (held → ∃ t, exec (.syncReceive d w) s = .next t ∧ took t ∧
      (up → fits → fromBest s d x = false → t.ptu.port d = p) ∧
      (up → fits → fromBest s d x = true → x.twoStep = true →
        t.ptu.port d = { p with rxSync := (p.rxSync + 1) % 2 ^ 32, syncSince := some now, twoStep := some x, twoStepAt := now }) ∧
      (up → fits → fromBest s d x = true → x.twoStep = false →
        (t.ptu.port d).rxSync = (p.rxSync + 1) % 2 ^ 32 ∧ (t.ptu.port d).syncSince = some now ∧ accepted (stampVal x x.corr) (syncT2 s d x) t)) ∧
    (held → ∃ t, exec (.followUpReceive d w) s = .next t ∧ took t ∧
      let match_ (y : PtpMsg) : Prop := p.twoStep = some y ∧ fromBest s d x = true ∧ y.seq = x.seq ∧ y.src = x.src ∧
        now ≤ p.twoStepAt + logTicks s (logSync s d)
      (up → fits → (∀ y, ¬ match_ y) → t.ptu.port d = p) ∧
      (up → fits → ∀ y, match_ y → accepted (stampVal x (x.corr + y.corr)) (syncT2 s d y) t)) ∧
    (held → ∃ t, exec (.delayRespReceive d w) s = .next t ∧ took t ∧
      let match_ (t3 ms : Int) : Prop := p.t3 = some t3 ∧ p.msT3 = some ms ∧ fromBest s d x = true ∧ x.reqId = clockId s d ∧ x.reqPort = 1 ∧ x.seq = p.reqSeq
      (up → fits → (∀ t3 ms, ¬ match_ t3 ms) → t.ptu.port d = p) ∧
      (up → fits → ∀ t3 ms, match_ t3 ms →
        let dly := floorDivI (ms + (stampVal x (-x.corr) - t3)) 2
        t.ptu.port d = { p with mpd := some (match p.mpd with
          | none => dly
          | some v => v + floorDivI (dly - v) (2 ^ s.fld (domReg d 0x14) 0 4)) })) ∧
    (
      let out : Prop := up ∧ roleMaster s d = false ∧ ∃ f ∈ p.masters, p.best = some (f.msg.src, f.msg.srcPort) ∧
        f.heard + annTo s d * logTicks s (logAnn s d) ≤ now
      (¬ out → exec (.annTimeout d) s = .next s) ∧
      (out → ∃ t, exec (.annTimeout d) s = .next t ∧ only t ∧ chosen t ∧ t.faultBit .ptu (4 + d.idx) = true ∧
        (∀ f, f ∈ (t.ptu.port d).masters ↔ f ∈ p.masters ∧ p.best ≠ some (f.msg.src, f.msg.srcPort)) ∧
        (∀ u, (t.ptu.port d).upd = some u ↔ p.upd = some u ∧ p.best ≠ some u.master))) ∧
    (
      let out : Prop := up ∧ roleMaster s d = false ∧ ∃ a, p.syncSince = some a ∧ a + 3 * logTicks s (logSync s d) ≤ now
      (¬ out → exec (.syncLoss d) s = .next s) ∧
      (out → ∃ t, exec (.syncLoss d) s = .next t ∧ only t ∧ t.ptu.port d = { p with locked := false, syncSince := none } ∧ t.faultBit .ptu (2 + d.idx) = true)) ∧
    ((∀ u, p.upd = some u → now < u.due) → exec (.domainUpdate d) s = .next s) ∧
    (∀ u, p.upd = some u → u.due ≤ now → ∃ t, exec (.domainUpdate d) s = .next t ∧
      (t = { s with regs := t.regs, ptu := (s.ptu.setDom d (t.ptu.dom d)).setPort d { p with upd := none } } ∧
        t.ptu.dom d = { anchor := s.ptu.counter, rate := u.rate.getD (s.ptu.dom d).rate
                        base := ((timeNow (s.ptu.dom d) s.ptu.counter + u.step) % (2 ^ 96 : Int)).toNat } ∧
        (u.rate = none → t.rbit (Blk.ptu.base + 0x40) 3 = true)))

/-- A port that serves as MASTER sends, once the interval has passed, Announce with stepsRemoved 0, its own identity and CLASS, or HOLD_CLASS in holdover, and a Sync in the tick in which SEL reaches a whole multiple of its interval, and answers a Delay_Req that fits it with the receive time less the request's correction; each sequence number goes on by one. A slave port with a best master sends a Delay_Req when its interval has passed, and keeps its transmit time for the answer. A port that is snuffed, in STANDBY, disabled or FAULTY sends nothing. UPD from a master that reaches the registers sets the domain's parameters by R270, or is refused while SERVO_EN is 1 or for a rate R269 does not allow. Where the write is admitted, enabling a port makes it listen, and restarts a domain that an uncorrectable error hit from SEL; disabling one drops its masters and its lock and keeps its rate and integral (R269, R270, R276, R279, R282, R284; the message formats and the queue of general messages are the model's, notes/assumptions/8). -/
def Obligations.PtpMasterAndControl : Prop :=
  ∀ (s : State) (m : Master) (d : Dom) (w : PtpMsg) (c : Nat),
    let p := s.ptu.port d
    let now := s.sys.tick
    let x : PtpMsg := { w with stamp := (s.stamps w.mac).headD 0 }
    let serves : Prop := p.en = true ∧ p.faulty = false ∧ s.sys.snuffed = false ∧ roleMaster s d = true ∧ s.sys.standby = false
    let sent (r : State × TxAnswer) (q : PtpPort) (t : State) : Prop := t = { r.1 with ptu := s.ptu.setPort d q } ∧
      r.1 = { s with macs := r.1.macs, regs := r.1.regs, sys := r.1.sys, freeCount := s.freeCount + 1 }
    (¬ serves ∨ annDue s d = false → exec (.announceSend d) s = .next s) ∧
    (serves → annDue s d = true → ∃ t, exec (.announceSend d) s = .next t ∧
      (∃ (flags : Nat) (body : List Byte),
        sent (ptpSend d false { typ := 11, seq := p.annSeq, flags := flags, control := 5, logInt := logAnn s d, body := body } s)
          { p with annSeq := (p.annSeq + 1) % 65536, annAt := some now } t ∧
        octs body 14 1 = s.fld (domReg d 0x60) (if s.sys.holdover = true then 8 else 0) 8 ∧ octs body 19 8 = clockId s d ∧ octs body 27 2 = 0)) ∧
    (¬ serves ∨ syncDue s d = false → exec (.syncSend d c) s = .next s) ∧
    (serves → syncDue s d = true → ∃ t, exec (.syncSend d c) s = .next t ∧
      (
        let o := originOf s d (toStamp c)
        let r := ptpSend d true { typ := 0, seq := p.syncSeq, corr := o.2, control := 0, logInt := logSync s d, body := o.1 } s
        sent r { p with syncSeq := (p.syncSeq + 1) % 65536, syncAt := some now, txEvt := if r.2 = .ok then (p.txEvt + 1) % 2 ^ 32 else p.txEvt } t)) ∧
    (s.stamps w.mac = [] → exec (.delayReqReceive d w) s = .next s) ∧
    (s.stamps w.mac ≠ [] → ∃ t, exec (.delayReqReceive d w) s = .next t ∧
      (∀ n, t.stamps n = if n = w.mac then (s.stamps n).tail else s.stamps n) ∧
      let fits : Prop := msgFits s d x = true ∧ roleMaster s d = true
      let up : Prop := p.en = true ∧ p.faulty = false
      (¬ up → t = { s with ptu := { s.ptu with stamps := t.ptu.stamps } }) ∧
      (up → ¬ fits → t = { s with ptu := { s.ptu.setPort d { p with rxOther := (p.rxOther + 1) % 2 ^ 32 } with stamps := t.ptu.stamps } }) ∧
      (up → fits → ¬ serves → t = { s with ptu := { s.ptu with stamps := t.ptu.stamps } }) ∧
      (up → fits → serves →
        let y := rxTime s d x.mac x.stamp
        t = (ptpSend d false { typ := 9, seq := x.seq, control := 3, logInt := logDreq s d
                               corr := floorDivI (y % (2 ^ 32 : Int)) (2 ^ 16) - x.corr
                               body := ptpStamp (floorDivI y (2 ^ 32)) ++ beBytes 8 x.src ++ beBytes 2 x.srcPort } (setStamps w.mac (s.stamps w.mac).tail s)).1)) ∧
    (
      let due : Prop := p.en = true ∧ p.faulty = false ∧ s.sys.snuffed = false ∧ roleMaster s d = false ∧ p.best ≠ none ∧
        ∀ a, p.reqAt = some a → a + logTicks s (logDreq s d) ≤ now
      (¬ due → exec (.delayReqSend d c) s = .next s) ∧
      (due → ∃ t, exec (.delayReqSend d c) s = .next t ∧
        let seq := (p.reqSeq + 1) % 65536
        let o := originOf s d (toStamp c)
        let r := ptpSend d true { typ := 1, seq := seq, corr := o.2, control := 1, logInt := 127, body := o.1 } s
        sent r (if r.2 = .ok then { p with reqSeq := seq, t3 := some (floorDivI (txTime s d (domLink s d) (toStamp c)) (2 ^ 16)), msT3 := p.ms, reqAt := some now,
                                           txEvt := (p.txEvt + 1) % 2 ^ 32 }
                else { p with reqAt := some now }) t)) ∧
    (Reaches m s → ∃ t, exec (.upd m d) s = .next t ∧ t.resp m = ⟨.ok, []⟩ ∧
      let rate := s.fld (domReg d 0x2C) 0 16 * 2 ^ 32 + (s.reg (domReg d 0x28)).toNat
      let step := sInt 64 ((s.reg (domReg d 0x34)).toNat * 2 ^ 32 + (s.reg (domReg d 0x30)).toNat) * 2 ^ 32
      let ok : Prop := servoEn s d = false ∧ nominalRate ≤ rate + 2 ^ 36 ∧ rate ≤ nominalRate + 2 ^ 36
      (¬ ok → t = { s with bus := t.bus, regs := t.regs } ∧ t.rbit (Blk.ptu.base + 0x40) 4 = true) ∧
      (ok → t = { s with bus := t.bus, regs := t.regs, ptu := s.ptu.setDom d (t.ptu.dom d) } ∧ t.rbit (Blk.ptu.base + 0x40) 2 = true ∧
        t.ptu.dom d = { anchor := s.ptu.counter, rate := rate, base := ((timeNow (s.ptu.dom d) s.ptu.counter + step) % (2 ^ 96 : Int)).toNat })) ∧
    (MayWrite m s →
      let others (t : State) : Prop := ∀ e, e ≠ d → s.rbit Blk.ptu.base e.idx = (s.ptu.port e).en →
        t.ptu.port e = s.ptu.port e ∧ t.ptu.dom e = s.ptu.dom e
      (∃ t, exec (.ptpPortEnable m d) s = .next t ∧ t.resp m = ⟨.ok, []⟩ ∧ t = { s with bus := t.bus, regs := t.regs, ptu := t.ptu } ∧ others t ∧
        t.rbit Blk.ptu.base d.idx = true ∧ t.ptu.sel = s.ptu.sel ∧ t.ptu.counter = s.ptu.counter ∧
        t.ptu.port d = (if p.en = true then p else { p with en := true, faulty := false, syncSince := some now }) ∧
        t.ptu.dom d = (if p.en = false ∧ p.faulty = true then
            ⟨s.ptu.counter, (timeNow s.ptu.sel s.ptu.counter % (2 ^ 96 : Int)).toNat, s.ptu.sel.rate⟩ else s.ptu.dom d)) ∧
      (∃ t, exec (.ptpPortDisable m d) s = .next t ∧ t.resp m = ⟨.ok, []⟩ ∧ t = { s with bus := t.bus, regs := t.regs, ptu := t.ptu } ∧ others t ∧
        t.rbit Blk.ptu.base d.idx = false ∧ t.ptu.dom d = s.ptu.dom d ∧ t.ptu.sel = s.ptu.sel ∧ t.ptu.counter = s.ptu.counter ∧
        (p.en = false → t.ptu.port d = p) ∧
        (p.en = true → (t.ptu.port d).en = false ∧ (t.ptu.port d).locked = false ∧ (t.ptu.port d).masters = [] ∧ (t.ptu.port d).best = none ∧
          (t.ptu.port d).mpd = none ∧ (t.ptu.port d).fi = p.fi)))

/-- REFERENCE_EDGE stamps an edge of its reference, and nothing else. MEASUREMENT_WINDOW_END changes nothing before the counter reaches the window's end; then each pin reference has the estimate of R289 from its edges, a pair that disagrees for the second time raises REF_DISAGREE and sets DISAGREE in both, a reference isolated by R294 is in DISQ with REF_DISQ, no other changes state, the selection and SEL stay, and the holdover record and HO_RATE go on by R299. RSU_ENABLE writes CTRL where the write is admitted and nothing else (R288, R289, R294, R299, R302). A QUALIFYING reference whose QUAL seconds have passed becomes ELIGIBLE, or WTR if it has qualified before; WTR and DISQ end in ELIGIBLE after WTR seconds; a reference whose wait has not passed, or a fenced RSU, changes nothing. Outside a start-up wait, and once no other wait is still to end in the tick, the selection is then R292's while RSU is enabled and none otherwise; a new selection posts its event and clears HOLDOVER, sets SEL's rate within SLEW of the reference's and is far where its phase error exceeds FAR.LIMIT; a selection that becomes none sets HOLDOVER and SEL to HO_RATE; nothing but RSU, SEL, the domains that serve SEL's time and the mode changes. FIRST_WAIT_END selects the best ELIGIBLE reference and ends the start-up wait; START_WAIT_END ends it without a selection; the first wait after reset aligns the tick number to the selected time (R17, R290, R292, R293, R295, R296, R298, R299; that FIRST_WAIT_END without an ELIGIBLE reference waits for the next one is the model's choice, notes/assumptions/10). -/
def Obligations.ReferencesMeasuredAndSelected : Prop :=
  (
  ∀ (s : State) (m : Master) (c : Nat) (en : Bool),
    (∀ pin : RefPin, ∃ t, exec (.referenceEdge pin c) s = .next t ∧ t = { s with rsu := { s.rsu with refs := t.rsu.refs } } ∧
      let n := match pin with | .wck0 => 2 | .wck1 => 3 | .port => 5 | .tref => 4 | .pps => 4
      let x := s.ref n
      (∀ k, k ≠ n → t.ref k = s.ref k) ∧
      (pin = .pps → t.ref n = { x with pps2 := x.pps1, pps1 := x.phase.map fun p => c - p, phase := some c }) ∧
      (pin ≠ .pps → t.ref n = { x with first := some (x.first.getD c), last := some c, k := x.k + 1, edge := some c
                                       phase := if pin = .tref then x.phase else some c })) ∧
    (s.ptu.counter < s.rsu.winEnd → exec .measurementWindowEnd s = .next s) ∧
    (s.rsu.winEnd ≤ s.ptu.counter → ∃ t, exec .measurementWindowEnd s = .next t ∧
      (t = { s with regs := t.regs, sys := t.sys, rsu := t.rsu } ∧
        t.rsu = { s.rsu with refs := t.rsu.refs, pairs := t.rsu.pairs, records := t.rsu.records, hoRate := t.rsu.hoRate
                             winEnd := s.rsu.winEnd + 983040000, winClean := s.rsu.selected.isSome && !s.rsu.pulling, winSum := 0, winN := 0 } ∧
        (∀ k, k ∈ [2, 3, 4, 5] → (t.ref k).first = none ∧ (t.ref k).last = none ∧ (t.ref k).k = 0 ∧
          (t.ref k).rate = (match (s.ref k).first, (s.ref k).last with
            | some a, some b => if (s.ref k).k < 2 ∨ b ≤ a then none
                else some (rneDiv ((((s.ref k).k - 1) * 10 ^ 9 * 2 ^ 46 : Nat) : Int) ((refFreq s k * (b - a) : Nat) : Int)).toNat
            | _, _ => none)) ∧
        t.rsu.pairs = badPairs t ∧
        (∀ p ∈ t.rsu.pairs, p ∈ s.rsu.pairs → t.faultBit .rsu 1 = true ∧ (t.ref p.1).disagree = true ∧ (t.ref p.2).disagree = true) ∧
        (∀ k, k < 6 → isolated t ≠ some k → (t.ref k).state = (s.ref k).state) ∧
        (∀ k, isolated t = some k → (t.ref k).state = 5 ∧ ((s.ref k).state = 4 → t.faultBit .rsu 2 = true)) ∧
        t.rsu.records = (if s.rsu.winClean = true ∧ s.rsu.winN ≠ 0 then
            (s.rsu.records ++ [(rneDiv (s.rsu.winSum : Int) (s.rsu.winN : Nat)).toNat]).drop (s.rsu.records.length + 1 - 16) else s.rsu.records) ∧
        t.rsu.hoRate = (if t.rsu.records = [] then nominalRate else (rneDiv ((t.rsu.records.sum : Nat) : Int) (t.rsu.records.length : Nat)).toNat))) ∧
    (MayWrite m s → ∃ t, exec (.rsuEnable m en) s = .next t ∧ t.resp m = ⟨.ok, []⟩ ∧ t = { s with bus := t.bus, regs := t.regs } ∧
      t.rbit Blk.rsu.base 0 = en ∧ ∀ a, a ≠ Blk.rsu.base → t.reg a = s.reg a)
  ) ∧ (
  ∀ (s : State) (c : Fin 6),
    let now := s.sys.tick
    let en : Prop := s.rbit Blk.rsu.base 0 = true
    let picked (r : Nat) (t : State) : Prop :=
      t.sys.holdover = false ∧ t.rbit (Blk.rsu.base + 0x40) 0 = true ∧
      ∀ q, refRate s r = some q → absDiff t.ptu.sel.rate q ≤ slewMax s
    let steady (s1 t : State) : Prop :=
      t = { s with regs := t.regs, sys := t.sys, rsu := t.rsu, ptu := { s.ptu with sel := t.ptu.sel, a := t.ptu.a, b := t.ptu.b } } ∧ t.sys.tick = now ∧
      (∀ d, roleMaster s d = false → t.ptu.dom d = s.ptu.dom d) ∧
      (en → t.rsu.selected = choose s1) ∧ (¬ en → t.rsu.selected = none) ∧
      (t.rsu.selected = s.rsu.selected → t.ptu = s.ptu ∧ t.sys.holdover = s.sys.holdover) ∧
      (t.rsu.selected ≠ s.rsu.selected → ∀ r, t.rsu.selected = some r → picked r t ∧ t.rsu.phaseErr = (if refRate s r = none then s.rsu.phaseErr else phaseError s r) ∧
        t.rsu.far = decide (s.fld (Blk.rsu.base + 0x14) 0 20 * 1000 * 2 ^ 32 < (phaseError s r).natAbs)) ∧
      (t.rsu.selected ≠ s.rsu.selected → t.rsu.selected = none → t.sys.holdover = true ∧ t.ptu.sel.rate = s.rsu.hoRate ∧ t.faultBit .rsu 3 = true)
    let waited (st wait : Nat) (new : Ref → Ref) (o : Host.Outcome State Fault Refusal) : Prop :=
      let due : Prop := (s.ref c).state = st ∧ (s.ref c).since + secTicks s wait ≤ now ∧ s.rsu.fenced = false
      let s1 := updRef c (fun x => { new x with since := now }) s
      (¬ due → o = .next s) ∧
      (due → ∃ t, o = .next t ∧ (t.ref c).state = (new (s.ref c)).state ∧ (t.ref c).before = (new (s.ref c)).before ∧ t.rbit (Blk.rsu.base + 0x40) 2 = true ∧
        (∀ k, k ≠ c.val → (t.ref k).state = (s.ref k).state) ∧
        ((∃ k ∈ refList, waitOver s1 k = true) → t.rsu.selected = s.rsu.selected ∧ t.ptu = s.ptu) ∧
        (s.rsu.startup = false → (∀ k ∈ refList, waitOver s1 k = false) → steady s1 t))
    let aligns (time : Int) (t : State) : Prop :=
      t.rsu.startup = false ∧ (s.sys.src = true → t.sys.tick = now) ∧
      (s.sys.src = false → t.sys.tick = tickOf s time ∧ t.sys.aligned = !s.sys.tickLoss ∧ t.sys.src = true)
    waited 2 (tQual s) (fun x => { x with state := if x.before = true then 3 else 4, before := true }) (exec (.refQualified c) s) ∧
    waited 3 (tWtr s) (fun x => { x with state := 4 }) (exec (.wtrEnd c) s) ∧
    waited 5 (tWtr s) (fun x => { x with state := 4 }) (exec (.disqEnd c) s) ∧
    (
      let due : Prop := s.rsu.startup = true ∧ s.rsu.startAt ≠ none ∧ en ∧ s.rsu.fenced = false ∧ ∃ a, s.rsu.firstElig = some a ∧ a + secTicks s (tFirst s) ≤ now
      (¬ due → exec .firstWaitEnd s = .next s) ∧
      (due → bestRef s = none → exec .firstWaitEnd s = .next { s with rsu := { s.rsu with firstElig := none } }) ∧
      (due → ∀ b, bestRef s = some b → ∃ t, exec .firstWaitEnd s = .next t ∧ aligns ((timeNow s.ptu.sel s.ptu.counter + phaseError s b) % (2 ^ 96 : Int)) t ∧ t.rsu.selected = some b ∧
        ((∀ d, refDom b = some d → roleMaster s d = false) → picked b t))) ∧
    (
      let due : Prop := s.rsu.startup = true ∧ s.rsu.firstElig = none ∧ ∃ a, s.rsu.startAt = some a ∧ a + secTicks s (tStart s) ≤ now
      (¬ due → exec .startWaitEnd s = .next s) ∧
      (due → ∃ t, exec .startWaitEnd s = .next t ∧ t.rsu.selected = s.rsu.selected ∧ t.ptu.sel = s.ptu.sel ∧ (s.sys.src = true → t = { s with rsu := { s.rsu with startup := false } }) ∧
        aligns (timeNow s.ptu.sel s.ptu.counter) t))
  )

/-- Where the write is admitted, a START of a direction whose EN is 1 gives NOT_IDLE; one that R316 refuses records its code and leaves EN 0; an admitted one sets EN, and the data start D is the boundary of R317, with LATE_ARM where an armed D comes too soon. Clearing EN frees an ARMED direction with MOOT, ends a MUTED one that has no lock, and stops any other over 32 frames of zeros; FORCE ends a stop at the next frame start or sets FORCE_MOOT. The clocks start at D - 2,048, the data at D or at the end of acquisition, with its event, and a stop ends with the IDLE event; out of their conditions these events change nothing. A CFG write of a direction that is not IDLE is ACCESS_ERR. A mask write changes the pending mask alone. Each of these leaves every other direction as it is (R311, R316 to R318, R326). -/
def Obligations.PortDirections : Prop :=
  ∀ (s : State) (m : Master) (n : Fin 16) (d : Dir) (arm : Bool) (v : Word),
    let x := s.aptDir n d
    let cfg := dirCfg s n d
    let now := s.sys.tick
    let nb := 64 * (now / 64 + 1)
    let ctrl := aptReg n 0
    let others (t : State) : Prop := ∀ j e, (j ≠ n.val ∨ e ≠ d) → t.aptDir j e = s.aptDir j e
    let only (t : State) : Prop := t = { s with regs := t.regs, apt := t.apt } ∧ others t
    let wrote (t : State) : Prop := t.resp m = ⟨.ok, []⟩ ∧ t = { s with bus := t.bus, regs := t.regs, apt := t.apt } ∧ others t ∧
      ∀ a, a ≠ ctrl → a ≠ aptReg n 0x40 → t.reg a = s.reg a
    let ended (t : State) : Prop := (t.aptDir n d).st = .idle ∧ (t.aptDir n d).locked = false ∧ (t.aptDir n d).clocks = false ∧
      t.rbit (aptReg n 0x40) (2 + d.idx) = true
    let cleared (t : State) : Prop := t.rbit ctrl d.idx = false ∧
      (x.st = .idle ∨ x.st = .stopping → t.aptDir n d = x) ∧
      (x.st = .armed → t.aptDir n d = { x with st := .idle, result := 7 }) ∧
      (x.st = .muted → x.locked = false → ended t) ∧
      (x.st = .starting ∨ x.st = .acquiring ∨ x.st = .running ∨ (x.st = .muted ∧ x.locked = true) →
        t.aptDir n d = { x with st := .stopping, zeroFrom := nb, stopAt := nb + 2048, stopLeft := 33 })
    (MayWrite m s →
      (∃ t, exec (.aptStart m n d arm) s = .next t ∧ wrote t ∧
        let code : Nat := if x.st ≠ .idle then 2 else if cfgOk s d cfg = false then 3 else if aptLoading s n d = true then 5 else if s.sys.snuffed = true then 4 else 1
        let at_ := 64 * ((startAt s n + 63) / 64)
        let armed : Prop := arm = true ∧ now + 2048 ≤ at_
        (s.rbit ctrl d.idx = true → t.aptDir n d = { x with result := 2 } ∧ t.regs = s.regs) ∧
        (s.rbit ctrl d.idx = false → code ≠ 1 → t.aptDir n d = { x with result := code } ∧ t.rbit ctrl d.idx = false) ∧
        (s.rbit ctrl d.idx = false → code = 1 → t.rbit ctrl d.idx = true ∧ (t.aptDir n d).locked = false ∧
          (armed → (t.aptDir n d).st = .armed ∧ (t.aptDir n d).dataAt = at_ ∧ (t.aptDir n d).result = 1) ∧
          (¬ armed → (t.aptDir n d).st = (if cfgMaster cfg = true then .starting else .acquiring) ∧ (t.aptDir n d).dataAt = nb + 2048 ∧
            (t.aptDir n d).result = (if arm = true then 6 else 1)))) ∧
      (∃ t, exec (.aptStop m n d) s = .next t ∧ wrote t ∧
        (s.rbit ctrl d.idx = false → t.aptDir n d = x) ∧ (s.rbit ctrl d.idx = true → cleared t)) ∧
      (∃ t, exec (.aptForce m n d) s = .next t ∧ wrote t ∧
        (x.st = .stopping → t.aptDir n d = { x with stopAt := nb, stopLeft := min x.stopLeft 1 } ∧ t.regs = s.regs) ∧
        (x.st ≠ .stopping → t.rbit (aptReg n 0x40) 6 = true ∧ (s.rbit ctrl d.idx = false → t.aptDir n d = x) ∧ (s.rbit ctrl d.idx = true → cleared t))) ∧
      (∃ t, exec (.aptCfgWrite m n d v) s = .next t ∧
        (x.st ≠ .idle → t.resp m = ⟨.accessErr, []⟩ ∧ t = { s with bus := t.bus }) ∧
        (x.st = .idle → t.resp m = ⟨.ok, []⟩ ∧ t = { s with bus := t.bus, regs := t.regs } ∧
          dirCfg t n d = v &&& (match d with | .rx => 0x5FFFF | .tx => 0x67FFF) ∧ ∀ a, a ≠ aptReg n (0x10 + 4 * d.idx) → t.reg a = s.reg a))) ∧
    (Reaches m s → ∃ t, exec (.aptMaskWrite m n d v) s = .next t ∧ t.resp m = ⟨.ok, []⟩ ∧ t = { s with bus := t.bus, regs := t.regs } ∧
      t.reg (aptReg n (0x18 + 4 * d.idx)) = v ∧ ∀ a, a ≠ aptReg n (0x18 + 4 * d.idx) → t.reg a = s.reg a) ∧
    (
      let due : Prop := (x.st = .armed ∨ (x.st = .starting ∧ x.clocks = false)) ∧ x.dataAt ≤ now + 2048
      (¬ due → exec (.aptClockStart n d) s = .next s) ∧
      (due → ∃ t, exec (.aptClockStart n d) s = .next t ∧ only t ∧ t.regs = s.regs ∧ t.aptDir n d = { x with st := if cfgMaster cfg = true then .starting else .acquiring, clocks := cfgMaster cfg })) ∧
    (
      let due : Prop := ((x.st = .starting ∧ x.clocks = true) ∨ (x.st = .acquiring ∧ x.acquired = true ∧ x.relock = false)) ∧ now % 64 = 0 ∧ x.dataAt ≤ now
      (¬ due → exec (.aptDataStart n d) s = .next s) ∧
      (due → ∃ t, exec (.aptDataStart n d) s = .next t ∧ only t ∧ t.rbit (aptReg n 0x40) d.idx = true ∧
        t.aptDir n d = { x with st := .running, started := true, unmuteAt := some (now / 64), muteAt := none, lockMean := periodMean x, locked := x.locked || x.st == .acquiring })) ∧
    (
      let due : Prop := x.st = .stopping ∧ (cfgMaster cfg = true → x.stopAt ≤ now) ∧ (cfgMaster cfg = false → x.stopLeft = 0)
      (¬ due → exec (.aptStopEnd n d) s = .next s) ∧ (due → ∃ t, exec (.aptStopEnd n d) s = .next t ∧ only t ∧ ended t))

/-- A frame-sync edge of a master or IDLE direction changes nothing. Any other takes the pending mask into use; each frame that ends with it, the one of SAFETY or the counted ones of BULK, whose period is a glitch of R319 counts, and GLITCH is raised; three in 64 periods, or a mean that has moved by more than LOCK_WIN, lose the direction: CLK_LOST with its cause, LOCKED 0, and MUTED from the next boundary, or IDLE where it was stopping. So does the time of 4 E without an edge. Else the edge is the direction's latest, and a MUTED direction starts acquisition at an edge that is no glitch. ASRC_ACQUIRED sets ratio and position of R112 and R314 after 256 frames that span 4,096; APT_RELOCK locks a relocking direction at a frame boundary, muted still where AUTO_RELOCK is 0 and CLK_LOST is set. Out of their conditions these events change nothing, and none touches another direction A BULK frame count that has shifted against the edges raises SLOT_SLIP (R112, R311, R314, R317, R319, R320, R322, R324; the period of a counted frame of BULK is the model's, notes/assumptions/20). -/
def Obligations.PortClockSupervision : Prop :=
  ∀ (s : State) (n : Fin 16) (d : Dir) (k b : Nat) (l : List Nat),
    let x := s.aptDir n d
    let cfg := dirCfg s n d
    let now := s.sys.tick
    let only (t : State) : Prop := t = { s with regs := t.regs, sys := t.sys, apt := t.apt } ∧ t.sys.tick = now ∧
      ∀ j e, (j ≠ n.val ∨ e ≠ d) → t.aptDir j e = s.aptDir j e
    let lost (cause : Nat) (t : State) : Prop :=
      let y := t.aptDir n d
      t.faultBit (.apt n) d.idx = true ∧ y.loss = cause ∧ y.locked = false ∧
      (x.st = .stopping → y.st = .idle ∧ t.rbit (aptReg n 0x40) (2 + d.idx) = true) ∧
      (x.st ≠ .stopping → y.st = .muted ∧ y.muteAt = some (now / 64 + 1) ∧ y.held = x.delivered ∧ y.unmuteAt = none ∧ y.acquired = false)
    (
      let deaf : Prop := cfgMaster cfg = true ∨ x.st = .idle
      let want := cfgSlots cfg * cfgW cfg
      let new : List Nat := match x.edge with
        | none => []
        | some a => if cfgBulk cfg = true then List.replicate (min 64 ((x.phase + b) / want)) ((k - a) * want / max 1 b) else [k - a]
      let flags : List Bool := new.map fun p => decide ((expected s n d).1 < 8 * absDiff (p * (expected s n d).2) (expected s n d).1 ∨ (cfgBulk cfg = false ∧ b ≠ want))
      let glitch : Prop := true ∈ flags
      let gs := (flags ++ x.glitches).take 64
      let ps := (new ++ x.periods).take 64
      let phase := if cfgBulk cfg = true ∧ x.edge.isSome = true then (x.phase + b) % want else x.phase
      let live : Prop := watched x = true
      let three : Prop := live ∧ 3 ≤ (gs.filter id).length
      let rate : Prop := live ∧ x.locked = true ∧ ps.length = 64 ∧
        ps.length * x.lockMean.1 * lockWin s n d < absDiff (ps.sum * x.lockMean.2) (ps.length * x.lockMean.1) * 1000000
      (deaf → exec (.frameSyncEdge n d k b l) s = .next s) ∧
      (¬ deaf → ∃ t, exec (.frameSyncEdge n d k b l) s = .next t ∧ only t ∧
        let y := t.aptDir n d
        y.maskUse = s.reg (aptReg n (0x18 + 4 * d.idx)) ∧
        (glitch → t.faultBit (.apt n) 5 = true) ∧ y.glitchCnt = (x.glitchCnt + (flags.filter id).length) % 2 ^ 32 ∧
        (phase ≠ x.phase → y.slip = true ∧ t.faultBit (.apt n) (2 + d.idx) = true) ∧ y.phase = phase ∧
        (three → lost 2 t) ∧ (¬ three → rate → lost 3 t) ∧
        (¬ three → ¬ rate → y.edge = some k ∧ y.loss = x.loss ∧ y.locked = x.locked ∧
          (x.st = .muted → x.locked = false → new ≠ [] → ¬ glitch → y.st = .acquiring ∧ y.acqT0 = some k ∧ y.acqM = 0) ∧
          (¬ (x.st = .muted ∧ x.locked = false ∧ new ≠ [] ∧ ¬ glitch) → y.st = x.st) ∧
          (x.st = .stopping → y.stopLeft = x.stopLeft - 1)))) ∧
    (
      let e := expected s n d
      let due : Prop := cfgMaster cfg = false ∧ (x.st = .armed ∨ x.st = .acquiring ∨ x.st = .running ∨ x.st = .stopping ∨ (x.st = .muted ∧ x.locked = true)) ∧
        ∃ a, x.edge = some a ∧ a * e.2 + 4 * e.1 ≤ s.ptu.counter * e.2
      (¬ due → exec (.aptClockLost n d) s = .next s) ∧ (due → ∃ t, exec (.aptClockLost n d) s = .next t ∧ only t ∧ lost 1 t)) ∧
    (
      let due (a z : Nat) : Prop := x.acqT0 = some a ∧ x.edge = some z ∧ (x.st = .acquiring ∨ x.st = .armed) ∧ x.acquired = false ∧ 256 ≤ x.acqM ∧ 4096 * pfs s ≤ z - a
      ((∀ a z, ¬ due a z) → exec (.asrcAcquired n d) s = .next s) ∧
      (∀ a z, due a z → ∃ t, exec (.asrcAcquired n d) s = .next t ∧ only t ∧
        let rho := match d with
          | .rx => rneDiv ((2 ^ 32 * pfs s * x.acqM : Nat) : Int) ((z - a : Nat) : Int)
          | .tx => rneDiv ((2 ^ 32 * (z - a) : Nat) : Int) ((x.acqM * pfs s : Nat) : Int)
        t.aptDir n d = { x with acquired := true, rho := (rho % (2 ^ 40 : Int)).toNat, p := ((2 ^ 32 * x.nin : Nat) : Int) })) ∧
    (
      let due : Prop := x.st = .acquiring ∧ x.acquired = true ∧ x.relock = true ∧ x.locked = false ∧ now % 64 = 0
      let go : Prop := cfgAuto cfg = true ∨ s.faultBit (.apt n) d.idx = false
      (¬ due → exec (.aptRelock n d) s = .next s) ∧
      (due → ∃ t, exec (.aptRelock n d) s = .next t ∧ only t ∧ t.rbit (aptReg n 0x40) (4 + d.idx) = true ∧ (t.aptDir n d).locked = true ∧ (t.aptDir n d).lockMean = periodMean x ∧
        (go → (t.aptDir n d).st = .acquiring ∧ (t.aptDir n d).unmuteAt = some (max (now / 64) (x.dataAt / 64)) ∧ (t.aptDir n d).muteAt = none) ∧
        (¬ go → (t.aptDir n d).st = .muted ∧ (t.aptDir n d).unmuteAt = none ∧ (t.aptDir n d).muteAt = x.muteAt)))

/-- For a master that reaches the registers: CH_START enables a channel, and one that is STOPPING ramps up again from the next frame boundary; CH_STOP disables it, starts the stop ramp of one that runs, ends SHUTDOWN or LATCHED in OFF, and where no channel is wanted any more DRIVE_EN falls and no channel runs; CH_FORCE ends a stop or posts FORCE_MOOT; a 1 to a set bit of OC_LATCH clears it and RETRIES and frees a LATCHED channel. A channel whose bit is 0 stays as it is, but where DRIVE_EN falls. After 64 frames a start ramp ends in RUNNING with its event, a stop ramp in OFF with CH_IDLE. COEF is written only while RUN is 0, a channel's configuration only while it is OFF and disabled (R337, R339, R340, R342, R346; that the reversal of a stop shows STOPPING until its boundary is the model's, notes/assumptions/12). -/
def Obligations.ModulatorChannels : Prop :=
  ∀ (s : State) (m : Master) (n : Fin 32) (v : Word) (off : Fin 65536),
    let x := s.mod n
    let now := s.sys.tick
    let nb := now / 64 + 1
    let kept (t : State) : Prop := t.pwr.driveEn = s.pwr.driveEn
    let ev (t : State) (i : Nat) : Prop := t.rbit (Blk.pwr.base + 0x40) i = true
    let others (t : State) : Prop := ∀ k, k ≠ n.val → t.mod k = s.mod k
    (Reaches m s →
      (∃ t, exec (.chStart m v) s = .next t ∧ t.resp m = ⟨.ok, []⟩ ∧ t = { s with bus := t.bus, pwr := t.pwr } ∧ kept t ∧
        (bit v n = false → t.mod n = x) ∧
        (bit v n = true →
          (x.st = .starting ∨ x.st = .running ∨ x.st = .sleep → t.mod n = x) ∧
          (x.st = .stopping → t.mod n = { x with en := true, forced := false, ramp := some ⟨nb, x.rg, rgFull⟩ }) ∧
          (x.st = .off ∨ x.st = .shutdown ∨ x.st = .latched → t.mod n = { x with en := true }))) ∧
      (∃ t, exec (.chStop m v) s = .next t ∧ t.resp m = ⟨.ok, []⟩ ∧ t = { s with bus := t.bus, regs := t.regs, pwr := t.pwr, lsp := t.lsp } ∧
        (t.mod n).en = (x.en && !bit v n) ∧ (¬ kept t → t.pwr.driveEn = false ∧ modActive (t.mod n).st = false) ∧
        (kept t → bit v n = false → t.mod n = x) ∧
        (kept t → bit v n = true →
          (x.st = .starting ∨ x.st = .running ∨ x.st = .sleep → t.mod n = { x with en := false, st := .stopping, ramp := some ⟨nb, x.rg, 0⟩ } ∧
            (t.spk n).estOk = false ∧ (t.spk n).supOk = false) ∧
          (x.st = .stopping → t.mod n = { x with en := false, ramp := if x.en = true then some ⟨nb, x.rg, 0⟩ else x.ramp }) ∧
          (x.st = .shutdown ∨ x.st = .latched → t.mod n = { x with en := false, st := .off } ∧ ev t 0) ∧
          (x.st = .off → t.mod n = { x with en := false }))) ∧
      (∃ t, exec (.chForce m v) s = .next t ∧ t.resp m = ⟨.ok, []⟩ ∧ t = { s with bus := t.bus, regs := t.regs, pwr := t.pwr } ∧ kept t ∧
        (bit v n = true → x.st = .stopping → t.mod n = { x with forced := true }) ∧
        (bit v n = true → x.st ≠ .stopping → t.mod n = x ∧ ev t 3) ∧ (bit v n = false → t.mod n = x)) ∧
      (∃ t, exec (.ocLatchRelease m v) s = .next t ∧ t.resp m = ⟨.ok, []⟩ ∧ t = { s with bus := t.bus, regs := t.regs, pwr := t.pwr } ∧ kept t ∧
        let set : Prop := bit v n = true ∧ s.rbit (Blk.pwr.base + 0x1C) n = true
        (set → t.mod n = { x with retries := 0, st := if x.st = .latched then .off else x.st } ∧ t.rbit (Blk.pwr.base + 0x1C) n = false) ∧
        (¬ set → t.mod n = x ∧ t.rbit (Blk.pwr.base + 0x1C) n = s.rbit (Blk.pwr.base + 0x1C) n))) ∧
    (
      let due : Prop := x.st = .starting ∧ ∃ r, x.ramp = some r ∧ r.target = rgFull ∧ r.start + 64 ≤ now / 64
      (¬ due → exec (.chStartRampEnd n) s = .next s) ∧
      (due → ∃ t, exec (.chStartRampEnd n) s = .next t ∧ t = { s with regs := t.regs, pwr := t.pwr } ∧ kept t ∧ others t ∧ ev t 1 ∧
        t.mod n = { x with st := .running, ramp := none, rg := rgFull, runSince := now })) ∧
    (
      let due : Prop := x.st = .stopping ∧ ∃ r, x.ramp = some r ∧ r.target = 0 ∧ r.start + 64 ≤ now / 64
      (¬ due → exec (.chStopRampEnd n) s = .next s) ∧
      (due → ∃ t, exec (.chStopRampEnd n) s = .next t ∧ t = { s with regs := t.regs, pwr := t.pwr, lsp := t.lsp } ∧ ev t 0 ∧ (kept t → others t) ∧ (¬ kept t → t.pwr.driveEn = false) ∧
        t.mod n = { x with st := .off, rg := 0, ramp := none, forced := false, trunc := none, cut := none })) ∧
    (MayWrite m s → ∃ t, exec (.pwrConfigWrite m off v) s = .next t ∧
      let o := off.val
      let puts (w : Word) : Prop := t.resp m = ⟨.ok, []⟩ ∧ t = { s with bus := t.bus, regs := t.regs } ∧ t.reg (Blk.pwr.base + o) = w ∧
        ∀ a, a ≠ Blk.pwr.base + o → t.reg a = s.reg a
      let not : Prop := t.resp m = ⟨.accessErr, []⟩ ∧ t = { s with bus := t.bus }
      let coef : Prop := 0x200 ≤ o ∧ o < 0x380 ∧ o % 4 = 0
      let chan : Prop := 0x1000 ≤ o ∧ o < 0x1400
      let y := s.mod ((o - 0x1000) / 0x20)
      let free : Prop := y.st = .off ∧ y.en = false
      (coef → s.sys.run = true → not) ∧ (coef → s.sys.run = false → puts (v &&& 0xFFFFF)) ∧
      (chan → (o % 0x20 = 0 ∨ o % 0x20 = 4 ∨ o % 0x20 = 8) → ¬ free → not) ∧
      (chan → free → o % 0x20 = 0 → puts (v &&& 0x7)) ∧ (chan → free → o % 0x20 = 4 → puts (v &&& 0x0FFF0FFF)) ∧
      (chan → free → o % 0x20 = 8 → puts (v &&& 0xFF0F)) ∧
      (chan → o % 0x20 = 0xC → puts (v &&& 0xFFFFF)) ∧ (chan → o % 0x20 = 0x10 → puts (v &&& 0x7FFFFF)))

/-- OC_IN_ASSERT of an input that is active by OC_POL truncates the carrier period of a channel that switches while DRIVE_EN is high, at FILT + 1 counter periods in a row outside the blanking and at most three counter periods later, and nothing else; an inactive input, or one that the filter or the blanking takes, truncates nothing. In a later tick OC_LIMIT counts that period as limited once, and raises OC_LIMIT. At 64 limited periods of the last 256, with the one this tick samples, OC_SHUTDOWN stops a switching channel: its gain, ramp, histories and shaper are 0, its OC bit and fault are set, and LSP classifies its line; it is OFF where it was stopping, LATCHED with its bit after retry 8 while ALARM is 0, and else in SHUTDOWN for 500 ms doubled per retry, at most 8 s, at most 2 s while ALARM is 1. OC_RETRY starts it again at a frame boundary after the wait while DRIVE_EN is high. RETRIES_RESET clears RETRIES after 10 s of running. Out of their conditions these events change nothing (R335 to R338, R340, R361; that one tick raises OC_LIMIT once is the model's, notes/assumptions/12). -/
def Obligations.OverCurrent : Prop :=
  ∀ (s : State) (n : Fin 32) (level : Bool) (q len : Nat),
    let x := s.mod n
    let now := s.sys.tick
    let others (t : State) : Prop := ∀ k, k ≠ n.val → t.mod k = s.mod k
    let switching : Prop := x.st = .starting ∨ x.st = .running ∨ x.st = .stopping
    (
      let j := now / carrierTicks s
      let legs := chLegs s n (now % 64 / carrierTicks s)
      let dt : Int := (s.fld (modReg n 4) 0 12 : Nat)
      let filt := s.fld (modReg n 8) 0 4
      let blank : Int := (s.fld (modReg n 8) 8 8 : Nat)
      let open_ (i : Nat) : Prop := ∀ e ∈ [legs.1.rise, legs.2.rise], ¬ (e + dt ≤ 16 * i + 15 ∧ (16 * i : Int) < e + dt + 16 * blank)
      let hit (p : Nat) : Prop := q + filt ≤ p ∧ p < q + min len 4096 ∧ ∀ i, p ≤ i + filt → i ≤ p → open_ i
      let active : Prop := s.pwr.driveEn = true ∧ switching ∧ level ≠ s.rbit (modReg n 0) 2
      let due (p : Nat) : Prop := active ∧ hit p ∧ ∀ o, o < p → ¬ hit o
      ((∀ p, ¬ due p) → exec (.ocInAssert ⟨n, level, q, len⟩) s = .next s) ∧
      (∀ p, due p → ∃ t, exec (.ocInAssert ⟨n, level, q, len⟩) s = .next t ∧ t = { s with pwr := t.pwr, freeCount := t.freeCount } ∧ others t ∧ t.pwr.driveEn = true ∧
        ∃ c, p + 1 ≤ c ∧ c ≤ p + 4 ∧ t.mod n = { x with
          trunc := if x.trunc = none then some now else x.trunc
          cut := some (j, match x.cut with | some (i, o) => if i = j then min o (16 * c) else 16 * c | none => 16 * c) })) ∧
    ((∀ a, x.trunc = some a → now ≤ a) → exec (.ocLimit n) s = .next s) ∧
    (∀ a, x.trunc = some a → a < now → ∃ t, exec (.ocLimit n) s = .next t ∧
      (
        let j := a / carrierTicks s
        t = { s with regs := t.regs, sys := t.sys, pwr := t.pwr, lsp := t.lsp } ∧ t.sys.tick = now ∧ others t ∧ t.pwr.driveEn = s.pwr.driveEn ∧
        (x.lims.head? = some j → t = { s with pwr := t.pwr } ∧ t.mod n = { x with trunc := none }) ∧
        (x.lims.head? ≠ some j → t.mod n = { x with trunc := none, lims := j :: x.lims.filter (fun i => decide (j < i + 256)) } ∧
          (s.sys.detected.contains (Blk.pwr.base, 0) = false → t.faultBit .pwr 0 = true)))) ∧
    (
      let sampled : Prop := ∃ a, x.trunc = some a ∧ a < now ∧ x.lims.head? ≠ some (a / carrierTicks s)
      let counted := (x.lims.filter fun j => decide (now / carrierTicks s < j + 256)).length
      let due : Prop := switching ∧ (64 ≤ counted ∨ (sampled ∧ 63 ≤ counted))
      (¬ due → exec (.ocShutdown n) s = .next s) ∧
      (due → ∃ t, exec (.ocShutdown n) s = .next t ∧
        let y := t.mod n
        t = { s with regs := t.regs, sys := t.sys, pwr := t.pwr, lsp := t.lsp } ∧ t.sys.tick = now ∧ (t.pwr.driveEn = s.pwr.driveEn → others t) ∧
        t.faultBit .pwr 1 = true ∧ t.rbit (Blk.pwr.base + 0x18) n = true ∧ (sampled → s.sys.detected.contains (Blk.pwr.base, 0) = false → t.faultBit .pwr 0 = true) ∧
        y = { x with rg := 0, ramp := none, w := [], wp := [], e1 := 0, e2 := 0, e3 := 0, e4 := 0, c := 0, upd := [], lims := [], trunc := none, cut := none, forced := false, shutdowns := (x.shutdowns + 1) % 65536, st := y.st, waitEnd := y.waitEnd } ∧
        (t.spk n).estOk = false ∧ (t.spk n).supOk = false ∧
        (spkCfg s n 0 = true → spkCfg s n 2 = true →
          let short : Prop := 5 ≤ (s.spk n).runN ∧ (10 ^ 4 * (spkVfs s n : Nat) : Int) * (s.spk n).runVI * 100 <
            ((10 * s.fld (spkReg n 0x4C) 0 16 * 10 ^ 3 * spkIfs s n : Nat) : Int) * (s.spk n).runII
          (short → (t.spk n).line = 3) ∧ (¬ short → (t.spk n).line = 7)) ∧
        let gone : Prop := x.st = .stopping ∧ x.en = false
        let latch : Prop := 8 ≤ x.retries ∧ s.sys.alarm = false
        (gone → y.st = .off ∧ t.rbit (Blk.pwr.base + 0x40) 0 = true) ∧
        (¬ gone → latch → y.st = .latched ∧ t.faultBit .pwr 2 = true ∧ t.rbit (Blk.pwr.base + 0x1C) n = true) ∧
        (¬ gone → ¬ latch → y.st = .shutdown ∧
          y.waitEnd = now + s.msTicks (min (min 8000 (500 * 2 ^ min x.retries 8)) (if s.sys.alarm = true then 2000 else 8000))))) ∧
    (
      let due : Prop := x.st = .shutdown ∧ now % 64 = 0 ∧ x.waitEnd ≤ now ∧ s.pwr.driveEn = true
      (¬ due → exec (.ocRetry n) s = .next s) ∧
      (due → ∃ t, exec (.ocRetry n) s = .next t ∧ t = { s with regs := t.regs, pwr := t.pwr, lsp := t.lsp } ∧ others t ∧ t.rbit (Blk.pwr.base + 0x40) 2 = true ∧
        t.mod n = { x with st := .starting, rg := 0, ramp := some ⟨now / 64, 0, rgFull⟩, w := [], wp := [], e1 := 0, e2 := 0, e3 := 0, e4 := 0, c := 0, upd := [], retries := satInc 255 x.retries })) ∧
    (
      let due : Prop := (x.st = .running ∨ x.st = .sleep) ∧ x.runSince + s.msTicks 10000 ≤ now
      (¬ due → exec (.retriesReset n) s = .next s) ∧
      (due → ∃ t, exec (.retriesReset n) s = .next t ∧ t = { s with pwr := t.pwr } ∧ others t ∧ t.pwr.driveEn = s.pwr.driveEn ∧ t.mod n = { x with retries := 0 }))

/-- SENSE_LOST of an input in use that is not lost and has given 4 × D identical bits raises its fault, makes its reading 0, discards its channel's blocks and ends a calibration sum of it with DISTURBED; SENSE_INPUT_RESTORED is a toggle of the input: it ends the loss and its run of bits, and nothing else. Where the write is admitted, a calibration command that names no sense channel changes nothing but CAL_CTRL; one for another KIND or INDEX clears ZERO_DONE; ZERO or REF while a sum runs gives BUSY, REF without a ZERO of the same channel NO_ZERO, a channel that is not OFF and disabled NOT_OFF; else the sum starts at the next frame boundary from 0. CANCEL ends a running sum with CANCELLED and clears ZERO_DONE, or gives MOOT. The end of the ZERO sum is CAL_STEP with OK; the end of the REF sum is CAL_DONE, and the trims of R110 are written to the channel's registers where they are in range, or CAL_RANGE is raised and the trims stay (R110, R350, R351; that an unnamed channel changes nothing is the model's, notes/assumptions/11). -/
def Obligations.SensingAndCalibration : Prop :=
  ∀ (s : State) (m : Master) (i : Nat) (v : Word),
    let c := s.lsp.cal
    let now := s.sys.tick
    let kind := bits v 4 2
    let idx := bits v 8 5
    let ctl := Blk.lsp.base + 0x20
    (
      let due : Prop := i < 68 ∧ snsL s (snsGroup i) ≠ 0 ∧ (s.sns i).lost = false ∧ 4 * 2 ^ snsL s (snsGroup i) ≤ (s.sns i).run
      (¬ due → exec (.senseLost i) s = .next s) ∧
      (due → ∃ t, exec (.senseLost i) s = .next t ∧ t = { s with regs := t.regs, sys := t.sys, lsp := t.lsp } ∧ t.sys.tick = now ∧ t.faultBit .lsp 1 = true ∧
        t.sns i = { s.sns i with lost := true, r := 0 } ∧ (∀ j, j ≠ i → t.sns j = s.sns j) ∧
        (∀ k, t.spk k = (if i < 64 ∧ k = i % 32 then { s.spk k with estOk := false, supOk := false } else s.spk k)) ∧
        (c.busy = true → 32 * c.kind + c.index = i → t.lsp.cal = { c with busy := false, result := 6 }) ∧
        (c.busy = false ∨ 32 * c.kind + c.index ≠ i → t.lsp.cal = c))) ∧
    (∃ t, exec (.senseInputRestored i) s = .next t ∧ t = { s with lsp := { s.lsp with sns := t.lsp.sns } } ∧
      t.sns i = (if (s.sns i).lost = true then { s.sns i with lost := false, bit := !(s.sns i).bit, run := 1 } else s.sns i) ∧ ∀ j, j ≠ i → t.sns j = s.sns j) ∧
    (MayWrite m s →
      let wrote (t : State) : Prop := t.resp m = ⟨.ok, []⟩ ∧ t = { s with bus := t.bus, regs := t.regs, lsp := { s.lsp with cal := t.lsp.cal } } ∧
        ∀ a, a ≠ ctl → t.reg a = s.reg a
      let named : Prop := kind < 2 ∨ (kind = 2 ∧ idx < 4)
      let same := c.kind == kind && c.index == idx
      let off : Prop := kind = 2 ∨ ((s.mod idx).st = .off ∧ (s.mod idx).en = false)
      let a : Cal := { c with zeroDone := c.zeroDone && same }
      let d : Cal := { a with kind := kind, index := idx }
      (∃ t, exec (.calZero m v) s = .next t ∧ wrote t ∧ (¬ named → t.lsp.cal = c) ∧
        (named → c.busy = true → t.lsp.cal = { a with result := 2 }) ∧
        (named → c.busy = false → ¬ off → t.lsp.cal = { d with result := 4 }) ∧
        (named → c.busy = false → off → t.lsp.cal = { d with busy := true, isRef := false, from_ := now / 64 + 1, count := 0, s0 := 0 })) ∧
      (∃ t, exec (.calRef m v) s = .next t ∧ wrote t ∧ (¬ named → t.lsp.cal = c) ∧
        (named → c.busy = true → t.lsp.cal = { a with result := 2 }) ∧
        (named → c.busy = false → d.zeroDone = false → t.lsp.cal = { d with result := 3 }) ∧
        (named → c.busy = false → d.zeroDone = true → ¬ off → t.lsp.cal = { d with result := 4 }) ∧
        (named → c.busy = false → d.zeroDone = true → off → t.lsp.cal = { d with busy := true, isRef := true, from_ := now / 64 + 1, count := 0, s1 := 0 })) ∧
      (∃ t, exec (.calCancel m) s = .next t ∧ wrote t ∧
        (c.busy = true → t.lsp.cal = { c with busy := false, result := 5, zeroDone := false }) ∧ (c.busy = false →
          t.lsp.cal = { c with result := 8, zeroDone := c.zeroDone && (c.kind == bits (s.reg ctl) 4 2 && c.index == bits (s.reg ctl) 8 5) }))) ∧
    (
      let due : Prop := c.busy = true ∧ c.isRef = false ∧ c.count = 4096
      (¬ due → exec .calZeroDone s = .next s) ∧
      (due → ∃ t, exec .calZeroDone s = .next t ∧ t = { s with regs := t.regs, lsp := { s.lsp with cal := { c with busy := false, zeroDone := true, result := 1 } } } ∧
        t.rbit (Blk.lsp.base + 0x40) 0 = true)) ∧
    (
      let due : Prop := c.busy = true ∧ c.isRef = true ∧ c.count = 4096
      let ref := sInt 20 (s.fld (Blk.lsp.base + 0x28 + 4 * c.kind) 0 20)
      let gain := rneDiv (ref * 2 ^ 34) (c.s1 - c.s0)
      let ok : Prop := 0 < c.s1 - c.s0 ∧ 2 ^ 21 ≤ gain ∧ gain < 2 ^ 23
      let a := match c.kind with | 0 => spkReg c.index 0x08 | 1 => spkReg c.index 0x10 | _ => Blk.pwr.base + 0x104 + 0x10 * c.index
      (¬ due → exec .calRefDone s = .next s) ∧
      (due → ∃ t, exec .calRefDone s = .next t ∧ t.rbit (Blk.lsp.base + 0x40) 1 = true ∧
        (ok → t = { s with regs := t.regs, lsp := { s.lsp with cal := { c with busy := false, result := 1 } } } ∧
          t.reg a = wd (uInt 24 (rneDiv c.s0 256)) ∧ t.reg (a + 4) = wd gain.toNat ∧
          ∀ b, b ≠ a → b ≠ a + 4 → b ≠ Blk.lsp.base + 0x40 → t.reg b = s.reg b) ∧
        (¬ ok → t = { s with regs := t.regs, sys := t.sys, lsp := { s.lsp with cal := { c with busy := false, result := 7 } } } ∧
          t.faultBit .lsp 0 = true ∧ t.reg a = s.reg a ∧ t.reg (a + 4) = s.reg (a + 4))))

/-- At a frame boundary whose frame number is a multiple of 64, once, MODEL_STEP gives every enabled channel the power of R354, or its last one while an input is lost, the temperatures of R355 and the target gain of R357, and raises SURVIVAL_EXCEEDED where R359's condition begins; a channel that is not enabled stays as it is. ESTIMATION_BLOCK_END of a valid block gives RES and tmeas of R353 and corrects the model and the target by R356; an invalid one only ages the estimate. SUPERVISION_BLOCK_END of a block that counts records its class and ZMEAS; the same class twice, but NO_PILOT, is the verdict, and a change of verdict raises its fault and event. Out of their conditions these events change nothing (R353 to R357, R359, R360; LIMIT, KNEE and RCW act from the step on, R364; a result R353 or R360 would divide by 0 for is open, notes/assumptions/11). -/
def Obligations.ThermalModelAndLine : Prop :=
  ∀ (s : State) (n : Fin 32),
    let x := s.spk n
    let k := s.sys.tick / 64
    let onFrame : Prop := s.sys.tick % 64 = 0
    let en : Prop := spkCfg s n 0 = true
    let c (off lo w : Nat) : Int := (s.fld (spkReg n off) lo w : Nat)
    let others (t : State) : Prop := ∀ j, j ≠ n.val → t.spk j = s.spk j
    let target (y : LspCh) : Prop :=
      let knee : Int := (bits y.useKnee 0 16 : Nat) * 4096
      let tl : Int := (if s.sys.alarmEff = true then bits y.useLim 16 16 else bits y.useLim 0 16 : Nat) * 4096
      let gmin : Int := if s.sys.alarmEff = true then (bits y.useKnee 16 16 : Nat) * 64 else 0
      let exceeds := max y.tc (y.tm + floorDivI (y.p * (bits y.useRcw 0 24 : Nat)) 256) - (tl - knee)
      (spkCfg s n 1 = false → y.gt = 4194304) ∧
      (spkCfg s n 1 = true → (exceeds ≤ 0 → y.gt = 4194304) ∧ (0 < exceeds → knee ≤ exceeds → y.gt = gmin.toNat) ∧
        (0 < exceeds → exceeds < knee → y.gt = (max (floorDivI (4194304 * (knee - exceeds)) knee) gmin).toNat))
    (
      let due : Prop := onFrame ∧ k % 64 = 0 ∧ s.lsp.stepped ≠ some k
      (¬ due → exec .modelStep s = .next s) ∧
      (due → ∃ t, exec .modelStep s = .next t ∧ t = { s with regs := t.regs, sys := t.sys, lsp := { s.lsp with chs := t.lsp.chs, stepped := some k } } ∧ t.sys.tick = s.sys.tick ∧
        (¬ en → t.spk n = x) ∧
        (en →
          let y := t.spk n
          let dc := x.tc - x.tm
          let hot : Prop := s.sys.alarmEff = true ∧ c 0x38 16 16 * 4096 ≤ y.tc
          y = { x with p := y.p, sumP := 0, tc := y.tc, tm := y.tm, gt := y.gt, hot := y.hot, useLim := s.reg (spkReg n 0x38), useKnee := s.reg (spkReg n 0x3C), useRcw := s.reg (spkReg n 0x30) } ∧
          (spkLost s n = true → y.p = x.p) ∧
          (spkLost s n = false → y.p = max 0 (floorDivI (x.sumP * ((spkVfs s n * spkIfs s n : Nat) : Int)) (2 ^ 38 * 6400))) ∧
          y.tc = x.tc + floorDivI (y.p * c 0x20 0 28 - dc * c 0x24 0 24) (2 ^ 24) ∧
          y.tm = x.tm + floorDivI (dc * c 0x28 0 24 - (x.tm - spkTa s n) * c 0x2C 0 24) (2 ^ 24) ∧
          target y ∧ (y.hot = true ↔ hot) ∧ (hot → x.hot = false → t.faultBit .lsp 2 = true)))) ∧
    (
      let due : Prop := onFrame ∧ k % estFrames s = 0 ∧ en
      let sxy := (estSums s n).1
      let syy := (estSums s n).2
      let ne := estFrames s
      let im := s.fld (spkReg n 0x44) 0 16
      let strong : Prop := if spkCfg s n 3 = true then (((ne * im * 32768) ^ 2 : Nat) : Int) ≤ 4 * syy else ((ne * (im * 4096) ^ 2 : Nat) : Int) ≤ syy
      let ifs : Int := (spkIfs s n : Nat)
      let rref := c 0x18 0 20
      let res := rneDiv (10 ^ 4 * (spkVfs s n : Nat) * sxy) (ifs * syy)
      (¬ due → exec (.estimationBlockEnd n) s = .next s) ∧
      (due → ∃ t, exec (.estimationBlockEnd n) s = .next t ∧
        let y := t.spk n
        t = { s with freeCount := t.freeCount, lsp := { s.lsp with chs := t.lsp.chs } } ∧ others t ∧
        (¬ (x.estOk = true ∧ strong) → y = { x with estAge := satInc 255 x.estAge, estOk := false } ∧ t.freeCount = s.freeCount) ∧
        (x.estOk = true → strong →
          y = { x with res := y.res, tmeas := y.tmeas, estAge := 0, estValid := true, estOk := false, tc := y.tc, tm := y.tm, gt := y.gt } ∧
          (ifs * syy ≠ 0 → y.res = (res % (2 ^ 24 : Int)).toNat) ∧
          (ifs * syy ≠ 0 → rref ≠ 0 → y.tmeas = sInt 16 (s.fld (spkReg n 0x1C) 0 16) * 4096 +
            rneDiv (2 ^ 16 * 10 ^ 5 * (res - rref)) (rref * (if spkCfg s n 4 = true then 403 else 393))) ∧
          y.tc = x.tc + floorDivI ((y.tmeas - x.tc) * c 0x34 0 16) 65536 ∧ y.tm = x.tm + floorDivI ((y.tmeas - x.tc) * c 0x34 16 16) 65536 ∧
          target y))) ∧
    (
      let due : Prop := onFrame ∧ k % supFrames s = 0 ∧ en ∧ spkCfg s n 2 = true ∧ x.supOk = true
      let cls := lineClass s n (lineZ s n).1
      let vm2 := (x.sup.vc * x.sup.vc + x.sup.vs * x.sup.vs).natAbs
      (¬ due → exec (.supervisionBlockEnd n) s = .next s) ∧
      (due → ∃ t, exec (.supervisionBlockEnd n) s = .next t ∧
        let y := t.spk n
        t = { s with regs := t.regs, sys := t.sys, freeCount := t.freeCount, lsp := { s.lsp with chs := t.lsp.chs } } ∧ t.sys.tick = s.sys.tick ∧ others t ∧
        ((x.sup.ic * x.sup.ic + x.sup.is * x.sup.is).natAbs = 0 ∨ spkIfs s n ≠ 0 → t.freeCount = s.freeCount) ∧
        y = { x with zmeas := y.zmeas, lastCls := cls, supOk := false, pilotAbsent := y.pilotAbsent, line := y.line } ∧
        (cls = 6 ↔ 4 * vm2 < (supFrames s * s.fld (spkReg n 0x44) 16 16 * 32768) ^ 2) ∧
        y.zmeas = (match (lineZ s n).1 with | some z => min z (2 ^ 24 - 1) | none => 2 ^ 24 - 1) ∧
        (cls ≠ 6 → y.pilotAbsent = false) ∧ (cls = 6 → y.pilotAbsent = (x.pilotAbsent || x.lastCls == 6) ∧ y.line = x.line) ∧
        (cls ≠ 6 → x.lastCls ≠ cls → y.line = x.line) ∧
        (cls ≠ 6 → x.lastCls = cls → y.line = cls ∧ (x.line ≠ cls → t.rbit (Blk.lsp.base + 0x40) 3 = true ∧
          (cls = 2 → t.faultBit .lsp 3 = true) ∧ (cls = 3 → t.faultBit .lsp 4 = true) ∧ (cls = 4 ∨ cls = 5 → t.faultBit .lsp 5 = true)))))

/-- STATUS_FRAME_SEND forms the frame of the chip's state, STATUS_FRAME_RECEIVE keeps the partner's and its health, and one that shows the same UNIT over a link that is up makes the chip ineligible; a damaged one, as a damaged DETAIL, only counts in LINK_ERR; with SOLO neither changes anything. PAIR_LINK_UP needs a STATUS frame. PAIR_LINK_DOWN fences the link with its fault and DEGRADED, freezes a base that was being received and keeps it, and ends a handover in HOLDING with ABORTED. At the end of its period a holder closes one delta with every change no host drives, at its current value, and one slice, into its own area, and onto the link unless SOLO has powered it down. A delta or slice that a chip does not receive changes nothing; a damaged one, or one out of order, counts in LINK_ERR, raises CKPT_LOSS and freezes the base; a delta in order enters a live base; the hundredth slice of a cycle in order makes the copy collected the base. DETAIL, REQUEST, RELEASED and TAKEN frames have the effects of Table 15.8, and nothing else (R366 to R368, R377, R382 to R386, R389, R391; the encodings and the order of items are the model's, notes/assumptions/15). -/
def Obligations.PairLinkAndCheckpoints : Prop :=
  ∀ (s : State) (f : PairStatus) (d : Delta) (sl : Slice) (ws : List Word),
    let p := s.pair
    let c := s.ckpt
    let now := s.sys.tick
    let quiet (t : State) : Prop := t = { s with regs := t.regs, sys := t.sys, img := t.img, cells := t.cells, pair := t.pair }
    let lost (t : State) : Prop := t.faultBit .pair 5 = true ∧ t.pair.linkErr = (p.linkErr + 1) % 2 ^ 32 ∧ t.ckpt.base = c.base ∧ t.ckpt.valid = c.valid ∧ t.ckpt.frozen = true
    (
      (solo s = true → exec .statusFrameSend s = .next s) ∧
      (solo s = false → ∃ t, exec .statusFrameSend s = .next t ∧ ∃ g, t = { s with pair := { p with sent := some g } } ∧ g.wick = p.wick.code ∧ g.unit = unitOf s ∧ g.arm = armed s ∧
        g.ckptValid = c.valid ∧ g.health = health s)) ∧
    (
      (solo s = true → exec (.statusFrameReceive f) s = .next s) ∧
      (solo s = false → f.ok = false → exec (.statusFrameReceive f) s = .next { s with pair := { p with linkErr := (p.linkErr + 1) % 2 ^ 32 } }) ∧
      (solo s = false → f.ok = true → ∃ t, exec (.statusFrameReceive f) s = .next t ∧ quiet t ∧ t.pair.partner = some f ∧ t.pair.heardAt = now ∧ t.pair.phealth = f.health ∧
        (p.phealth ≠ f.health → t.rbit (Blk.pair.base + 0x40) 4 = true) ∧
        (p.linkUp = true → f.unit = unitOf s → (unitClash s = false → t.faultBit .pair 7 = true) ∧
          (ticksRun s = true → t.pair.eligible = false ∧ (p.wick = .standby ∨ p.wick = .preparing ∨ p.wick = .lighting → t.pair.wick = .disarmed))))) ∧
    (
      let due : Prop := solo s = false ∧ p.linkUp = false ∧ p.partner ≠ none
      (¬ due → exec .pairLinkUp s = .next s) ∧ (due → ∃ t, exec .pairLinkUp s = .next t ∧ quiet t ∧ t.pair.linkUp = true)) ∧
    (
      (p.linkUp = false → exec .pairLinkDown s = .next s) ∧
      (p.linkUp = true → ∃ t, exec .pairLinkDown s = .next t ∧ t.pair.linkUp = false ∧ t.pair.linkFenced = true ∧ t.faultBit .pair 3 = true ∧ t.sys.degraded = true ∧
        t.ckpt.base = c.base ∧ t.ckpt.valid = c.valid ∧
        (p.wick = .releasing → t.pair.wick = .holding ∧ t.pair.hoResult = 6 ∧ t.pair.rampEnd = none) ∧
        (p.wick ≠ .holding → p.wick ≠ .releasing → (c.nextDelta ≠ none ∨ c.collecting = true) →
          t.faultBit .pair 5 = true ∧ t.ckpt.frozen = true ∧ t.ckpt.collecting = false))) ∧
    (
      let due : Prop := holder s = true ∧ now % 64 = 0 ∧ (now / 64) % (s.fs / 1000) = 0 ∧ c.sentAt ≠ some now
      (¬ due → exec .deltaPeriodEnd s = .next s) ∧
      (due → ∃ t, exec .deltaPeriodEnd s = .next t ∧ t = { s with regs := t.regs, ckpt := t.ckpt } ∧ t.ckpt.sentAt = some now ∧
        t.ckpt.sendNum = (c.sendNum + 1) % 2 ^ 32 ∧ t.ckpt.sendSlice = (c.sendSlice + 1) % 100 ∧
        ∃ its its2, t.ckpt.sentDelta = (if solo s then c.sentDelta else some ⟨c.sendNum, true, its⟩) ∧
          t.ckpt.sentSlice = (if solo s then c.sentSlice else some ⟨c.sendSlice, true, its2⟩) ∧
          t.ckpt.nextDelta = some ((c.sendNum + 1) % 2 ^ 32) ∧ (c.valid = true → c.frozen = false → c.sendSlice < 99 → t.ckpt.base = ckApply c.base its) ∧
          (∀ it ∈ its, it.vals = ckNow s it.key) ∧
          ∀ k ∈ ckKeys s, ckHostBytes k = none → ckFind c.last k ≠ some (ckNow s k) → (⟨k, ckNow s k⟩ : CkItem) ∈ its)) ∧
    (
      let gap : Prop := ∃ n, c.nextDelta = some n ∧ n ≠ d.num
      (receives s = false → exec (.deltaReceive d) s = .next s) ∧
      (receives s = true → d.ok = false → ∃ t, exec (.deltaReceive d) s = .next t ∧ lost t ∧ t.ckpt.collecting = false ∧ t.ckpt.nextDelta = none) ∧
      (receives s = true → d.ok = true → ∃ t, exec (.deltaReceive d) s = .next t ∧ t.ckpt.nextDelta = some ((d.num + 1) % 2 ^ 32) ∧ t.ckpt.newestNum = d.num ∧ t.ckpt.valid = c.valid ∧
        (gap → lost t) ∧
        (¬ gap → c.valid = true → c.frozen = false → t.ckpt.base = ckApply c.base d.items ∧ t.ckpt.baseNum = d.num) ∧
        (¬ gap → (c.valid = false ∨ c.frozen = true) → t.ckpt.base = c.base ∧ t.ckpt.baseNum = c.baseNum))) ∧
    (
      let gap : Prop := c.collecting = true ∧ sl.num ≠ c.nextSlice
      (receives s = false → exec (.sliceReceive sl) s = .next s) ∧
      (receives s = true → ∃ t, exec (.sliceReceive sl) s = .next t ∧
      (receives s = true → sl.ok = false → lost t ∧ t.ckpt.collecting = false) ∧
      (receives s = true → sl.ok = true → gap → t.faultBit .pair 5 = true ∧ t.ckpt.base = c.base ∧ (sl.num ≠ 0 → lost t ∧ t.ckpt.collecting = false)) ∧
      (receives s = true → sl.ok = true → sl.num = 0 → t.ckpt.collecting = true ∧ t.ckpt.nextSlice = 1 ∧ t.ckpt.collect = ckApply [] sl.items) ∧
      (receives s = true → sl.ok = true → ¬ gap → 0 < sl.num → c.collecting = false → t.ckpt = c) ∧
      (receives s = true → sl.ok = true → ¬ gap → 0 < sl.num → sl.num < 99 → c.collecting = true →
        t.ckpt = { c with collect := ckApply c.collect sl.items, nextSlice := sl.num + 1 }) ∧
      (receives s = true → sl.ok = true → ¬ gap → sl.num = 99 → c.collecting = true →
        t.ckpt = { c with base := ckApply c.collect sl.items, collect := [], collecting := false, nextSlice := 0, frozen := false, baseNum := c.newestNum, baseTick := now, valid := true }))) ∧
    (p.linkUp = false → exec (.detailFrameReceive ws) s = .next s) ∧
    (p.linkUp = true → ws.length ≠ 24 → exec (.detailFrameReceive ws) s = .next { s with pair := { p with linkErr := (p.linkErr + 1) % 2 ^ 32 } }) ∧
    (p.linkUp = true → ws.length = 24 → ∃ t, exec (.detailFrameReceive ws) s = .next t ∧ t = { s with regs := t.regs } ∧
      (∀ a, t.reg a = (if 0x40160200 ≤ a ∧ a < 0x40160260 ∧ a % 4 = 0 then (ws[(a - 0x40160200) / 4]?).getD (s.reg a) else s.reg a))) ∧
    (
      let due : Prop := receives s = true ∧ p.wick = .standby ∧ s.sys.standby = true ∧ s.sys.run = false ∧ s.img.cold = true ∧ p.cold = .none
      (¬ due → exec .handoverRequestReceive s = .next s) ∧
      (due → ∃ t, exec .handoverRequestReceive s = .next t ∧ t = { s with sys := t.sys, pair := { p with cold := .configuring }, ckpt := { c with held := none } } ∧
        t.sys = { s.sys with phase := if s.sys.phase = .stopped then .config else s.sys.phase })) ∧
    (
      (receives s = false → exec .releasedReceive s = .next s) ∧
      (receives s = true → ∃ t, exec .releasedReceive s = .next t ∧ t = { s with pair := { p with gotReleased := true } })) ∧
    (
      let due : Prop := p.linkUp = true ∧ p.releasedAt ≠ none
      (¬ due → exec .takenReceive s = .next s) ∧
      (due → ∃ t, exec .takenReceive s = .next t ∧ t = { s with regs := t.regs, pair := { p with releasedAt := none, hoResult := 1, hoTick := now % 65536 } } ∧
        t.rbit (Blk.pair.base + 0x40) 2 = true))

/-- Where the write is admitted, ARM takes its bit, and setting it starts the lease timer with FIRST; while the ticks run the wick is then DISARMED or STANDBY as R373's conditions say. CFG is written only in DISARMED. A pilot is sent when it is due; a failed readback takes a holder to the snuffed state with WICK_FAIL, and a lighting chip to DISARMED with LIGHT_FAIL and ARM cleared. A pilot read by an armed chip clears FIRST and restarts the lease timer, and takes PREPARING or LIGHTING back to STANDBY; a pulse read while holding raises WICK_CONFLICT, and UNIT 1 releases, with STANDBY set. PILOT_GAP of a holder clears ARM, releases, and lowers DRIVE_EN at once where the ticks stop. LEASE_EXPIRY leads to PREPARING, GUARD_EXPIRY and the end of a handover's pilot wait to LIGHTING, or to LIGHT_FAIL where the line is not high. Out of their conditions these events change nothing (R370 to R375, R377, R389, R396; that time passes while the ticks stop as the command says is the model's, notes/assumptions/15). -/
def Obligations.WickPilotsAndTimers : Prop :=
  ∀ (s : State) (m : Master) (v : Word) (off : Fin 65536) (ok : Bool),
    let p := s.pair
    let now := s.sys.tick
    let past (a d : Nat) : Prop := ticksRun s = false ∨ a + d ≤ now
    let conflict (t : State) : Prop := t.faultBit .pair 4 = true ∧
      (unitOf s = false → t.pair.wick = p.wick) ∧
      (unitOf s = true → t.sys.standby = true ∧ t.pair.lastPilot = none ∧ t.pair.wick = (if armed s = true ∧ p.eligible = true then .standby else .disarmed))
    let lights (high : Bool) (t : State) : Prop := t.pair.line = high ∧ t.pair.lightAt = now ∧
      (high = true → t = { s with regs := t.regs, pair := { p with wick := .lighting, line := true, lightAt := now } }) ∧
      (high = false → t.pair.wick = .disarmed ∧ armed t = false ∧ t.faultBit .pair 2 = true)
    (MayWrite m s →
      (∃ t, exec (.arm m v) s = .next t ∧ t.resp m = ⟨.ok, []⟩ ∧
        t = { s with bus := t.bus, regs := t.regs, sys := t.sys, img := t.img, cells := t.cells, pair := t.pair } ∧ armed t = bit v 0 ∧
        (bit v 0 = true → armed s = false → t.pair.first = true ∧ t.pair.leaseFrom = now) ∧
        (ticksRun s = false → t.pair.wick = p.wick) ∧
        (ticksRun s = true →
          let e : Prop := bit v 0 = true ∧ s.img.activeId ≠ 0 ∧ storeBarred s = false ∧ s.sys.snuffed = false ∧ s.sys.monitorDue = false ∧ unitClash s = false
          (t.pair.eligible = true ↔ e) ∧
          (p.wick = .holding ∨ p.wick = .releasing → t.pair.wick = p.wick) ∧
          (p.wick = .disarmed → (e → t.pair.wick = .standby) ∧ (¬ e → t.pair.wick = .disarmed)) ∧
          (p.wick = .standby ∨ p.wick = .preparing ∨ p.wick = .lighting → (e → t.pair.wick = p.wick) ∧ (¬ e → t.pair.wick = .disarmed)))) ∧
      (∃ t, exec (.pairCfgWrite m off v) s = .next t ∧
        let o := off.val
        (o = 8 → p.wick ≠ .disarmed → t.resp m = ⟨.accessErr, []⟩ ∧ t = { s with bus := t.bus }) ∧
        (o = 8 → p.wick = .disarmed → t.resp m = ⟨.ok, []⟩ ∧ t.reg 0x40160008 = v &&& 0x3FF ∧ (bit v 9 = true → t.pair.linkUp = false) ∧
          (bit v 9 = false → t.pair.linkUp = p.linkUp)) ∧
        (o = 0xC → t.resp m = ⟨.ok, []⟩ ∧ t = { s with bus := t.bus, regs := t.regs } ∧ t.reg 0x4016000C = v &&& 1 ∧ ∀ a, a ≠ 0x4016000C → t.reg a = s.reg a) ∧
        (o ≠ 8 → o ≠ 0xC → t.resp m = ⟨.accessErr, []⟩ ∧ t = { s with bus := t.bus }))) ∧
    (
      let due : Prop := (p.wick = .holding ∨ p.wick = .releasing ∨ p.wick = .lighting) ∧ s.sys.snuffed = false ∧ ticksRun s = true ∧ p.pilotTick ≠ some now ∧
        ∀ a, p.lastPilot = some a → (p.wick = .lighting ∧ a < p.lightAt) ∨ a + pilotTicks s ≤ now
      (¬ due → exec (.pilotSend ok) s = .next s) ∧
      (due → ok = true → exec (.pilotSend ok) s = .next { s with pair := { p with lastPilot := some now, pilotTick := some now } }) ∧
      (due → ok = false → ∃ t, exec (.pilotSend ok) s = .next t ∧ t.pair.wick = .disarmed ∧ t.pair.lastPilot = some now ∧
        (p.wick ≠ .lighting → t.sys.snuffed = true ∧ t.sys.run = false ∧ t.sys.standby = true ∧ t.pwr.driveEn = false ∧ t.faultBit .pair 0 = true) ∧
        (p.wick = .lighting → armed t = false ∧ t.faultBit .pair 2 = true))) ∧
    (p.wick = .disarmed ∨ p.wick = .standby → exec .pilotRead s = .next (if armed s = true then { s with pair := { p with first := false, leaseFrom := now } } else s)) ∧
    (p.wick = .preparing ∨ p.wick = .lighting ∨ p.wick = .holding ∨ p.wick = .releasing → ∃ t, exec .pilotRead s = .next t ∧
      (armed s = true → t.pair.first = false ∧ t.pair.leaseFrom = now) ∧
      (p.wick = .preparing ∨ p.wick = .lighting → (ticksRun s = false ∨ eligibleNow s = true) → t.pair.wick = .standby) ∧
      (p.wick = .holding ∨ p.wick = .releasing → conflict t)) ∧
    (p.wick = .disarmed ∨ p.wick = .standby ∨ p.wick = .preparing → exec .foreignPulse s = .next s) ∧
    (p.wick = .lighting ∨ p.wick = .holding ∨ p.wick = .releasing → ∃ t, exec .foreignPulse s = .next t ∧
      (p.wick = .lighting → t.pair.leaseFrom = now ∧ ((ticksRun s = false ∨ eligibleNow s = true) → t.pair.wick = .standby)) ∧
      (p.wick = .holding ∨ p.wick = .releasing → conflict t)) ∧
    (
      let due : Prop := holder s = true ∧ ∃ a, p.lastPilot = some a ∧ past a (leaseTicks s)
      (¬ due → exec .pilotGap s = .next s) ∧
      (due → ∃ t, exec .pilotGap s = .next t ∧ armed t = false ∧ t.pair.wick = .disarmed ∧ t.pair.lastPilot = none ∧
        (ticksRun s = true → t.sys.standby = true ∧ t.faultBit .pair 1 = true) ∧ (ticksRun s = false → t.pwr.driveEn = false ∧ t.pair.released = true))) ∧
    (
      let due : Prop := p.wick = .standby ∧ past p.leaseFrom (leaseThr s)
      let cold : Prop := s.sys.standby = true ∧ s.sys.run = false ∧ s.img.cold = true ∧ p.cold = .none
      (¬ due → exec .leaseExpiry s = .next s) ∧
      (due → ∃ t, exec .leaseExpiry s = .next t ∧ t.pair = { p with wick := .preparing, cold := t.pair.cold } ∧ t.rbit (Blk.pair.base + 0x40) 0 = true ∧ (cold → t.pair.cold = .configuring) ∧
        (¬ cold → t = { s with regs := t.regs, pair := { p with wick := .preparing } }))) ∧
    (
      let due : Prop := p.wick = .preparing ∧ past p.leaseFrom (leaseThr s + guardTicks s)
      (¬ due → exec (.guardExpiry ok) s = .next s) ∧ (due → ∃ t, exec (.guardExpiry ok) s = .next t ∧ lights ok t)) ∧
    (
      let due : Prop := p.gotReleased = true ∧ s.ckpt.nextDelta ≠ none ∧ (p.wick = .standby ∨ p.wick = .preparing) ∧ past p.leaseFrom (guardTicks s)
      (¬ due → exec .handoverPilotWaitEnd s = .next s) ∧ (due → ∃ t, exec .handoverPilotWaitEnd s = .next t ∧ lights p.line t))

/-- A chip that has been LIGHTING for P while the ticks run takes the wick: HOLDING, STANDBY 0, TAKEN after a handover, RUN as the checkpoint, or without one the newest delta, shows the partner, and ALARM likewise. COLD_CONFIG_END needs a store that no check has found corrupt since the last full load; it configures the chip, which then starts where RUN was set alone, and else restores. RESTORE_END of a holder, or of a chip whose RUN was set meanwhile, starts the outputs where RUN is 1; of another chip it leaves it ready. HANDOVER, where the write is admitted, is refused with the first code of R388 that applies, or makes the chip RELEASING, with REQUEST and the ramp to b + 4,096; at that tick the final delta and RELEASED are sent and the wick is released, with STANDBY set. Without TAKEN in time HO_RES is TIMEOUT. A sweep pass starts when it is due, or is late with its fault; its end counts it, reports a store that is bad with STORE_CORRUPT, makes a TEST cell that passed a SPARE, and posts its event. Out of their conditions these events change nothing (R376, R379, R381, R388 to R391). -/
def Obligations.TakeoverAndHandover : Prop :=
  ∀ (s : State) (m : Master) (failed macs : List Nat),
    let p := s.pair
    let c := s.ckpt
    let now := s.sys.tick
    (
      let due : Prop := p.wick = .lighting ∧ ticksRun s = true ∧ p.lightAt + pilotTicks s ≤ now
      let seen : Bool := ((ckFind c.base .run).getD []).getD 0 0 != 0
      (¬ due → exec .takeover s = .next s) ∧
      (due → ∃ t, exec .takeover s = .next t ∧ t.pair.wick = .holding ∧ t.sys.standby = false ∧ t.pair.gotReleased = false ∧ t.rbit (Blk.pair.base + 0x40) 1 = true ∧
        (p.gotReleased = true → t.pair.sentHandover = 3) ∧
        (c.valid = true → t.sys.run = (s.sys.run || seen) ∧ t.sys.alarm = s.sys.alarm) ∧
        (c.valid = false → ∀ r a, p.newest = some (r, a) → t.sys.run = r ∧ t.sys.alarm = a) ∧
        (c.valid = false → p.newest = none → t.sys.run = s.sys.run ∧ t.sys.alarm = s.sys.alarm))) ∧
    (
      let due : Prop := p.cold = .configuring ∧ s.img.storeCorrupt = false
      (¬ due → exec .coldConfigEnd s = .next s) ∧
      (due → ∃ t, exec .coldConfigEnd s = .next t ∧ t.img.cold = false ∧ t.sys.run = s.sys.run ∧
        (c.held = none → s.sys.run = true → t.pair.cold = .none ∧ t.sys.phase = .rampIn ∧ t.sys.rampEnd = some (64 * (now / 64 + 1) + 4096)) ∧
        (c.held ≠ none ∨ s.sys.run = false → t.pair.cold = .restoring ∧ t.ckpt.held ≠ none ∧ (c.held ≠ none → t.ckpt.held = c.held)))) ∧
    (
      (p.cold ≠ .restoring → exec .restoreEnd s = .next s) ∧
      (p.cold = .restoring → ∃ t, exec .restoreEnd s = .next t ∧ t.sys.run = s.sys.run ∧ t.pair.wick = p.wick ∧
        (holder s = true ∨ s.sys.run = true → t.pair.cold = .none ∧ (s.sys.run = true → t.sys.phase = .rampIn ∧ t.sys.rampEnd = some (64 * (now / 64 + 1) + 4096)) ∧
          (s.sys.run = false → t.sys.phase = .stopped)) ∧
        (holder s = false → s.sys.run = false → t.pair.cold = .ready ∧ t.sys.phase = (if s.sys.phase = .config then .stopped else s.sys.phase)))) ∧
    (MayWrite m s → ∃ t, exec (.handover m) s = .next t ∧ t.resp m = ⟨.ok, []⟩ ∧
      let fit : Prop := ∃ f, p.partner = some f ∧ nbit f.mode 2 = true ∧ f.arm = true ∧ (f.wick = 1 ∨ f.wick = 2 ∨ f.wick = 3) ∧ f.ckptValid = true
      let refused (code : Nat) : Prop := t = { s with bus := t.bus, pair := { p with hoResult := code, hoTick := now % 65536 } }
      (s.sys.snuffed = true → refused 8) ∧
      (s.sys.snuffed = false → p.wick ≠ .holding → refused 2) ∧
      (s.sys.snuffed = false → p.wick = .holding → s.sys.maint = true → refused 3) ∧
      (s.sys.snuffed = false → p.wick = .holding → s.sys.maint = false → (p.linkUp = false ∨ p.linkFenced = true) → refused 4) ∧
      (s.sys.snuffed = false → p.wick = .holding → s.sys.maint = false → p.linkUp = true → p.linkFenced = false → ¬ fit → refused 5) ∧
      (s.sys.snuffed = false → p.wick = .holding → s.sys.maint = false → p.linkUp = true → p.linkFenced = false → fit →
        t.pair = { p with wick := .releasing, sentHandover := 1, releasedAt := none, rampEnd := some (64 * (now / 64 + 1) + 4096) } ∧
        t.sys.standby = s.sys.standby ∧ t.sys.run = s.sys.run ∧
        (s.sys.run = true → (s.sys.phase = .running ∨ s.sys.phase = .rampIn) → t.sys.phase = .rampOut ∧ t.sys.rampEnd = t.pair.rampEnd))) ∧
    (
      let due : Prop := p.wick = .releasing ∧ ∃ a, p.rampEnd = some a ∧ a ≤ now
      (¬ due → exec .handoverRampEnd s = .next s) ∧
      (due → ∃ t, exec .handoverRampEnd s = .next t ∧ t.sys.standby = true ∧ t.pair.sentHandover = 2 ∧ t.pair.releasedAt = some now ∧ t.pair.rampEnd = none ∧ t.pair.lastPilot = none ∧
        (solo s = false → ∃ its, t.ckpt.sentDelta = some ⟨c.sendNum, true, its⟩) ∧
        (ticksRun s = true → (eligibleNow s = true → t.pair.wick = .standby) ∧ (eligibleNow s = false → t.pair.wick = .disarmed)))) ∧
    (
      let due : Prop := ∃ a, p.releasedAt = some a ∧ a + leaseTicks s + guardTicks s + s.msTicks 10 ≤ now
      (¬ due → exec .handoverTimeout s = .next s) ∧
      (due → ∃ t, exec .handoverTimeout s = .next t ∧ t = { s with regs := t.regs, pair := { p with releasedAt := none, hoResult := 7, hoTick := now % 65536 } } ∧
        t.rbit (Blk.pair.base + 0x40) 2 = true)) ∧
    (
      let due : Prop := s.sys.snuffed = false ∧ ∃ a, p.sweepNext = some a ∧ a ≤ now
      (¬ due → exec .sweepPassStart s = .next s) ∧
      (due → ∃ t, exec .sweepPassStart s = .next t ∧ t = { s with regs := t.regs, sys := t.sys, pair := t.pair, fabric := { s.fabric with tested := t.fabric.tested } } ∧
        t.pair.sweepOn = true ∧ (∀ a, p.sweepNext = some a → t.pair.sweepNext = some (a + s.msTicks p.passMs)) ∧
        (p.sweepOn = true → t.faultBit .pair 6 = true ∧ t.pair.sweepLate = true ∧ t.fabric = s.fabric) ∧
        (p.sweepOn = false → ∀ q, q ∈ t.fabric.tested ↔ q < 72 ∧ ((s.cell q).role = .spare ∨ (s.cell q).role = .idle ∨ (s.cell q).role = .test)))) ∧
    (
      (p.sweepOn = false → exec (.sweepPassEnd failed macs) s = .next s) ∧
      (p.sweepOn = true → ∃ t, exec (.sweepPassEnd failed macs) s = .next t ∧ t.pair.passes = (p.passes + 1) % 2 ^ 32 ∧ t.rbit (Blk.pair.base + 0x40) 3 = true ∧
        t.pair.sweepOn = p.sweepOverdue ∧ t.pair.sweepLate = p.sweepOverdue ∧ t.pair.sweepOverdue = false ∧
        (∀ n ∈ macs, loopable s n = true → t.faultBit .pair 6 = true) ∧
        (failed = [] → (∀ q ∈ s.fabric.tested, (s.cell q).role = .test → (t.cell q).role = .spare) ∧
          (storeBad s = true → t.faultBit .img 2 = true ∧ t.img.storeCorrupt = true))))

/-- DESCRIPTOR_FETCH and DESCRIPTOR_COMPLETE complete in every state, and change nothing while no channel is served. For the served channel n without a descriptor, a fetch reads 32 bytes at its descriptor address: a misaligned address or a failing check of Table 18.4 halts it with PROG_ERR (cause 1) and that check's PCODE, a failing read halts it with BUS_ERR (cause 2), the address and the code, and a good descriptor is held with no byte of it moved. DESCRIPTOR_COMPLETE waits until all data has moved; then DESC[n] is posted where INT is set and HOPS counts; a late error halts the channel (cause 2), a STOPPING channel or one whose descriptor is LAST is IDLE with DONE[n] posted, CHn_LIMIT descriptors without LAST halt it with CHAIN_LIMIT (cause 3), and otherwise the channel goes on at NEXT. A channel that halts or is IDLE has left the run queue. Nothing but DMA, the registers and SYS's log changes after the fetch's read (R447, R448, R452, R454 to R456; a fetch outside memory is word by word and the address is checked first, which is the model's, log entry 17). Each of the three events completes, and changes nothing where its condition does not hold. WAIT_LONG of a queued latency-critical channel that has work ready, is not served and has waited WAIT_LIM detects WAIT_LONG and makes interleave due at the next burst boundary. LATE_WRITE_ERROR of a channel with a descriptor completed under COMPAT without BARRIER detects BUS_ERR, sets LATE_ERR and records the address and the code; a channel that still runs is to halt at its next burst boundary, one that has ended keeps its state. DMA_REQUEST_ASSERT of a WAIT_REQ or STOPPING channel whose line is high lets an engine that serves none serve a queued channel, and otherwise only starts the channel's wait. The run queue is as before (R451 to R454). -/
def Obligations.DmaDescriptorsAndWaits : Prop :=
  (
  ∀ (s : State),
    (s.dma.served = none → exec .descriptorFetch s = .next s ∧ exec .descriptorComplete s = .next s) ∧
    (∀ n : Nat, n < 16 → s.dma.served = some n →
      let x := s.dmaCh n
      let left (v t : State) (st : DmaSt) : Prop := (t.dmaCh n).st = st ∧ n ∉ t.dma.queue ∧ t = { v with regs := t.regs, sys := t.sys, dma := t.dma }
      let halted (v t : State) (cause src : Nat) : Prop := left v t .halted ∧ (t.dmaCh n).cause = cause ∧ t.faultBit .dma src = true
      (x.desc.isSome = true → exec .descriptorFetch s = .next s) ∧
      (x.desc = none → ∃ t, exec .descriptorFetch s = .next t ∧
        (x.desc = none → x.cur % 32 ≠ 0 → halted s t 1 0 ∧ (t.dmaCh n).pcode = 1) ∧
        (∀ w l e, x.desc = none → x.cur % 32 = 0 → spanRead .dma x.cur 32 s = (w, l, some e) →
          halted w t 2 1 ∧ (t.dmaCh n).errAddr = e.1 ∧ (t.dmaCh n).errCode = e.2.num) ∧
        (∀ w l, x.desc = none → x.cur % 32 = 0 → spanRead .dma x.cur 32 s = (w, l, none) →
          (descCheck x.cur (descWords l) ≠ 0 → halted w t 1 0 ∧ (t.dmaCh n).pcode = descCheck x.cur (descWords l)) ∧
          (descCheck x.cur (descWords l) = 0 → t = { w with dma := t.dma } ∧ t.dma.queue = w.dma.queue ∧
            t.dmaCh n = { w.dmaCh n with desc := some (descWords l), done := 0 } ∧ ∀ k, k ≠ n → t.dmaCh k = w.dmaCh k)) ∧
        (∀ w l, busTarget x.cur = some .dram ∨ busTarget x.cur = some .carafe → spanRead .dma x.cur 32 s = (w, l, none) →
          l = s.bytes x.cur 32 ∧ w = { s with memc := w.memc })) ∧
      (x.desc = none → exec .descriptorComplete s = .next s) ∧
      (∀ d, x.desc = some d → x.done < dLen d → exec .descriptorComplete s = .next s) ∧
      (∀ d, x.desc = some d → dLen d ≤ x.done → ∃ t, exec .descriptorComplete s = .next t ∧ t = { s with regs := t.regs, sys := t.sys, dma := t.dma } ∧
        (
          (dInt d = true → t.rbit (Blk.dma.base + 0x40) (16 + n) = true) ∧ (t.dmaCh n).hops = satInc 65535 x.hops ∧
          (x.lateHalt = true → left s t .halted ∧ (t.dmaCh n).cause = 2) ∧
          (x.lateHalt = false → (x.st = .stopping ∨ dLast d = true) → left s t .idle ∧ t.rbit (Blk.dma.base + 0x40) n = true) ∧
          (x.lateHalt = false → x.st ≠ .stopping → dLast d = false → dmaLimit s n ≤ x.hops + 1 → halted s t 3 2) ∧
          (x.lateHalt = false → x.st = .active → dLast d = false → x.hops + 1 < dmaLimit s n →
            t.dma.queue = s.dma.queue ∧ (t.dmaCh n).st = .active ∧ (t.dmaCh n).cur = dNext d ∧ (t.dmaCh n).desc = none ∧ (t.dmaCh n).done = 0))))
  ) ∧ (
  ∀ (s : State) (n : Fin 16),
    let x := s.dmaCh n.val
    (
      let due := n.val ∈ s.dma.queue ∧ dmaLc s n.val = true ∧ dmaReady s n.val = true ∧ s.dma.served ≠ some n.val ∧ x.waited = false ∧
        s.usTicks (dmaWaitLim s n.val) ≤ s.sys.tick - x.waitFrom
      (¬ due → exec (.waitLong n) s = .next s) ∧
      (due → ∃ t, exec (.waitLong n) s = .next t ∧ t.dma.queue = s.dma.queue ∧ (∀ k, k ≠ n.val → t.dmaCh k = s.dmaCh k) ∧ t.faultBit .dma 4 = true ∧ t.dma.interleaveDue = true ∧ t.dmaCh n.val = { x with waited := true } ∧
        t = { s with regs := t.regs, sys := t.sys, dma := t.dma })) ∧
    (∀ (a : Nat) (c : Fin 7),
      let due := x.open_ = true ∧ c.val ≠ 0
      (¬ due → exec (.lateWriteError n a c) s = .next s) ∧
      (due → ∃ t, exec (.lateWriteError n a c) s = .next t ∧ t.dma.queue = s.dma.queue ∧ (∀ k, k ≠ n.val → t.dmaCh k = s.dmaCh k) ∧ t.faultBit .dma 1 = true ∧ t = { s with regs := t.regs, sys := t.sys, dma := t.dma } ∧
        t.dmaCh n.val = { x with lateErr := true, errAddr := a % 2 ^ 36, errCode := c.val, lateHalt := x.lateHalt || !dmaFree x })) ∧
    (
      let due := (x.st = .waitReq ∨ x.st = .stopping) ∧ dmaHeld s n.val = false
      (¬ due → exec (.dmaRequestAssert n) s = .next s) ∧
      (due → ∃ t, exec (.dmaRequestAssert n) s = .next t ∧ t = { s with dma := t.dma } ∧ t.dma.queue = s.dma.queue) ∧
      (∀ t, due → exec (.dmaRequestAssert n) s = .next t → s.dma.served = none → n.val ∈ s.dma.queue → t.dma.served.isSome = true) ∧
      (due → s.dma.served.isSome = true → ∃ t, exec (.dmaRequestAssert n) s = .next t ∧ t.dma.served = s.dma.served ∧ t.dmaCh n.val = { x with waitFrom := s.sys.tick, waited := false } ∧
        ∀ k, k ≠ n.val → t.dmaCh k = s.dmaCh k))
  )

/-- DMA_BURST completes in every state. It changes nothing while no channel is served, the served channel n holds no descriptor, all its data has moved, or its request line is low. Otherwise a failing read halts the channel with BUS_ERR (cause 2), the failing address and its code; so does a failing write, unless it is the last of a descriptor without BARRIER under COMPAT; an index out of range halts it with PROG_ERR (cause 1), PCODE 5, after the elements before it are written. Where the burst reads and writes memory without error, byte i of it at the destination is the byte at the source as it was before: SRC + done + i for a COPY (SRC + i with FIXS), SRC + index × 2^ESIZE for each element of a GATHER; every other byte keeps its value, CHn_BYTES counts the bytes, and the descriptor's progress goes on by the bytes or elements moved. Nothing else changes but DMA, the error maps of the words written and DRAM's initialisation map (R446, R449 to R451, R454, R455; a burst is atomic and the order of checks is the model's, log entry 17). -/
def Obligations.DmaBursts : Prop :=
  ∀ (s : State),
    (s.dma.served = none → exec .dmaBurst s = .next s) ∧
    (∀ n : Nat, n < 16 → s.dma.served = some n →
      let x := s.dmaCh n
      let halted (t v : State) (cause src : Nat) : Prop := (t.dmaCh n).st = .halted ∧ (t.dmaCh n).cause = cause ∧ n ∉ t.dma.queue ∧
        t.faultBit .dma src = true ∧ t = { v with regs := t.regs, sys := t.sys, dma := t.dma }
      (x.desc = none → exec .dmaBurst s = .next s) ∧
      (∀ d, x.desc = some d → (dLen d ≤ x.done ∨ dmaHeld s n = true) → exec .dmaBurst s = .next s) ∧
      (∀ d, x.desc = some d → x.done < dLen d → dmaHeld s n = false → ∃ t, exec .dmaBurst s = .next t ∧
        (∀ w l k b e, burstRead d x.done s = (w, l, k, b, some e) → halted t w 2 1 ∧ (t.dmaCh n).errAddr = e.1 ∧ (t.dmaCh n).errCode = e.2.num) ∧
        (∀ w l k b v m e, burstRead d x.done s = (w, l, k, b, none) → w.dmaCh n = x →
          spanWrite .dma (burstDst d x.done) l w = (v, m, some e) → (dmaCompat w = false ∨ dBarrier d = true ∨ x.done + k < dLen d) →
          halted t v 2 1 ∧ (t.dmaCh n).errAddr = e.1 ∧ (t.dmaCh n).errCode = e.2.num) ∧
        (∀ w l k v m, burstRead d x.done s = (w, l, k, true, none) → w.dmaCh n = x →
          spanWrite .dma (burstDst d x.done) l w = (v, m, none) → halted t v 1 0 ∧ (t.dmaCh n).pcode = 5) ∧
        (∀ w l k v m, burstRead d x.done s = (w, l, k, false, none) → spanWrite .dma (burstDst d x.done) l w = (v, m, none) →
          let gather := dKind d = 1
          let cnt := if gather then gatherCnt d x.done else copyLen d x.done
          let len := if gather then cnt * 2 ^ dEsize d else cnt
          let src (i : Nat) : Nat :=
            if gather then dSrc d + s.le (dIdx d + 4 * (x.done + i / 2 ^ dEsize d)) 4 * 2 ^ dEsize d + i % 2 ^ dEsize d
            else dSrc d + (if dFixS d then 0 else x.done) + i
          let memory (a : Nat) : Prop := busTarget a = some .dram ∨ busTarget a = some .carafe
          (gather → memory (dIdx d + 4 * x.done)) → (∀ i < len, memory (src i)) → memory (burstDst d x.done) →
          (∀ i < len, t.byte (burstDst d x.done + i) = s.byte (src i)) ∧
          (∀ a, a < burstDst d x.done ∨ burstDst d x.done + len ≤ a → t.byte a = s.byte a) ∧
          t = { s with mem := t.mem, memUe := t.memUe, poisoned := t.poisoned, memc := t.memc, dma := t.dma } ∧
          (t.dmaCh n).bytes = (x.bytes + len) % 2 ^ 32 ∧
          (x.lateHalt = false → (t.dmaCh n).done = x.done + cnt ∧ t.dma.queue = s.dma.queue) ∧
          (x.lateHalt = true → (t.dmaCh n).st = .halted ∧ (t.dmaCh n).cause = 2 ∧ n ∉ t.dma.queue))))

/-- In State.reset no command waits, the memory and a migration are as StepKeepsInvariants says, the tick number is 0, MODE reads 0x0C (STANDBY and HOLDOVER), REMAP is 0, every semaphore is FREE, no image is accepted, SEQ is in PLL_WAIT, and DRIVE_EN is low. The register file holds the Reset column, and of every block the first register of every row of its table reads the Reset column, two rows apart: SEM, which a read acquires, and RXWIN, for which the spec gives no value (R7, R17, R34, R53, R54, R59, R434; the block's reset values the spec does not state are the model's, log entries 7 and 9). -/
def Obligations.ResetState : Prop :=
  let s := State.reset
  s.pending = [] ∧ s.memOk ∧ s.migApart ∧ s.sys.tick = 0 ∧ modeWord s = 0x0C ∧ s.bmx.remap = false ∧ s.img.accepted = false ∧
  s.img.boot = .pllWait ∧ s.pwr.driveEn = false ∧ s.sys.snuffed = false ∧
  (∀ i, (s.sem i).owner = none) ∧ (∀ a, s.reg a = regReset a) ∧
  (∀ b ∈ [Blk.sys, .img, .hp, .bmx, .dma, .chk, .twc, .flc, .mac 0, .mac 1, .mac 2, .mac 3, .ste, .ptu, .rsu, .mxe, .ldg, .apt 0, .apt 15, .pwr,
      .lsp, .pair, .memc, .dly, .cell 0, .cell 71],
    ∀ r ∈ blkRows b, ¬ (b = .hp ∧ r.off = 0x1000) → ¬ (b = .ste ∧ r.off = 0x8000) →
      (regRead .hpa b r.off s).2.1 = wd r.reset)

/-- For every command c, state s and rest q of the queue, step of s with c in front of q is exec of c on s with the queue q. With nothing waiting, step answers the state as it is (that the part then idles is the model's choice, log entry 1). -/
def Obligations.StepRunsTheCommand : Prop :=
  ∀ (s : State) (c : Instr) (q : List Instr),
    step { s with pending := c :: q } = exec c { s with pending := q } ∧ (s.pending = [] → step s = .next s)

/-- From every state whose memory is in canonical form (addresses strictly rising, no byte equal to what an unlisted address reads) every command that any step runs leaves the memory in canonical form; and from every state in which a running migration has a spare other than its source, every command leaves it so. A migration's destination is a spare cell taken by R120 while its source is ACTIVE (R170). -/
def Obligations.StepKeepsInvariants : Prop :=
  ∀ (s t : State), step s = .next t →
    (s.memOk → t.memOk) ∧ (s.migApart → t.migApart)

/-- In every state the step answers a next state, neither a fault nor a refusal. Its queue is the rest of the queue before (the empty queue stays empty), whatever the command, a reset included; and the OTP fuses hold what they held: the spec gives no command that writes them (R61; the queue is the model's, log entry 1). -/
def Obligations.StepTakesOneCommand : Prop :=
  ∀ (s : State), ∃ t, step s = .next t ∧ t.pending = s.pending.tail ∧ t.img.fuses = s.img.fuses

/-- Let a state be snuffed as R411 and Table 16.3 say: SNUFFED 1, RUN 0, STANDBY 1, DRIVE_EN low, the wick DISARMED. Entry leaves the part so from every state that was not snuffed before. From every such state, every command leaves the part so, but the two edges of RESET_N and the loss and return of a supply, which put it in reset (R408, R411 to R413, R495). -/
def Obligations.SnuffedStateLasts : Prop :=
  let dark (s : State) : Prop := s.sys.snuffed = true ∧ s.sys.run = false ∧ s.sys.standby = true ∧ s.pwr.driveEn = false ∧ s.pair.wick = .disarmed
  (∀ (s : State) (m : Master), Reaches m s → rwsOk m s = true → s.sys.snuffed = false → ∃ t, exec (.snuff m) s = .next t ∧ dark t) ∧
  (∀ (s t : State) (c : Instr) (q : List Instr), dark s → s.pending = c :: q → step s = .next t →
    c ≠ .resetNAssert → (∀ b, c ≠ .resetNRelease b) → (∀ v, c ≠ .supplyUndervoltage v) → c ≠ .supplyRestored → dark t)

/-- PORT_RESET_APPLY of an accepted port reset completes and leaves no semaphore held by its host; it is an event of rank 1. A detection of HP's source 2, STATE_UE, completes and leaves all 64 semaphores FREE; it is an event of rank 3. RESET_N_ASSERT completes and leaves every semaphore FREE (R434). -/
def Obligations.SemaphoresFreed : Prop :=
  ∀ (s : State),
    (∀ h, ((s.port h).resetDue = true → ∃ t, exec (.portResetApply h) s = .next t ∧ ∀ i < 64, (t.sem i).owner ≠ some h) ∧
      (eventKey (.portResetApply h)).bind List.head? = some 1) ∧
    (∀ d, (∃ t, exec (.faultDetection .hp 2 d) s = .next t ∧ ∀ i < 64, (t.sem i).owner = none) ∧
      (eventKey (.faultDetection .hp 2 d)).bind List.head? = some 3) ∧
    (∃ t, exec .resetNAssert s = .next t ∧ ∀ i, (t.sem i).owner = none)

/-- TCAP by a master that reaches the registers completes with OK. That master's CAP_CNT holds the counter c, which the events of the tick no longer change, and its CAP registers t(A, c), t(B, c) and t(SEL, c) modulo 2^96, one coherent set: all four come from one state. No other master's captures and nothing else but the answer change (R272). -/
def Obligations.TimeCapture : Prop :=
  ∀ (s : State) (m : Master), Reaches m s →
    ∃ t, exec (.tcap m) s = .next t ∧ t.resp m = ⟨.ok, []⟩ ∧ t = { s with bus := t.bus, ptu := { s.ptu with caps := t.ptu.caps } } ∧
      (∀ k, k ≠ m.idx → Tab.get (fun _ => ({} : TCap)) t.ptu.caps k = Tab.get (fun _ => {}) s.ptu.caps k) ∧
      let x := Tab.get (fun _ => ({} : TCap)) t.ptu.caps m.idx
      x.cnt = s.ptu.counter ∧ (x.a : Int) = timeNow s.ptu.a s.ptu.counter % 2 ^ 96 ∧ (x.b : Int) = timeNow s.ptu.b s.ptu.counter % 2 ^ 96 ∧
      (x.sel : Int) = timeNow s.ptu.sel s.ptu.counter % 2 ^ 96
end

