-- ==== Sys2Proof/Laws/Tab.lean ====
section
/-! SUPPORT. Laws of sparse tables: what a read gives after a write, and that a write keeps the canonical form. -/
namespace Sys2Proof.Machine
open Sys2Proof

variable {α : Type}

theorem tab_get_insert (d : Nat → α) (t : List (Nat × α)) (k j : Nat) (v : α) :
    Tab.get d (Tab.insert k v t) j = if j = k then v else Tab.get d t j := by
  induction t with
  | nil => rfl
  | cons e t ih =>
    obtain ⟨i, u⟩ := e
    unfold Tab.insert
    split
    · rfl
    · split
      · subst k; simp only [Tab.get]; split <;> rfl
      · simp only [Tab.get, ih]
        by_cases h : j = i
        · have : j ≠ k := by omega
          simp [h] at *; omega
        · simp [h]

theorem tab_get_erase (d : Nat → α) (t : List (Nat × α)) (k j : Nat) :
    Tab.get d (Tab.erase k t) j = if j = k then d j else Tab.get d t j := by
  induction t with
  | nil => simp [Tab.erase, Tab.get]
  | cons e t ih =>
    obtain ⟨i, u⟩ := e
    unfold Tab.erase
    split
    · subst i; rw [ih]; simp only [Tab.get]; split <;> rfl
    · simp only [Tab.get, ih]
      by_cases h : j = i
      · have : j ≠ k := by omega
        simp [h] at *; omega
      · simp [h]

/-- A write is read back at its own key, and changes no other key, whatever the table. -/
theorem tab_get_set [DecidableEq α] (d : Nat → α) (t : List (Nat × α)) (k j : Nat) (v : α) :
    Tab.get d (Tab.set d t k v) j = if j = k then v else Tab.get d t j := by
  unfold Tab.set
  split
  · rename_i h; rw [tab_get_erase]; split
    · subst j; exact h.symm
    · rfl
  · exact tab_get_insert d t k j v

@[simp] theorem tab_get_set_same [DecidableEq α] (d : Nat → α) (t : List (Nat × α)) (k : Nat) (v : α) :
    Tab.get d (Tab.set d t k v) k = v := by simp [tab_get_set]

theorem tab_get_set_ne [DecidableEq α] (d : Nat → α) (t : List (Nat × α)) {k j : Nat} (v : α) (h : j ≠ k) :
    Tab.get d (Tab.set d t k v) j = Tab.get d t j := by simp [tab_get_set, h]

/-! ### The canonical form -/

theorem tab_rising_mono {t : List (Nat × α)} {a b : Nat} (h : a ≤ b) (w : Tab.risingFrom b t = true) : Tab.risingFrom a t = true := by
  cases t with
  | nil => rfl
  | cons e t => simp [Tab.risingFrom] at *; exact ⟨by omega, w.2⟩

theorem tab_rising_insert {t : List (Nat × α)} {b k : Nat} {v : α} (hk : b ≤ k) (w : Tab.risingFrom b t = true) :
    Tab.risingFrom b (Tab.insert k v t) = true := by
  induction t generalizing b with
  | nil => simp [Tab.insert, Tab.risingFrom, hk]
  | cons e t ih =>
    obtain ⟨i, u⟩ := e
    simp only [Tab.risingFrom, Bool.and_eq_true, decide_eq_true_eq] at w
    unfold Tab.insert
    split
    · rename_i hlt; simp [Tab.risingFrom, hk, w.2]; omega
    · split
      · subst k; simp [Tab.risingFrom, hk, w.2]
      · simp only [Tab.risingFrom, Bool.and_eq_true, decide_eq_true_eq]
        exact ⟨w.1, ih (by omega) w.2⟩

theorem tab_rising_erase {t : List (Nat × α)} {b k : Nat} (w : Tab.risingFrom b t = true) : Tab.risingFrom b (Tab.erase k t) = true := by
  induction t generalizing b with
  | nil => rfl
  | cons e t ih =>
    obtain ⟨i, u⟩ := e
    simp only [Tab.risingFrom, Bool.and_eq_true, decide_eq_true_eq] at w
    unfold Tab.erase
    split
    · exact tab_rising_mono (by omega) (ih w.2)
    · simp only [Tab.risingFrom, Bool.and_eq_true, decide_eq_true_eq]; exact ⟨w.1, ih w.2⟩

theorem tab_rising_filter {t : List (Nat × α)} {b : Nat} (p : Nat × α → Bool) (w : Tab.risingFrom b t = true) :
    Tab.risingFrom b (t.filter p) = true := by
  induction t generalizing b with
  | nil => rfl
  | cons e t ih =>
    obtain ⟨i, u⟩ := e
    simp only [Tab.risingFrom, Bool.and_eq_true, decide_eq_true_eq] at w
    rw [List.filter_cons]
    split
    · simp only [Tab.risingFrom, Bool.and_eq_true, decide_eq_true_eq]; exact ⟨w.1, ih w.2⟩
    · exact tab_rising_mono (by omega) (ih w.2)

theorem tab_mem_insert {t : List (Nat × α)} {k : Nat} {v : α} {e : Nat × α} (h : e ∈ Tab.insert k v t) : e = (k, v) ∨ e ∈ t := by
  induction t with
  | nil => simpa [Tab.insert] using h
  | cons x t ih =>
    obtain ⟨i, u⟩ := x
    unfold Tab.insert at h
    split at h
    · simpa using h
    · split at h
      · simp at h ⊢; tauto
      · simp at h ⊢; rcases h with h | h
        · tauto
        · rcases ih h with h | h <;> tauto

theorem tab_mem_erase {t : List (Nat × α)} {k : Nat} {e : Nat × α} (h : e ∈ Tab.erase k t) : e ∈ t := by
  induction t with
  | nil => exact h
  | cons x t ih =>
    obtain ⟨i, u⟩ := x
    unfold Tab.erase at h
    split at h
    · exact List.mem_cons_of_mem _ (ih h)
    · simp at h ⊢; rcases h with h | h
      · tauto
      · exact Or.inr (ih h)

/-- A write keeps the canonical form. -/
theorem tab_wf_set [DecidableEq α] {d : Nat → α} {t : List (Nat × α)} (k : Nat) (v : α) (w : Tab.wf d t = true) :
    Tab.wf d (Tab.set d t k v) = true := by
  simp only [Tab.wf, Bool.and_eq_true, List.all_eq_true, decide_eq_true_eq] at *
  unfold Tab.set
  split
  · exact ⟨tab_rising_erase w.1, fun e he => w.2 e (tab_mem_erase he)⟩
  · rename_i hv
    refine ⟨tab_rising_insert (Nat.zero_le _) w.1, fun e he => ?_⟩
    rcases tab_mem_insert he with rfl | h
    · exact hv
    · exact w.2 e h

/-- Dropping entries keeps the canonical form. -/
theorem tab_wf_filter [DecidableEq α] {d : Nat → α} {t : List (Nat × α)} (p : Nat × α → Bool) (w : Tab.wf d t = true) :
    Tab.wf d (t.filter p) = true := by
  simp only [Tab.wf, Bool.and_eq_true, List.all_eq_true, decide_eq_true_eq] at *
  exact ⟨tab_rising_filter p w.1, fun e he => w.2 e (List.mem_filter.1 he).1⟩

end Sys2Proof.Machine
end

