-- ==== Sys2Proof/Laws/State.lean ====
section
/-! SUPPORT. One lemma per field of State and update of State: an update leaves every field but its own. -/
namespace Sys2Proof.Machine
open Sys2Proof

variable (s : State)

@[simp] theorem State.setReg_pending (a : Nat) (v : Word) : (s.setReg a v).pending = s.pending := rfl
@[simp] theorem State.setReg_mem (a : Nat) (v : Word) : (s.setReg a v).mem = s.mem := rfl
@[simp] theorem State.setReg_freeCount (a : Nat) (v : Word) : (s.setReg a v).freeCount = s.freeCount := rfl
@[simp] theorem State.setReg_bus (a : Nat) (v : Word) : (s.setReg a v).bus = s.bus := rfl
@[simp] theorem State.setReg_sys (a : Nat) (v : Word) : (s.setReg a v).sys = s.sys := rfl
@[simp] theorem State.setReg_hpa (a : Nat) (v : Word) : (s.setReg a v).hpa = s.hpa := rfl
@[simp] theorem State.setReg_hpb (a : Nat) (v : Word) : (s.setReg a v).hpb = s.hpb := rfl
@[simp] theorem State.setReg_sems (a : Nat) (v : Word) : (s.setReg a v).sems = s.sems := rfl
@[simp] theorem State.setReg_bmx (a : Nat) (v : Word) : (s.setReg a v).bmx = s.bmx := rfl
@[simp] theorem State.setReg_img (a : Nat) (v : Word) : (s.setReg a v).img = s.img := rfl
@[simp] theorem State.setReg_ldg (a : Nat) (v : Word) : (s.setReg a v).ldg = s.ldg := rfl
@[simp] theorem State.setReg_rails (a : Nat) (v : Word) : (s.setReg a v).rails = s.rails := rfl
@[simp] theorem State.setReg_cells (a : Nat) (v : Word) : (s.setReg a v).cells = s.cells := rfl
@[simp] theorem State.setReg_fabric (a : Nat) (v : Word) : (s.setReg a v).fabric = s.fabric := rfl
@[simp] theorem State.setReg_ckpt (a : Nat) (v : Word) : (s.setReg a v).ckpt = s.ckpt := rfl
@[simp] theorem State.setReg_mxe (a : Nat) (v : Word) : (s.setReg a v).mxe = s.mxe := rfl
@[simp] theorem State.setReg_dly (a : Nat) (v : Word) : (s.setReg a v).dly = s.dly := rfl
@[simp] theorem State.setReg_netRx (a : Nat) (v : Word) : (s.setReg a v).netRx = s.netRx := rfl
@[simp] theorem State.setReg_portIn (a : Nat) (v : Word) : (s.setReg a v).portIn = s.portIn := rfl
@[simp] theorem State.setReg_memUe (a : Nat) (v : Word) : (s.setReg a v).memUe = s.memUe := rfl
@[simp] theorem State.setReg_poisoned (a : Nat) (v : Word) : (s.setReg a v).poisoned = s.poisoned := rfl
@[simp] theorem State.setReg_macs (a : Nat) (v : Word) : (s.setReg a v).macs = s.macs := rfl
@[simp] theorem State.setReg_ste (a : Nat) (v : Word) : (s.setReg a v).ste = s.ste := rfl
@[simp] theorem State.setReg_ptu (a : Nat) (v : Word) : (s.setReg a v).ptu = s.ptu := rfl
@[simp] theorem State.setReg_rsu (a : Nat) (v : Word) : (s.setReg a v).rsu = s.rsu := rfl
@[simp] theorem State.setReg_apt (a : Nat) (v : Word) : (s.setReg a v).apt = s.apt := rfl
@[simp] theorem State.setReg_aptRnd (a : Nat) (v : Word) : (s.setReg a v).aptRnd = s.aptRnd := rfl
@[simp] theorem State.setReg_pwr (a : Nat) (v : Word) : (s.setReg a v).pwr = s.pwr := rfl
@[simp] theorem State.setReg_lsp (a : Nat) (v : Word) : (s.setReg a v).lsp = s.lsp := rfl
@[simp] theorem State.setReg_dma (a : Nat) (v : Word) : (s.setReg a v).dma = s.dma := rfl
@[simp] theorem State.setReg_chk (a : Nat) (v : Word) : (s.setReg a v).chk = s.chk := rfl
@[simp] theorem State.setReg_memc (a : Nat) (v : Word) : (s.setReg a v).memc = s.memc := rfl
@[simp] theorem State.setReg_twc (a : Nat) (v : Word) : (s.setReg a v).twc = s.twc := rfl
@[simp] theorem State.setReg_flc (a : Nat) (v : Word) : (s.setReg a v).flc = s.flc := rfl
@[simp] theorem State.setReg_jtag (a : Nat) (v : Word) : (s.setReg a v).jtag = s.jtag := rfl
@[simp] theorem State.setReg_pair (a : Nat) (v : Word) : (s.setReg a v).pair = s.pair := rfl

@[simp] theorem State.setFld_pending (a lo n v : Nat) : (s.setFld a lo n v).pending = s.pending := rfl
@[simp] theorem State.setFld_mem (a lo n v : Nat) : (s.setFld a lo n v).mem = s.mem := rfl
@[simp] theorem State.setFld_freeCount (a lo n v : Nat) : (s.setFld a lo n v).freeCount = s.freeCount := rfl
@[simp] theorem State.setFld_bus (a lo n v : Nat) : (s.setFld a lo n v).bus = s.bus := rfl
@[simp] theorem State.setFld_sys (a lo n v : Nat) : (s.setFld a lo n v).sys = s.sys := rfl
@[simp] theorem State.setFld_hpa (a lo n v : Nat) : (s.setFld a lo n v).hpa = s.hpa := rfl
@[simp] theorem State.setFld_hpb (a lo n v : Nat) : (s.setFld a lo n v).hpb = s.hpb := rfl
@[simp] theorem State.setFld_sems (a lo n v : Nat) : (s.setFld a lo n v).sems = s.sems := rfl
@[simp] theorem State.setFld_bmx (a lo n v : Nat) : (s.setFld a lo n v).bmx = s.bmx := rfl
@[simp] theorem State.setFld_img (a lo n v : Nat) : (s.setFld a lo n v).img = s.img := rfl
@[simp] theorem State.setFld_ldg (a lo n v : Nat) : (s.setFld a lo n v).ldg = s.ldg := rfl
@[simp] theorem State.setFld_rails (a lo n v : Nat) : (s.setFld a lo n v).rails = s.rails := rfl
@[simp] theorem State.setFld_cells (a lo n v : Nat) : (s.setFld a lo n v).cells = s.cells := rfl
@[simp] theorem State.setFld_fabric (a lo n v : Nat) : (s.setFld a lo n v).fabric = s.fabric := rfl
@[simp] theorem State.setFld_ckpt (a lo n v : Nat) : (s.setFld a lo n v).ckpt = s.ckpt := rfl
@[simp] theorem State.setFld_mxe (a lo n v : Nat) : (s.setFld a lo n v).mxe = s.mxe := rfl
@[simp] theorem State.setFld_dly (a lo n v : Nat) : (s.setFld a lo n v).dly = s.dly := rfl
@[simp] theorem State.setFld_netRx (a lo n v : Nat) : (s.setFld a lo n v).netRx = s.netRx := rfl
@[simp] theorem State.setFld_portIn (a lo n v : Nat) : (s.setFld a lo n v).portIn = s.portIn := rfl
@[simp] theorem State.setFld_memUe (a lo n v : Nat) : (s.setFld a lo n v).memUe = s.memUe := rfl
@[simp] theorem State.setFld_poisoned (a lo n v : Nat) : (s.setFld a lo n v).poisoned = s.poisoned := rfl
@[simp] theorem State.setFld_macs (a lo n v : Nat) : (s.setFld a lo n v).macs = s.macs := rfl
@[simp] theorem State.setFld_ste (a lo n v : Nat) : (s.setFld a lo n v).ste = s.ste := rfl
@[simp] theorem State.setFld_ptu (a lo n v : Nat) : (s.setFld a lo n v).ptu = s.ptu := rfl
@[simp] theorem State.setFld_rsu (a lo n v : Nat) : (s.setFld a lo n v).rsu = s.rsu := rfl
@[simp] theorem State.setFld_apt (a lo n v : Nat) : (s.setFld a lo n v).apt = s.apt := rfl
@[simp] theorem State.setFld_aptRnd (a lo n v : Nat) : (s.setFld a lo n v).aptRnd = s.aptRnd := rfl
@[simp] theorem State.setFld_pwr (a lo n v : Nat) : (s.setFld a lo n v).pwr = s.pwr := rfl
@[simp] theorem State.setFld_lsp (a lo n v : Nat) : (s.setFld a lo n v).lsp = s.lsp := rfl
@[simp] theorem State.setFld_dma (a lo n v : Nat) : (s.setFld a lo n v).dma = s.dma := rfl
@[simp] theorem State.setFld_chk (a lo n v : Nat) : (s.setFld a lo n v).chk = s.chk := rfl
@[simp] theorem State.setFld_memc (a lo n v : Nat) : (s.setFld a lo n v).memc = s.memc := rfl
@[simp] theorem State.setFld_twc (a lo n v : Nat) : (s.setFld a lo n v).twc = s.twc := rfl
@[simp] theorem State.setFld_flc (a lo n v : Nat) : (s.setFld a lo n v).flc = s.flc := rfl
@[simp] theorem State.setFld_jtag (a lo n v : Nat) : (s.setFld a lo n v).jtag = s.jtag := rfl
@[simp] theorem State.setFld_pair (a lo n v : Nat) : (s.setFld a lo n v).pair = s.pair := rfl

@[simp] theorem State.orReg_pending (a : Nat) (m : Word) : (s.orReg a m).pending = s.pending := rfl
@[simp] theorem State.orReg_mem (a : Nat) (m : Word) : (s.orReg a m).mem = s.mem := rfl
@[simp] theorem State.orReg_freeCount (a : Nat) (m : Word) : (s.orReg a m).freeCount = s.freeCount := rfl
@[simp] theorem State.orReg_bus (a : Nat) (m : Word) : (s.orReg a m).bus = s.bus := rfl
@[simp] theorem State.orReg_sys (a : Nat) (m : Word) : (s.orReg a m).sys = s.sys := rfl
@[simp] theorem State.orReg_hpa (a : Nat) (m : Word) : (s.orReg a m).hpa = s.hpa := rfl
@[simp] theorem State.orReg_hpb (a : Nat) (m : Word) : (s.orReg a m).hpb = s.hpb := rfl
@[simp] theorem State.orReg_sems (a : Nat) (m : Word) : (s.orReg a m).sems = s.sems := rfl
@[simp] theorem State.orReg_bmx (a : Nat) (m : Word) : (s.orReg a m).bmx = s.bmx := rfl
@[simp] theorem State.orReg_img (a : Nat) (m : Word) : (s.orReg a m).img = s.img := rfl
@[simp] theorem State.orReg_ldg (a : Nat) (m : Word) : (s.orReg a m).ldg = s.ldg := rfl
@[simp] theorem State.orReg_rails (a : Nat) (m : Word) : (s.orReg a m).rails = s.rails := rfl
@[simp] theorem State.orReg_cells (a : Nat) (m : Word) : (s.orReg a m).cells = s.cells := rfl
@[simp] theorem State.orReg_fabric (a : Nat) (m : Word) : (s.orReg a m).fabric = s.fabric := rfl
@[simp] theorem State.orReg_ckpt (a : Nat) (m : Word) : (s.orReg a m).ckpt = s.ckpt := rfl
@[simp] theorem State.orReg_mxe (a : Nat) (m : Word) : (s.orReg a m).mxe = s.mxe := rfl
@[simp] theorem State.orReg_dly (a : Nat) (m : Word) : (s.orReg a m).dly = s.dly := rfl
@[simp] theorem State.orReg_netRx (a : Nat) (m : Word) : (s.orReg a m).netRx = s.netRx := rfl
@[simp] theorem State.orReg_portIn (a : Nat) (m : Word) : (s.orReg a m).portIn = s.portIn := rfl
@[simp] theorem State.orReg_memUe (a : Nat) (m : Word) : (s.orReg a m).memUe = s.memUe := rfl
@[simp] theorem State.orReg_poisoned (a : Nat) (m : Word) : (s.orReg a m).poisoned = s.poisoned := rfl
@[simp] theorem State.orReg_macs (a : Nat) (m : Word) : (s.orReg a m).macs = s.macs := rfl
@[simp] theorem State.orReg_ste (a : Nat) (m : Word) : (s.orReg a m).ste = s.ste := rfl
@[simp] theorem State.orReg_ptu (a : Nat) (m : Word) : (s.orReg a m).ptu = s.ptu := rfl
@[simp] theorem State.orReg_rsu (a : Nat) (m : Word) : (s.orReg a m).rsu = s.rsu := rfl
@[simp] theorem State.orReg_apt (a : Nat) (m : Word) : (s.orReg a m).apt = s.apt := rfl
@[simp] theorem State.orReg_aptRnd (a : Nat) (m : Word) : (s.orReg a m).aptRnd = s.aptRnd := rfl
@[simp] theorem State.orReg_pwr (a : Nat) (m : Word) : (s.orReg a m).pwr = s.pwr := rfl
@[simp] theorem State.orReg_lsp (a : Nat) (m : Word) : (s.orReg a m).lsp = s.lsp := rfl
@[simp] theorem State.orReg_dma (a : Nat) (m : Word) : (s.orReg a m).dma = s.dma := rfl
@[simp] theorem State.orReg_chk (a : Nat) (m : Word) : (s.orReg a m).chk = s.chk := rfl
@[simp] theorem State.orReg_memc (a : Nat) (m : Word) : (s.orReg a m).memc = s.memc := rfl
@[simp] theorem State.orReg_twc (a : Nat) (m : Word) : (s.orReg a m).twc = s.twc := rfl
@[simp] theorem State.orReg_flc (a : Nat) (m : Word) : (s.orReg a m).flc = s.flc := rfl
@[simp] theorem State.orReg_jtag (a : Nat) (m : Word) : (s.orReg a m).jtag = s.jtag := rfl
@[simp] theorem State.orReg_pair (a : Nat) (m : Word) : (s.orReg a m).pair = s.pair := rfl

@[simp] theorem State.clrReg_pending (a : Nat) (m : Word) : (s.clrReg a m).pending = s.pending := rfl
@[simp] theorem State.clrReg_mem (a : Nat) (m : Word) : (s.clrReg a m).mem = s.mem := rfl
@[simp] theorem State.clrReg_freeCount (a : Nat) (m : Word) : (s.clrReg a m).freeCount = s.freeCount := rfl
@[simp] theorem State.clrReg_bus (a : Nat) (m : Word) : (s.clrReg a m).bus = s.bus := rfl
@[simp] theorem State.clrReg_sys (a : Nat) (m : Word) : (s.clrReg a m).sys = s.sys := rfl
@[simp] theorem State.clrReg_hpa (a : Nat) (m : Word) : (s.clrReg a m).hpa = s.hpa := rfl
@[simp] theorem State.clrReg_hpb (a : Nat) (m : Word) : (s.clrReg a m).hpb = s.hpb := rfl
@[simp] theorem State.clrReg_sems (a : Nat) (m : Word) : (s.clrReg a m).sems = s.sems := rfl
@[simp] theorem State.clrReg_bmx (a : Nat) (m : Word) : (s.clrReg a m).bmx = s.bmx := rfl
@[simp] theorem State.clrReg_img (a : Nat) (m : Word) : (s.clrReg a m).img = s.img := rfl
@[simp] theorem State.clrReg_ldg (a : Nat) (m : Word) : (s.clrReg a m).ldg = s.ldg := rfl
@[simp] theorem State.clrReg_rails (a : Nat) (m : Word) : (s.clrReg a m).rails = s.rails := rfl
@[simp] theorem State.clrReg_cells (a : Nat) (m : Word) : (s.clrReg a m).cells = s.cells := rfl
@[simp] theorem State.clrReg_fabric (a : Nat) (m : Word) : (s.clrReg a m).fabric = s.fabric := rfl
@[simp] theorem State.clrReg_ckpt (a : Nat) (m : Word) : (s.clrReg a m).ckpt = s.ckpt := rfl
@[simp] theorem State.clrReg_mxe (a : Nat) (m : Word) : (s.clrReg a m).mxe = s.mxe := rfl
@[simp] theorem State.clrReg_dly (a : Nat) (m : Word) : (s.clrReg a m).dly = s.dly := rfl
@[simp] theorem State.clrReg_netRx (a : Nat) (m : Word) : (s.clrReg a m).netRx = s.netRx := rfl
@[simp] theorem State.clrReg_portIn (a : Nat) (m : Word) : (s.clrReg a m).portIn = s.portIn := rfl
@[simp] theorem State.clrReg_memUe (a : Nat) (m : Word) : (s.clrReg a m).memUe = s.memUe := rfl
@[simp] theorem State.clrReg_poisoned (a : Nat) (m : Word) : (s.clrReg a m).poisoned = s.poisoned := rfl
@[simp] theorem State.clrReg_macs (a : Nat) (m : Word) : (s.clrReg a m).macs = s.macs := rfl
@[simp] theorem State.clrReg_ste (a : Nat) (m : Word) : (s.clrReg a m).ste = s.ste := rfl
@[simp] theorem State.clrReg_ptu (a : Nat) (m : Word) : (s.clrReg a m).ptu = s.ptu := rfl
@[simp] theorem State.clrReg_rsu (a : Nat) (m : Word) : (s.clrReg a m).rsu = s.rsu := rfl
@[simp] theorem State.clrReg_apt (a : Nat) (m : Word) : (s.clrReg a m).apt = s.apt := rfl
@[simp] theorem State.clrReg_aptRnd (a : Nat) (m : Word) : (s.clrReg a m).aptRnd = s.aptRnd := rfl
@[simp] theorem State.clrReg_pwr (a : Nat) (m : Word) : (s.clrReg a m).pwr = s.pwr := rfl
@[simp] theorem State.clrReg_lsp (a : Nat) (m : Word) : (s.clrReg a m).lsp = s.lsp := rfl
@[simp] theorem State.clrReg_dma (a : Nat) (m : Word) : (s.clrReg a m).dma = s.dma := rfl
@[simp] theorem State.clrReg_chk (a : Nat) (m : Word) : (s.clrReg a m).chk = s.chk := rfl
@[simp] theorem State.clrReg_memc (a : Nat) (m : Word) : (s.clrReg a m).memc = s.memc := rfl
@[simp] theorem State.clrReg_twc (a : Nat) (m : Word) : (s.clrReg a m).twc = s.twc := rfl
@[simp] theorem State.clrReg_flc (a : Nat) (m : Word) : (s.clrReg a m).flc = s.flc := rfl
@[simp] theorem State.clrReg_jtag (a : Nat) (m : Word) : (s.clrReg a m).jtag = s.jtag := rfl
@[simp] theorem State.clrReg_pair (a : Nat) (m : Word) : (s.clrReg a m).pair = s.pair := rfl

@[simp] theorem setChBit_pending (o n : Nat) (v : Bool) : (setChBit o n v s).pending = s.pending := rfl
@[simp] theorem setChBit_mem (o n : Nat) (v : Bool) : (setChBit o n v s).mem = s.mem := rfl
@[simp] theorem setChBit_freeCount (o n : Nat) (v : Bool) : (setChBit o n v s).freeCount = s.freeCount := rfl
@[simp] theorem setChBit_bus (o n : Nat) (v : Bool) : (setChBit o n v s).bus = s.bus := rfl
@[simp] theorem setChBit_sys (o n : Nat) (v : Bool) : (setChBit o n v s).sys = s.sys := rfl
@[simp] theorem setChBit_hpa (o n : Nat) (v : Bool) : (setChBit o n v s).hpa = s.hpa := rfl
@[simp] theorem setChBit_hpb (o n : Nat) (v : Bool) : (setChBit o n v s).hpb = s.hpb := rfl
@[simp] theorem setChBit_sems (o n : Nat) (v : Bool) : (setChBit o n v s).sems = s.sems := rfl
@[simp] theorem setChBit_bmx (o n : Nat) (v : Bool) : (setChBit o n v s).bmx = s.bmx := rfl
@[simp] theorem setChBit_img (o n : Nat) (v : Bool) : (setChBit o n v s).img = s.img := rfl
@[simp] theorem setChBit_ldg (o n : Nat) (v : Bool) : (setChBit o n v s).ldg = s.ldg := rfl
@[simp] theorem setChBit_rails (o n : Nat) (v : Bool) : (setChBit o n v s).rails = s.rails := rfl
@[simp] theorem setChBit_cells (o n : Nat) (v : Bool) : (setChBit o n v s).cells = s.cells := rfl
@[simp] theorem setChBit_fabric (o n : Nat) (v : Bool) : (setChBit o n v s).fabric = s.fabric := rfl
@[simp] theorem setChBit_ckpt (o n : Nat) (v : Bool) : (setChBit o n v s).ckpt = s.ckpt := rfl
@[simp] theorem setChBit_mxe (o n : Nat) (v : Bool) : (setChBit o n v s).mxe = s.mxe := rfl
@[simp] theorem setChBit_dly (o n : Nat) (v : Bool) : (setChBit o n v s).dly = s.dly := rfl
@[simp] theorem setChBit_netRx (o n : Nat) (v : Bool) : (setChBit o n v s).netRx = s.netRx := rfl
@[simp] theorem setChBit_portIn (o n : Nat) (v : Bool) : (setChBit o n v s).portIn = s.portIn := rfl
@[simp] theorem setChBit_memUe (o n : Nat) (v : Bool) : (setChBit o n v s).memUe = s.memUe := rfl
@[simp] theorem setChBit_poisoned (o n : Nat) (v : Bool) : (setChBit o n v s).poisoned = s.poisoned := rfl
@[simp] theorem setChBit_macs (o n : Nat) (v : Bool) : (setChBit o n v s).macs = s.macs := rfl
@[simp] theorem setChBit_ste (o n : Nat) (v : Bool) : (setChBit o n v s).ste = s.ste := rfl
@[simp] theorem setChBit_ptu (o n : Nat) (v : Bool) : (setChBit o n v s).ptu = s.ptu := rfl
@[simp] theorem setChBit_rsu (o n : Nat) (v : Bool) : (setChBit o n v s).rsu = s.rsu := rfl
@[simp] theorem setChBit_apt (o n : Nat) (v : Bool) : (setChBit o n v s).apt = s.apt := rfl
@[simp] theorem setChBit_aptRnd (o n : Nat) (v : Bool) : (setChBit o n v s).aptRnd = s.aptRnd := rfl
@[simp] theorem setChBit_pwr (o n : Nat) (v : Bool) : (setChBit o n v s).pwr = s.pwr := rfl
@[simp] theorem setChBit_lsp (o n : Nat) (v : Bool) : (setChBit o n v s).lsp = s.lsp := rfl
@[simp] theorem setChBit_dma (o n : Nat) (v : Bool) : (setChBit o n v s).dma = s.dma := rfl
@[simp] theorem setChBit_chk (o n : Nat) (v : Bool) : (setChBit o n v s).chk = s.chk := rfl
@[simp] theorem setChBit_memc (o n : Nat) (v : Bool) : (setChBit o n v s).memc = s.memc := rfl
@[simp] theorem setChBit_twc (o n : Nat) (v : Bool) : (setChBit o n v s).twc = s.twc := rfl
@[simp] theorem setChBit_flc (o n : Nat) (v : Bool) : (setChBit o n v s).flc = s.flc := rfl
@[simp] theorem setChBit_jtag (o n : Nat) (v : Bool) : (setChBit o n v s).jtag = s.jtag := rfl
@[simp] theorem setChBit_pair (o n : Nat) (v : Bool) : (setChBit o n v s).pair = s.pair := rfl

@[simp] theorem State.setByte_pending (a : Nat) (b : Byte) : (s.setByte a b).pending = s.pending := rfl
@[simp] theorem State.setByte_regs (a : Nat) (b : Byte) : (s.setByte a b).regs = s.regs := rfl
@[simp] theorem State.setByte_freeCount (a : Nat) (b : Byte) : (s.setByte a b).freeCount = s.freeCount := rfl
@[simp] theorem State.setByte_bus (a : Nat) (b : Byte) : (s.setByte a b).bus = s.bus := rfl
@[simp] theorem State.setByte_sys (a : Nat) (b : Byte) : (s.setByte a b).sys = s.sys := rfl
@[simp] theorem State.setByte_hpa (a : Nat) (b : Byte) : (s.setByte a b).hpa = s.hpa := rfl
@[simp] theorem State.setByte_hpb (a : Nat) (b : Byte) : (s.setByte a b).hpb = s.hpb := rfl
@[simp] theorem State.setByte_sems (a : Nat) (b : Byte) : (s.setByte a b).sems = s.sems := rfl
@[simp] theorem State.setByte_bmx (a : Nat) (b : Byte) : (s.setByte a b).bmx = s.bmx := rfl
@[simp] theorem State.setByte_img (a : Nat) (b : Byte) : (s.setByte a b).img = s.img := rfl
@[simp] theorem State.setByte_ldg (a : Nat) (b : Byte) : (s.setByte a b).ldg = s.ldg := rfl
@[simp] theorem State.setByte_rails (a : Nat) (b : Byte) : (s.setByte a b).rails = s.rails := rfl
@[simp] theorem State.setByte_cells (a : Nat) (b : Byte) : (s.setByte a b).cells = s.cells := rfl
@[simp] theorem State.setByte_fabric (a : Nat) (b : Byte) : (s.setByte a b).fabric = s.fabric := rfl
@[simp] theorem State.setByte_ckpt (a : Nat) (b : Byte) : (s.setByte a b).ckpt = s.ckpt := rfl
@[simp] theorem State.setByte_mxe (a : Nat) (b : Byte) : (s.setByte a b).mxe = s.mxe := rfl
@[simp] theorem State.setByte_dly (a : Nat) (b : Byte) : (s.setByte a b).dly = s.dly := rfl
@[simp] theorem State.setByte_netRx (a : Nat) (b : Byte) : (s.setByte a b).netRx = s.netRx := rfl
@[simp] theorem State.setByte_portIn (a : Nat) (b : Byte) : (s.setByte a b).portIn = s.portIn := rfl
@[simp] theorem State.setByte_memUe (a : Nat) (b : Byte) : (s.setByte a b).memUe = s.memUe := rfl
@[simp] theorem State.setByte_poisoned (a : Nat) (b : Byte) : (s.setByte a b).poisoned = s.poisoned := rfl
@[simp] theorem State.setByte_macs (a : Nat) (b : Byte) : (s.setByte a b).macs = s.macs := rfl
@[simp] theorem State.setByte_ste (a : Nat) (b : Byte) : (s.setByte a b).ste = s.ste := rfl
@[simp] theorem State.setByte_ptu (a : Nat) (b : Byte) : (s.setByte a b).ptu = s.ptu := rfl
@[simp] theorem State.setByte_rsu (a : Nat) (b : Byte) : (s.setByte a b).rsu = s.rsu := rfl
@[simp] theorem State.setByte_apt (a : Nat) (b : Byte) : (s.setByte a b).apt = s.apt := rfl
@[simp] theorem State.setByte_aptRnd (a : Nat) (b : Byte) : (s.setByte a b).aptRnd = s.aptRnd := rfl
@[simp] theorem State.setByte_pwr (a : Nat) (b : Byte) : (s.setByte a b).pwr = s.pwr := rfl
@[simp] theorem State.setByte_lsp (a : Nat) (b : Byte) : (s.setByte a b).lsp = s.lsp := rfl
@[simp] theorem State.setByte_dma (a : Nat) (b : Byte) : (s.setByte a b).dma = s.dma := rfl
@[simp] theorem State.setByte_chk (a : Nat) (b : Byte) : (s.setByte a b).chk = s.chk := rfl
@[simp] theorem State.setByte_memc (a : Nat) (b : Byte) : (s.setByte a b).memc = s.memc := rfl
@[simp] theorem State.setByte_twc (a : Nat) (b : Byte) : (s.setByte a b).twc = s.twc := rfl
@[simp] theorem State.setByte_flc (a : Nat) (b : Byte) : (s.setByte a b).flc = s.flc := rfl
@[simp] theorem State.setByte_jtag (a : Nat) (b : Byte) : (s.setByte a b).jtag = s.jtag := rfl
@[simp] theorem State.setByte_pair (a : Nat) (b : Byte) : (s.setByte a b).pair = s.pair := rfl

@[simp] theorem State.setBytes_pending (a : Nat) (l : List Byte) : (s.setBytes a l).pending = s.pending := rfl
@[simp] theorem State.setBytes_regs (a : Nat) (l : List Byte) : (s.setBytes a l).regs = s.regs := rfl
@[simp] theorem State.setBytes_freeCount (a : Nat) (l : List Byte) : (s.setBytes a l).freeCount = s.freeCount := rfl
@[simp] theorem State.setBytes_bus (a : Nat) (l : List Byte) : (s.setBytes a l).bus = s.bus := rfl
@[simp] theorem State.setBytes_sys (a : Nat) (l : List Byte) : (s.setBytes a l).sys = s.sys := rfl
@[simp] theorem State.setBytes_hpa (a : Nat) (l : List Byte) : (s.setBytes a l).hpa = s.hpa := rfl
@[simp] theorem State.setBytes_hpb (a : Nat) (l : List Byte) : (s.setBytes a l).hpb = s.hpb := rfl
@[simp] theorem State.setBytes_sems (a : Nat) (l : List Byte) : (s.setBytes a l).sems = s.sems := rfl
@[simp] theorem State.setBytes_bmx (a : Nat) (l : List Byte) : (s.setBytes a l).bmx = s.bmx := rfl
@[simp] theorem State.setBytes_img (a : Nat) (l : List Byte) : (s.setBytes a l).img = s.img := rfl
@[simp] theorem State.setBytes_ldg (a : Nat) (l : List Byte) : (s.setBytes a l).ldg = s.ldg := rfl
@[simp] theorem State.setBytes_rails (a : Nat) (l : List Byte) : (s.setBytes a l).rails = s.rails := rfl
@[simp] theorem State.setBytes_cells (a : Nat) (l : List Byte) : (s.setBytes a l).cells = s.cells := rfl
@[simp] theorem State.setBytes_fabric (a : Nat) (l : List Byte) : (s.setBytes a l).fabric = s.fabric := rfl
@[simp] theorem State.setBytes_ckpt (a : Nat) (l : List Byte) : (s.setBytes a l).ckpt = s.ckpt := rfl
@[simp] theorem State.setBytes_mxe (a : Nat) (l : List Byte) : (s.setBytes a l).mxe = s.mxe := rfl
@[simp] theorem State.setBytes_dly (a : Nat) (l : List Byte) : (s.setBytes a l).dly = s.dly := rfl
@[simp] theorem State.setBytes_netRx (a : Nat) (l : List Byte) : (s.setBytes a l).netRx = s.netRx := rfl
@[simp] theorem State.setBytes_portIn (a : Nat) (l : List Byte) : (s.setBytes a l).portIn = s.portIn := rfl
@[simp] theorem State.setBytes_memUe (a : Nat) (l : List Byte) : (s.setBytes a l).memUe = s.memUe := rfl
@[simp] theorem State.setBytes_poisoned (a : Nat) (l : List Byte) : (s.setBytes a l).poisoned = s.poisoned := rfl
@[simp] theorem State.setBytes_macs (a : Nat) (l : List Byte) : (s.setBytes a l).macs = s.macs := rfl
@[simp] theorem State.setBytes_ste (a : Nat) (l : List Byte) : (s.setBytes a l).ste = s.ste := rfl
@[simp] theorem State.setBytes_ptu (a : Nat) (l : List Byte) : (s.setBytes a l).ptu = s.ptu := rfl
@[simp] theorem State.setBytes_rsu (a : Nat) (l : List Byte) : (s.setBytes a l).rsu = s.rsu := rfl
@[simp] theorem State.setBytes_apt (a : Nat) (l : List Byte) : (s.setBytes a l).apt = s.apt := rfl
@[simp] theorem State.setBytes_aptRnd (a : Nat) (l : List Byte) : (s.setBytes a l).aptRnd = s.aptRnd := rfl
@[simp] theorem State.setBytes_pwr (a : Nat) (l : List Byte) : (s.setBytes a l).pwr = s.pwr := rfl
@[simp] theorem State.setBytes_lsp (a : Nat) (l : List Byte) : (s.setBytes a l).lsp = s.lsp := rfl
@[simp] theorem State.setBytes_dma (a : Nat) (l : List Byte) : (s.setBytes a l).dma = s.dma := rfl
@[simp] theorem State.setBytes_chk (a : Nat) (l : List Byte) : (s.setBytes a l).chk = s.chk := rfl
@[simp] theorem State.setBytes_memc (a : Nat) (l : List Byte) : (s.setBytes a l).memc = s.memc := rfl
@[simp] theorem State.setBytes_twc (a : Nat) (l : List Byte) : (s.setBytes a l).twc = s.twc := rfl
@[simp] theorem State.setBytes_flc (a : Nat) (l : List Byte) : (s.setBytes a l).flc = s.flc := rfl
@[simp] theorem State.setBytes_jtag (a : Nat) (l : List Byte) : (s.setBytes a l).jtag = s.jtag := rfl
@[simp] theorem State.setBytes_pair (a : Nat) (l : List Byte) : (s.setBytes a l).pair = s.pair := rfl

@[simp] theorem State.updSys_pending (f : Sys → Sys) : (s.updSys f).pending = s.pending := rfl
@[simp] theorem State.updSys_regs (f : Sys → Sys) : (s.updSys f).regs = s.regs := rfl
@[simp] theorem State.updSys_mem (f : Sys → Sys) : (s.updSys f).mem = s.mem := rfl
@[simp] theorem State.updSys_freeCount (f : Sys → Sys) : (s.updSys f).freeCount = s.freeCount := rfl
@[simp] theorem State.updSys_bus (f : Sys → Sys) : (s.updSys f).bus = s.bus := rfl
@[simp] theorem State.updSys_hpa (f : Sys → Sys) : (s.updSys f).hpa = s.hpa := rfl
@[simp] theorem State.updSys_hpb (f : Sys → Sys) : (s.updSys f).hpb = s.hpb := rfl
@[simp] theorem State.updSys_sems (f : Sys → Sys) : (s.updSys f).sems = s.sems := rfl
@[simp] theorem State.updSys_bmx (f : Sys → Sys) : (s.updSys f).bmx = s.bmx := rfl
@[simp] theorem State.updSys_img (f : Sys → Sys) : (s.updSys f).img = s.img := rfl
@[simp] theorem State.updSys_ldg (f : Sys → Sys) : (s.updSys f).ldg = s.ldg := rfl
@[simp] theorem State.updSys_rails (f : Sys → Sys) : (s.updSys f).rails = s.rails := rfl
@[simp] theorem State.updSys_cells (f : Sys → Sys) : (s.updSys f).cells = s.cells := rfl
@[simp] theorem State.updSys_fabric (f : Sys → Sys) : (s.updSys f).fabric = s.fabric := rfl
@[simp] theorem State.updSys_ckpt (f : Sys → Sys) : (s.updSys f).ckpt = s.ckpt := rfl
@[simp] theorem State.updSys_mxe (f : Sys → Sys) : (s.updSys f).mxe = s.mxe := rfl
@[simp] theorem State.updSys_dly (f : Sys → Sys) : (s.updSys f).dly = s.dly := rfl
@[simp] theorem State.updSys_netRx (f : Sys → Sys) : (s.updSys f).netRx = s.netRx := rfl
@[simp] theorem State.updSys_portIn (f : Sys → Sys) : (s.updSys f).portIn = s.portIn := rfl
@[simp] theorem State.updSys_memUe (f : Sys → Sys) : (s.updSys f).memUe = s.memUe := rfl
@[simp] theorem State.updSys_poisoned (f : Sys → Sys) : (s.updSys f).poisoned = s.poisoned := rfl
@[simp] theorem State.updSys_macs (f : Sys → Sys) : (s.updSys f).macs = s.macs := rfl
@[simp] theorem State.updSys_ste (f : Sys → Sys) : (s.updSys f).ste = s.ste := rfl
@[simp] theorem State.updSys_ptu (f : Sys → Sys) : (s.updSys f).ptu = s.ptu := rfl
@[simp] theorem State.updSys_rsu (f : Sys → Sys) : (s.updSys f).rsu = s.rsu := rfl
@[simp] theorem State.updSys_apt (f : Sys → Sys) : (s.updSys f).apt = s.apt := rfl
@[simp] theorem State.updSys_aptRnd (f : Sys → Sys) : (s.updSys f).aptRnd = s.aptRnd := rfl
@[simp] theorem State.updSys_pwr (f : Sys → Sys) : (s.updSys f).pwr = s.pwr := rfl
@[simp] theorem State.updSys_lsp (f : Sys → Sys) : (s.updSys f).lsp = s.lsp := rfl
@[simp] theorem State.updSys_dma (f : Sys → Sys) : (s.updSys f).dma = s.dma := rfl
@[simp] theorem State.updSys_chk (f : Sys → Sys) : (s.updSys f).chk = s.chk := rfl
@[simp] theorem State.updSys_memc (f : Sys → Sys) : (s.updSys f).memc = s.memc := rfl
@[simp] theorem State.updSys_twc (f : Sys → Sys) : (s.updSys f).twc = s.twc := rfl
@[simp] theorem State.updSys_flc (f : Sys → Sys) : (s.updSys f).flc = s.flc := rfl
@[simp] theorem State.updSys_jtag (f : Sys → Sys) : (s.updSys f).jtag = s.jtag := rfl
@[simp] theorem State.updSys_pair (f : Sys → Sys) : (s.updSys f).pair = s.pair := rfl

@[simp] theorem State.updImg_pending (f : Img → Img) : (s.updImg f).pending = s.pending := rfl
@[simp] theorem State.updImg_regs (f : Img → Img) : (s.updImg f).regs = s.regs := rfl
@[simp] theorem State.updImg_mem (f : Img → Img) : (s.updImg f).mem = s.mem := rfl
@[simp] theorem State.updImg_freeCount (f : Img → Img) : (s.updImg f).freeCount = s.freeCount := rfl
@[simp] theorem State.updImg_bus (f : Img → Img) : (s.updImg f).bus = s.bus := rfl
@[simp] theorem State.updImg_sys (f : Img → Img) : (s.updImg f).sys = s.sys := rfl
@[simp] theorem State.updImg_hpa (f : Img → Img) : (s.updImg f).hpa = s.hpa := rfl
@[simp] theorem State.updImg_hpb (f : Img → Img) : (s.updImg f).hpb = s.hpb := rfl
@[simp] theorem State.updImg_sems (f : Img → Img) : (s.updImg f).sems = s.sems := rfl
@[simp] theorem State.updImg_bmx (f : Img → Img) : (s.updImg f).bmx = s.bmx := rfl
@[simp] theorem State.updImg_ldg (f : Img → Img) : (s.updImg f).ldg = s.ldg := rfl
@[simp] theorem State.updImg_rails (f : Img → Img) : (s.updImg f).rails = s.rails := rfl
@[simp] theorem State.updImg_cells (f : Img → Img) : (s.updImg f).cells = s.cells := rfl
@[simp] theorem State.updImg_fabric (f : Img → Img) : (s.updImg f).fabric = s.fabric := rfl
@[simp] theorem State.updImg_ckpt (f : Img → Img) : (s.updImg f).ckpt = s.ckpt := rfl
@[simp] theorem State.updImg_mxe (f : Img → Img) : (s.updImg f).mxe = s.mxe := rfl
@[simp] theorem State.updImg_dly (f : Img → Img) : (s.updImg f).dly = s.dly := rfl
@[simp] theorem State.updImg_netRx (f : Img → Img) : (s.updImg f).netRx = s.netRx := rfl
@[simp] theorem State.updImg_portIn (f : Img → Img) : (s.updImg f).portIn = s.portIn := rfl
@[simp] theorem State.updImg_memUe (f : Img → Img) : (s.updImg f).memUe = s.memUe := rfl
@[simp] theorem State.updImg_poisoned (f : Img → Img) : (s.updImg f).poisoned = s.poisoned := rfl
@[simp] theorem State.updImg_macs (f : Img → Img) : (s.updImg f).macs = s.macs := rfl
@[simp] theorem State.updImg_ste (f : Img → Img) : (s.updImg f).ste = s.ste := rfl
@[simp] theorem State.updImg_ptu (f : Img → Img) : (s.updImg f).ptu = s.ptu := rfl
@[simp] theorem State.updImg_rsu (f : Img → Img) : (s.updImg f).rsu = s.rsu := rfl
@[simp] theorem State.updImg_apt (f : Img → Img) : (s.updImg f).apt = s.apt := rfl
@[simp] theorem State.updImg_aptRnd (f : Img → Img) : (s.updImg f).aptRnd = s.aptRnd := rfl
@[simp] theorem State.updImg_pwr (f : Img → Img) : (s.updImg f).pwr = s.pwr := rfl
@[simp] theorem State.updImg_lsp (f : Img → Img) : (s.updImg f).lsp = s.lsp := rfl
@[simp] theorem State.updImg_dma (f : Img → Img) : (s.updImg f).dma = s.dma := rfl
@[simp] theorem State.updImg_chk (f : Img → Img) : (s.updImg f).chk = s.chk := rfl
@[simp] theorem State.updImg_memc (f : Img → Img) : (s.updImg f).memc = s.memc := rfl
@[simp] theorem State.updImg_twc (f : Img → Img) : (s.updImg f).twc = s.twc := rfl
@[simp] theorem State.updImg_flc (f : Img → Img) : (s.updImg f).flc = s.flc := rfl
@[simp] theorem State.updImg_jtag (f : Img → Img) : (s.updImg f).jtag = s.jtag := rfl
@[simp] theorem State.updImg_pair (f : Img → Img) : (s.updImg f).pair = s.pair := rfl

@[simp] theorem State.setCell_pending (p : Nat) (c : Cell) : (s.setCell p c).pending = s.pending := rfl
@[simp] theorem State.setCell_regs (p : Nat) (c : Cell) : (s.setCell p c).regs = s.regs := rfl
@[simp] theorem State.setCell_mem (p : Nat) (c : Cell) : (s.setCell p c).mem = s.mem := rfl
@[simp] theorem State.setCell_freeCount (p : Nat) (c : Cell) : (s.setCell p c).freeCount = s.freeCount := rfl
@[simp] theorem State.setCell_bus (p : Nat) (c : Cell) : (s.setCell p c).bus = s.bus := rfl
@[simp] theorem State.setCell_sys (p : Nat) (c : Cell) : (s.setCell p c).sys = s.sys := rfl
@[simp] theorem State.setCell_hpa (p : Nat) (c : Cell) : (s.setCell p c).hpa = s.hpa := rfl
@[simp] theorem State.setCell_hpb (p : Nat) (c : Cell) : (s.setCell p c).hpb = s.hpb := rfl
@[simp] theorem State.setCell_sems (p : Nat) (c : Cell) : (s.setCell p c).sems = s.sems := rfl
@[simp] theorem State.setCell_bmx (p : Nat) (c : Cell) : (s.setCell p c).bmx = s.bmx := rfl
@[simp] theorem State.setCell_img (p : Nat) (c : Cell) : (s.setCell p c).img = s.img := rfl
@[simp] theorem State.setCell_ldg (p : Nat) (c : Cell) : (s.setCell p c).ldg = s.ldg := rfl
@[simp] theorem State.setCell_rails (p : Nat) (c : Cell) : (s.setCell p c).rails = s.rails := rfl
@[simp] theorem State.setCell_fabric (p : Nat) (c : Cell) : (s.setCell p c).fabric = s.fabric := rfl
@[simp] theorem State.setCell_ckpt (p : Nat) (c : Cell) : (s.setCell p c).ckpt = s.ckpt := rfl
@[simp] theorem State.setCell_mxe (p : Nat) (c : Cell) : (s.setCell p c).mxe = s.mxe := rfl
@[simp] theorem State.setCell_dly (p : Nat) (c : Cell) : (s.setCell p c).dly = s.dly := rfl
@[simp] theorem State.setCell_netRx (p : Nat) (c : Cell) : (s.setCell p c).netRx = s.netRx := rfl
@[simp] theorem State.setCell_portIn (p : Nat) (c : Cell) : (s.setCell p c).portIn = s.portIn := rfl
@[simp] theorem State.setCell_memUe (p : Nat) (c : Cell) : (s.setCell p c).memUe = s.memUe := rfl
@[simp] theorem State.setCell_poisoned (p : Nat) (c : Cell) : (s.setCell p c).poisoned = s.poisoned := rfl
@[simp] theorem State.setCell_macs (p : Nat) (c : Cell) : (s.setCell p c).macs = s.macs := rfl
@[simp] theorem State.setCell_ste (p : Nat) (c : Cell) : (s.setCell p c).ste = s.ste := rfl
@[simp] theorem State.setCell_ptu (p : Nat) (c : Cell) : (s.setCell p c).ptu = s.ptu := rfl
@[simp] theorem State.setCell_rsu (p : Nat) (c : Cell) : (s.setCell p c).rsu = s.rsu := rfl
@[simp] theorem State.setCell_apt (p : Nat) (c : Cell) : (s.setCell p c).apt = s.apt := rfl
@[simp] theorem State.setCell_aptRnd (p : Nat) (c : Cell) : (s.setCell p c).aptRnd = s.aptRnd := rfl
@[simp] theorem State.setCell_pwr (p : Nat) (c : Cell) : (s.setCell p c).pwr = s.pwr := rfl
@[simp] theorem State.setCell_lsp (p : Nat) (c : Cell) : (s.setCell p c).lsp = s.lsp := rfl
@[simp] theorem State.setCell_dma (p : Nat) (c : Cell) : (s.setCell p c).dma = s.dma := rfl
@[simp] theorem State.setCell_chk (p : Nat) (c : Cell) : (s.setCell p c).chk = s.chk := rfl
@[simp] theorem State.setCell_memc (p : Nat) (c : Cell) : (s.setCell p c).memc = s.memc := rfl
@[simp] theorem State.setCell_twc (p : Nat) (c : Cell) : (s.setCell p c).twc = s.twc := rfl
@[simp] theorem State.setCell_flc (p : Nat) (c : Cell) : (s.setCell p c).flc = s.flc := rfl
@[simp] theorem State.setCell_jtag (p : Nat) (c : Cell) : (s.setCell p c).jtag = s.jtag := rfl
@[simp] theorem State.setCell_pair (p : Nat) (c : Cell) : (s.setCell p c).pair = s.pair := rfl

@[simp] theorem State.updCell_pending (p : Nat) (f : Cell → Cell) : (s.updCell p f).pending = s.pending := rfl
@[simp] theorem State.updCell_regs (p : Nat) (f : Cell → Cell) : (s.updCell p f).regs = s.regs := rfl
@[simp] theorem State.updCell_mem (p : Nat) (f : Cell → Cell) : (s.updCell p f).mem = s.mem := rfl
@[simp] theorem State.updCell_freeCount (p : Nat) (f : Cell → Cell) : (s.updCell p f).freeCount = s.freeCount := rfl
@[simp] theorem State.updCell_bus (p : Nat) (f : Cell → Cell) : (s.updCell p f).bus = s.bus := rfl
@[simp] theorem State.updCell_sys (p : Nat) (f : Cell → Cell) : (s.updCell p f).sys = s.sys := rfl
@[simp] theorem State.updCell_hpa (p : Nat) (f : Cell → Cell) : (s.updCell p f).hpa = s.hpa := rfl
@[simp] theorem State.updCell_hpb (p : Nat) (f : Cell → Cell) : (s.updCell p f).hpb = s.hpb := rfl
@[simp] theorem State.updCell_sems (p : Nat) (f : Cell → Cell) : (s.updCell p f).sems = s.sems := rfl
@[simp] theorem State.updCell_bmx (p : Nat) (f : Cell → Cell) : (s.updCell p f).bmx = s.bmx := rfl
@[simp] theorem State.updCell_img (p : Nat) (f : Cell → Cell) : (s.updCell p f).img = s.img := rfl
@[simp] theorem State.updCell_ldg (p : Nat) (f : Cell → Cell) : (s.updCell p f).ldg = s.ldg := rfl
@[simp] theorem State.updCell_rails (p : Nat) (f : Cell → Cell) : (s.updCell p f).rails = s.rails := rfl
@[simp] theorem State.updCell_fabric (p : Nat) (f : Cell → Cell) : (s.updCell p f).fabric = s.fabric := rfl
@[simp] theorem State.updCell_ckpt (p : Nat) (f : Cell → Cell) : (s.updCell p f).ckpt = s.ckpt := rfl
@[simp] theorem State.updCell_mxe (p : Nat) (f : Cell → Cell) : (s.updCell p f).mxe = s.mxe := rfl
@[simp] theorem State.updCell_dly (p : Nat) (f : Cell → Cell) : (s.updCell p f).dly = s.dly := rfl
@[simp] theorem State.updCell_netRx (p : Nat) (f : Cell → Cell) : (s.updCell p f).netRx = s.netRx := rfl
@[simp] theorem State.updCell_portIn (p : Nat) (f : Cell → Cell) : (s.updCell p f).portIn = s.portIn := rfl
@[simp] theorem State.updCell_memUe (p : Nat) (f : Cell → Cell) : (s.updCell p f).memUe = s.memUe := rfl
@[simp] theorem State.updCell_poisoned (p : Nat) (f : Cell → Cell) : (s.updCell p f).poisoned = s.poisoned := rfl
@[simp] theorem State.updCell_macs (p : Nat) (f : Cell → Cell) : (s.updCell p f).macs = s.macs := rfl
@[simp] theorem State.updCell_ste (p : Nat) (f : Cell → Cell) : (s.updCell p f).ste = s.ste := rfl
@[simp] theorem State.updCell_ptu (p : Nat) (f : Cell → Cell) : (s.updCell p f).ptu = s.ptu := rfl
@[simp] theorem State.updCell_rsu (p : Nat) (f : Cell → Cell) : (s.updCell p f).rsu = s.rsu := rfl
@[simp] theorem State.updCell_apt (p : Nat) (f : Cell → Cell) : (s.updCell p f).apt = s.apt := rfl
@[simp] theorem State.updCell_aptRnd (p : Nat) (f : Cell → Cell) : (s.updCell p f).aptRnd = s.aptRnd := rfl
@[simp] theorem State.updCell_pwr (p : Nat) (f : Cell → Cell) : (s.updCell p f).pwr = s.pwr := rfl
@[simp] theorem State.updCell_lsp (p : Nat) (f : Cell → Cell) : (s.updCell p f).lsp = s.lsp := rfl
@[simp] theorem State.updCell_dma (p : Nat) (f : Cell → Cell) : (s.updCell p f).dma = s.dma := rfl
@[simp] theorem State.updCell_chk (p : Nat) (f : Cell → Cell) : (s.updCell p f).chk = s.chk := rfl
@[simp] theorem State.updCell_memc (p : Nat) (f : Cell → Cell) : (s.updCell p f).memc = s.memc := rfl
@[simp] theorem State.updCell_twc (p : Nat) (f : Cell → Cell) : (s.updCell p f).twc = s.twc := rfl
@[simp] theorem State.updCell_flc (p : Nat) (f : Cell → Cell) : (s.updCell p f).flc = s.flc := rfl
@[simp] theorem State.updCell_jtag (p : Nat) (f : Cell → Cell) : (s.updCell p f).jtag = s.jtag := rfl
@[simp] theorem State.updCell_pair (p : Nat) (f : Cell → Cell) : (s.updCell p f).pair = s.pair := rfl

@[simp] theorem updMig_pending (p : Nat) (f : MigStat → MigStat) : (updMig p f s).pending = s.pending := rfl
@[simp] theorem updMig_regs (p : Nat) (f : MigStat → MigStat) : (updMig p f s).regs = s.regs := rfl
@[simp] theorem updMig_mem (p : Nat) (f : MigStat → MigStat) : (updMig p f s).mem = s.mem := rfl
@[simp] theorem updMig_freeCount (p : Nat) (f : MigStat → MigStat) : (updMig p f s).freeCount = s.freeCount := rfl
@[simp] theorem updMig_bus (p : Nat) (f : MigStat → MigStat) : (updMig p f s).bus = s.bus := rfl
@[simp] theorem updMig_sys (p : Nat) (f : MigStat → MigStat) : (updMig p f s).sys = s.sys := rfl
@[simp] theorem updMig_hpa (p : Nat) (f : MigStat → MigStat) : (updMig p f s).hpa = s.hpa := rfl
@[simp] theorem updMig_hpb (p : Nat) (f : MigStat → MigStat) : (updMig p f s).hpb = s.hpb := rfl
@[simp] theorem updMig_sems (p : Nat) (f : MigStat → MigStat) : (updMig p f s).sems = s.sems := rfl
@[simp] theorem updMig_bmx (p : Nat) (f : MigStat → MigStat) : (updMig p f s).bmx = s.bmx := rfl
@[simp] theorem updMig_img (p : Nat) (f : MigStat → MigStat) : (updMig p f s).img = s.img := rfl
@[simp] theorem updMig_ldg (p : Nat) (f : MigStat → MigStat) : (updMig p f s).ldg = s.ldg := rfl
@[simp] theorem updMig_rails (p : Nat) (f : MigStat → MigStat) : (updMig p f s).rails = s.rails := rfl
@[simp] theorem updMig_fabric (p : Nat) (f : MigStat → MigStat) : (updMig p f s).fabric = s.fabric := rfl
@[simp] theorem updMig_ckpt (p : Nat) (f : MigStat → MigStat) : (updMig p f s).ckpt = s.ckpt := rfl
@[simp] theorem updMig_mxe (p : Nat) (f : MigStat → MigStat) : (updMig p f s).mxe = s.mxe := rfl
@[simp] theorem updMig_dly (p : Nat) (f : MigStat → MigStat) : (updMig p f s).dly = s.dly := rfl
@[simp] theorem updMig_netRx (p : Nat) (f : MigStat → MigStat) : (updMig p f s).netRx = s.netRx := rfl
@[simp] theorem updMig_portIn (p : Nat) (f : MigStat → MigStat) : (updMig p f s).portIn = s.portIn := rfl
@[simp] theorem updMig_memUe (p : Nat) (f : MigStat → MigStat) : (updMig p f s).memUe = s.memUe := rfl
@[simp] theorem updMig_poisoned (p : Nat) (f : MigStat → MigStat) : (updMig p f s).poisoned = s.poisoned := rfl
@[simp] theorem updMig_macs (p : Nat) (f : MigStat → MigStat) : (updMig p f s).macs = s.macs := rfl
@[simp] theorem updMig_ste (p : Nat) (f : MigStat → MigStat) : (updMig p f s).ste = s.ste := rfl
@[simp] theorem updMig_ptu (p : Nat) (f : MigStat → MigStat) : (updMig p f s).ptu = s.ptu := rfl
@[simp] theorem updMig_rsu (p : Nat) (f : MigStat → MigStat) : (updMig p f s).rsu = s.rsu := rfl
@[simp] theorem updMig_apt (p : Nat) (f : MigStat → MigStat) : (updMig p f s).apt = s.apt := rfl
@[simp] theorem updMig_aptRnd (p : Nat) (f : MigStat → MigStat) : (updMig p f s).aptRnd = s.aptRnd := rfl
@[simp] theorem updMig_pwr (p : Nat) (f : MigStat → MigStat) : (updMig p f s).pwr = s.pwr := rfl
@[simp] theorem updMig_lsp (p : Nat) (f : MigStat → MigStat) : (updMig p f s).lsp = s.lsp := rfl
@[simp] theorem updMig_dma (p : Nat) (f : MigStat → MigStat) : (updMig p f s).dma = s.dma := rfl
@[simp] theorem updMig_chk (p : Nat) (f : MigStat → MigStat) : (updMig p f s).chk = s.chk := rfl
@[simp] theorem updMig_memc (p : Nat) (f : MigStat → MigStat) : (updMig p f s).memc = s.memc := rfl
@[simp] theorem updMig_twc (p : Nat) (f : MigStat → MigStat) : (updMig p f s).twc = s.twc := rfl
@[simp] theorem updMig_flc (p : Nat) (f : MigStat → MigStat) : (updMig p f s).flc = s.flc := rfl
@[simp] theorem updMig_jtag (p : Nat) (f : MigStat → MigStat) : (updMig p f s).jtag = s.jtag := rfl
@[simp] theorem updMig_pair (p : Nat) (f : MigStat → MigStat) : (updMig p f s).pair = s.pair := rfl

@[simp] theorem State.setSem_pending (i : Nat) (x : Sem) : (s.setSem i x).pending = s.pending := rfl
@[simp] theorem State.setSem_regs (i : Nat) (x : Sem) : (s.setSem i x).regs = s.regs := rfl
@[simp] theorem State.setSem_mem (i : Nat) (x : Sem) : (s.setSem i x).mem = s.mem := rfl
@[simp] theorem State.setSem_freeCount (i : Nat) (x : Sem) : (s.setSem i x).freeCount = s.freeCount := rfl
@[simp] theorem State.setSem_bus (i : Nat) (x : Sem) : (s.setSem i x).bus = s.bus := rfl
@[simp] theorem State.setSem_sys (i : Nat) (x : Sem) : (s.setSem i x).sys = s.sys := rfl
@[simp] theorem State.setSem_hpa (i : Nat) (x : Sem) : (s.setSem i x).hpa = s.hpa := rfl
@[simp] theorem State.setSem_hpb (i : Nat) (x : Sem) : (s.setSem i x).hpb = s.hpb := rfl
@[simp] theorem State.setSem_bmx (i : Nat) (x : Sem) : (s.setSem i x).bmx = s.bmx := rfl
@[simp] theorem State.setSem_img (i : Nat) (x : Sem) : (s.setSem i x).img = s.img := rfl
@[simp] theorem State.setSem_ldg (i : Nat) (x : Sem) : (s.setSem i x).ldg = s.ldg := rfl
@[simp] theorem State.setSem_rails (i : Nat) (x : Sem) : (s.setSem i x).rails = s.rails := rfl
@[simp] theorem State.setSem_cells (i : Nat) (x : Sem) : (s.setSem i x).cells = s.cells := rfl
@[simp] theorem State.setSem_fabric (i : Nat) (x : Sem) : (s.setSem i x).fabric = s.fabric := rfl
@[simp] theorem State.setSem_ckpt (i : Nat) (x : Sem) : (s.setSem i x).ckpt = s.ckpt := rfl
@[simp] theorem State.setSem_mxe (i : Nat) (x : Sem) : (s.setSem i x).mxe = s.mxe := rfl
@[simp] theorem State.setSem_dly (i : Nat) (x : Sem) : (s.setSem i x).dly = s.dly := rfl
@[simp] theorem State.setSem_netRx (i : Nat) (x : Sem) : (s.setSem i x).netRx = s.netRx := rfl
@[simp] theorem State.setSem_portIn (i : Nat) (x : Sem) : (s.setSem i x).portIn = s.portIn := rfl
@[simp] theorem State.setSem_memUe (i : Nat) (x : Sem) : (s.setSem i x).memUe = s.memUe := rfl
@[simp] theorem State.setSem_poisoned (i : Nat) (x : Sem) : (s.setSem i x).poisoned = s.poisoned := rfl
@[simp] theorem State.setSem_macs (i : Nat) (x : Sem) : (s.setSem i x).macs = s.macs := rfl
@[simp] theorem State.setSem_ste (i : Nat) (x : Sem) : (s.setSem i x).ste = s.ste := rfl
@[simp] theorem State.setSem_ptu (i : Nat) (x : Sem) : (s.setSem i x).ptu = s.ptu := rfl
@[simp] theorem State.setSem_rsu (i : Nat) (x : Sem) : (s.setSem i x).rsu = s.rsu := rfl
@[simp] theorem State.setSem_apt (i : Nat) (x : Sem) : (s.setSem i x).apt = s.apt := rfl
@[simp] theorem State.setSem_aptRnd (i : Nat) (x : Sem) : (s.setSem i x).aptRnd = s.aptRnd := rfl
@[simp] theorem State.setSem_pwr (i : Nat) (x : Sem) : (s.setSem i x).pwr = s.pwr := rfl
@[simp] theorem State.setSem_lsp (i : Nat) (x : Sem) : (s.setSem i x).lsp = s.lsp := rfl
@[simp] theorem State.setSem_dma (i : Nat) (x : Sem) : (s.setSem i x).dma = s.dma := rfl
@[simp] theorem State.setSem_chk (i : Nat) (x : Sem) : (s.setSem i x).chk = s.chk := rfl
@[simp] theorem State.setSem_memc (i : Nat) (x : Sem) : (s.setSem i x).memc = s.memc := rfl
@[simp] theorem State.setSem_twc (i : Nat) (x : Sem) : (s.setSem i x).twc = s.twc := rfl
@[simp] theorem State.setSem_flc (i : Nat) (x : Sem) : (s.setSem i x).flc = s.flc := rfl
@[simp] theorem State.setSem_jtag (i : Nat) (x : Sem) : (s.setSem i x).jtag = s.jtag := rfl
@[simp] theorem State.setSem_pair (i : Nat) (x : Sem) : (s.setSem i x).pair = s.pair := rfl

@[simp] theorem State.setPin_pending (h : HostId) (p : IntPin) : (s.setPin h p).pending = s.pending := rfl
@[simp] theorem State.setPin_regs (h : HostId) (p : IntPin) : (s.setPin h p).regs = s.regs := rfl
@[simp] theorem State.setPin_mem (h : HostId) (p : IntPin) : (s.setPin h p).mem = s.mem := rfl
@[simp] theorem State.setPin_freeCount (h : HostId) (p : IntPin) : (s.setPin h p).freeCount = s.freeCount := rfl
@[simp] theorem State.setPin_bus (h : HostId) (p : IntPin) : (s.setPin h p).bus = s.bus := rfl
@[simp] theorem State.setPin_hpa (h : HostId) (p : IntPin) : (s.setPin h p).hpa = s.hpa := rfl
@[simp] theorem State.setPin_hpb (h : HostId) (p : IntPin) : (s.setPin h p).hpb = s.hpb := rfl
@[simp] theorem State.setPin_sems (h : HostId) (p : IntPin) : (s.setPin h p).sems = s.sems := rfl
@[simp] theorem State.setPin_bmx (h : HostId) (p : IntPin) : (s.setPin h p).bmx = s.bmx := rfl
@[simp] theorem State.setPin_img (h : HostId) (p : IntPin) : (s.setPin h p).img = s.img := rfl
@[simp] theorem State.setPin_ldg (h : HostId) (p : IntPin) : (s.setPin h p).ldg = s.ldg := rfl
@[simp] theorem State.setPin_rails (h : HostId) (p : IntPin) : (s.setPin h p).rails = s.rails := rfl
@[simp] theorem State.setPin_cells (h : HostId) (p : IntPin) : (s.setPin h p).cells = s.cells := rfl
@[simp] theorem State.setPin_fabric (h : HostId) (p : IntPin) : (s.setPin h p).fabric = s.fabric := rfl
@[simp] theorem State.setPin_ckpt (h : HostId) (p : IntPin) : (s.setPin h p).ckpt = s.ckpt := rfl
@[simp] theorem State.setPin_mxe (h : HostId) (p : IntPin) : (s.setPin h p).mxe = s.mxe := rfl
@[simp] theorem State.setPin_dly (h : HostId) (p : IntPin) : (s.setPin h p).dly = s.dly := rfl
@[simp] theorem State.setPin_netRx (h : HostId) (p : IntPin) : (s.setPin h p).netRx = s.netRx := rfl
@[simp] theorem State.setPin_portIn (h : HostId) (p : IntPin) : (s.setPin h p).portIn = s.portIn := rfl
@[simp] theorem State.setPin_memUe (h : HostId) (p : IntPin) : (s.setPin h p).memUe = s.memUe := rfl
@[simp] theorem State.setPin_poisoned (h : HostId) (p : IntPin) : (s.setPin h p).poisoned = s.poisoned := rfl
@[simp] theorem State.setPin_macs (h : HostId) (p : IntPin) : (s.setPin h p).macs = s.macs := rfl
@[simp] theorem State.setPin_ste (h : HostId) (p : IntPin) : (s.setPin h p).ste = s.ste := rfl
@[simp] theorem State.setPin_ptu (h : HostId) (p : IntPin) : (s.setPin h p).ptu = s.ptu := rfl
@[simp] theorem State.setPin_rsu (h : HostId) (p : IntPin) : (s.setPin h p).rsu = s.rsu := rfl
@[simp] theorem State.setPin_apt (h : HostId) (p : IntPin) : (s.setPin h p).apt = s.apt := rfl
@[simp] theorem State.setPin_aptRnd (h : HostId) (p : IntPin) : (s.setPin h p).aptRnd = s.aptRnd := rfl
@[simp] theorem State.setPin_pwr (h : HostId) (p : IntPin) : (s.setPin h p).pwr = s.pwr := rfl
@[simp] theorem State.setPin_lsp (h : HostId) (p : IntPin) : (s.setPin h p).lsp = s.lsp := rfl
@[simp] theorem State.setPin_dma (h : HostId) (p : IntPin) : (s.setPin h p).dma = s.dma := rfl
@[simp] theorem State.setPin_chk (h : HostId) (p : IntPin) : (s.setPin h p).chk = s.chk := rfl
@[simp] theorem State.setPin_memc (h : HostId) (p : IntPin) : (s.setPin h p).memc = s.memc := rfl
@[simp] theorem State.setPin_twc (h : HostId) (p : IntPin) : (s.setPin h p).twc = s.twc := rfl
@[simp] theorem State.setPin_flc (h : HostId) (p : IntPin) : (s.setPin h p).flc = s.flc := rfl
@[simp] theorem State.setPin_jtag (h : HostId) (p : IntPin) : (s.setPin h p).jtag = s.jtag := rfl
@[simp] theorem State.setPin_pair (h : HostId) (p : IntPin) : (s.setPin h p).pair = s.pair := rfl

@[simp] theorem respond_pending (m : Master) (c : Code) (ws : List Word) : (respond m c ws s).pending = s.pending := rfl
@[simp] theorem respond_regs (m : Master) (c : Code) (ws : List Word) : (respond m c ws s).regs = s.regs := rfl
@[simp] theorem respond_mem (m : Master) (c : Code) (ws : List Word) : (respond m c ws s).mem = s.mem := rfl
@[simp] theorem respond_freeCount (m : Master) (c : Code) (ws : List Word) : (respond m c ws s).freeCount = s.freeCount := rfl
@[simp] theorem respond_sys (m : Master) (c : Code) (ws : List Word) : (respond m c ws s).sys = s.sys := rfl
@[simp] theorem respond_hpa (m : Master) (c : Code) (ws : List Word) : (respond m c ws s).hpa = s.hpa := rfl
@[simp] theorem respond_hpb (m : Master) (c : Code) (ws : List Word) : (respond m c ws s).hpb = s.hpb := rfl
@[simp] theorem respond_sems (m : Master) (c : Code) (ws : List Word) : (respond m c ws s).sems = s.sems := rfl
@[simp] theorem respond_bmx (m : Master) (c : Code) (ws : List Word) : (respond m c ws s).bmx = s.bmx := rfl
@[simp] theorem respond_img (m : Master) (c : Code) (ws : List Word) : (respond m c ws s).img = s.img := rfl
@[simp] theorem respond_ldg (m : Master) (c : Code) (ws : List Word) : (respond m c ws s).ldg = s.ldg := rfl
@[simp] theorem respond_rails (m : Master) (c : Code) (ws : List Word) : (respond m c ws s).rails = s.rails := rfl
@[simp] theorem respond_cells (m : Master) (c : Code) (ws : List Word) : (respond m c ws s).cells = s.cells := rfl
@[simp] theorem respond_fabric (m : Master) (c : Code) (ws : List Word) : (respond m c ws s).fabric = s.fabric := rfl
@[simp] theorem respond_ckpt (m : Master) (c : Code) (ws : List Word) : (respond m c ws s).ckpt = s.ckpt := rfl
@[simp] theorem respond_mxe (m : Master) (c : Code) (ws : List Word) : (respond m c ws s).mxe = s.mxe := rfl
@[simp] theorem respond_dly (m : Master) (c : Code) (ws : List Word) : (respond m c ws s).dly = s.dly := rfl
@[simp] theorem respond_netRx (m : Master) (c : Code) (ws : List Word) : (respond m c ws s).netRx = s.netRx := rfl
@[simp] theorem respond_portIn (m : Master) (c : Code) (ws : List Word) : (respond m c ws s).portIn = s.portIn := rfl
@[simp] theorem respond_memUe (m : Master) (c : Code) (ws : List Word) : (respond m c ws s).memUe = s.memUe := rfl
@[simp] theorem respond_poisoned (m : Master) (c : Code) (ws : List Word) : (respond m c ws s).poisoned = s.poisoned := rfl
@[simp] theorem respond_macs (m : Master) (c : Code) (ws : List Word) : (respond m c ws s).macs = s.macs := rfl
@[simp] theorem respond_ste (m : Master) (c : Code) (ws : List Word) : (respond m c ws s).ste = s.ste := rfl
@[simp] theorem respond_ptu (m : Master) (c : Code) (ws : List Word) : (respond m c ws s).ptu = s.ptu := rfl
@[simp] theorem respond_rsu (m : Master) (c : Code) (ws : List Word) : (respond m c ws s).rsu = s.rsu := rfl
@[simp] theorem respond_apt (m : Master) (c : Code) (ws : List Word) : (respond m c ws s).apt = s.apt := rfl
@[simp] theorem respond_aptRnd (m : Master) (c : Code) (ws : List Word) : (respond m c ws s).aptRnd = s.aptRnd := rfl
@[simp] theorem respond_pwr (m : Master) (c : Code) (ws : List Word) : (respond m c ws s).pwr = s.pwr := rfl
@[simp] theorem respond_lsp (m : Master) (c : Code) (ws : List Word) : (respond m c ws s).lsp = s.lsp := rfl
@[simp] theorem respond_dma (m : Master) (c : Code) (ws : List Word) : (respond m c ws s).dma = s.dma := rfl
@[simp] theorem respond_chk (m : Master) (c : Code) (ws : List Word) : (respond m c ws s).chk = s.chk := rfl
@[simp] theorem respond_memc (m : Master) (c : Code) (ws : List Word) : (respond m c ws s).memc = s.memc := rfl
@[simp] theorem respond_twc (m : Master) (c : Code) (ws : List Word) : (respond m c ws s).twc = s.twc := rfl
@[simp] theorem respond_flc (m : Master) (c : Code) (ws : List Word) : (respond m c ws s).flc = s.flc := rfl
@[simp] theorem respond_jtag (m : Master) (c : Code) (ws : List Word) : (respond m c ws s).jtag = s.jtag := rfl
@[simp] theorem respond_pair (m : Master) (c : Code) (ws : List Word) : (respond m c ws s).pair = s.pair := rfl

@[simp] theorem logPush_pending (k b u o x : Nat) : (logPush k b u o x s).pending = s.pending := rfl
@[simp] theorem logPush_regs (k b u o x : Nat) : (logPush k b u o x s).regs = s.regs := rfl
@[simp] theorem logPush_mem (k b u o x : Nat) : (logPush k b u o x s).mem = s.mem := rfl
@[simp] theorem logPush_freeCount (k b u o x : Nat) : (logPush k b u o x s).freeCount = s.freeCount := rfl
@[simp] theorem logPush_bus (k b u o x : Nat) : (logPush k b u o x s).bus = s.bus := rfl
@[simp] theorem logPush_hpa (k b u o x : Nat) : (logPush k b u o x s).hpa = s.hpa := rfl
@[simp] theorem logPush_hpb (k b u o x : Nat) : (logPush k b u o x s).hpb = s.hpb := rfl
@[simp] theorem logPush_sems (k b u o x : Nat) : (logPush k b u o x s).sems = s.sems := rfl
@[simp] theorem logPush_bmx (k b u o x : Nat) : (logPush k b u o x s).bmx = s.bmx := rfl
@[simp] theorem logPush_img (k b u o x : Nat) : (logPush k b u o x s).img = s.img := rfl
@[simp] theorem logPush_ldg (k b u o x : Nat) : (logPush k b u o x s).ldg = s.ldg := rfl
@[simp] theorem logPush_rails (k b u o x : Nat) : (logPush k b u o x s).rails = s.rails := rfl
@[simp] theorem logPush_cells (k b u o x : Nat) : (logPush k b u o x s).cells = s.cells := rfl
@[simp] theorem logPush_fabric (k b u o x : Nat) : (logPush k b u o x s).fabric = s.fabric := rfl
@[simp] theorem logPush_ckpt (k b u o x : Nat) : (logPush k b u o x s).ckpt = s.ckpt := rfl
@[simp] theorem logPush_mxe (k b u o x : Nat) : (logPush k b u o x s).mxe = s.mxe := rfl
@[simp] theorem logPush_dly (k b u o x : Nat) : (logPush k b u o x s).dly = s.dly := rfl
@[simp] theorem logPush_netRx (k b u o x : Nat) : (logPush k b u o x s).netRx = s.netRx := rfl
@[simp] theorem logPush_portIn (k b u o x : Nat) : (logPush k b u o x s).portIn = s.portIn := rfl
@[simp] theorem logPush_memUe (k b u o x : Nat) : (logPush k b u o x s).memUe = s.memUe := rfl
@[simp] theorem logPush_poisoned (k b u o x : Nat) : (logPush k b u o x s).poisoned = s.poisoned := rfl
@[simp] theorem logPush_macs (k b u o x : Nat) : (logPush k b u o x s).macs = s.macs := rfl
@[simp] theorem logPush_ste (k b u o x : Nat) : (logPush k b u o x s).ste = s.ste := rfl
@[simp] theorem logPush_ptu (k b u o x : Nat) : (logPush k b u o x s).ptu = s.ptu := rfl
@[simp] theorem logPush_rsu (k b u o x : Nat) : (logPush k b u o x s).rsu = s.rsu := rfl
@[simp] theorem logPush_apt (k b u o x : Nat) : (logPush k b u o x s).apt = s.apt := rfl
@[simp] theorem logPush_aptRnd (k b u o x : Nat) : (logPush k b u o x s).aptRnd = s.aptRnd := rfl
@[simp] theorem logPush_pwr (k b u o x : Nat) : (logPush k b u o x s).pwr = s.pwr := rfl
@[simp] theorem logPush_lsp (k b u o x : Nat) : (logPush k b u o x s).lsp = s.lsp := rfl
@[simp] theorem logPush_dma (k b u o x : Nat) : (logPush k b u o x s).dma = s.dma := rfl
@[simp] theorem logPush_chk (k b u o x : Nat) : (logPush k b u o x s).chk = s.chk := rfl
@[simp] theorem logPush_memc (k b u o x : Nat) : (logPush k b u o x s).memc = s.memc := rfl
@[simp] theorem logPush_twc (k b u o x : Nat) : (logPush k b u o x s).twc = s.twc := rfl
@[simp] theorem logPush_flc (k b u o x : Nat) : (logPush k b u o x s).flc = s.flc := rfl
@[simp] theorem logPush_jtag (k b u o x : Nat) : (logPush k b u o x s).jtag = s.jtag := rfl
@[simp] theorem logPush_pair (k b u o x : Nat) : (logPush k b u o x s).pair = s.pair := rfl

@[simp] theorem raise_pending (b : Blk) (i : Nat) : (raise b i s).pending = s.pending := by simp only [raise, logPush_pending, State.updSys_pending, State.setReg_pending, State.orReg_pending]
@[simp] theorem raise_mem (b : Blk) (i : Nat) : (raise b i s).mem = s.mem := by simp only [raise, logPush_mem, State.updSys_mem, State.setReg_mem, State.orReg_mem]
@[simp] theorem raise_freeCount (b : Blk) (i : Nat) : (raise b i s).freeCount = s.freeCount := by simp only [raise, logPush_freeCount, State.updSys_freeCount, State.setReg_freeCount, State.orReg_freeCount]
@[simp] theorem raise_bus (b : Blk) (i : Nat) : (raise b i s).bus = s.bus := by simp only [raise, logPush_bus, State.updSys_bus, State.setReg_bus, State.orReg_bus]
@[simp] theorem raise_hpa (b : Blk) (i : Nat) : (raise b i s).hpa = s.hpa := by simp only [raise, logPush_hpa, State.updSys_hpa, State.setReg_hpa, State.orReg_hpa]
@[simp] theorem raise_hpb (b : Blk) (i : Nat) : (raise b i s).hpb = s.hpb := by simp only [raise, logPush_hpb, State.updSys_hpb, State.setReg_hpb, State.orReg_hpb]
@[simp] theorem raise_sems (b : Blk) (i : Nat) : (raise b i s).sems = s.sems := by simp only [raise, logPush_sems, State.updSys_sems, State.setReg_sems, State.orReg_sems]
@[simp] theorem raise_bmx (b : Blk) (i : Nat) : (raise b i s).bmx = s.bmx := by simp only [raise, logPush_bmx, State.updSys_bmx, State.setReg_bmx, State.orReg_bmx]
@[simp] theorem raise_img (b : Blk) (i : Nat) : (raise b i s).img = s.img := by simp only [raise, logPush_img, State.updSys_img, State.setReg_img, State.orReg_img]
@[simp] theorem raise_ldg (b : Blk) (i : Nat) : (raise b i s).ldg = s.ldg := by simp only [raise, logPush_ldg, State.updSys_ldg, State.setReg_ldg, State.orReg_ldg]
@[simp] theorem raise_rails (b : Blk) (i : Nat) : (raise b i s).rails = s.rails := by simp only [raise, logPush_rails, State.updSys_rails, State.setReg_rails, State.orReg_rails]
@[simp] theorem raise_cells (b : Blk) (i : Nat) : (raise b i s).cells = s.cells := by simp only [raise, logPush_cells, State.updSys_cells, State.setReg_cells, State.orReg_cells]
@[simp] theorem raise_fabric (b : Blk) (i : Nat) : (raise b i s).fabric = s.fabric := by simp only [raise, logPush_fabric, State.updSys_fabric, State.setReg_fabric, State.orReg_fabric]
@[simp] theorem raise_ckpt (b : Blk) (i : Nat) : (raise b i s).ckpt = s.ckpt := by simp only [raise, logPush_ckpt, State.updSys_ckpt, State.setReg_ckpt, State.orReg_ckpt]
@[simp] theorem raise_mxe (b : Blk) (i : Nat) : (raise b i s).mxe = s.mxe := by simp only [raise, logPush_mxe, State.updSys_mxe, State.setReg_mxe, State.orReg_mxe]
@[simp] theorem raise_dly (b : Blk) (i : Nat) : (raise b i s).dly = s.dly := by simp only [raise, logPush_dly, State.updSys_dly, State.setReg_dly, State.orReg_dly]
@[simp] theorem raise_netRx (b : Blk) (i : Nat) : (raise b i s).netRx = s.netRx := by simp only [raise, logPush_netRx, State.updSys_netRx, State.setReg_netRx, State.orReg_netRx]
@[simp] theorem raise_portIn (b : Blk) (i : Nat) : (raise b i s).portIn = s.portIn := by simp only [raise, logPush_portIn, State.updSys_portIn, State.setReg_portIn, State.orReg_portIn]
@[simp] theorem raise_memUe (b : Blk) (i : Nat) : (raise b i s).memUe = s.memUe := by simp only [raise, logPush_memUe, State.updSys_memUe, State.setReg_memUe, State.orReg_memUe]
@[simp] theorem raise_poisoned (b : Blk) (i : Nat) : (raise b i s).poisoned = s.poisoned := by simp only [raise, logPush_poisoned, State.updSys_poisoned, State.setReg_poisoned, State.orReg_poisoned]
@[simp] theorem raise_macs (b : Blk) (i : Nat) : (raise b i s).macs = s.macs := by simp only [raise, logPush_macs, State.updSys_macs, State.setReg_macs, State.orReg_macs]
@[simp] theorem raise_ste (b : Blk) (i : Nat) : (raise b i s).ste = s.ste := by simp only [raise, logPush_ste, State.updSys_ste, State.setReg_ste, State.orReg_ste]
@[simp] theorem raise_ptu (b : Blk) (i : Nat) : (raise b i s).ptu = s.ptu := by simp only [raise, logPush_ptu, State.updSys_ptu, State.setReg_ptu, State.orReg_ptu]
@[simp] theorem raise_rsu (b : Blk) (i : Nat) : (raise b i s).rsu = s.rsu := by simp only [raise, logPush_rsu, State.updSys_rsu, State.setReg_rsu, State.orReg_rsu]
@[simp] theorem raise_apt (b : Blk) (i : Nat) : (raise b i s).apt = s.apt := by simp only [raise, logPush_apt, State.updSys_apt, State.setReg_apt, State.orReg_apt]
@[simp] theorem raise_aptRnd (b : Blk) (i : Nat) : (raise b i s).aptRnd = s.aptRnd := by simp only [raise, logPush_aptRnd, State.updSys_aptRnd, State.setReg_aptRnd, State.orReg_aptRnd]
@[simp] theorem raise_pwr (b : Blk) (i : Nat) : (raise b i s).pwr = s.pwr := by simp only [raise, logPush_pwr, State.updSys_pwr, State.setReg_pwr, State.orReg_pwr]
@[simp] theorem raise_lsp (b : Blk) (i : Nat) : (raise b i s).lsp = s.lsp := by simp only [raise, logPush_lsp, State.updSys_lsp, State.setReg_lsp, State.orReg_lsp]
@[simp] theorem raise_dma (b : Blk) (i : Nat) : (raise b i s).dma = s.dma := by simp only [raise, logPush_dma, State.updSys_dma, State.setReg_dma, State.orReg_dma]
@[simp] theorem raise_chk (b : Blk) (i : Nat) : (raise b i s).chk = s.chk := by simp only [raise, logPush_chk, State.updSys_chk, State.setReg_chk, State.orReg_chk]
@[simp] theorem raise_memc (b : Blk) (i : Nat) : (raise b i s).memc = s.memc := by simp only [raise, logPush_memc, State.updSys_memc, State.setReg_memc, State.orReg_memc]
@[simp] theorem raise_twc (b : Blk) (i : Nat) : (raise b i s).twc = s.twc := by simp only [raise, logPush_twc, State.updSys_twc, State.setReg_twc, State.orReg_twc]
@[simp] theorem raise_flc (b : Blk) (i : Nat) : (raise b i s).flc = s.flc := by simp only [raise, logPush_flc, State.updSys_flc, State.setReg_flc, State.orReg_flc]
@[simp] theorem raise_jtag (b : Blk) (i : Nat) : (raise b i s).jtag = s.jtag := by simp only [raise, logPush_jtag, State.updSys_jtag, State.setReg_jtag, State.orReg_jtag]
@[simp] theorem raise_pair (b : Blk) (i : Nat) : (raise b i s).pair = s.pair := by simp only [raise, logPush_pair, State.updSys_pair, State.setReg_pair, State.orReg_pair]

@[simp] theorem evt_pending (b : Blk) (i : Nat) : (evt b i s).pending = s.pending := rfl
@[simp] theorem evt_mem (b : Blk) (i : Nat) : (evt b i s).mem = s.mem := rfl
@[simp] theorem evt_freeCount (b : Blk) (i : Nat) : (evt b i s).freeCount = s.freeCount := rfl
@[simp] theorem evt_bus (b : Blk) (i : Nat) : (evt b i s).bus = s.bus := rfl
@[simp] theorem evt_sys (b : Blk) (i : Nat) : (evt b i s).sys = s.sys := rfl
@[simp] theorem evt_hpa (b : Blk) (i : Nat) : (evt b i s).hpa = s.hpa := rfl
@[simp] theorem evt_hpb (b : Blk) (i : Nat) : (evt b i s).hpb = s.hpb := rfl
@[simp] theorem evt_sems (b : Blk) (i : Nat) : (evt b i s).sems = s.sems := rfl
@[simp] theorem evt_bmx (b : Blk) (i : Nat) : (evt b i s).bmx = s.bmx := rfl
@[simp] theorem evt_img (b : Blk) (i : Nat) : (evt b i s).img = s.img := rfl
@[simp] theorem evt_ldg (b : Blk) (i : Nat) : (evt b i s).ldg = s.ldg := rfl
@[simp] theorem evt_rails (b : Blk) (i : Nat) : (evt b i s).rails = s.rails := rfl
@[simp] theorem evt_cells (b : Blk) (i : Nat) : (evt b i s).cells = s.cells := rfl
@[simp] theorem evt_fabric (b : Blk) (i : Nat) : (evt b i s).fabric = s.fabric := rfl
@[simp] theorem evt_ckpt (b : Blk) (i : Nat) : (evt b i s).ckpt = s.ckpt := rfl
@[simp] theorem evt_mxe (b : Blk) (i : Nat) : (evt b i s).mxe = s.mxe := rfl
@[simp] theorem evt_dly (b : Blk) (i : Nat) : (evt b i s).dly = s.dly := rfl
@[simp] theorem evt_netRx (b : Blk) (i : Nat) : (evt b i s).netRx = s.netRx := rfl
@[simp] theorem evt_portIn (b : Blk) (i : Nat) : (evt b i s).portIn = s.portIn := rfl
@[simp] theorem evt_memUe (b : Blk) (i : Nat) : (evt b i s).memUe = s.memUe := rfl
@[simp] theorem evt_poisoned (b : Blk) (i : Nat) : (evt b i s).poisoned = s.poisoned := rfl
@[simp] theorem evt_macs (b : Blk) (i : Nat) : (evt b i s).macs = s.macs := rfl
@[simp] theorem evt_ste (b : Blk) (i : Nat) : (evt b i s).ste = s.ste := rfl
@[simp] theorem evt_ptu (b : Blk) (i : Nat) : (evt b i s).ptu = s.ptu := rfl
@[simp] theorem evt_rsu (b : Blk) (i : Nat) : (evt b i s).rsu = s.rsu := rfl
@[simp] theorem evt_apt (b : Blk) (i : Nat) : (evt b i s).apt = s.apt := rfl
@[simp] theorem evt_aptRnd (b : Blk) (i : Nat) : (evt b i s).aptRnd = s.aptRnd := rfl
@[simp] theorem evt_pwr (b : Blk) (i : Nat) : (evt b i s).pwr = s.pwr := rfl
@[simp] theorem evt_lsp (b : Blk) (i : Nat) : (evt b i s).lsp = s.lsp := rfl
@[simp] theorem evt_dma (b : Blk) (i : Nat) : (evt b i s).dma = s.dma := rfl
@[simp] theorem evt_chk (b : Blk) (i : Nat) : (evt b i s).chk = s.chk := rfl
@[simp] theorem evt_memc (b : Blk) (i : Nat) : (evt b i s).memc = s.memc := rfl
@[simp] theorem evt_twc (b : Blk) (i : Nat) : (evt b i s).twc = s.twc := rfl
@[simp] theorem evt_flc (b : Blk) (i : Nat) : (evt b i s).flc = s.flc := rfl
@[simp] theorem evt_jtag (b : Blk) (i : Nat) : (evt b i s).jtag = s.jtag := rfl
@[simp] theorem evt_pair (b : Blk) (i : Nat) : (evt b i s).pair = s.pair := rfl

@[simp] theorem State.updPair_pending (f : Pair → Pair) : (s.updPair f).pending = s.pending := rfl
@[simp] theorem State.updPair_regs (f : Pair → Pair) : (s.updPair f).regs = s.regs := rfl
@[simp] theorem State.updPair_mem (f : Pair → Pair) : (s.updPair f).mem = s.mem := rfl
@[simp] theorem State.updPair_freeCount (f : Pair → Pair) : (s.updPair f).freeCount = s.freeCount := rfl
@[simp] theorem State.updPair_bus (f : Pair → Pair) : (s.updPair f).bus = s.bus := rfl
@[simp] theorem State.updPair_sys (f : Pair → Pair) : (s.updPair f).sys = s.sys := rfl
@[simp] theorem State.updPair_hpa (f : Pair → Pair) : (s.updPair f).hpa = s.hpa := rfl
@[simp] theorem State.updPair_hpb (f : Pair → Pair) : (s.updPair f).hpb = s.hpb := rfl
@[simp] theorem State.updPair_sems (f : Pair → Pair) : (s.updPair f).sems = s.sems := rfl
@[simp] theorem State.updPair_bmx (f : Pair → Pair) : (s.updPair f).bmx = s.bmx := rfl
@[simp] theorem State.updPair_img (f : Pair → Pair) : (s.updPair f).img = s.img := rfl
@[simp] theorem State.updPair_ldg (f : Pair → Pair) : (s.updPair f).ldg = s.ldg := rfl
@[simp] theorem State.updPair_rails (f : Pair → Pair) : (s.updPair f).rails = s.rails := rfl
@[simp] theorem State.updPair_cells (f : Pair → Pair) : (s.updPair f).cells = s.cells := rfl
@[simp] theorem State.updPair_fabric (f : Pair → Pair) : (s.updPair f).fabric = s.fabric := rfl
@[simp] theorem State.updPair_ckpt (f : Pair → Pair) : (s.updPair f).ckpt = s.ckpt := rfl
@[simp] theorem State.updPair_mxe (f : Pair → Pair) : (s.updPair f).mxe = s.mxe := rfl
@[simp] theorem State.updPair_dly (f : Pair → Pair) : (s.updPair f).dly = s.dly := rfl
@[simp] theorem State.updPair_netRx (f : Pair → Pair) : (s.updPair f).netRx = s.netRx := rfl
@[simp] theorem State.updPair_portIn (f : Pair → Pair) : (s.updPair f).portIn = s.portIn := rfl
@[simp] theorem State.updPair_memUe (f : Pair → Pair) : (s.updPair f).memUe = s.memUe := rfl
@[simp] theorem State.updPair_poisoned (f : Pair → Pair) : (s.updPair f).poisoned = s.poisoned := rfl
@[simp] theorem State.updPair_macs (f : Pair → Pair) : (s.updPair f).macs = s.macs := rfl
@[simp] theorem State.updPair_ste (f : Pair → Pair) : (s.updPair f).ste = s.ste := rfl
@[simp] theorem State.updPair_ptu (f : Pair → Pair) : (s.updPair f).ptu = s.ptu := rfl
@[simp] theorem State.updPair_rsu (f : Pair → Pair) : (s.updPair f).rsu = s.rsu := rfl
@[simp] theorem State.updPair_apt (f : Pair → Pair) : (s.updPair f).apt = s.apt := rfl
@[simp] theorem State.updPair_aptRnd (f : Pair → Pair) : (s.updPair f).aptRnd = s.aptRnd := rfl
@[simp] theorem State.updPair_pwr (f : Pair → Pair) : (s.updPair f).pwr = s.pwr := rfl
@[simp] theorem State.updPair_lsp (f : Pair → Pair) : (s.updPair f).lsp = s.lsp := rfl
@[simp] theorem State.updPair_dma (f : Pair → Pair) : (s.updPair f).dma = s.dma := rfl
@[simp] theorem State.updPair_chk (f : Pair → Pair) : (s.updPair f).chk = s.chk := rfl
@[simp] theorem State.updPair_memc (f : Pair → Pair) : (s.updPair f).memc = s.memc := rfl
@[simp] theorem State.updPair_twc (f : Pair → Pair) : (s.updPair f).twc = s.twc := rfl
@[simp] theorem State.updPair_flc (f : Pair → Pair) : (s.updPair f).flc = s.flc := rfl
@[simp] theorem State.updPair_jtag (f : Pair → Pair) : (s.updPair f).jtag = s.jtag := rfl

@[simp] theorem State.updCkpt_pending (f : Ckpt → Ckpt) : (s.updCkpt f).pending = s.pending := rfl
@[simp] theorem State.updCkpt_regs (f : Ckpt → Ckpt) : (s.updCkpt f).regs = s.regs := rfl
@[simp] theorem State.updCkpt_mem (f : Ckpt → Ckpt) : (s.updCkpt f).mem = s.mem := rfl
@[simp] theorem State.updCkpt_freeCount (f : Ckpt → Ckpt) : (s.updCkpt f).freeCount = s.freeCount := rfl
@[simp] theorem State.updCkpt_bus (f : Ckpt → Ckpt) : (s.updCkpt f).bus = s.bus := rfl
@[simp] theorem State.updCkpt_sys (f : Ckpt → Ckpt) : (s.updCkpt f).sys = s.sys := rfl
@[simp] theorem State.updCkpt_hpa (f : Ckpt → Ckpt) : (s.updCkpt f).hpa = s.hpa := rfl
@[simp] theorem State.updCkpt_hpb (f : Ckpt → Ckpt) : (s.updCkpt f).hpb = s.hpb := rfl
@[simp] theorem State.updCkpt_sems (f : Ckpt → Ckpt) : (s.updCkpt f).sems = s.sems := rfl
@[simp] theorem State.updCkpt_bmx (f : Ckpt → Ckpt) : (s.updCkpt f).bmx = s.bmx := rfl
@[simp] theorem State.updCkpt_img (f : Ckpt → Ckpt) : (s.updCkpt f).img = s.img := rfl
@[simp] theorem State.updCkpt_ldg (f : Ckpt → Ckpt) : (s.updCkpt f).ldg = s.ldg := rfl
@[simp] theorem State.updCkpt_rails (f : Ckpt → Ckpt) : (s.updCkpt f).rails = s.rails := rfl
@[simp] theorem State.updCkpt_cells (f : Ckpt → Ckpt) : (s.updCkpt f).cells = s.cells := rfl
@[simp] theorem State.updCkpt_fabric (f : Ckpt → Ckpt) : (s.updCkpt f).fabric = s.fabric := rfl
@[simp] theorem State.updCkpt_mxe (f : Ckpt → Ckpt) : (s.updCkpt f).mxe = s.mxe := rfl
@[simp] theorem State.updCkpt_dly (f : Ckpt → Ckpt) : (s.updCkpt f).dly = s.dly := rfl
@[simp] theorem State.updCkpt_netRx (f : Ckpt → Ckpt) : (s.updCkpt f).netRx = s.netRx := rfl
@[simp] theorem State.updCkpt_portIn (f : Ckpt → Ckpt) : (s.updCkpt f).portIn = s.portIn := rfl
@[simp] theorem State.updCkpt_memUe (f : Ckpt → Ckpt) : (s.updCkpt f).memUe = s.memUe := rfl
@[simp] theorem State.updCkpt_poisoned (f : Ckpt → Ckpt) : (s.updCkpt f).poisoned = s.poisoned := rfl
@[simp] theorem State.updCkpt_macs (f : Ckpt → Ckpt) : (s.updCkpt f).macs = s.macs := rfl
@[simp] theorem State.updCkpt_ste (f : Ckpt → Ckpt) : (s.updCkpt f).ste = s.ste := rfl
@[simp] theorem State.updCkpt_ptu (f : Ckpt → Ckpt) : (s.updCkpt f).ptu = s.ptu := rfl
@[simp] theorem State.updCkpt_rsu (f : Ckpt → Ckpt) : (s.updCkpt f).rsu = s.rsu := rfl
@[simp] theorem State.updCkpt_apt (f : Ckpt → Ckpt) : (s.updCkpt f).apt = s.apt := rfl
@[simp] theorem State.updCkpt_aptRnd (f : Ckpt → Ckpt) : (s.updCkpt f).aptRnd = s.aptRnd := rfl
@[simp] theorem State.updCkpt_pwr (f : Ckpt → Ckpt) : (s.updCkpt f).pwr = s.pwr := rfl
@[simp] theorem State.updCkpt_lsp (f : Ckpt → Ckpt) : (s.updCkpt f).lsp = s.lsp := rfl
@[simp] theorem State.updCkpt_dma (f : Ckpt → Ckpt) : (s.updCkpt f).dma = s.dma := rfl
@[simp] theorem State.updCkpt_chk (f : Ckpt → Ckpt) : (s.updCkpt f).chk = s.chk := rfl
@[simp] theorem State.updCkpt_memc (f : Ckpt → Ckpt) : (s.updCkpt f).memc = s.memc := rfl
@[simp] theorem State.updCkpt_twc (f : Ckpt → Ckpt) : (s.updCkpt f).twc = s.twc := rfl
@[simp] theorem State.updCkpt_flc (f : Ckpt → Ckpt) : (s.updCkpt f).flc = s.flc := rfl
@[simp] theorem State.updCkpt_jtag (f : Ckpt → Ckpt) : (s.updCkpt f).jtag = s.jtag := rfl
@[simp] theorem State.updCkpt_pair (f : Ckpt → Ckpt) : (s.updCkpt f).pair = s.pair := rfl

@[simp] theorem State.updLdg_pending (f : Ldg → Ldg) : (s.updLdg f).pending = s.pending := rfl
@[simp] theorem State.updLdg_regs (f : Ldg → Ldg) : (s.updLdg f).regs = s.regs := rfl
@[simp] theorem State.updLdg_mem (f : Ldg → Ldg) : (s.updLdg f).mem = s.mem := rfl
@[simp] theorem State.updLdg_freeCount (f : Ldg → Ldg) : (s.updLdg f).freeCount = s.freeCount := rfl
@[simp] theorem State.updLdg_bus (f : Ldg → Ldg) : (s.updLdg f).bus = s.bus := rfl
@[simp] theorem State.updLdg_sys (f : Ldg → Ldg) : (s.updLdg f).sys = s.sys := rfl
@[simp] theorem State.updLdg_hpa (f : Ldg → Ldg) : (s.updLdg f).hpa = s.hpa := rfl
@[simp] theorem State.updLdg_hpb (f : Ldg → Ldg) : (s.updLdg f).hpb = s.hpb := rfl
@[simp] theorem State.updLdg_sems (f : Ldg → Ldg) : (s.updLdg f).sems = s.sems := rfl
@[simp] theorem State.updLdg_bmx (f : Ldg → Ldg) : (s.updLdg f).bmx = s.bmx := rfl
@[simp] theorem State.updLdg_img (f : Ldg → Ldg) : (s.updLdg f).img = s.img := rfl
@[simp] theorem State.updLdg_rails (f : Ldg → Ldg) : (s.updLdg f).rails = s.rails := rfl
@[simp] theorem State.updLdg_cells (f : Ldg → Ldg) : (s.updLdg f).cells = s.cells := rfl
@[simp] theorem State.updLdg_fabric (f : Ldg → Ldg) : (s.updLdg f).fabric = s.fabric := rfl
@[simp] theorem State.updLdg_ckpt (f : Ldg → Ldg) : (s.updLdg f).ckpt = s.ckpt := rfl
@[simp] theorem State.updLdg_mxe (f : Ldg → Ldg) : (s.updLdg f).mxe = s.mxe := rfl
@[simp] theorem State.updLdg_dly (f : Ldg → Ldg) : (s.updLdg f).dly = s.dly := rfl
@[simp] theorem State.updLdg_netRx (f : Ldg → Ldg) : (s.updLdg f).netRx = s.netRx := rfl
@[simp] theorem State.updLdg_portIn (f : Ldg → Ldg) : (s.updLdg f).portIn = s.portIn := rfl
@[simp] theorem State.updLdg_memUe (f : Ldg → Ldg) : (s.updLdg f).memUe = s.memUe := rfl
@[simp] theorem State.updLdg_poisoned (f : Ldg → Ldg) : (s.updLdg f).poisoned = s.poisoned := rfl
@[simp] theorem State.updLdg_macs (f : Ldg → Ldg) : (s.updLdg f).macs = s.macs := rfl
@[simp] theorem State.updLdg_ste (f : Ldg → Ldg) : (s.updLdg f).ste = s.ste := rfl
@[simp] theorem State.updLdg_ptu (f : Ldg → Ldg) : (s.updLdg f).ptu = s.ptu := rfl
@[simp] theorem State.updLdg_rsu (f : Ldg → Ldg) : (s.updLdg f).rsu = s.rsu := rfl
@[simp] theorem State.updLdg_apt (f : Ldg → Ldg) : (s.updLdg f).apt = s.apt := rfl
@[simp] theorem State.updLdg_aptRnd (f : Ldg → Ldg) : (s.updLdg f).aptRnd = s.aptRnd := rfl
@[simp] theorem State.updLdg_pwr (f : Ldg → Ldg) : (s.updLdg f).pwr = s.pwr := rfl
@[simp] theorem State.updLdg_lsp (f : Ldg → Ldg) : (s.updLdg f).lsp = s.lsp := rfl
@[simp] theorem State.updLdg_dma (f : Ldg → Ldg) : (s.updLdg f).dma = s.dma := rfl
@[simp] theorem State.updLdg_chk (f : Ldg → Ldg) : (s.updLdg f).chk = s.chk := rfl
@[simp] theorem State.updLdg_memc (f : Ldg → Ldg) : (s.updLdg f).memc = s.memc := rfl
@[simp] theorem State.updLdg_twc (f : Ldg → Ldg) : (s.updLdg f).twc = s.twc := rfl
@[simp] theorem State.updLdg_flc (f : Ldg → Ldg) : (s.updLdg f).flc = s.flc := rfl
@[simp] theorem State.updLdg_jtag (f : Ldg → Ldg) : (s.updLdg f).jtag = s.jtag := rfl
@[simp] theorem State.updLdg_pair (f : Ldg → Ldg) : (s.updLdg f).pair = s.pair := rfl

@[simp] theorem State.updMxe_pending (f : Mxe → Mxe) : (s.updMxe f).pending = s.pending := rfl
@[simp] theorem State.updMxe_regs (f : Mxe → Mxe) : (s.updMxe f).regs = s.regs := rfl
@[simp] theorem State.updMxe_mem (f : Mxe → Mxe) : (s.updMxe f).mem = s.mem := rfl
@[simp] theorem State.updMxe_freeCount (f : Mxe → Mxe) : (s.updMxe f).freeCount = s.freeCount := rfl
@[simp] theorem State.updMxe_bus (f : Mxe → Mxe) : (s.updMxe f).bus = s.bus := rfl
@[simp] theorem State.updMxe_sys (f : Mxe → Mxe) : (s.updMxe f).sys = s.sys := rfl
@[simp] theorem State.updMxe_hpa (f : Mxe → Mxe) : (s.updMxe f).hpa = s.hpa := rfl
@[simp] theorem State.updMxe_hpb (f : Mxe → Mxe) : (s.updMxe f).hpb = s.hpb := rfl
@[simp] theorem State.updMxe_sems (f : Mxe → Mxe) : (s.updMxe f).sems = s.sems := rfl
@[simp] theorem State.updMxe_bmx (f : Mxe → Mxe) : (s.updMxe f).bmx = s.bmx := rfl
@[simp] theorem State.updMxe_img (f : Mxe → Mxe) : (s.updMxe f).img = s.img := rfl
@[simp] theorem State.updMxe_ldg (f : Mxe → Mxe) : (s.updMxe f).ldg = s.ldg := rfl
@[simp] theorem State.updMxe_rails (f : Mxe → Mxe) : (s.updMxe f).rails = s.rails := rfl
@[simp] theorem State.updMxe_cells (f : Mxe → Mxe) : (s.updMxe f).cells = s.cells := rfl
@[simp] theorem State.updMxe_fabric (f : Mxe → Mxe) : (s.updMxe f).fabric = s.fabric := rfl
@[simp] theorem State.updMxe_ckpt (f : Mxe → Mxe) : (s.updMxe f).ckpt = s.ckpt := rfl
@[simp] theorem State.updMxe_dly (f : Mxe → Mxe) : (s.updMxe f).dly = s.dly := rfl
@[simp] theorem State.updMxe_netRx (f : Mxe → Mxe) : (s.updMxe f).netRx = s.netRx := rfl
@[simp] theorem State.updMxe_portIn (f : Mxe → Mxe) : (s.updMxe f).portIn = s.portIn := rfl
@[simp] theorem State.updMxe_memUe (f : Mxe → Mxe) : (s.updMxe f).memUe = s.memUe := rfl
@[simp] theorem State.updMxe_poisoned (f : Mxe → Mxe) : (s.updMxe f).poisoned = s.poisoned := rfl
@[simp] theorem State.updMxe_macs (f : Mxe → Mxe) : (s.updMxe f).macs = s.macs := rfl
@[simp] theorem State.updMxe_ste (f : Mxe → Mxe) : (s.updMxe f).ste = s.ste := rfl
@[simp] theorem State.updMxe_ptu (f : Mxe → Mxe) : (s.updMxe f).ptu = s.ptu := rfl
@[simp] theorem State.updMxe_rsu (f : Mxe → Mxe) : (s.updMxe f).rsu = s.rsu := rfl
@[simp] theorem State.updMxe_apt (f : Mxe → Mxe) : (s.updMxe f).apt = s.apt := rfl
@[simp] theorem State.updMxe_aptRnd (f : Mxe → Mxe) : (s.updMxe f).aptRnd = s.aptRnd := rfl
@[simp] theorem State.updMxe_pwr (f : Mxe → Mxe) : (s.updMxe f).pwr = s.pwr := rfl
@[simp] theorem State.updMxe_lsp (f : Mxe → Mxe) : (s.updMxe f).lsp = s.lsp := rfl
@[simp] theorem State.updMxe_dma (f : Mxe → Mxe) : (s.updMxe f).dma = s.dma := rfl
@[simp] theorem State.updMxe_chk (f : Mxe → Mxe) : (s.updMxe f).chk = s.chk := rfl
@[simp] theorem State.updMxe_memc (f : Mxe → Mxe) : (s.updMxe f).memc = s.memc := rfl
@[simp] theorem State.updMxe_twc (f : Mxe → Mxe) : (s.updMxe f).twc = s.twc := rfl
@[simp] theorem State.updMxe_flc (f : Mxe → Mxe) : (s.updMxe f).flc = s.flc := rfl
@[simp] theorem State.updMxe_jtag (f : Mxe → Mxe) : (s.updMxe f).jtag = s.jtag := rfl
@[simp] theorem State.updMxe_pair (f : Mxe → Mxe) : (s.updMxe f).pair = s.pair := rfl

@[simp] theorem updPlayer_pending (i : Nat) (f : Player → Player) : (updPlayer i f s).pending = s.pending := rfl
@[simp] theorem updPlayer_regs (i : Nat) (f : Player → Player) : (updPlayer i f s).regs = s.regs := rfl
@[simp] theorem updPlayer_mem (i : Nat) (f : Player → Player) : (updPlayer i f s).mem = s.mem := rfl
@[simp] theorem updPlayer_freeCount (i : Nat) (f : Player → Player) : (updPlayer i f s).freeCount = s.freeCount := rfl
@[simp] theorem updPlayer_bus (i : Nat) (f : Player → Player) : (updPlayer i f s).bus = s.bus := rfl
@[simp] theorem updPlayer_sys (i : Nat) (f : Player → Player) : (updPlayer i f s).sys = s.sys := rfl
@[simp] theorem updPlayer_hpa (i : Nat) (f : Player → Player) : (updPlayer i f s).hpa = s.hpa := rfl
@[simp] theorem updPlayer_hpb (i : Nat) (f : Player → Player) : (updPlayer i f s).hpb = s.hpb := rfl
@[simp] theorem updPlayer_sems (i : Nat) (f : Player → Player) : (updPlayer i f s).sems = s.sems := rfl
@[simp] theorem updPlayer_bmx (i : Nat) (f : Player → Player) : (updPlayer i f s).bmx = s.bmx := rfl
@[simp] theorem updPlayer_img (i : Nat) (f : Player → Player) : (updPlayer i f s).img = s.img := rfl
@[simp] theorem updPlayer_ldg (i : Nat) (f : Player → Player) : (updPlayer i f s).ldg = s.ldg := rfl
@[simp] theorem updPlayer_rails (i : Nat) (f : Player → Player) : (updPlayer i f s).rails = s.rails := rfl
@[simp] theorem updPlayer_cells (i : Nat) (f : Player → Player) : (updPlayer i f s).cells = s.cells := rfl
@[simp] theorem updPlayer_fabric (i : Nat) (f : Player → Player) : (updPlayer i f s).fabric = s.fabric := rfl
@[simp] theorem updPlayer_ckpt (i : Nat) (f : Player → Player) : (updPlayer i f s).ckpt = s.ckpt := rfl
@[simp] theorem updPlayer_dly (i : Nat) (f : Player → Player) : (updPlayer i f s).dly = s.dly := rfl
@[simp] theorem updPlayer_netRx (i : Nat) (f : Player → Player) : (updPlayer i f s).netRx = s.netRx := rfl
@[simp] theorem updPlayer_portIn (i : Nat) (f : Player → Player) : (updPlayer i f s).portIn = s.portIn := rfl
@[simp] theorem updPlayer_memUe (i : Nat) (f : Player → Player) : (updPlayer i f s).memUe = s.memUe := rfl
@[simp] theorem updPlayer_poisoned (i : Nat) (f : Player → Player) : (updPlayer i f s).poisoned = s.poisoned := rfl
@[simp] theorem updPlayer_macs (i : Nat) (f : Player → Player) : (updPlayer i f s).macs = s.macs := rfl
@[simp] theorem updPlayer_ste (i : Nat) (f : Player → Player) : (updPlayer i f s).ste = s.ste := rfl
@[simp] theorem updPlayer_ptu (i : Nat) (f : Player → Player) : (updPlayer i f s).ptu = s.ptu := rfl
@[simp] theorem updPlayer_rsu (i : Nat) (f : Player → Player) : (updPlayer i f s).rsu = s.rsu := rfl
@[simp] theorem updPlayer_apt (i : Nat) (f : Player → Player) : (updPlayer i f s).apt = s.apt := rfl
@[simp] theorem updPlayer_aptRnd (i : Nat) (f : Player → Player) : (updPlayer i f s).aptRnd = s.aptRnd := rfl
@[simp] theorem updPlayer_pwr (i : Nat) (f : Player → Player) : (updPlayer i f s).pwr = s.pwr := rfl
@[simp] theorem updPlayer_lsp (i : Nat) (f : Player → Player) : (updPlayer i f s).lsp = s.lsp := rfl
@[simp] theorem updPlayer_dma (i : Nat) (f : Player → Player) : (updPlayer i f s).dma = s.dma := rfl
@[simp] theorem updPlayer_chk (i : Nat) (f : Player → Player) : (updPlayer i f s).chk = s.chk := rfl
@[simp] theorem updPlayer_memc (i : Nat) (f : Player → Player) : (updPlayer i f s).memc = s.memc := rfl
@[simp] theorem updPlayer_twc (i : Nat) (f : Player → Player) : (updPlayer i f s).twc = s.twc := rfl
@[simp] theorem updPlayer_flc (i : Nat) (f : Player → Player) : (updPlayer i f s).flc = s.flc := rfl
@[simp] theorem updPlayer_jtag (i : Nat) (f : Player → Player) : (updPlayer i f s).jtag = s.jtag := rfl
@[simp] theorem updPlayer_pair (i : Nat) (f : Player → Player) : (updPlayer i f s).pair = s.pair := rfl

@[simp] theorem updLine_pending (i : Nat) (f : Line → Line) : (updLine i f s).pending = s.pending := rfl
@[simp] theorem updLine_regs (i : Nat) (f : Line → Line) : (updLine i f s).regs = s.regs := rfl
@[simp] theorem updLine_mem (i : Nat) (f : Line → Line) : (updLine i f s).mem = s.mem := rfl
@[simp] theorem updLine_freeCount (i : Nat) (f : Line → Line) : (updLine i f s).freeCount = s.freeCount := rfl
@[simp] theorem updLine_bus (i : Nat) (f : Line → Line) : (updLine i f s).bus = s.bus := rfl
@[simp] theorem updLine_sys (i : Nat) (f : Line → Line) : (updLine i f s).sys = s.sys := rfl
@[simp] theorem updLine_hpa (i : Nat) (f : Line → Line) : (updLine i f s).hpa = s.hpa := rfl
@[simp] theorem updLine_hpb (i : Nat) (f : Line → Line) : (updLine i f s).hpb = s.hpb := rfl
@[simp] theorem updLine_sems (i : Nat) (f : Line → Line) : (updLine i f s).sems = s.sems := rfl
@[simp] theorem updLine_bmx (i : Nat) (f : Line → Line) : (updLine i f s).bmx = s.bmx := rfl
@[simp] theorem updLine_img (i : Nat) (f : Line → Line) : (updLine i f s).img = s.img := rfl
@[simp] theorem updLine_ldg (i : Nat) (f : Line → Line) : (updLine i f s).ldg = s.ldg := rfl
@[simp] theorem updLine_rails (i : Nat) (f : Line → Line) : (updLine i f s).rails = s.rails := rfl
@[simp] theorem updLine_cells (i : Nat) (f : Line → Line) : (updLine i f s).cells = s.cells := rfl
@[simp] theorem updLine_fabric (i : Nat) (f : Line → Line) : (updLine i f s).fabric = s.fabric := rfl
@[simp] theorem updLine_ckpt (i : Nat) (f : Line → Line) : (updLine i f s).ckpt = s.ckpt := rfl
@[simp] theorem updLine_mxe (i : Nat) (f : Line → Line) : (updLine i f s).mxe = s.mxe := rfl
@[simp] theorem updLine_netRx (i : Nat) (f : Line → Line) : (updLine i f s).netRx = s.netRx := rfl
@[simp] theorem updLine_portIn (i : Nat) (f : Line → Line) : (updLine i f s).portIn = s.portIn := rfl
@[simp] theorem updLine_memUe (i : Nat) (f : Line → Line) : (updLine i f s).memUe = s.memUe := rfl
@[simp] theorem updLine_poisoned (i : Nat) (f : Line → Line) : (updLine i f s).poisoned = s.poisoned := rfl
@[simp] theorem updLine_macs (i : Nat) (f : Line → Line) : (updLine i f s).macs = s.macs := rfl
@[simp] theorem updLine_ste (i : Nat) (f : Line → Line) : (updLine i f s).ste = s.ste := rfl
@[simp] theorem updLine_ptu (i : Nat) (f : Line → Line) : (updLine i f s).ptu = s.ptu := rfl
@[simp] theorem updLine_rsu (i : Nat) (f : Line → Line) : (updLine i f s).rsu = s.rsu := rfl
@[simp] theorem updLine_apt (i : Nat) (f : Line → Line) : (updLine i f s).apt = s.apt := rfl
@[simp] theorem updLine_aptRnd (i : Nat) (f : Line → Line) : (updLine i f s).aptRnd = s.aptRnd := rfl
@[simp] theorem updLine_pwr (i : Nat) (f : Line → Line) : (updLine i f s).pwr = s.pwr := rfl
@[simp] theorem updLine_lsp (i : Nat) (f : Line → Line) : (updLine i f s).lsp = s.lsp := rfl
@[simp] theorem updLine_dma (i : Nat) (f : Line → Line) : (updLine i f s).dma = s.dma := rfl
@[simp] theorem updLine_chk (i : Nat) (f : Line → Line) : (updLine i f s).chk = s.chk := rfl
@[simp] theorem updLine_memc (i : Nat) (f : Line → Line) : (updLine i f s).memc = s.memc := rfl
@[simp] theorem updLine_twc (i : Nat) (f : Line → Line) : (updLine i f s).twc = s.twc := rfl
@[simp] theorem updLine_flc (i : Nat) (f : Line → Line) : (updLine i f s).flc = s.flc := rfl
@[simp] theorem updLine_jtag (i : Nat) (f : Line → Line) : (updLine i f s).jtag = s.jtag := rfl
@[simp] theorem updLine_pair (i : Nat) (f : Line → Line) : (updLine i f s).pair = s.pair := rfl

@[simp] theorem updMac_pending (n : Nat) (f : Mac → Mac) : (updMac n f s).pending = s.pending := rfl
@[simp] theorem updMac_regs (n : Nat) (f : Mac → Mac) : (updMac n f s).regs = s.regs := rfl
@[simp] theorem updMac_mem (n : Nat) (f : Mac → Mac) : (updMac n f s).mem = s.mem := rfl
@[simp] theorem updMac_freeCount (n : Nat) (f : Mac → Mac) : (updMac n f s).freeCount = s.freeCount := rfl
@[simp] theorem updMac_bus (n : Nat) (f : Mac → Mac) : (updMac n f s).bus = s.bus := rfl
@[simp] theorem updMac_sys (n : Nat) (f : Mac → Mac) : (updMac n f s).sys = s.sys := rfl
@[simp] theorem updMac_hpa (n : Nat) (f : Mac → Mac) : (updMac n f s).hpa = s.hpa := rfl
@[simp] theorem updMac_hpb (n : Nat) (f : Mac → Mac) : (updMac n f s).hpb = s.hpb := rfl
@[simp] theorem updMac_sems (n : Nat) (f : Mac → Mac) : (updMac n f s).sems = s.sems := rfl
@[simp] theorem updMac_bmx (n : Nat) (f : Mac → Mac) : (updMac n f s).bmx = s.bmx := rfl
@[simp] theorem updMac_img (n : Nat) (f : Mac → Mac) : (updMac n f s).img = s.img := rfl
@[simp] theorem updMac_ldg (n : Nat) (f : Mac → Mac) : (updMac n f s).ldg = s.ldg := rfl
@[simp] theorem updMac_rails (n : Nat) (f : Mac → Mac) : (updMac n f s).rails = s.rails := rfl
@[simp] theorem updMac_cells (n : Nat) (f : Mac → Mac) : (updMac n f s).cells = s.cells := rfl
@[simp] theorem updMac_fabric (n : Nat) (f : Mac → Mac) : (updMac n f s).fabric = s.fabric := rfl
@[simp] theorem updMac_ckpt (n : Nat) (f : Mac → Mac) : (updMac n f s).ckpt = s.ckpt := rfl
@[simp] theorem updMac_mxe (n : Nat) (f : Mac → Mac) : (updMac n f s).mxe = s.mxe := rfl
@[simp] theorem updMac_dly (n : Nat) (f : Mac → Mac) : (updMac n f s).dly = s.dly := rfl
@[simp] theorem updMac_netRx (n : Nat) (f : Mac → Mac) : (updMac n f s).netRx = s.netRx := rfl
@[simp] theorem updMac_portIn (n : Nat) (f : Mac → Mac) : (updMac n f s).portIn = s.portIn := rfl
@[simp] theorem updMac_memUe (n : Nat) (f : Mac → Mac) : (updMac n f s).memUe = s.memUe := rfl
@[simp] theorem updMac_poisoned (n : Nat) (f : Mac → Mac) : (updMac n f s).poisoned = s.poisoned := rfl
@[simp] theorem updMac_ste (n : Nat) (f : Mac → Mac) : (updMac n f s).ste = s.ste := rfl
@[simp] theorem updMac_ptu (n : Nat) (f : Mac → Mac) : (updMac n f s).ptu = s.ptu := rfl
@[simp] theorem updMac_rsu (n : Nat) (f : Mac → Mac) : (updMac n f s).rsu = s.rsu := rfl
@[simp] theorem updMac_apt (n : Nat) (f : Mac → Mac) : (updMac n f s).apt = s.apt := rfl
@[simp] theorem updMac_aptRnd (n : Nat) (f : Mac → Mac) : (updMac n f s).aptRnd = s.aptRnd := rfl
@[simp] theorem updMac_pwr (n : Nat) (f : Mac → Mac) : (updMac n f s).pwr = s.pwr := rfl
@[simp] theorem updMac_lsp (n : Nat) (f : Mac → Mac) : (updMac n f s).lsp = s.lsp := rfl
@[simp] theorem updMac_dma (n : Nat) (f : Mac → Mac) : (updMac n f s).dma = s.dma := rfl
@[simp] theorem updMac_chk (n : Nat) (f : Mac → Mac) : (updMac n f s).chk = s.chk := rfl
@[simp] theorem updMac_memc (n : Nat) (f : Mac → Mac) : (updMac n f s).memc = s.memc := rfl
@[simp] theorem updMac_twc (n : Nat) (f : Mac → Mac) : (updMac n f s).twc = s.twc := rfl
@[simp] theorem updMac_flc (n : Nat) (f : Mac → Mac) : (updMac n f s).flc = s.flc := rfl
@[simp] theorem updMac_jtag (n : Nat) (f : Mac → Mac) : (updMac n f s).jtag = s.jtag := rfl
@[simp] theorem updMac_pair (n : Nat) (f : Mac → Mac) : (updMac n f s).pair = s.pair := rfl

@[simp] theorem updSte_pending (f : Ste → Ste) : (updSte f s).pending = s.pending := rfl
@[simp] theorem updSte_regs (f : Ste → Ste) : (updSte f s).regs = s.regs := rfl
@[simp] theorem updSte_mem (f : Ste → Ste) : (updSte f s).mem = s.mem := rfl
@[simp] theorem updSte_freeCount (f : Ste → Ste) : (updSte f s).freeCount = s.freeCount := rfl
@[simp] theorem updSte_bus (f : Ste → Ste) : (updSte f s).bus = s.bus := rfl
@[simp] theorem updSte_sys (f : Ste → Ste) : (updSte f s).sys = s.sys := rfl
@[simp] theorem updSte_hpa (f : Ste → Ste) : (updSte f s).hpa = s.hpa := rfl
@[simp] theorem updSte_hpb (f : Ste → Ste) : (updSte f s).hpb = s.hpb := rfl
@[simp] theorem updSte_sems (f : Ste → Ste) : (updSte f s).sems = s.sems := rfl
@[simp] theorem updSte_bmx (f : Ste → Ste) : (updSte f s).bmx = s.bmx := rfl
@[simp] theorem updSte_img (f : Ste → Ste) : (updSte f s).img = s.img := rfl
@[simp] theorem updSte_ldg (f : Ste → Ste) : (updSte f s).ldg = s.ldg := rfl
@[simp] theorem updSte_rails (f : Ste → Ste) : (updSte f s).rails = s.rails := rfl
@[simp] theorem updSte_cells (f : Ste → Ste) : (updSte f s).cells = s.cells := rfl
@[simp] theorem updSte_fabric (f : Ste → Ste) : (updSte f s).fabric = s.fabric := rfl
@[simp] theorem updSte_ckpt (f : Ste → Ste) : (updSte f s).ckpt = s.ckpt := rfl
@[simp] theorem updSte_mxe (f : Ste → Ste) : (updSte f s).mxe = s.mxe := rfl
@[simp] theorem updSte_dly (f : Ste → Ste) : (updSte f s).dly = s.dly := rfl
@[simp] theorem updSte_netRx (f : Ste → Ste) : (updSte f s).netRx = s.netRx := rfl
@[simp] theorem updSte_portIn (f : Ste → Ste) : (updSte f s).portIn = s.portIn := rfl
@[simp] theorem updSte_memUe (f : Ste → Ste) : (updSte f s).memUe = s.memUe := rfl
@[simp] theorem updSte_poisoned (f : Ste → Ste) : (updSte f s).poisoned = s.poisoned := rfl
@[simp] theorem updSte_macs (f : Ste → Ste) : (updSte f s).macs = s.macs := rfl
@[simp] theorem updSte_ptu (f : Ste → Ste) : (updSte f s).ptu = s.ptu := rfl
@[simp] theorem updSte_rsu (f : Ste → Ste) : (updSte f s).rsu = s.rsu := rfl
@[simp] theorem updSte_apt (f : Ste → Ste) : (updSte f s).apt = s.apt := rfl
@[simp] theorem updSte_aptRnd (f : Ste → Ste) : (updSte f s).aptRnd = s.aptRnd := rfl
@[simp] theorem updSte_pwr (f : Ste → Ste) : (updSte f s).pwr = s.pwr := rfl
@[simp] theorem updSte_lsp (f : Ste → Ste) : (updSte f s).lsp = s.lsp := rfl
@[simp] theorem updSte_dma (f : Ste → Ste) : (updSte f s).dma = s.dma := rfl
@[simp] theorem updSte_chk (f : Ste → Ste) : (updSte f s).chk = s.chk := rfl
@[simp] theorem updSte_memc (f : Ste → Ste) : (updSte f s).memc = s.memc := rfl
@[simp] theorem updSte_twc (f : Ste → Ste) : (updSte f s).twc = s.twc := rfl
@[simp] theorem updSte_flc (f : Ste → Ste) : (updSte f s).flc = s.flc := rfl
@[simp] theorem updSte_jtag (f : Ste → Ste) : (updSte f s).jtag = s.jtag := rfl
@[simp] theorem updSte_pair (f : Ste → Ste) : (updSte f s).pair = s.pair := rfl

@[simp] theorem updFlow_pending (n : Nat) (f : Flow → Flow) : (updFlow n f s).pending = s.pending := rfl
@[simp] theorem updFlow_regs (n : Nat) (f : Flow → Flow) : (updFlow n f s).regs = s.regs := rfl
@[simp] theorem updFlow_mem (n : Nat) (f : Flow → Flow) : (updFlow n f s).mem = s.mem := rfl
@[simp] theorem updFlow_freeCount (n : Nat) (f : Flow → Flow) : (updFlow n f s).freeCount = s.freeCount := rfl
@[simp] theorem updFlow_bus (n : Nat) (f : Flow → Flow) : (updFlow n f s).bus = s.bus := rfl
@[simp] theorem updFlow_sys (n : Nat) (f : Flow → Flow) : (updFlow n f s).sys = s.sys := rfl
@[simp] theorem updFlow_hpa (n : Nat) (f : Flow → Flow) : (updFlow n f s).hpa = s.hpa := rfl
@[simp] theorem updFlow_hpb (n : Nat) (f : Flow → Flow) : (updFlow n f s).hpb = s.hpb := rfl
@[simp] theorem updFlow_sems (n : Nat) (f : Flow → Flow) : (updFlow n f s).sems = s.sems := rfl
@[simp] theorem updFlow_bmx (n : Nat) (f : Flow → Flow) : (updFlow n f s).bmx = s.bmx := rfl
@[simp] theorem updFlow_img (n : Nat) (f : Flow → Flow) : (updFlow n f s).img = s.img := rfl
@[simp] theorem updFlow_ldg (n : Nat) (f : Flow → Flow) : (updFlow n f s).ldg = s.ldg := rfl
@[simp] theorem updFlow_rails (n : Nat) (f : Flow → Flow) : (updFlow n f s).rails = s.rails := rfl
@[simp] theorem updFlow_cells (n : Nat) (f : Flow → Flow) : (updFlow n f s).cells = s.cells := rfl
@[simp] theorem updFlow_fabric (n : Nat) (f : Flow → Flow) : (updFlow n f s).fabric = s.fabric := rfl
@[simp] theorem updFlow_ckpt (n : Nat) (f : Flow → Flow) : (updFlow n f s).ckpt = s.ckpt := rfl
@[simp] theorem updFlow_mxe (n : Nat) (f : Flow → Flow) : (updFlow n f s).mxe = s.mxe := rfl
@[simp] theorem updFlow_dly (n : Nat) (f : Flow → Flow) : (updFlow n f s).dly = s.dly := rfl
@[simp] theorem updFlow_netRx (n : Nat) (f : Flow → Flow) : (updFlow n f s).netRx = s.netRx := rfl
@[simp] theorem updFlow_portIn (n : Nat) (f : Flow → Flow) : (updFlow n f s).portIn = s.portIn := rfl
@[simp] theorem updFlow_memUe (n : Nat) (f : Flow → Flow) : (updFlow n f s).memUe = s.memUe := rfl
@[simp] theorem updFlow_poisoned (n : Nat) (f : Flow → Flow) : (updFlow n f s).poisoned = s.poisoned := rfl
@[simp] theorem updFlow_macs (n : Nat) (f : Flow → Flow) : (updFlow n f s).macs = s.macs := rfl
@[simp] theorem updFlow_ptu (n : Nat) (f : Flow → Flow) : (updFlow n f s).ptu = s.ptu := rfl
@[simp] theorem updFlow_rsu (n : Nat) (f : Flow → Flow) : (updFlow n f s).rsu = s.rsu := rfl
@[simp] theorem updFlow_apt (n : Nat) (f : Flow → Flow) : (updFlow n f s).apt = s.apt := rfl
@[simp] theorem updFlow_aptRnd (n : Nat) (f : Flow → Flow) : (updFlow n f s).aptRnd = s.aptRnd := rfl
@[simp] theorem updFlow_pwr (n : Nat) (f : Flow → Flow) : (updFlow n f s).pwr = s.pwr := rfl
@[simp] theorem updFlow_lsp (n : Nat) (f : Flow → Flow) : (updFlow n f s).lsp = s.lsp := rfl
@[simp] theorem updFlow_dma (n : Nat) (f : Flow → Flow) : (updFlow n f s).dma = s.dma := rfl
@[simp] theorem updFlow_chk (n : Nat) (f : Flow → Flow) : (updFlow n f s).chk = s.chk := rfl
@[simp] theorem updFlow_memc (n : Nat) (f : Flow → Flow) : (updFlow n f s).memc = s.memc := rfl
@[simp] theorem updFlow_twc (n : Nat) (f : Flow → Flow) : (updFlow n f s).twc = s.twc := rfl
@[simp] theorem updFlow_flc (n : Nat) (f : Flow → Flow) : (updFlow n f s).flc = s.flc := rfl
@[simp] theorem updFlow_jtag (n : Nat) (f : Flow → Flow) : (updFlow n f s).jtag = s.jtag := rfl
@[simp] theorem updFlow_pair (n : Nat) (f : Flow → Flow) : (updFlow n f s).pair = s.pair := rfl

@[simp] theorem updPtu_pending (f : Ptu → Ptu) : (updPtu f s).pending = s.pending := rfl
@[simp] theorem updPtu_regs (f : Ptu → Ptu) : (updPtu f s).regs = s.regs := rfl
@[simp] theorem updPtu_mem (f : Ptu → Ptu) : (updPtu f s).mem = s.mem := rfl
@[simp] theorem updPtu_freeCount (f : Ptu → Ptu) : (updPtu f s).freeCount = s.freeCount := rfl
@[simp] theorem updPtu_bus (f : Ptu → Ptu) : (updPtu f s).bus = s.bus := rfl
@[simp] theorem updPtu_sys (f : Ptu → Ptu) : (updPtu f s).sys = s.sys := rfl
@[simp] theorem updPtu_hpa (f : Ptu → Ptu) : (updPtu f s).hpa = s.hpa := rfl
@[simp] theorem updPtu_hpb (f : Ptu → Ptu) : (updPtu f s).hpb = s.hpb := rfl
@[simp] theorem updPtu_sems (f : Ptu → Ptu) : (updPtu f s).sems = s.sems := rfl
@[simp] theorem updPtu_bmx (f : Ptu → Ptu) : (updPtu f s).bmx = s.bmx := rfl
@[simp] theorem updPtu_img (f : Ptu → Ptu) : (updPtu f s).img = s.img := rfl
@[simp] theorem updPtu_ldg (f : Ptu → Ptu) : (updPtu f s).ldg = s.ldg := rfl
@[simp] theorem updPtu_rails (f : Ptu → Ptu) : (updPtu f s).rails = s.rails := rfl
@[simp] theorem updPtu_cells (f : Ptu → Ptu) : (updPtu f s).cells = s.cells := rfl
@[simp] theorem updPtu_fabric (f : Ptu → Ptu) : (updPtu f s).fabric = s.fabric := rfl
@[simp] theorem updPtu_ckpt (f : Ptu → Ptu) : (updPtu f s).ckpt = s.ckpt := rfl
@[simp] theorem updPtu_mxe (f : Ptu → Ptu) : (updPtu f s).mxe = s.mxe := rfl
@[simp] theorem updPtu_dly (f : Ptu → Ptu) : (updPtu f s).dly = s.dly := rfl
@[simp] theorem updPtu_netRx (f : Ptu → Ptu) : (updPtu f s).netRx = s.netRx := rfl
@[simp] theorem updPtu_portIn (f : Ptu → Ptu) : (updPtu f s).portIn = s.portIn := rfl
@[simp] theorem updPtu_memUe (f : Ptu → Ptu) : (updPtu f s).memUe = s.memUe := rfl
@[simp] theorem updPtu_poisoned (f : Ptu → Ptu) : (updPtu f s).poisoned = s.poisoned := rfl
@[simp] theorem updPtu_macs (f : Ptu → Ptu) : (updPtu f s).macs = s.macs := rfl
@[simp] theorem updPtu_ste (f : Ptu → Ptu) : (updPtu f s).ste = s.ste := rfl
@[simp] theorem updPtu_rsu (f : Ptu → Ptu) : (updPtu f s).rsu = s.rsu := rfl
@[simp] theorem updPtu_apt (f : Ptu → Ptu) : (updPtu f s).apt = s.apt := rfl
@[simp] theorem updPtu_aptRnd (f : Ptu → Ptu) : (updPtu f s).aptRnd = s.aptRnd := rfl
@[simp] theorem updPtu_pwr (f : Ptu → Ptu) : (updPtu f s).pwr = s.pwr := rfl
@[simp] theorem updPtu_lsp (f : Ptu → Ptu) : (updPtu f s).lsp = s.lsp := rfl
@[simp] theorem updPtu_dma (f : Ptu → Ptu) : (updPtu f s).dma = s.dma := rfl
@[simp] theorem updPtu_chk (f : Ptu → Ptu) : (updPtu f s).chk = s.chk := rfl
@[simp] theorem updPtu_memc (f : Ptu → Ptu) : (updPtu f s).memc = s.memc := rfl
@[simp] theorem updPtu_twc (f : Ptu → Ptu) : (updPtu f s).twc = s.twc := rfl
@[simp] theorem updPtu_flc (f : Ptu → Ptu) : (updPtu f s).flc = s.flc := rfl
@[simp] theorem updPtu_jtag (f : Ptu → Ptu) : (updPtu f s).jtag = s.jtag := rfl
@[simp] theorem updPtu_pair (f : Ptu → Ptu) : (updPtu f s).pair = s.pair := rfl

@[simp] theorem updPort_pending (d : Dom) (f : PtpPort → PtpPort) : (updPort d f s).pending = s.pending := rfl
@[simp] theorem updPort_regs (d : Dom) (f : PtpPort → PtpPort) : (updPort d f s).regs = s.regs := rfl
@[simp] theorem updPort_mem (d : Dom) (f : PtpPort → PtpPort) : (updPort d f s).mem = s.mem := rfl
@[simp] theorem updPort_freeCount (d : Dom) (f : PtpPort → PtpPort) : (updPort d f s).freeCount = s.freeCount := rfl
@[simp] theorem updPort_bus (d : Dom) (f : PtpPort → PtpPort) : (updPort d f s).bus = s.bus := rfl
@[simp] theorem updPort_sys (d : Dom) (f : PtpPort → PtpPort) : (updPort d f s).sys = s.sys := rfl
@[simp] theorem updPort_hpa (d : Dom) (f : PtpPort → PtpPort) : (updPort d f s).hpa = s.hpa := rfl
@[simp] theorem updPort_hpb (d : Dom) (f : PtpPort → PtpPort) : (updPort d f s).hpb = s.hpb := rfl
@[simp] theorem updPort_sems (d : Dom) (f : PtpPort → PtpPort) : (updPort d f s).sems = s.sems := rfl
@[simp] theorem updPort_bmx (d : Dom) (f : PtpPort → PtpPort) : (updPort d f s).bmx = s.bmx := rfl
@[simp] theorem updPort_img (d : Dom) (f : PtpPort → PtpPort) : (updPort d f s).img = s.img := rfl
@[simp] theorem updPort_ldg (d : Dom) (f : PtpPort → PtpPort) : (updPort d f s).ldg = s.ldg := rfl
@[simp] theorem updPort_rails (d : Dom) (f : PtpPort → PtpPort) : (updPort d f s).rails = s.rails := rfl
@[simp] theorem updPort_cells (d : Dom) (f : PtpPort → PtpPort) : (updPort d f s).cells = s.cells := rfl
@[simp] theorem updPort_fabric (d : Dom) (f : PtpPort → PtpPort) : (updPort d f s).fabric = s.fabric := rfl
@[simp] theorem updPort_ckpt (d : Dom) (f : PtpPort → PtpPort) : (updPort d f s).ckpt = s.ckpt := rfl
@[simp] theorem updPort_mxe (d : Dom) (f : PtpPort → PtpPort) : (updPort d f s).mxe = s.mxe := rfl
@[simp] theorem updPort_dly (d : Dom) (f : PtpPort → PtpPort) : (updPort d f s).dly = s.dly := rfl
@[simp] theorem updPort_netRx (d : Dom) (f : PtpPort → PtpPort) : (updPort d f s).netRx = s.netRx := rfl
@[simp] theorem updPort_portIn (d : Dom) (f : PtpPort → PtpPort) : (updPort d f s).portIn = s.portIn := rfl
@[simp] theorem updPort_memUe (d : Dom) (f : PtpPort → PtpPort) : (updPort d f s).memUe = s.memUe := rfl
@[simp] theorem updPort_poisoned (d : Dom) (f : PtpPort → PtpPort) : (updPort d f s).poisoned = s.poisoned := rfl
@[simp] theorem updPort_macs (d : Dom) (f : PtpPort → PtpPort) : (updPort d f s).macs = s.macs := rfl
@[simp] theorem updPort_ste (d : Dom) (f : PtpPort → PtpPort) : (updPort d f s).ste = s.ste := rfl
@[simp] theorem updPort_rsu (d : Dom) (f : PtpPort → PtpPort) : (updPort d f s).rsu = s.rsu := rfl
@[simp] theorem updPort_apt (d : Dom) (f : PtpPort → PtpPort) : (updPort d f s).apt = s.apt := rfl
@[simp] theorem updPort_aptRnd (d : Dom) (f : PtpPort → PtpPort) : (updPort d f s).aptRnd = s.aptRnd := rfl
@[simp] theorem updPort_pwr (d : Dom) (f : PtpPort → PtpPort) : (updPort d f s).pwr = s.pwr := rfl
@[simp] theorem updPort_lsp (d : Dom) (f : PtpPort → PtpPort) : (updPort d f s).lsp = s.lsp := rfl
@[simp] theorem updPort_dma (d : Dom) (f : PtpPort → PtpPort) : (updPort d f s).dma = s.dma := rfl
@[simp] theorem updPort_chk (d : Dom) (f : PtpPort → PtpPort) : (updPort d f s).chk = s.chk := rfl
@[simp] theorem updPort_memc (d : Dom) (f : PtpPort → PtpPort) : (updPort d f s).memc = s.memc := rfl
@[simp] theorem updPort_twc (d : Dom) (f : PtpPort → PtpPort) : (updPort d f s).twc = s.twc := rfl
@[simp] theorem updPort_flc (d : Dom) (f : PtpPort → PtpPort) : (updPort d f s).flc = s.flc := rfl
@[simp] theorem updPort_jtag (d : Dom) (f : PtpPort → PtpPort) : (updPort d f s).jtag = s.jtag := rfl
@[simp] theorem updPort_pair (d : Dom) (f : PtpPort → PtpPort) : (updPort d f s).pair = s.pair := rfl

@[simp] theorem updRsu_pending (f : Rsu → Rsu) : (updRsu f s).pending = s.pending := rfl
@[simp] theorem updRsu_regs (f : Rsu → Rsu) : (updRsu f s).regs = s.regs := rfl
@[simp] theorem updRsu_mem (f : Rsu → Rsu) : (updRsu f s).mem = s.mem := rfl
@[simp] theorem updRsu_freeCount (f : Rsu → Rsu) : (updRsu f s).freeCount = s.freeCount := rfl
@[simp] theorem updRsu_bus (f : Rsu → Rsu) : (updRsu f s).bus = s.bus := rfl
@[simp] theorem updRsu_sys (f : Rsu → Rsu) : (updRsu f s).sys = s.sys := rfl
@[simp] theorem updRsu_hpa (f : Rsu → Rsu) : (updRsu f s).hpa = s.hpa := rfl
@[simp] theorem updRsu_hpb (f : Rsu → Rsu) : (updRsu f s).hpb = s.hpb := rfl
@[simp] theorem updRsu_sems (f : Rsu → Rsu) : (updRsu f s).sems = s.sems := rfl
@[simp] theorem updRsu_bmx (f : Rsu → Rsu) : (updRsu f s).bmx = s.bmx := rfl
@[simp] theorem updRsu_img (f : Rsu → Rsu) : (updRsu f s).img = s.img := rfl
@[simp] theorem updRsu_ldg (f : Rsu → Rsu) : (updRsu f s).ldg = s.ldg := rfl
@[simp] theorem updRsu_rails (f : Rsu → Rsu) : (updRsu f s).rails = s.rails := rfl
@[simp] theorem updRsu_cells (f : Rsu → Rsu) : (updRsu f s).cells = s.cells := rfl
@[simp] theorem updRsu_fabric (f : Rsu → Rsu) : (updRsu f s).fabric = s.fabric := rfl
@[simp] theorem updRsu_ckpt (f : Rsu → Rsu) : (updRsu f s).ckpt = s.ckpt := rfl
@[simp] theorem updRsu_mxe (f : Rsu → Rsu) : (updRsu f s).mxe = s.mxe := rfl
@[simp] theorem updRsu_dly (f : Rsu → Rsu) : (updRsu f s).dly = s.dly := rfl
@[simp] theorem updRsu_netRx (f : Rsu → Rsu) : (updRsu f s).netRx = s.netRx := rfl
@[simp] theorem updRsu_portIn (f : Rsu → Rsu) : (updRsu f s).portIn = s.portIn := rfl
@[simp] theorem updRsu_memUe (f : Rsu → Rsu) : (updRsu f s).memUe = s.memUe := rfl
@[simp] theorem updRsu_poisoned (f : Rsu → Rsu) : (updRsu f s).poisoned = s.poisoned := rfl
@[simp] theorem updRsu_macs (f : Rsu → Rsu) : (updRsu f s).macs = s.macs := rfl
@[simp] theorem updRsu_ste (f : Rsu → Rsu) : (updRsu f s).ste = s.ste := rfl
@[simp] theorem updRsu_ptu (f : Rsu → Rsu) : (updRsu f s).ptu = s.ptu := rfl
@[simp] theorem updRsu_apt (f : Rsu → Rsu) : (updRsu f s).apt = s.apt := rfl
@[simp] theorem updRsu_aptRnd (f : Rsu → Rsu) : (updRsu f s).aptRnd = s.aptRnd := rfl
@[simp] theorem updRsu_pwr (f : Rsu → Rsu) : (updRsu f s).pwr = s.pwr := rfl
@[simp] theorem updRsu_lsp (f : Rsu → Rsu) : (updRsu f s).lsp = s.lsp := rfl
@[simp] theorem updRsu_dma (f : Rsu → Rsu) : (updRsu f s).dma = s.dma := rfl
@[simp] theorem updRsu_chk (f : Rsu → Rsu) : (updRsu f s).chk = s.chk := rfl
@[simp] theorem updRsu_memc (f : Rsu → Rsu) : (updRsu f s).memc = s.memc := rfl
@[simp] theorem updRsu_twc (f : Rsu → Rsu) : (updRsu f s).twc = s.twc := rfl
@[simp] theorem updRsu_flc (f : Rsu → Rsu) : (updRsu f s).flc = s.flc := rfl
@[simp] theorem updRsu_jtag (f : Rsu → Rsu) : (updRsu f s).jtag = s.jtag := rfl
@[simp] theorem updRsu_pair (f : Rsu → Rsu) : (updRsu f s).pair = s.pair := rfl

@[simp] theorem updRef_pending (c : Nat) (f : Ref → Ref) : (updRef c f s).pending = s.pending := rfl
@[simp] theorem updRef_regs (c : Nat) (f : Ref → Ref) : (updRef c f s).regs = s.regs := rfl
@[simp] theorem updRef_mem (c : Nat) (f : Ref → Ref) : (updRef c f s).mem = s.mem := rfl
@[simp] theorem updRef_freeCount (c : Nat) (f : Ref → Ref) : (updRef c f s).freeCount = s.freeCount := rfl
@[simp] theorem updRef_bus (c : Nat) (f : Ref → Ref) : (updRef c f s).bus = s.bus := rfl
@[simp] theorem updRef_sys (c : Nat) (f : Ref → Ref) : (updRef c f s).sys = s.sys := rfl
@[simp] theorem updRef_hpa (c : Nat) (f : Ref → Ref) : (updRef c f s).hpa = s.hpa := rfl
@[simp] theorem updRef_hpb (c : Nat) (f : Ref → Ref) : (updRef c f s).hpb = s.hpb := rfl
@[simp] theorem updRef_sems (c : Nat) (f : Ref → Ref) : (updRef c f s).sems = s.sems := rfl
@[simp] theorem updRef_bmx (c : Nat) (f : Ref → Ref) : (updRef c f s).bmx = s.bmx := rfl
@[simp] theorem updRef_img (c : Nat) (f : Ref → Ref) : (updRef c f s).img = s.img := rfl
@[simp] theorem updRef_ldg (c : Nat) (f : Ref → Ref) : (updRef c f s).ldg = s.ldg := rfl
@[simp] theorem updRef_rails (c : Nat) (f : Ref → Ref) : (updRef c f s).rails = s.rails := rfl
@[simp] theorem updRef_cells (c : Nat) (f : Ref → Ref) : (updRef c f s).cells = s.cells := rfl
@[simp] theorem updRef_fabric (c : Nat) (f : Ref → Ref) : (updRef c f s).fabric = s.fabric := rfl
@[simp] theorem updRef_ckpt (c : Nat) (f : Ref → Ref) : (updRef c f s).ckpt = s.ckpt := rfl
@[simp] theorem updRef_mxe (c : Nat) (f : Ref → Ref) : (updRef c f s).mxe = s.mxe := rfl
@[simp] theorem updRef_dly (c : Nat) (f : Ref → Ref) : (updRef c f s).dly = s.dly := rfl
@[simp] theorem updRef_netRx (c : Nat) (f : Ref → Ref) : (updRef c f s).netRx = s.netRx := rfl
@[simp] theorem updRef_portIn (c : Nat) (f : Ref → Ref) : (updRef c f s).portIn = s.portIn := rfl
@[simp] theorem updRef_memUe (c : Nat) (f : Ref → Ref) : (updRef c f s).memUe = s.memUe := rfl
@[simp] theorem updRef_poisoned (c : Nat) (f : Ref → Ref) : (updRef c f s).poisoned = s.poisoned := rfl
@[simp] theorem updRef_macs (c : Nat) (f : Ref → Ref) : (updRef c f s).macs = s.macs := rfl
@[simp] theorem updRef_ste (c : Nat) (f : Ref → Ref) : (updRef c f s).ste = s.ste := rfl
@[simp] theorem updRef_ptu (c : Nat) (f : Ref → Ref) : (updRef c f s).ptu = s.ptu := rfl
@[simp] theorem updRef_apt (c : Nat) (f : Ref → Ref) : (updRef c f s).apt = s.apt := rfl
@[simp] theorem updRef_aptRnd (c : Nat) (f : Ref → Ref) : (updRef c f s).aptRnd = s.aptRnd := rfl
@[simp] theorem updRef_pwr (c : Nat) (f : Ref → Ref) : (updRef c f s).pwr = s.pwr := rfl
@[simp] theorem updRef_lsp (c : Nat) (f : Ref → Ref) : (updRef c f s).lsp = s.lsp := rfl
@[simp] theorem updRef_dma (c : Nat) (f : Ref → Ref) : (updRef c f s).dma = s.dma := rfl
@[simp] theorem updRef_chk (c : Nat) (f : Ref → Ref) : (updRef c f s).chk = s.chk := rfl
@[simp] theorem updRef_memc (c : Nat) (f : Ref → Ref) : (updRef c f s).memc = s.memc := rfl
@[simp] theorem updRef_twc (c : Nat) (f : Ref → Ref) : (updRef c f s).twc = s.twc := rfl
@[simp] theorem updRef_flc (c : Nat) (f : Ref → Ref) : (updRef c f s).flc = s.flc := rfl
@[simp] theorem updRef_jtag (c : Nat) (f : Ref → Ref) : (updRef c f s).jtag = s.jtag := rfl
@[simp] theorem updRef_pair (c : Nat) (f : Ref → Ref) : (updRef c f s).pair = s.pair := rfl

@[simp] theorem updDir_pending (n : Nat) (d : Dir) (f : AptDir → AptDir) : (updDir n d f s).pending = s.pending := rfl
@[simp] theorem updDir_regs (n : Nat) (d : Dir) (f : AptDir → AptDir) : (updDir n d f s).regs = s.regs := rfl
@[simp] theorem updDir_mem (n : Nat) (d : Dir) (f : AptDir → AptDir) : (updDir n d f s).mem = s.mem := rfl
@[simp] theorem updDir_freeCount (n : Nat) (d : Dir) (f : AptDir → AptDir) : (updDir n d f s).freeCount = s.freeCount := rfl
@[simp] theorem updDir_bus (n : Nat) (d : Dir) (f : AptDir → AptDir) : (updDir n d f s).bus = s.bus := rfl
@[simp] theorem updDir_sys (n : Nat) (d : Dir) (f : AptDir → AptDir) : (updDir n d f s).sys = s.sys := rfl
@[simp] theorem updDir_hpa (n : Nat) (d : Dir) (f : AptDir → AptDir) : (updDir n d f s).hpa = s.hpa := rfl
@[simp] theorem updDir_hpb (n : Nat) (d : Dir) (f : AptDir → AptDir) : (updDir n d f s).hpb = s.hpb := rfl
@[simp] theorem updDir_sems (n : Nat) (d : Dir) (f : AptDir → AptDir) : (updDir n d f s).sems = s.sems := rfl
@[simp] theorem updDir_bmx (n : Nat) (d : Dir) (f : AptDir → AptDir) : (updDir n d f s).bmx = s.bmx := rfl
@[simp] theorem updDir_img (n : Nat) (d : Dir) (f : AptDir → AptDir) : (updDir n d f s).img = s.img := rfl
@[simp] theorem updDir_ldg (n : Nat) (d : Dir) (f : AptDir → AptDir) : (updDir n d f s).ldg = s.ldg := rfl
@[simp] theorem updDir_rails (n : Nat) (d : Dir) (f : AptDir → AptDir) : (updDir n d f s).rails = s.rails := rfl
@[simp] theorem updDir_cells (n : Nat) (d : Dir) (f : AptDir → AptDir) : (updDir n d f s).cells = s.cells := rfl
@[simp] theorem updDir_fabric (n : Nat) (d : Dir) (f : AptDir → AptDir) : (updDir n d f s).fabric = s.fabric := rfl
@[simp] theorem updDir_ckpt (n : Nat) (d : Dir) (f : AptDir → AptDir) : (updDir n d f s).ckpt = s.ckpt := rfl
@[simp] theorem updDir_mxe (n : Nat) (d : Dir) (f : AptDir → AptDir) : (updDir n d f s).mxe = s.mxe := rfl
@[simp] theorem updDir_dly (n : Nat) (d : Dir) (f : AptDir → AptDir) : (updDir n d f s).dly = s.dly := rfl
@[simp] theorem updDir_netRx (n : Nat) (d : Dir) (f : AptDir → AptDir) : (updDir n d f s).netRx = s.netRx := rfl
@[simp] theorem updDir_portIn (n : Nat) (d : Dir) (f : AptDir → AptDir) : (updDir n d f s).portIn = s.portIn := rfl
@[simp] theorem updDir_memUe (n : Nat) (d : Dir) (f : AptDir → AptDir) : (updDir n d f s).memUe = s.memUe := rfl
@[simp] theorem updDir_poisoned (n : Nat) (d : Dir) (f : AptDir → AptDir) : (updDir n d f s).poisoned = s.poisoned := rfl
@[simp] theorem updDir_macs (n : Nat) (d : Dir) (f : AptDir → AptDir) : (updDir n d f s).macs = s.macs := rfl
@[simp] theorem updDir_ste (n : Nat) (d : Dir) (f : AptDir → AptDir) : (updDir n d f s).ste = s.ste := rfl
@[simp] theorem updDir_ptu (n : Nat) (d : Dir) (f : AptDir → AptDir) : (updDir n d f s).ptu = s.ptu := rfl
@[simp] theorem updDir_rsu (n : Nat) (d : Dir) (f : AptDir → AptDir) : (updDir n d f s).rsu = s.rsu := rfl
@[simp] theorem updDir_aptRnd (n : Nat) (d : Dir) (f : AptDir → AptDir) : (updDir n d f s).aptRnd = s.aptRnd := rfl
@[simp] theorem updDir_pwr (n : Nat) (d : Dir) (f : AptDir → AptDir) : (updDir n d f s).pwr = s.pwr := rfl
@[simp] theorem updDir_lsp (n : Nat) (d : Dir) (f : AptDir → AptDir) : (updDir n d f s).lsp = s.lsp := rfl
@[simp] theorem updDir_dma (n : Nat) (d : Dir) (f : AptDir → AptDir) : (updDir n d f s).dma = s.dma := rfl
@[simp] theorem updDir_chk (n : Nat) (d : Dir) (f : AptDir → AptDir) : (updDir n d f s).chk = s.chk := rfl
@[simp] theorem updDir_memc (n : Nat) (d : Dir) (f : AptDir → AptDir) : (updDir n d f s).memc = s.memc := rfl
@[simp] theorem updDir_twc (n : Nat) (d : Dir) (f : AptDir → AptDir) : (updDir n d f s).twc = s.twc := rfl
@[simp] theorem updDir_flc (n : Nat) (d : Dir) (f : AptDir → AptDir) : (updDir n d f s).flc = s.flc := rfl
@[simp] theorem updDir_jtag (n : Nat) (d : Dir) (f : AptDir → AptDir) : (updDir n d f s).jtag = s.jtag := rfl
@[simp] theorem updDir_pair (n : Nat) (d : Dir) (f : AptDir → AptDir) : (updDir n d f s).pair = s.pair := rfl

@[simp] theorem updMod_pending (n : Nat) (f : Mod → Mod) : (updMod n f s).pending = s.pending := rfl
@[simp] theorem updMod_regs (n : Nat) (f : Mod → Mod) : (updMod n f s).regs = s.regs := rfl
@[simp] theorem updMod_mem (n : Nat) (f : Mod → Mod) : (updMod n f s).mem = s.mem := rfl
@[simp] theorem updMod_freeCount (n : Nat) (f : Mod → Mod) : (updMod n f s).freeCount = s.freeCount := rfl
@[simp] theorem updMod_bus (n : Nat) (f : Mod → Mod) : (updMod n f s).bus = s.bus := rfl
@[simp] theorem updMod_sys (n : Nat) (f : Mod → Mod) : (updMod n f s).sys = s.sys := rfl
@[simp] theorem updMod_hpa (n : Nat) (f : Mod → Mod) : (updMod n f s).hpa = s.hpa := rfl
@[simp] theorem updMod_hpb (n : Nat) (f : Mod → Mod) : (updMod n f s).hpb = s.hpb := rfl
@[simp] theorem updMod_sems (n : Nat) (f : Mod → Mod) : (updMod n f s).sems = s.sems := rfl
@[simp] theorem updMod_bmx (n : Nat) (f : Mod → Mod) : (updMod n f s).bmx = s.bmx := rfl
@[simp] theorem updMod_img (n : Nat) (f : Mod → Mod) : (updMod n f s).img = s.img := rfl
@[simp] theorem updMod_ldg (n : Nat) (f : Mod → Mod) : (updMod n f s).ldg = s.ldg := rfl
@[simp] theorem updMod_rails (n : Nat) (f : Mod → Mod) : (updMod n f s).rails = s.rails := rfl
@[simp] theorem updMod_cells (n : Nat) (f : Mod → Mod) : (updMod n f s).cells = s.cells := rfl
@[simp] theorem updMod_fabric (n : Nat) (f : Mod → Mod) : (updMod n f s).fabric = s.fabric := rfl
@[simp] theorem updMod_ckpt (n : Nat) (f : Mod → Mod) : (updMod n f s).ckpt = s.ckpt := rfl
@[simp] theorem updMod_mxe (n : Nat) (f : Mod → Mod) : (updMod n f s).mxe = s.mxe := rfl
@[simp] theorem updMod_dly (n : Nat) (f : Mod → Mod) : (updMod n f s).dly = s.dly := rfl
@[simp] theorem updMod_netRx (n : Nat) (f : Mod → Mod) : (updMod n f s).netRx = s.netRx := rfl
@[simp] theorem updMod_portIn (n : Nat) (f : Mod → Mod) : (updMod n f s).portIn = s.portIn := rfl
@[simp] theorem updMod_memUe (n : Nat) (f : Mod → Mod) : (updMod n f s).memUe = s.memUe := rfl
@[simp] theorem updMod_poisoned (n : Nat) (f : Mod → Mod) : (updMod n f s).poisoned = s.poisoned := rfl
@[simp] theorem updMod_macs (n : Nat) (f : Mod → Mod) : (updMod n f s).macs = s.macs := rfl
@[simp] theorem updMod_ste (n : Nat) (f : Mod → Mod) : (updMod n f s).ste = s.ste := rfl
@[simp] theorem updMod_ptu (n : Nat) (f : Mod → Mod) : (updMod n f s).ptu = s.ptu := rfl
@[simp] theorem updMod_rsu (n : Nat) (f : Mod → Mod) : (updMod n f s).rsu = s.rsu := rfl
@[simp] theorem updMod_apt (n : Nat) (f : Mod → Mod) : (updMod n f s).apt = s.apt := rfl
@[simp] theorem updMod_aptRnd (n : Nat) (f : Mod → Mod) : (updMod n f s).aptRnd = s.aptRnd := rfl
@[simp] theorem updMod_lsp (n : Nat) (f : Mod → Mod) : (updMod n f s).lsp = s.lsp := rfl
@[simp] theorem updMod_dma (n : Nat) (f : Mod → Mod) : (updMod n f s).dma = s.dma := rfl
@[simp] theorem updMod_chk (n : Nat) (f : Mod → Mod) : (updMod n f s).chk = s.chk := rfl
@[simp] theorem updMod_memc (n : Nat) (f : Mod → Mod) : (updMod n f s).memc = s.memc := rfl
@[simp] theorem updMod_twc (n : Nat) (f : Mod → Mod) : (updMod n f s).twc = s.twc := rfl
@[simp] theorem updMod_flc (n : Nat) (f : Mod → Mod) : (updMod n f s).flc = s.flc := rfl
@[simp] theorem updMod_jtag (n : Nat) (f : Mod → Mod) : (updMod n f s).jtag = s.jtag := rfl
@[simp] theorem updMod_pair (n : Nat) (f : Mod → Mod) : (updMod n f s).pair = s.pair := rfl

@[simp] theorem updLsp_pending (f : Lsp → Lsp) : (updLsp f s).pending = s.pending := rfl
@[simp] theorem updLsp_regs (f : Lsp → Lsp) : (updLsp f s).regs = s.regs := rfl
@[simp] theorem updLsp_mem (f : Lsp → Lsp) : (updLsp f s).mem = s.mem := rfl
@[simp] theorem updLsp_freeCount (f : Lsp → Lsp) : (updLsp f s).freeCount = s.freeCount := rfl
@[simp] theorem updLsp_bus (f : Lsp → Lsp) : (updLsp f s).bus = s.bus := rfl
@[simp] theorem updLsp_sys (f : Lsp → Lsp) : (updLsp f s).sys = s.sys := rfl
@[simp] theorem updLsp_hpa (f : Lsp → Lsp) : (updLsp f s).hpa = s.hpa := rfl
@[simp] theorem updLsp_hpb (f : Lsp → Lsp) : (updLsp f s).hpb = s.hpb := rfl
@[simp] theorem updLsp_sems (f : Lsp → Lsp) : (updLsp f s).sems = s.sems := rfl
@[simp] theorem updLsp_bmx (f : Lsp → Lsp) : (updLsp f s).bmx = s.bmx := rfl
@[simp] theorem updLsp_img (f : Lsp → Lsp) : (updLsp f s).img = s.img := rfl
@[simp] theorem updLsp_ldg (f : Lsp → Lsp) : (updLsp f s).ldg = s.ldg := rfl
@[simp] theorem updLsp_rails (f : Lsp → Lsp) : (updLsp f s).rails = s.rails := rfl
@[simp] theorem updLsp_cells (f : Lsp → Lsp) : (updLsp f s).cells = s.cells := rfl
@[simp] theorem updLsp_fabric (f : Lsp → Lsp) : (updLsp f s).fabric = s.fabric := rfl
@[simp] theorem updLsp_ckpt (f : Lsp → Lsp) : (updLsp f s).ckpt = s.ckpt := rfl
@[simp] theorem updLsp_mxe (f : Lsp → Lsp) : (updLsp f s).mxe = s.mxe := rfl
@[simp] theorem updLsp_dly (f : Lsp → Lsp) : (updLsp f s).dly = s.dly := rfl
@[simp] theorem updLsp_netRx (f : Lsp → Lsp) : (updLsp f s).netRx = s.netRx := rfl
@[simp] theorem updLsp_portIn (f : Lsp → Lsp) : (updLsp f s).portIn = s.portIn := rfl
@[simp] theorem updLsp_memUe (f : Lsp → Lsp) : (updLsp f s).memUe = s.memUe := rfl
@[simp] theorem updLsp_poisoned (f : Lsp → Lsp) : (updLsp f s).poisoned = s.poisoned := rfl
@[simp] theorem updLsp_macs (f : Lsp → Lsp) : (updLsp f s).macs = s.macs := rfl
@[simp] theorem updLsp_ste (f : Lsp → Lsp) : (updLsp f s).ste = s.ste := rfl
@[simp] theorem updLsp_ptu (f : Lsp → Lsp) : (updLsp f s).ptu = s.ptu := rfl
@[simp] theorem updLsp_rsu (f : Lsp → Lsp) : (updLsp f s).rsu = s.rsu := rfl
@[simp] theorem updLsp_apt (f : Lsp → Lsp) : (updLsp f s).apt = s.apt := rfl
@[simp] theorem updLsp_aptRnd (f : Lsp → Lsp) : (updLsp f s).aptRnd = s.aptRnd := rfl
@[simp] theorem updLsp_pwr (f : Lsp → Lsp) : (updLsp f s).pwr = s.pwr := rfl
@[simp] theorem updLsp_dma (f : Lsp → Lsp) : (updLsp f s).dma = s.dma := rfl
@[simp] theorem updLsp_chk (f : Lsp → Lsp) : (updLsp f s).chk = s.chk := rfl
@[simp] theorem updLsp_memc (f : Lsp → Lsp) : (updLsp f s).memc = s.memc := rfl
@[simp] theorem updLsp_twc (f : Lsp → Lsp) : (updLsp f s).twc = s.twc := rfl
@[simp] theorem updLsp_flc (f : Lsp → Lsp) : (updLsp f s).flc = s.flc := rfl
@[simp] theorem updLsp_jtag (f : Lsp → Lsp) : (updLsp f s).jtag = s.jtag := rfl
@[simp] theorem updLsp_pair (f : Lsp → Lsp) : (updLsp f s).pair = s.pair := rfl

@[simp] theorem updSpk_pending (n : Nat) (f : LspCh → LspCh) : (updSpk n f s).pending = s.pending := rfl
@[simp] theorem updSpk_regs (n : Nat) (f : LspCh → LspCh) : (updSpk n f s).regs = s.regs := rfl
@[simp] theorem updSpk_mem (n : Nat) (f : LspCh → LspCh) : (updSpk n f s).mem = s.mem := rfl
@[simp] theorem updSpk_freeCount (n : Nat) (f : LspCh → LspCh) : (updSpk n f s).freeCount = s.freeCount := rfl
@[simp] theorem updSpk_bus (n : Nat) (f : LspCh → LspCh) : (updSpk n f s).bus = s.bus := rfl
@[simp] theorem updSpk_sys (n : Nat) (f : LspCh → LspCh) : (updSpk n f s).sys = s.sys := rfl
@[simp] theorem updSpk_hpa (n : Nat) (f : LspCh → LspCh) : (updSpk n f s).hpa = s.hpa := rfl
@[simp] theorem updSpk_hpb (n : Nat) (f : LspCh → LspCh) : (updSpk n f s).hpb = s.hpb := rfl
@[simp] theorem updSpk_sems (n : Nat) (f : LspCh → LspCh) : (updSpk n f s).sems = s.sems := rfl
@[simp] theorem updSpk_bmx (n : Nat) (f : LspCh → LspCh) : (updSpk n f s).bmx = s.bmx := rfl
@[simp] theorem updSpk_img (n : Nat) (f : LspCh → LspCh) : (updSpk n f s).img = s.img := rfl
@[simp] theorem updSpk_ldg (n : Nat) (f : LspCh → LspCh) : (updSpk n f s).ldg = s.ldg := rfl
@[simp] theorem updSpk_rails (n : Nat) (f : LspCh → LspCh) : (updSpk n f s).rails = s.rails := rfl
@[simp] theorem updSpk_cells (n : Nat) (f : LspCh → LspCh) : (updSpk n f s).cells = s.cells := rfl
@[simp] theorem updSpk_fabric (n : Nat) (f : LspCh → LspCh) : (updSpk n f s).fabric = s.fabric := rfl
@[simp] theorem updSpk_ckpt (n : Nat) (f : LspCh → LspCh) : (updSpk n f s).ckpt = s.ckpt := rfl
@[simp] theorem updSpk_mxe (n : Nat) (f : LspCh → LspCh) : (updSpk n f s).mxe = s.mxe := rfl
@[simp] theorem updSpk_dly (n : Nat) (f : LspCh → LspCh) : (updSpk n f s).dly = s.dly := rfl
@[simp] theorem updSpk_netRx (n : Nat) (f : LspCh → LspCh) : (updSpk n f s).netRx = s.netRx := rfl
@[simp] theorem updSpk_portIn (n : Nat) (f : LspCh → LspCh) : (updSpk n f s).portIn = s.portIn := rfl
@[simp] theorem updSpk_memUe (n : Nat) (f : LspCh → LspCh) : (updSpk n f s).memUe = s.memUe := rfl
@[simp] theorem updSpk_poisoned (n : Nat) (f : LspCh → LspCh) : (updSpk n f s).poisoned = s.poisoned := rfl
@[simp] theorem updSpk_macs (n : Nat) (f : LspCh → LspCh) : (updSpk n f s).macs = s.macs := rfl
@[simp] theorem updSpk_ste (n : Nat) (f : LspCh → LspCh) : (updSpk n f s).ste = s.ste := rfl
@[simp] theorem updSpk_ptu (n : Nat) (f : LspCh → LspCh) : (updSpk n f s).ptu = s.ptu := rfl
@[simp] theorem updSpk_rsu (n : Nat) (f : LspCh → LspCh) : (updSpk n f s).rsu = s.rsu := rfl
@[simp] theorem updSpk_apt (n : Nat) (f : LspCh → LspCh) : (updSpk n f s).apt = s.apt := rfl
@[simp] theorem updSpk_aptRnd (n : Nat) (f : LspCh → LspCh) : (updSpk n f s).aptRnd = s.aptRnd := rfl
@[simp] theorem updSpk_pwr (n : Nat) (f : LspCh → LspCh) : (updSpk n f s).pwr = s.pwr := rfl
@[simp] theorem updSpk_dma (n : Nat) (f : LspCh → LspCh) : (updSpk n f s).dma = s.dma := rfl
@[simp] theorem updSpk_chk (n : Nat) (f : LspCh → LspCh) : (updSpk n f s).chk = s.chk := rfl
@[simp] theorem updSpk_memc (n : Nat) (f : LspCh → LspCh) : (updSpk n f s).memc = s.memc := rfl
@[simp] theorem updSpk_twc (n : Nat) (f : LspCh → LspCh) : (updSpk n f s).twc = s.twc := rfl
@[simp] theorem updSpk_flc (n : Nat) (f : LspCh → LspCh) : (updSpk n f s).flc = s.flc := rfl
@[simp] theorem updSpk_jtag (n : Nat) (f : LspCh → LspCh) : (updSpk n f s).jtag = s.jtag := rfl
@[simp] theorem updSpk_pair (n : Nat) (f : LspCh → LspCh) : (updSpk n f s).pair = s.pair := rfl

@[simp] theorem updSns_pending (i : Nat) (f : Sense → Sense) : (updSns i f s).pending = s.pending := rfl
@[simp] theorem updSns_regs (i : Nat) (f : Sense → Sense) : (updSns i f s).regs = s.regs := rfl
@[simp] theorem updSns_mem (i : Nat) (f : Sense → Sense) : (updSns i f s).mem = s.mem := rfl
@[simp] theorem updSns_freeCount (i : Nat) (f : Sense → Sense) : (updSns i f s).freeCount = s.freeCount := rfl
@[simp] theorem updSns_bus (i : Nat) (f : Sense → Sense) : (updSns i f s).bus = s.bus := rfl
@[simp] theorem updSns_sys (i : Nat) (f : Sense → Sense) : (updSns i f s).sys = s.sys := rfl
@[simp] theorem updSns_hpa (i : Nat) (f : Sense → Sense) : (updSns i f s).hpa = s.hpa := rfl
@[simp] theorem updSns_hpb (i : Nat) (f : Sense → Sense) : (updSns i f s).hpb = s.hpb := rfl
@[simp] theorem updSns_sems (i : Nat) (f : Sense → Sense) : (updSns i f s).sems = s.sems := rfl
@[simp] theorem updSns_bmx (i : Nat) (f : Sense → Sense) : (updSns i f s).bmx = s.bmx := rfl
@[simp] theorem updSns_img (i : Nat) (f : Sense → Sense) : (updSns i f s).img = s.img := rfl
@[simp] theorem updSns_ldg (i : Nat) (f : Sense → Sense) : (updSns i f s).ldg = s.ldg := rfl
@[simp] theorem updSns_rails (i : Nat) (f : Sense → Sense) : (updSns i f s).rails = s.rails := rfl
@[simp] theorem updSns_cells (i : Nat) (f : Sense → Sense) : (updSns i f s).cells = s.cells := rfl
@[simp] theorem updSns_fabric (i : Nat) (f : Sense → Sense) : (updSns i f s).fabric = s.fabric := rfl
@[simp] theorem updSns_ckpt (i : Nat) (f : Sense → Sense) : (updSns i f s).ckpt = s.ckpt := rfl
@[simp] theorem updSns_mxe (i : Nat) (f : Sense → Sense) : (updSns i f s).mxe = s.mxe := rfl
@[simp] theorem updSns_dly (i : Nat) (f : Sense → Sense) : (updSns i f s).dly = s.dly := rfl
@[simp] theorem updSns_netRx (i : Nat) (f : Sense → Sense) : (updSns i f s).netRx = s.netRx := rfl
@[simp] theorem updSns_portIn (i : Nat) (f : Sense → Sense) : (updSns i f s).portIn = s.portIn := rfl
@[simp] theorem updSns_memUe (i : Nat) (f : Sense → Sense) : (updSns i f s).memUe = s.memUe := rfl
@[simp] theorem updSns_poisoned (i : Nat) (f : Sense → Sense) : (updSns i f s).poisoned = s.poisoned := rfl
@[simp] theorem updSns_macs (i : Nat) (f : Sense → Sense) : (updSns i f s).macs = s.macs := rfl
@[simp] theorem updSns_ste (i : Nat) (f : Sense → Sense) : (updSns i f s).ste = s.ste := rfl
@[simp] theorem updSns_ptu (i : Nat) (f : Sense → Sense) : (updSns i f s).ptu = s.ptu := rfl
@[simp] theorem updSns_rsu (i : Nat) (f : Sense → Sense) : (updSns i f s).rsu = s.rsu := rfl
@[simp] theorem updSns_apt (i : Nat) (f : Sense → Sense) : (updSns i f s).apt = s.apt := rfl
@[simp] theorem updSns_aptRnd (i : Nat) (f : Sense → Sense) : (updSns i f s).aptRnd = s.aptRnd := rfl
@[simp] theorem updSns_pwr (i : Nat) (f : Sense → Sense) : (updSns i f s).pwr = s.pwr := rfl
@[simp] theorem updSns_dma (i : Nat) (f : Sense → Sense) : (updSns i f s).dma = s.dma := rfl
@[simp] theorem updSns_chk (i : Nat) (f : Sense → Sense) : (updSns i f s).chk = s.chk := rfl
@[simp] theorem updSns_memc (i : Nat) (f : Sense → Sense) : (updSns i f s).memc = s.memc := rfl
@[simp] theorem updSns_twc (i : Nat) (f : Sense → Sense) : (updSns i f s).twc = s.twc := rfl
@[simp] theorem updSns_flc (i : Nat) (f : Sense → Sense) : (updSns i f s).flc = s.flc := rfl
@[simp] theorem updSns_jtag (i : Nat) (f : Sense → Sense) : (updSns i f s).jtag = s.jtag := rfl
@[simp] theorem updSns_pair (i : Nat) (f : Sense → Sense) : (updSns i f s).pair = s.pair := rfl

@[simp] theorem updDma_pending (f : Dma → Dma) : (updDma f s).pending = s.pending := rfl
@[simp] theorem updDma_regs (f : Dma → Dma) : (updDma f s).regs = s.regs := rfl
@[simp] theorem updDma_mem (f : Dma → Dma) : (updDma f s).mem = s.mem := rfl
@[simp] theorem updDma_freeCount (f : Dma → Dma) : (updDma f s).freeCount = s.freeCount := rfl
@[simp] theorem updDma_bus (f : Dma → Dma) : (updDma f s).bus = s.bus := rfl
@[simp] theorem updDma_sys (f : Dma → Dma) : (updDma f s).sys = s.sys := rfl
@[simp] theorem updDma_hpa (f : Dma → Dma) : (updDma f s).hpa = s.hpa := rfl
@[simp] theorem updDma_hpb (f : Dma → Dma) : (updDma f s).hpb = s.hpb := rfl
@[simp] theorem updDma_sems (f : Dma → Dma) : (updDma f s).sems = s.sems := rfl
@[simp] theorem updDma_bmx (f : Dma → Dma) : (updDma f s).bmx = s.bmx := rfl
@[simp] theorem updDma_img (f : Dma → Dma) : (updDma f s).img = s.img := rfl
@[simp] theorem updDma_ldg (f : Dma → Dma) : (updDma f s).ldg = s.ldg := rfl
@[simp] theorem updDma_rails (f : Dma → Dma) : (updDma f s).rails = s.rails := rfl
@[simp] theorem updDma_cells (f : Dma → Dma) : (updDma f s).cells = s.cells := rfl
@[simp] theorem updDma_fabric (f : Dma → Dma) : (updDma f s).fabric = s.fabric := rfl
@[simp] theorem updDma_ckpt (f : Dma → Dma) : (updDma f s).ckpt = s.ckpt := rfl
@[simp] theorem updDma_mxe (f : Dma → Dma) : (updDma f s).mxe = s.mxe := rfl
@[simp] theorem updDma_dly (f : Dma → Dma) : (updDma f s).dly = s.dly := rfl
@[simp] theorem updDma_netRx (f : Dma → Dma) : (updDma f s).netRx = s.netRx := rfl
@[simp] theorem updDma_portIn (f : Dma → Dma) : (updDma f s).portIn = s.portIn := rfl
@[simp] theorem updDma_memUe (f : Dma → Dma) : (updDma f s).memUe = s.memUe := rfl
@[simp] theorem updDma_poisoned (f : Dma → Dma) : (updDma f s).poisoned = s.poisoned := rfl
@[simp] theorem updDma_macs (f : Dma → Dma) : (updDma f s).macs = s.macs := rfl
@[simp] theorem updDma_ste (f : Dma → Dma) : (updDma f s).ste = s.ste := rfl
@[simp] theorem updDma_ptu (f : Dma → Dma) : (updDma f s).ptu = s.ptu := rfl
@[simp] theorem updDma_rsu (f : Dma → Dma) : (updDma f s).rsu = s.rsu := rfl
@[simp] theorem updDma_apt (f : Dma → Dma) : (updDma f s).apt = s.apt := rfl
@[simp] theorem updDma_aptRnd (f : Dma → Dma) : (updDma f s).aptRnd = s.aptRnd := rfl
@[simp] theorem updDma_pwr (f : Dma → Dma) : (updDma f s).pwr = s.pwr := rfl
@[simp] theorem updDma_lsp (f : Dma → Dma) : (updDma f s).lsp = s.lsp := rfl
@[simp] theorem updDma_chk (f : Dma → Dma) : (updDma f s).chk = s.chk := rfl
@[simp] theorem updDma_memc (f : Dma → Dma) : (updDma f s).memc = s.memc := rfl
@[simp] theorem updDma_twc (f : Dma → Dma) : (updDma f s).twc = s.twc := rfl
@[simp] theorem updDma_flc (f : Dma → Dma) : (updDma f s).flc = s.flc := rfl
@[simp] theorem updDma_jtag (f : Dma → Dma) : (updDma f s).jtag = s.jtag := rfl
@[simp] theorem updDma_pair (f : Dma → Dma) : (updDma f s).pair = s.pair := rfl

@[simp] theorem updCh_pending (n : Nat) (f : DmaCh → DmaCh) : (updCh n f s).pending = s.pending := rfl
@[simp] theorem updCh_regs (n : Nat) (f : DmaCh → DmaCh) : (updCh n f s).regs = s.regs := rfl
@[simp] theorem updCh_mem (n : Nat) (f : DmaCh → DmaCh) : (updCh n f s).mem = s.mem := rfl
@[simp] theorem updCh_freeCount (n : Nat) (f : DmaCh → DmaCh) : (updCh n f s).freeCount = s.freeCount := rfl
@[simp] theorem updCh_bus (n : Nat) (f : DmaCh → DmaCh) : (updCh n f s).bus = s.bus := rfl
@[simp] theorem updCh_sys (n : Nat) (f : DmaCh → DmaCh) : (updCh n f s).sys = s.sys := rfl
@[simp] theorem updCh_hpa (n : Nat) (f : DmaCh → DmaCh) : (updCh n f s).hpa = s.hpa := rfl
@[simp] theorem updCh_hpb (n : Nat) (f : DmaCh → DmaCh) : (updCh n f s).hpb = s.hpb := rfl
@[simp] theorem updCh_sems (n : Nat) (f : DmaCh → DmaCh) : (updCh n f s).sems = s.sems := rfl
@[simp] theorem updCh_bmx (n : Nat) (f : DmaCh → DmaCh) : (updCh n f s).bmx = s.bmx := rfl
@[simp] theorem updCh_img (n : Nat) (f : DmaCh → DmaCh) : (updCh n f s).img = s.img := rfl
@[simp] theorem updCh_ldg (n : Nat) (f : DmaCh → DmaCh) : (updCh n f s).ldg = s.ldg := rfl
@[simp] theorem updCh_rails (n : Nat) (f : DmaCh → DmaCh) : (updCh n f s).rails = s.rails := rfl
@[simp] theorem updCh_cells (n : Nat) (f : DmaCh → DmaCh) : (updCh n f s).cells = s.cells := rfl
@[simp] theorem updCh_fabric (n : Nat) (f : DmaCh → DmaCh) : (updCh n f s).fabric = s.fabric := rfl
@[simp] theorem updCh_ckpt (n : Nat) (f : DmaCh → DmaCh) : (updCh n f s).ckpt = s.ckpt := rfl
@[simp] theorem updCh_mxe (n : Nat) (f : DmaCh → DmaCh) : (updCh n f s).mxe = s.mxe := rfl
@[simp] theorem updCh_dly (n : Nat) (f : DmaCh → DmaCh) : (updCh n f s).dly = s.dly := rfl
@[simp] theorem updCh_netRx (n : Nat) (f : DmaCh → DmaCh) : (updCh n f s).netRx = s.netRx := rfl
@[simp] theorem updCh_portIn (n : Nat) (f : DmaCh → DmaCh) : (updCh n f s).portIn = s.portIn := rfl
@[simp] theorem updCh_memUe (n : Nat) (f : DmaCh → DmaCh) : (updCh n f s).memUe = s.memUe := rfl
@[simp] theorem updCh_poisoned (n : Nat) (f : DmaCh → DmaCh) : (updCh n f s).poisoned = s.poisoned := rfl
@[simp] theorem updCh_macs (n : Nat) (f : DmaCh → DmaCh) : (updCh n f s).macs = s.macs := rfl
@[simp] theorem updCh_ste (n : Nat) (f : DmaCh → DmaCh) : (updCh n f s).ste = s.ste := rfl
@[simp] theorem updCh_ptu (n : Nat) (f : DmaCh → DmaCh) : (updCh n f s).ptu = s.ptu := rfl
@[simp] theorem updCh_rsu (n : Nat) (f : DmaCh → DmaCh) : (updCh n f s).rsu = s.rsu := rfl
@[simp] theorem updCh_apt (n : Nat) (f : DmaCh → DmaCh) : (updCh n f s).apt = s.apt := rfl
@[simp] theorem updCh_aptRnd (n : Nat) (f : DmaCh → DmaCh) : (updCh n f s).aptRnd = s.aptRnd := rfl
@[simp] theorem updCh_pwr (n : Nat) (f : DmaCh → DmaCh) : (updCh n f s).pwr = s.pwr := rfl
@[simp] theorem updCh_lsp (n : Nat) (f : DmaCh → DmaCh) : (updCh n f s).lsp = s.lsp := rfl
@[simp] theorem updCh_chk (n : Nat) (f : DmaCh → DmaCh) : (updCh n f s).chk = s.chk := rfl
@[simp] theorem updCh_memc (n : Nat) (f : DmaCh → DmaCh) : (updCh n f s).memc = s.memc := rfl
@[simp] theorem updCh_twc (n : Nat) (f : DmaCh → DmaCh) : (updCh n f s).twc = s.twc := rfl
@[simp] theorem updCh_flc (n : Nat) (f : DmaCh → DmaCh) : (updCh n f s).flc = s.flc := rfl
@[simp] theorem updCh_jtag (n : Nat) (f : DmaCh → DmaCh) : (updCh n f s).jtag = s.jtag := rfl
@[simp] theorem updCh_pair (n : Nat) (f : DmaCh → DmaCh) : (updCh n f s).pair = s.pair := rfl

@[simp] theorem updChk_pending (u : Nat) (f : ChkU → ChkU) : (updChk u f s).pending = s.pending := rfl
@[simp] theorem updChk_regs (u : Nat) (f : ChkU → ChkU) : (updChk u f s).regs = s.regs := rfl
@[simp] theorem updChk_mem (u : Nat) (f : ChkU → ChkU) : (updChk u f s).mem = s.mem := rfl
@[simp] theorem updChk_freeCount (u : Nat) (f : ChkU → ChkU) : (updChk u f s).freeCount = s.freeCount := rfl
@[simp] theorem updChk_bus (u : Nat) (f : ChkU → ChkU) : (updChk u f s).bus = s.bus := rfl
@[simp] theorem updChk_sys (u : Nat) (f : ChkU → ChkU) : (updChk u f s).sys = s.sys := rfl
@[simp] theorem updChk_hpa (u : Nat) (f : ChkU → ChkU) : (updChk u f s).hpa = s.hpa := rfl
@[simp] theorem updChk_hpb (u : Nat) (f : ChkU → ChkU) : (updChk u f s).hpb = s.hpb := rfl
@[simp] theorem updChk_sems (u : Nat) (f : ChkU → ChkU) : (updChk u f s).sems = s.sems := rfl
@[simp] theorem updChk_bmx (u : Nat) (f : ChkU → ChkU) : (updChk u f s).bmx = s.bmx := rfl
@[simp] theorem updChk_img (u : Nat) (f : ChkU → ChkU) : (updChk u f s).img = s.img := rfl
@[simp] theorem updChk_ldg (u : Nat) (f : ChkU → ChkU) : (updChk u f s).ldg = s.ldg := rfl
@[simp] theorem updChk_rails (u : Nat) (f : ChkU → ChkU) : (updChk u f s).rails = s.rails := rfl
@[simp] theorem updChk_cells (u : Nat) (f : ChkU → ChkU) : (updChk u f s).cells = s.cells := rfl
@[simp] theorem updChk_fabric (u : Nat) (f : ChkU → ChkU) : (updChk u f s).fabric = s.fabric := rfl
@[simp] theorem updChk_ckpt (u : Nat) (f : ChkU → ChkU) : (updChk u f s).ckpt = s.ckpt := rfl
@[simp] theorem updChk_mxe (u : Nat) (f : ChkU → ChkU) : (updChk u f s).mxe = s.mxe := rfl
@[simp] theorem updChk_dly (u : Nat) (f : ChkU → ChkU) : (updChk u f s).dly = s.dly := rfl
@[simp] theorem updChk_netRx (u : Nat) (f : ChkU → ChkU) : (updChk u f s).netRx = s.netRx := rfl
@[simp] theorem updChk_portIn (u : Nat) (f : ChkU → ChkU) : (updChk u f s).portIn = s.portIn := rfl
@[simp] theorem updChk_memUe (u : Nat) (f : ChkU → ChkU) : (updChk u f s).memUe = s.memUe := rfl
@[simp] theorem updChk_poisoned (u : Nat) (f : ChkU → ChkU) : (updChk u f s).poisoned = s.poisoned := rfl
@[simp] theorem updChk_macs (u : Nat) (f : ChkU → ChkU) : (updChk u f s).macs = s.macs := rfl
@[simp] theorem updChk_ste (u : Nat) (f : ChkU → ChkU) : (updChk u f s).ste = s.ste := rfl
@[simp] theorem updChk_ptu (u : Nat) (f : ChkU → ChkU) : (updChk u f s).ptu = s.ptu := rfl
@[simp] theorem updChk_rsu (u : Nat) (f : ChkU → ChkU) : (updChk u f s).rsu = s.rsu := rfl
@[simp] theorem updChk_apt (u : Nat) (f : ChkU → ChkU) : (updChk u f s).apt = s.apt := rfl
@[simp] theorem updChk_aptRnd (u : Nat) (f : ChkU → ChkU) : (updChk u f s).aptRnd = s.aptRnd := rfl
@[simp] theorem updChk_pwr (u : Nat) (f : ChkU → ChkU) : (updChk u f s).pwr = s.pwr := rfl
@[simp] theorem updChk_lsp (u : Nat) (f : ChkU → ChkU) : (updChk u f s).lsp = s.lsp := rfl
@[simp] theorem updChk_dma (u : Nat) (f : ChkU → ChkU) : (updChk u f s).dma = s.dma := rfl
@[simp] theorem updChk_memc (u : Nat) (f : ChkU → ChkU) : (updChk u f s).memc = s.memc := rfl
@[simp] theorem updChk_twc (u : Nat) (f : ChkU → ChkU) : (updChk u f s).twc = s.twc := rfl
@[simp] theorem updChk_flc (u : Nat) (f : ChkU → ChkU) : (updChk u f s).flc = s.flc := rfl
@[simp] theorem updChk_jtag (u : Nat) (f : ChkU → ChkU) : (updChk u f s).jtag = s.jtag := rfl
@[simp] theorem updChk_pair (u : Nat) (f : ChkU → ChkU) : (updChk u f s).pair = s.pair := rfl

@[simp] theorem updMemc_pending (f : Memc → Memc) : (updMemc f s).pending = s.pending := rfl
@[simp] theorem updMemc_regs (f : Memc → Memc) : (updMemc f s).regs = s.regs := rfl
@[simp] theorem updMemc_mem (f : Memc → Memc) : (updMemc f s).mem = s.mem := rfl
@[simp] theorem updMemc_freeCount (f : Memc → Memc) : (updMemc f s).freeCount = s.freeCount := rfl
@[simp] theorem updMemc_bus (f : Memc → Memc) : (updMemc f s).bus = s.bus := rfl
@[simp] theorem updMemc_sys (f : Memc → Memc) : (updMemc f s).sys = s.sys := rfl
@[simp] theorem updMemc_hpa (f : Memc → Memc) : (updMemc f s).hpa = s.hpa := rfl
@[simp] theorem updMemc_hpb (f : Memc → Memc) : (updMemc f s).hpb = s.hpb := rfl
@[simp] theorem updMemc_sems (f : Memc → Memc) : (updMemc f s).sems = s.sems := rfl
@[simp] theorem updMemc_bmx (f : Memc → Memc) : (updMemc f s).bmx = s.bmx := rfl
@[simp] theorem updMemc_img (f : Memc → Memc) : (updMemc f s).img = s.img := rfl
@[simp] theorem updMemc_ldg (f : Memc → Memc) : (updMemc f s).ldg = s.ldg := rfl
@[simp] theorem updMemc_rails (f : Memc → Memc) : (updMemc f s).rails = s.rails := rfl
@[simp] theorem updMemc_cells (f : Memc → Memc) : (updMemc f s).cells = s.cells := rfl
@[simp] theorem updMemc_fabric (f : Memc → Memc) : (updMemc f s).fabric = s.fabric := rfl
@[simp] theorem updMemc_ckpt (f : Memc → Memc) : (updMemc f s).ckpt = s.ckpt := rfl
@[simp] theorem updMemc_mxe (f : Memc → Memc) : (updMemc f s).mxe = s.mxe := rfl
@[simp] theorem updMemc_dly (f : Memc → Memc) : (updMemc f s).dly = s.dly := rfl
@[simp] theorem updMemc_netRx (f : Memc → Memc) : (updMemc f s).netRx = s.netRx := rfl
@[simp] theorem updMemc_portIn (f : Memc → Memc) : (updMemc f s).portIn = s.portIn := rfl
@[simp] theorem updMemc_memUe (f : Memc → Memc) : (updMemc f s).memUe = s.memUe := rfl
@[simp] theorem updMemc_poisoned (f : Memc → Memc) : (updMemc f s).poisoned = s.poisoned := rfl
@[simp] theorem updMemc_macs (f : Memc → Memc) : (updMemc f s).macs = s.macs := rfl
@[simp] theorem updMemc_ste (f : Memc → Memc) : (updMemc f s).ste = s.ste := rfl
@[simp] theorem updMemc_ptu (f : Memc → Memc) : (updMemc f s).ptu = s.ptu := rfl
@[simp] theorem updMemc_rsu (f : Memc → Memc) : (updMemc f s).rsu = s.rsu := rfl
@[simp] theorem updMemc_apt (f : Memc → Memc) : (updMemc f s).apt = s.apt := rfl
@[simp] theorem updMemc_aptRnd (f : Memc → Memc) : (updMemc f s).aptRnd = s.aptRnd := rfl
@[simp] theorem updMemc_pwr (f : Memc → Memc) : (updMemc f s).pwr = s.pwr := rfl
@[simp] theorem updMemc_lsp (f : Memc → Memc) : (updMemc f s).lsp = s.lsp := rfl
@[simp] theorem updMemc_dma (f : Memc → Memc) : (updMemc f s).dma = s.dma := rfl
@[simp] theorem updMemc_chk (f : Memc → Memc) : (updMemc f s).chk = s.chk := rfl
@[simp] theorem updMemc_twc (f : Memc → Memc) : (updMemc f s).twc = s.twc := rfl
@[simp] theorem updMemc_flc (f : Memc → Memc) : (updMemc f s).flc = s.flc := rfl
@[simp] theorem updMemc_jtag (f : Memc → Memc) : (updMemc f s).jtag = s.jtag := rfl
@[simp] theorem updMemc_pair (f : Memc → Memc) : (updMemc f s).pair = s.pair := rfl

@[simp] theorem updTw_pending (k : Nat) (f : Tw → Tw) : (updTw k f s).pending = s.pending := rfl
@[simp] theorem updTw_regs (k : Nat) (f : Tw → Tw) : (updTw k f s).regs = s.regs := rfl
@[simp] theorem updTw_mem (k : Nat) (f : Tw → Tw) : (updTw k f s).mem = s.mem := rfl
@[simp] theorem updTw_freeCount (k : Nat) (f : Tw → Tw) : (updTw k f s).freeCount = s.freeCount := rfl
@[simp] theorem updTw_bus (k : Nat) (f : Tw → Tw) : (updTw k f s).bus = s.bus := rfl
@[simp] theorem updTw_sys (k : Nat) (f : Tw → Tw) : (updTw k f s).sys = s.sys := rfl
@[simp] theorem updTw_hpa (k : Nat) (f : Tw → Tw) : (updTw k f s).hpa = s.hpa := rfl
@[simp] theorem updTw_hpb (k : Nat) (f : Tw → Tw) : (updTw k f s).hpb = s.hpb := rfl
@[simp] theorem updTw_sems (k : Nat) (f : Tw → Tw) : (updTw k f s).sems = s.sems := rfl
@[simp] theorem updTw_bmx (k : Nat) (f : Tw → Tw) : (updTw k f s).bmx = s.bmx := rfl
@[simp] theorem updTw_img (k : Nat) (f : Tw → Tw) : (updTw k f s).img = s.img := rfl
@[simp] theorem updTw_ldg (k : Nat) (f : Tw → Tw) : (updTw k f s).ldg = s.ldg := rfl
@[simp] theorem updTw_rails (k : Nat) (f : Tw → Tw) : (updTw k f s).rails = s.rails := rfl
@[simp] theorem updTw_cells (k : Nat) (f : Tw → Tw) : (updTw k f s).cells = s.cells := rfl
@[simp] theorem updTw_fabric (k : Nat) (f : Tw → Tw) : (updTw k f s).fabric = s.fabric := rfl
@[simp] theorem updTw_ckpt (k : Nat) (f : Tw → Tw) : (updTw k f s).ckpt = s.ckpt := rfl
@[simp] theorem updTw_mxe (k : Nat) (f : Tw → Tw) : (updTw k f s).mxe = s.mxe := rfl
@[simp] theorem updTw_dly (k : Nat) (f : Tw → Tw) : (updTw k f s).dly = s.dly := rfl
@[simp] theorem updTw_netRx (k : Nat) (f : Tw → Tw) : (updTw k f s).netRx = s.netRx := rfl
@[simp] theorem updTw_portIn (k : Nat) (f : Tw → Tw) : (updTw k f s).portIn = s.portIn := rfl
@[simp] theorem updTw_memUe (k : Nat) (f : Tw → Tw) : (updTw k f s).memUe = s.memUe := rfl
@[simp] theorem updTw_poisoned (k : Nat) (f : Tw → Tw) : (updTw k f s).poisoned = s.poisoned := rfl
@[simp] theorem updTw_macs (k : Nat) (f : Tw → Tw) : (updTw k f s).macs = s.macs := rfl
@[simp] theorem updTw_ste (k : Nat) (f : Tw → Tw) : (updTw k f s).ste = s.ste := rfl
@[simp] theorem updTw_ptu (k : Nat) (f : Tw → Tw) : (updTw k f s).ptu = s.ptu := rfl
@[simp] theorem updTw_rsu (k : Nat) (f : Tw → Tw) : (updTw k f s).rsu = s.rsu := rfl
@[simp] theorem updTw_apt (k : Nat) (f : Tw → Tw) : (updTw k f s).apt = s.apt := rfl
@[simp] theorem updTw_aptRnd (k : Nat) (f : Tw → Tw) : (updTw k f s).aptRnd = s.aptRnd := rfl
@[simp] theorem updTw_pwr (k : Nat) (f : Tw → Tw) : (updTw k f s).pwr = s.pwr := rfl
@[simp] theorem updTw_lsp (k : Nat) (f : Tw → Tw) : (updTw k f s).lsp = s.lsp := rfl
@[simp] theorem updTw_dma (k : Nat) (f : Tw → Tw) : (updTw k f s).dma = s.dma := rfl
@[simp] theorem updTw_chk (k : Nat) (f : Tw → Tw) : (updTw k f s).chk = s.chk := rfl
@[simp] theorem updTw_memc (k : Nat) (f : Tw → Tw) : (updTw k f s).memc = s.memc := rfl
@[simp] theorem updTw_flc (k : Nat) (f : Tw → Tw) : (updTw k f s).flc = s.flc := rfl
@[simp] theorem updTw_jtag (k : Nat) (f : Tw → Tw) : (updTw k f s).jtag = s.jtag := rfl
@[simp] theorem updTw_pair (k : Nat) (f : Tw → Tw) : (updTw k f s).pair = s.pair := rfl

@[simp] theorem updFlc_pending (f : Flc → Flc) : (updFlc f s).pending = s.pending := rfl
@[simp] theorem updFlc_regs (f : Flc → Flc) : (updFlc f s).regs = s.regs := rfl
@[simp] theorem updFlc_mem (f : Flc → Flc) : (updFlc f s).mem = s.mem := rfl
@[simp] theorem updFlc_freeCount (f : Flc → Flc) : (updFlc f s).freeCount = s.freeCount := rfl
@[simp] theorem updFlc_bus (f : Flc → Flc) : (updFlc f s).bus = s.bus := rfl
@[simp] theorem updFlc_sys (f : Flc → Flc) : (updFlc f s).sys = s.sys := rfl
@[simp] theorem updFlc_hpa (f : Flc → Flc) : (updFlc f s).hpa = s.hpa := rfl
@[simp] theorem updFlc_hpb (f : Flc → Flc) : (updFlc f s).hpb = s.hpb := rfl
@[simp] theorem updFlc_sems (f : Flc → Flc) : (updFlc f s).sems = s.sems := rfl
@[simp] theorem updFlc_bmx (f : Flc → Flc) : (updFlc f s).bmx = s.bmx := rfl
@[simp] theorem updFlc_img (f : Flc → Flc) : (updFlc f s).img = s.img := rfl
@[simp] theorem updFlc_ldg (f : Flc → Flc) : (updFlc f s).ldg = s.ldg := rfl
@[simp] theorem updFlc_rails (f : Flc → Flc) : (updFlc f s).rails = s.rails := rfl
@[simp] theorem updFlc_cells (f : Flc → Flc) : (updFlc f s).cells = s.cells := rfl
@[simp] theorem updFlc_fabric (f : Flc → Flc) : (updFlc f s).fabric = s.fabric := rfl
@[simp] theorem updFlc_ckpt (f : Flc → Flc) : (updFlc f s).ckpt = s.ckpt := rfl
@[simp] theorem updFlc_mxe (f : Flc → Flc) : (updFlc f s).mxe = s.mxe := rfl
@[simp] theorem updFlc_dly (f : Flc → Flc) : (updFlc f s).dly = s.dly := rfl
@[simp] theorem updFlc_netRx (f : Flc → Flc) : (updFlc f s).netRx = s.netRx := rfl
@[simp] theorem updFlc_portIn (f : Flc → Flc) : (updFlc f s).portIn = s.portIn := rfl
@[simp] theorem updFlc_memUe (f : Flc → Flc) : (updFlc f s).memUe = s.memUe := rfl
@[simp] theorem updFlc_poisoned (f : Flc → Flc) : (updFlc f s).poisoned = s.poisoned := rfl
@[simp] theorem updFlc_macs (f : Flc → Flc) : (updFlc f s).macs = s.macs := rfl
@[simp] theorem updFlc_ste (f : Flc → Flc) : (updFlc f s).ste = s.ste := rfl
@[simp] theorem updFlc_ptu (f : Flc → Flc) : (updFlc f s).ptu = s.ptu := rfl
@[simp] theorem updFlc_rsu (f : Flc → Flc) : (updFlc f s).rsu = s.rsu := rfl
@[simp] theorem updFlc_apt (f : Flc → Flc) : (updFlc f s).apt = s.apt := rfl
@[simp] theorem updFlc_aptRnd (f : Flc → Flc) : (updFlc f s).aptRnd = s.aptRnd := rfl
@[simp] theorem updFlc_pwr (f : Flc → Flc) : (updFlc f s).pwr = s.pwr := rfl
@[simp] theorem updFlc_lsp (f : Flc → Flc) : (updFlc f s).lsp = s.lsp := rfl
@[simp] theorem updFlc_dma (f : Flc → Flc) : (updFlc f s).dma = s.dma := rfl
@[simp] theorem updFlc_chk (f : Flc → Flc) : (updFlc f s).chk = s.chk := rfl
@[simp] theorem updFlc_memc (f : Flc → Flc) : (updFlc f s).memc = s.memc := rfl
@[simp] theorem updFlc_twc (f : Flc → Flc) : (updFlc f s).twc = s.twc := rfl
@[simp] theorem updFlc_jtag (f : Flc → Flc) : (updFlc f s).jtag = s.jtag := rfl
@[simp] theorem updFlc_pair (f : Flc → Flc) : (updFlc f s).pair = s.pair := rfl

end Sys2Proof.Machine
end

