-- ==== Sys2Proof/Laws/Ops.lean ====
section
/-! SUPPORT. What the shared operations do: a register, a unit or an answer reads back as written and the others keep theirs;
raising a fault, a mode flag, the settling of DEGRADED and MAINT; and that every memory operation keeps the canonical form. -/
namespace Sys2Proof.Machine
open Sys2Proof

/-! ### Registers -/

theorem reg_setReg (s : State) (a b : Nat) (v : Word) : (s.setReg a v).reg b = if b = a then v else s.reg b :=
  tab_get_set regReset s.regs a b v
@[simp] theorem reg_setReg_same (s : State) (a : Nat) (v : Word) : (s.setReg a v).reg a = v := by simp [reg_setReg]
theorem reg_setReg_ne (s : State) {a b : Nat} (v : Word) (h : b ≠ a) : (s.setReg a v).reg b = s.reg b := by simp [reg_setReg, h]
theorem reg_setFld (s : State) (a lo n v b : Nat) :
    (s.setFld a lo n v).reg b = if b = a then setBits (s.reg a) lo n v else s.reg b := reg_setReg s a b _
theorem reg_orReg (s : State) (a b : Nat) (m : Word) : (s.orReg a m).reg b = if b = a then s.reg a ||| m else s.reg b := reg_setReg s a b _
theorem reg_clrReg (s : State) (a b : Nat) (m : Word) : (s.clrReg a m).reg b = if b = a then s.reg a &&& ~~~m else s.reg b :=
  reg_setReg s a b _
/-- Registers read the same in states that hold the same register file. -/
theorem reg_congr {s t : State} (h : t.regs = s.regs) (a : Nat) : t.reg a = s.reg a := by unfold State.reg; rw [h]
theorem fld_congr {s t : State} (h : t.regs = s.regs) (a lo n : Nat) : t.fld a lo n = s.fld a lo n := by unfold State.fld; rw [reg_congr h]
theorem rbit_congr {s t : State} (h : t.regs = s.regs) (a i : Nat) : t.rbit a i = s.rbit a i := by unfold State.rbit; rw [reg_congr h]

/-! ### Answers -/

theorem master_idx_inj (m k : Master) : m.idx = k.idx ↔ m = k := by cases m <;> cases k <;> decide
theorem resp_respond (m k : Master) (c : Code) (ws : List Word) (s : State) :
    (respond m c ws s).resp k = if k = m then ⟨c, ws⟩ else s.resp k := by
  have h := tab_get_set (fun _ => ({} : BusResp)) s.bus m.idx k.idx ⟨c, ws⟩
  simp only [master_idx_inj] at h
  exact h
@[simp] theorem resp_respond_same (m : Master) (c : Code) (ws : List Word) (s : State) : (respond m c ws s).resp m = ⟨c, ws⟩ := by
  simp [resp_respond]

/-! ### Units -/

theorem cell_setCell (s : State) (p q : Nat) (c : Cell) : (s.setCell p c).cell q = if q = p then c else s.cell q :=
  tab_get_set _ s.cells p q c
@[simp] theorem cell_setCell_same (s : State) (p : Nat) (c : Cell) : (s.setCell p c).cell p = c := by simp [cell_setCell]
theorem cell_updCell (s : State) (p q : Nat) (f : Cell → Cell) : (s.updCell p f).cell q = if q = p then f (s.cell p) else s.cell q :=
  cell_setCell s p q _
@[simp] theorem cell_updCell_same (s : State) (p : Nat) (f : Cell → Cell) : (s.updCell p f).cell p = f (s.cell p) := by simp [cell_updCell]
theorem sem_setSem (s : State) (i j : Nat) (x : Sem) : (s.setSem i x).sem j = if j = i then x else s.sem j := tab_get_set _ s.sems i j x
@[simp] theorem sem_setSem_same (s : State) (i : Nat) (x : Sem) : (s.setSem i x).sem i = x := by simp [sem_setSem]
theorem mod_updMod (s : State) (n k : Nat) (f : Mod → Mod) : (updMod n f s).mod k = if k = n then f (s.mod n) else s.mod k :=
  tab_get_set _ s.pwr.chs n k _
@[simp] theorem mod_updMod_same (s : State) (n : Nat) (f : Mod → Mod) : (updMod n f s).mod n = f (s.mod n) := by simp [mod_updMod]
theorem spk_updSpk (s : State) (n k : Nat) (f : LspCh → LspCh) : (updSpk n f s).spk k = if k = n then f (s.spk n) else s.spk k :=
  tab_get_set _ s.lsp.chs n k _
theorem mac_updMac (s : State) (n k : Nat) (f : Mac → Mac) : (updMac n f s).mac k = if k = n then f (s.mac n) else s.mac k :=
  tab_get_set _ s.macs n k _
@[simp] theorem mac_updMac_same (s : State) (n : Nat) (f : Mac → Mac) : (updMac n f s).mac n = f (s.mac n) := by simp [mac_updMac]
theorem flow_updFlow (s : State) (n k : Nat) (f : Flow → Flow) : (updFlow n f s).flow k = if k = n then f (s.flow n) else s.flow k :=
  tab_get_set _ s.ste.flows n k _
theorem ref_updRef (s : State) (n k : Nat) (f : Ref → Ref) : (updRef n f s).ref k = if k = n then f (s.ref n) else s.ref k :=
  tab_get_set _ s.rsu.refs n k _
theorem dmaCh_updCh (s : State) (n k : Nat) (f : DmaCh → DmaCh) : (updCh n f s).dmaCh k = if k = n then f (s.dmaCh n) else s.dmaCh k :=
  tab_get_set _ s.dma.chs n k _
@[simp] theorem dmaCh_updCh_same (s : State) (n : Nat) (f : DmaCh → DmaCh) : (updCh n f s).dmaCh n = f (s.dmaCh n) := by simp [dmaCh_updCh]
theorem chkU_updChk (s : State) (n k : Nat) (f : ChkU → ChkU) : (updChk n f s).chkU k = if k = n then f (s.chkU n) else s.chkU k :=
  tab_get_set _ s.chk n k _
@[simp] theorem chkU_updChk_same (s : State) (n : Nat) (f : ChkU → ChkU) : (updChk n f s).chkU n = f (s.chkU n) := by simp [chkU_updChk]
theorem tw_updTw (s : State) (n k : Nat) (f : Tw → Tw) : (updTw n f s).tw k = if k = n then f (s.tw n) else s.tw k :=
  tab_get_set _ s.twc n k _
@[simp] theorem tw_updTw_same (s : State) (n : Nat) (f : Tw → Tw) : (updTw n f s).tw n = f (s.tw n) := by simp [tw_updTw]
theorem line_updLine (s : State) (n k : Nat) (f : Line → Line) : (updLine n f s).line k = if k = n then f (s.line n) else s.line k :=
  tab_get_set _ s.dly.lines n k _
@[simp] theorem line_updLine_same (s : State) (n : Nat) (f : Line → Line) : (updLine n f s).line n = f (s.line n) := by simp [line_updLine]

/-! ### Faults, events, flags -/

/-- Everything a detection does: two registers, the detection list and the log of SYS. -/
theorem raise_frame (b : Blk) (i : Nat) (s : State) :
    raise b i s = { s with regs := (raise b i s).regs, sys := (raise b i s).sys } := by
  simp only [raise, logPush, State.updSys, State.setReg, State.orReg]
/-- A detection leaves every register but FAULT_STATUS and the source's counter. -/
theorem raise_reg (b : Blk) (i a : Nat) (s : State) (h0 : a ≠ b.base + 0x80) (h1 : a ≠ b.base + 0x90 + 4 * i) : (raise b i s).reg a = s.reg a := by
  simp only [raise]
  rw [reg_congr (logPush_regs _ _ _ _ _ _), reg_congr (State.updSys_regs _ _), reg_setReg_ne _ _ h1, reg_orReg, if_neg h0]
/-- An event sets its bit of EVT and changes no other register. -/
theorem evt_reg (b : Blk) (i a : Nat) (s : State) : (evt b i s).reg a = if a = b.base + 0x40 then s.reg a ||| bm i else s.reg a := by
  unfold evt; rw [reg_orReg]; split
  · subst a; rfl
  · rfl
/-- A flag's change touches the registers and SYS only. -/
theorem setFlag_frame (i : Nat) (v : Bool) (o : Option HostId) (s : State) :
    setFlag i v o s = { s with regs := (setFlag i v o s).regs, sys := (setFlag i v o s).sys } := by
  unfold setFlag; split
  · rfl
  · simp only [logPush, State.updSys, State.setReg, State.orReg]
/-- The settling of DEGRADED and MAINT touches the registers and SYS only. -/
theorem settle_frame (s : State) : settle s = { s with regs := (settle s).regs, sys := (settle s).sys } := by
  unfold settle; rw [setFlag_frame 5, setFlag_frame 4]

/-! ### Memory -/

theorem wf_nil : Memory.wf [] = true := rfl
/-- A byte written keeps the canonical form. -/
theorem setByte_wf {s : State} (a : Nat) (b : Byte) (h : Memory.wf s.mem = true) : Memory.wf (s.setByte a b).mem = true := tab_wf_set a b h
theorem memPut_wf (l : List Byte) : ∀ {m : List Host.Cell} (a : Nat), Memory.wf m = true → Memory.wf (memPut m a l) = true := by
  induction l with
  | nil => intro m a h; exact h
  | cons b t ih => intro m a h; exact ih (a + 1) (tab_wf_set a b h)
/-- Bytes written keep the canonical form. -/
theorem setBytes_wf {s : State} (a : Nat) (l : List Byte) (h : Memory.wf s.mem = true) : Memory.wf (s.setBytes a l).mem = true := memPut_wf l a h
/-- The loss of part of the memory at a reset or at an initialisation keeps the canonical form. -/
theorem filter_wf {m : List Host.Cell} (p : Host.Cell → Bool) (h : Memory.wf m = true) : Memory.wf (m.filter p) = true := tab_wf_filter p h
/-- A byte reads back as written, and no other byte changes. -/
theorem byte_setByte (s : State) (a c : Nat) (b : Byte) : (s.setByte a b).byte c = if c = a then b else s.byte c := tab_get_set memDefault s.mem a c b
theorem memPut_get (l : List Byte) : ∀ (m : List Host.Cell) (a c : Nat), c < a ∨ a + l.length ≤ c →
    Tab.get memDefault (memPut m a l) c = Tab.get memDefault m c := by
  induction l with
  | nil => intro m a c _; rfl
  | cons b t ih =>
    intro m a c h
    simp only [List.length_cons] at h
    rw [memPut, ih _ (a + 1) c (by omega), tab_get_set_ne memDefault m b (by omega)]
/-- Bytes outside the written range keep their values. -/
theorem byte_setBytes_out (s : State) (a c : Nat) (l : List Byte) (h : c < a ∨ a + l.length ≤ c) : (s.setBytes a l).byte c = s.byte c :=
  memPut_get l s.mem a c h

end Sys2Proof.Machine
end

