-- ==== Sys2Proof/Laws/Bus.lean ====
section
/-! SUPPORT. What a command of a bus master that reaches its target does: the operation, then the answer; and that every memory
operation of a master keeps the canonical form and every read the bytes. -/
namespace Sys2Proof.Machine
open Sys2Proof

/-! ### Commands -/

/-- A write command that reaches the registers, and has the right where it needs it, is its effect and the answer OK. -/
theorem cmd_ok {m : Master} {rws : Bool} {k : State → State} {s : State} (h : pathErr m .regs s = none) (hr : rws = false ∨ rwsOk m s = true) :
    cmd m rws k s = respond m .ok [] (k s) := by
  unfold cmd cmdC; rw [h]; rcases hr with hr | hr <;> simp [hr]
/-- The same for a write command that gives a status of its own. -/
theorem cmdC_ok {m : Master} {rws : Bool} {k : State → State × Code} {s : State} (h : pathErr m .regs s = none)
    (hr : rws = false ∨ rwsOk m s = true) : cmdC m rws k s = respond m (k s).2 [] (k s).1 := by
  unfold cmdC; rw [h]; rcases hr with hr | hr <;> simp [hr]
/-- A read command that reaches the registers is its effect and the answer OK with the word. -/
theorem rdCmd_ok {m : Master} {k : State → State × Word} {s : State} (h : pathErr m .regs s = none) :
    rdCmd m k s = respond m .ok [(k s).2] (k s).1 := by
  unfold rdCmd; rw [h]
/-- A write of an RWS field without the right changes nothing but the answer. -/
theorem cmd_denied {m : Master} {k : State → State} {s : State} (h : pathErr m .regs s = none) (hr : rwsOk m s = false) :
    cmd m true k s = respond m .rwsDenied [] s := by
  unfold cmd cmdC; rw [h]; simp [hr]

/-! ### Faults -/

/-- A detection leaves its bit of FAULT_STATUS set. -/
theorem raise_fault (b : Blk) (i : Nat) (s : State) (hi : i < 32) : (raise b i s).faultBit b i = true := by
  unfold State.faultBit State.rbit raise
  simp only []
  rw [reg_congr (logPush_regs _ _ _ _ _ _), reg_congr (State.updSys_regs _ _), reg_setReg_ne _ _ (by omega), reg_orReg, if_pos rfl]
  simp [bit, bm, wd, Nat.testBit_or]
  rw [Nat.mod_eq_of_lt (Nat.pow_lt_pow_right (by decide) hi)]; simp
/-! ### Free values -/

/-- Free bytes advance the count of the values drawn, and nothing else. -/
theorem drawBytes_frame : ∀ n (s : State), (drawBytes n s).2 = { s with freeCount := s.freeCount + n } := by
  intro n; induction n with
  | zero => intro s; rfl
  | succ n ih => intro s; simp only [drawBytes]; rw [ih]; simp [State.draw]; omega

/-! ### Memory operations keep the canonical form -/

theorem touchPages_mem (a len : Nat) (s : State) : (touchPages a len s).mem = s.mem := by
  unfold touchPages; split <;> rfl
theorem memUeRaise_mem (w : Nat) (s : State) : (memUeRaise w s).mem = s.mem := by
  unfold memUeRaise; split <;> rw [raise_mem] <;> rfl
/-- A read of a memory leaves its bytes. -/
theorem memRead_mem (a len : Nat) (s : State) : (memRead a len s).1.mem = s.mem := by
  unfold memRead; dsimp only; split
  · exact touchPages_mem a len s
  · rw [memUeRaise_mem, touchPages_mem]
theorem memWriteWord_wf {s : State} (a : Nat) (l : List Byte) (w : Nat) (h : Memory.wf s.mem = true) :
    Memory.wf (memWriteWord a l w s).mem = true := by
  unfold memWriteWord; dsimp only; split
  · rw [memUeRaise_mem]; exact h
  · apply setBytes_wf; split <;> exact h
/-- A write of a memory keeps the canonical form. -/
theorem memWrite_wf {s : State} (a : Nat) (l : List Byte) (h : Memory.wf s.mem = true) : Memory.wf (memWrite a l s).1.mem = true := by
  have fold : ∀ (ws : List Nat) (t : State), Memory.wf t.mem = true → Memory.wf (ws.foldl (fun s w => memWriteWord a l w s) t).mem = true := by
    intro ws; induction ws with
    | nil => exact fun _ ht => ht
    | cons w ws ih => exact fun t ht => ih _ (memWriteWord_wf a l w ht)
  unfold memWrite; exact fold _ _ (by rw [touchPages_mem]; exact h)
theorem carafeRead_mem (a len : Nat) (s : State) : (carafeRead a len s).1.mem = s.mem := by
  unfold carafeRead; split; · rfl
  split; · rfl
  exact memRead_mem a len s
theorem dramRead_mem (a len : Nat) (s : State) : (dramRead a len s).1.mem = s.mem := by
  unfold dramRead; split; · rfl
  exact memRead_mem a len s
theorem carafeWrite_wf {s : State} (a : Nat) (l : List Byte) (h : Memory.wf s.mem = true) : Memory.wf (carafeWrite a l s).1.mem = true := by
  unfold carafeWrite; split; · exact h
  split; · exact h
  exact memWrite_wf a l h
theorem dramWrite_wf {s : State} (a : Nat) (l : List Byte) (h : Memory.wf s.mem = true) : Memory.wf (dramWrite a l s).1.mem = true := by
  unfold dramWrite; split; · exact h
  exact memWrite_wf a l h
/-- A write of the low region keeps the canonical form. -/
theorem lowWrite_wf {s : State} (m : Master) (a : Nat) (v : Word) (h : Memory.wf s.mem = true) : Memory.wf (lowWrite m a v s).1.mem = true := by
  unfold lowWrite; split
  · exact h
  · split
    · exact h
    · exact setBytes_wf _ _ h
  · exact h
/-- The initialisation of DRAM keeps the canonical form. -/
theorem memcInit_wf {s : State} (h : Memory.wf s.mem = true) : Memory.wf (memcInit s).mem = true := filter_wf _ h

end Sys2Proof.Machine
end

