-- ==== Sys2Proof/Laws/Dma.lean ====
section
/-! SUPPORT. What the DMA engine's shared operations do: a selection, a start, a channel that leaves the run queue. -/
namespace Sys2Proof.Machine
open Sys2Proof

/-- A change of DMA outside its channels leaves every channel. -/
theorem dmaCh_updDma (s : State) (f : Dma → Dma) (k : Nat) (h : (f s.dma).chs = s.dma.chs) : (updDma f s).dmaCh k = s.dmaCh k := by
  unfold State.dmaCh updDma; rw [h]
/-- What a selection of the engine may change: DMA alone, never the run queue, and of a channel its state, wait and address. -/
def DmaSel (s t : State) : Prop :=
  t = { s with dma := t.dma } ∧ t.dma.queue = s.dma.queue ∧
  ∀ n, ∃ st wf w cur, t.dmaCh n = { s.dmaCh n with st := st, waitFrom := wf, waited := w, cur := cur } ∧
    (cur = (s.dmaCh n).cur ∨ cur = dmaFirst s n) ∧ (dmaFree (s.dmaCh n) = true → st = (s.dmaCh n).st) ∧ (dmaFree (s.dmaCh n) = false → dmaFree {s.dmaCh n with st := st} = false)
theorem DmaSel.refl (s : State) : DmaSel s s := ⟨rfl, rfl, fun n => ⟨_, _, _, _, rfl, .inl rfl, fun _ => rfl, fun h => h⟩⟩
theorem DmaSel.first {s t : State} (h : DmaSel s t) (n) : dmaFirst t n = dmaFirst s n := by
  unfold dmaFirst; rw [reg_congr, fld_congr] <;> (rw [h.1])
theorem DmaSel.trans {s t u : State} (h : DmaSel s t) (k : DmaSel t u) : DmaSel s u := by
  refine ⟨?_, k.2.1.trans h.2.1, fun n => ?_⟩
  · rw [k.1, h.1]
  · obtain ⟨a, b, c, d, e, f, g, i⟩ := h.2.2 n
    obtain ⟨a', b', c', d', e', f', g', i'⟩ := k.2.2 n
    refine ⟨a', b', c', d', by rw [e', e], ?_, ?_, ?_⟩
    · rw [h.first, e] at f'; rcases f' with f' | f'
      · rw [f']; exact f
      · exact .inr f'
    · intro hf; have h1 : dmaFree (t.dmaCh n) = true := by rw [e]; unfold dmaFree at *; rw [g hf]; exact hf
      rw [g' h1, e]; exact g hf
    · intro hf; have h1 := i hf; rw [e] at i'; have := i' h1; exact this
theorem DmaSel.upd (s : State) (n : Nat) (f : DmaCh → DmaCh)
   (hf : ∃ st wf w cur, f (s.dmaCh n) = { s.dmaCh n with st := st, waitFrom := wf, waited := w, cur := cur } ∧
    (cur = (s.dmaCh n).cur ∨ cur = dmaFirst s n) ∧ (dmaFree (s.dmaCh n) = true → st = (s.dmaCh n).st) ∧ (dmaFree (s.dmaCh n) = false → dmaFree {s.dmaCh n with st := st} = false)) : DmaSel s (updCh n f s) := by
  refine ⟨rfl, rfl, fun k => ?_⟩
  rw [dmaCh_updCh]; split
  · subst k; exact hf
  · exact ⟨_, _, _, _, rfl, .inl rfl, fun _ => rfl, fun h => h⟩
theorem DmaSel.dma (s : State) (f : Dma → Dma) (h1 : (f s.dma).chs = s.dma.chs) (h2 : (f s.dma).queue = s.dma.queue) : DmaSel s (updDma f s) := by
  refine ⟨rfl, h2, fun k => ?_⟩
  have : (updDma f s).dmaCh k = s.dmaCh k := by unfold State.dmaCh updDma; simp only [h1]
  rw [this]; exact ⟨_, _, _, _, rfl, .inl rfl, fun _ => rfl, fun h => h⟩
/-- A burst boundary is a selection and nothing else. -/
theorem select_sel (s : State) : DmaSel s (dmaSelect s) := by
  unfold dmaSelect
  simp only []
  have fold : ∀ (l : List Nat) (s : State), DmaSel s (l.foldl (fun s n =>
    if dmaHeld s n then updCh n (fun x => if x.st = .active then { x with st := .waitReq } else x) s
    else if (s.dmaCh n).st = .waitReq then updCh n (fun x => { x with st := .active, waitFrom := s.sys.tick, waited := false }) s
    else s) s) := by
    intro l; induction l with
    | nil => intro s; exact DmaSel.refl s
    | cons n l ih =>
      intro s; refine DmaSel.trans ?_ (ih _)
      beta_reduce
      split
      · apply DmaSel.upd
        by_cases hx : (s.dmaCh n).st = .active
        · rw [if_pos hx]; exact ⟨_, _, _, _, rfl, .inl rfl, fun h => by simp [dmaFree, hx] at h, fun _ => rfl⟩
        · rw [if_neg hx]; exact ⟨_, _, _, _, rfl, .inl rfl, fun _ => rfl, fun h => h⟩
      · split
        · rename_i hx; apply DmaSel.upd; exact ⟨_, _, _, _, rfl, .inl rfl, fun h => by simp [dmaFree, hx] at h, fun _ => rfl⟩
        · exact DmaSel.refl s
  have fin : ∀ (p : Option Nat) (s : State), DmaSel s (match p with
    | some n => updCh n (fun x => if x.st = .queued then { x with st := .active, cur := dmaFirst s n } else x) s
    | none => s) := by
    intro p s; cases p with
    | none => exact DmaSel.refl s
    | some n =>
      apply DmaSel.upd
      by_cases hx : (s.dmaCh n).st = .queued
      · simp only [if_pos hx]; exact ⟨_, _, _, _, rfl, .inr rfl, fun h => by simp [dmaFree, hx] at h, fun _ => rfl⟩
      · simp only [if_neg hx]; exact ⟨_, _, _, _, rfl, .inl rfl, fun _ => rfl, fun h => h⟩
  refine DmaSel.trans ?_ (DmaSel.trans (fold _ _) (DmaSel.trans (DmaSel.dma _ _ rfl rfl) (fin _ _)))
  split <;> split
  · exact DmaSel.trans (DmaSel.dma _ _ rfl rfl) (DmaSel.dma _ _ rfl rfl)
  · exact DmaSel.dma _ _ rfl rfl
  · exact DmaSel.trans (DmaSel.dma _ _ rfl rfl) (DmaSel.dma _ _ rfl rfl)
  · exact DmaSel.dma _ _ rfl rfl
/-- What a start does to an IDLE or HALTED channel. -/
theorem start_free (n : Nat) (s : State) (hf : dmaFree (s.dmaCh n) = true) :
    let t := dmaStart n s
    t = { s with dma := t.dma } ∧ t.dma.queue = s.dma.queue ++ [n] ∧ dmaFree (t.dmaCh n) = false ∧ (t.dmaCh n).cause = 0 ∧
        (t.dmaCh n).pcode = 0 ∧ (t.dmaCh n).hops = 0 ∧ (t.dmaCh n).bytes = 0 ∧ (t.dmaCh n).desc = none ∧
        (t.dmaCh n).cur = dmaFirst s n := by
  simp only [dmaStart, hf, if_true]
  generalize hw : updDma (fun d => { d with queue := d.queue ++ [n] }) (updCh n _ s) = w
  have hs : DmaSel w (if w.dma.served.isNone = true then dmaSelect w else w) := by
    split
    · exact select_sel w
    · exact DmaSel.refl w
  have hc : w.dmaCh n = { s.dmaCh n with st := .queued, cause := 0, pcode := 0, lateErr := false, hops := 0, bytes := 0, desc := none, done := 0, waitFrom := s.sys.tick, waited := false, lateHalt := false, open_ := false, cur := dmaFirst s n } := by
    rw [← hw, dmaCh_updDma _ _ _ rfl, dmaCh_updCh_same]
  have hq : w.dma.queue = s.dma.queue ++ [n] := by rw [← hw]; rfl
  have h1 : w = { s with dma := w.dma } := by rw [← hw]; rfl
  have h2 : dmaFirst w n = dmaFirst s n := by rw [h1]; rfl
  obtain ⟨st, wf, wt, cur, e, f, _, i⟩ := hs.2.2 n
  refine ⟨?_, ?_, ?_, ?_⟩
  · rw [hs.1, h1]
  · rw [hs.2.1, hq]
  · rw [e]; have := i (by rw [hc]; rfl); exact this
  · rw [e, hc]; refine ⟨rfl, rfl, rfl, rfl, rfl, ?_⟩
    rcases f with f | f
    · show cur = _; rw [f, hc]
    · show cur = _; rw [f, h2]
/-- What a channel that leaves the run queue is left with. -/
theorem leave_props (n : Nat) (st : DmaSt) (hst : st = .idle ∨ st = .halted) (s : State) :
    let t := dmaLeave n st s
    t = { s with dma := t.dma } ∧ n ∉ t.dma.queue ∧ (t.dmaCh n).st = st ∧ (t.dmaCh n).cause = (s.dmaCh n).cause := by
  simp only [dmaLeave]
  generalize hw : updDma (fun d => { d with queue := d.queue.filter (· != n), served := if d.served = some n then none else d.served }) _ = w
  have hc : w.dmaCh n = { s.dmaCh n with st := st, desc := none, done := 0, waited := false, lateHalt := false } := by rw [← hw, dmaCh_updDma _ _ _ rfl, dmaCh_updCh_same]
  have hs := select_sel w
  obtain ⟨a, b, c, d, e, f, g, _⟩ := hs.2.2 n
  refine ⟨?_, ?_, ?_, ?_⟩
  · rw [hs.1, ← hw]; rfl
  · rw [hs.2.1, ← hw]; simp [updDma]
  · rw [e]; have := g (by rw [hc]; rcases hst with h | h <;> rw [h] <;> rfl); show a = st; rw [this, hc]
  · rw [e, hc]
/-- What a channel that becomes IDLE is left with. -/
theorem idle_props (n : Nat) (hn : n < 32) (s : State) :
    let t := dmaIdle n s
    t = { s with regs := t.regs, dma := t.dma } ∧ n ∉ t.dma.queue ∧ (t.dmaCh n).st = .idle ∧ (t.dmaCh n).cause = (s.dmaCh n).cause ∧
      t.rbit (Blk.dma.base + 0x40) n = true ∧ (∀ a, a ≠ Blk.dma.base + 0x40 → t.reg a = s.reg a) := by
  obtain ⟨a, b, c, d⟩ := leave_props n .idle (.inl rfl) s
  refine ⟨?_, b, c, d, ?_, fun x hx => ?_⟩
  · show evt _ _ _ = _; unfold dmaIdle evt State.orReg State.setReg; simp only []; rw [a]
  · unfold dmaIdle State.rbit; rw [evt_reg, if_pos rfl]; simp [bit, bm, wd, Nat.testBit_or]; rw [Nat.mod_eq_of_lt (Nat.pow_lt_pow_right (by decide) hn)]; simp
  · unfold dmaIdle; rw [evt_reg, if_neg hx]; unfold State.reg; rw [a]

end Sys2Proof.Machine
end

