-- ==== Sys2Proof/Laws/Order.lean ====
section
/-! SUPPORT. What the sender's queue keeps: an event that takes its place leaves the events of its tick in the order of R23, and no command of the
queue is lost or changed. -/
namespace Sys2Proof.Machine
open Sys2Proof

theorem keyLe_total : ∀ a b : List Nat, keyLe a b = true ∨ keyLe b a = true
  | [], _ => .inl rfl
  | _ :: _, [] => .inr rfl
  | a :: s, b :: t => by
    rcases Nat.lt_trichotomy a b with h | h | h
    · exact .inl (by simp [keyLe, h])
    · subst h
      exact (keyLe_total s t).imp (by simp [keyLe]) (by simp [keyLe])
    · exact .inr (by simp [keyLe, h])

theorem inOrderFrom_cons (l : List Nat) (i : Instr) (t : List Instr) (h : i ≠ .eventTick) :
    inOrderFrom l (i :: t) = match eventKey i with
      | none => inOrderFrom l t
      | some k => keyLe l k && inOrderFrom k t := by
  rw [inOrderFrom]
  all_goals first | rfl | exact h

/-- A strobe ends the order of its tick: what stands before it and what stands after it are judged apart. -/
theorem inOrderFrom_split (l : List Nat) (q t : List Instr) (hq : ∀ i ∈ q, i ≠ .eventTick) :
    inOrderFrom l (q ++ .eventTick :: t) = (inOrderFrom l q && inOrderFrom [] t) := by
  induction q generalizing l with
  | nil => simp [inOrderFrom]
  | cons i q ih =>
    have hi := hq i (by simp)
    have ht := fun j => ih j fun x hx => hq x (by simp [hx])
    rw [List.cons_append, inOrderFrom_cons l i _ hi, inOrderFrom_cons l i q hi]
    cases eventKey i <;> simp [ht, Bool.and_assoc]

/-- An event that takes its place among those of its tick leaves them in order. -/
theorem place_inOrderFrom (l k : List Nat) (c : Instr) (q : List Instr) (hc : eventKey c = some k) (hl : keyLe l k = true)
    (ht : c ≠ .eventTick) (hq : ∀ i ∈ q, i ≠ .eventTick) (h : inOrderFrom l q = true) : inOrderFrom l (place k c q) = true := by
  induction q generalizing l with
  | nil => simp [place, inOrderFrom_cons l c [] ht, hc, hl, inOrderFrom]
  | cons i q ih =>
    have hi := hq i (by simp)
    have hn := fun j (hj : keyLe j k = true) (hs : inOrderFrom j q = true) => ih j hj (fun x hx => hq x (by simp [hx])) hs
    have hs := h
    rw [inOrderFrom_cons l i q hi] at hs
    unfold place
    cases hj : eventKey i with
    | none =>
      rw [hj] at hs
      simpa [inOrderFrom_cons l i _ hi, hj] using hn l hl hs
    | some j =>
      rw [hj, Bool.and_eq_true] at hs
      by_cases hk : keyLe j k = true
      · simpa [hk, inOrderFrom_cons l i _ hi, hj, hs.1] using hn j hk hs.2
      · have hkj := (keyLe_total j k).resolve_left hk
        simp [hk, inOrderFrom_cons l c _ ht, hc, hl, inOrderFrom_cons k i _ hi, hj, hkj, hs.2]

/-- The queue holds what it held and the one command more. -/
theorem place_perm (k : List Nat) (c : Instr) (q : List Instr) : (place k c q).Perm (c :: q) := by
  induction q with
  | nil => exact .refl _
  | cons i q ih =>
    have step := (ih.cons i).trans (.swap c i q)
    unfold place
    cases eventKey i with
    | none => exact step
    | some j => by_cases hk : keyLe j k = true <;> simp [hk, step]

end Sys2Proof.Machine
end

