-- ==== Sys2Proof/Laws/Sem.lean ====
section
/-! SUPPORT. What a change of a semaphore's owner does. -/
namespace Sys2Proof.Machine
open Sys2Proof

theorem semOwner_frame (i : Nat) (o : Option HostId) (s : State) : semOwner i o s = { s with regs := (semOwner i o s).regs, sems := (semOwner i o s).sems } := by
  unfold semOwner evt State.orReg State.setReg State.setSem; simp only []; split <;> rfl
theorem semOwner_reg (i : Nat) (o : Option HostId) (s : State) (a : Nat) (h : a ≠ Blk.hp.base + 0x40) : (semOwner i o s).reg a = s.reg a := by
  unfold semOwner; simp only []; split
  · rw [evt_reg, if_neg h]; rfl
  · rfl
theorem semOwner_sem (i : Nat) (o : Option HostId) (s : State) (j : Nat) : (semOwner i o s).sem j = if j = i then ⟨o, if o.isSome then s.sys.tick else 0⟩ else s.sem j := by
  unfold semOwner; simp only []; split
  · unfold State.sem; rw [evt_sems]; exact sem_setSem s i j _
  · exact sem_setSem s i j _

end Sys2Proof.Machine
end

