-- ==== Sys2Proof/Machine/Pins.lean ====
section
/-! DEFINITION. The output pins as the state gives their levels: in reset, until an image has been accepted, and in the snuffed state
(R53, R342, R410, R411, R430, R485, R496). The levels of the audio ports and of the clock outputs in running are in Apt.lean and Rsu.lean, the
gates in Pwr.lean. -/
namespace Sys2Proof.Machine
open Sys2Proof

/-- What an output pin does. -/
inductive Level where
  | low | high | hiZ
deriving DecidableEq, Repr
/-- The level that a bit asks for. -/
def Level.ofBool (b : Bool) : Level := if b then .high else .low
/-- RESET_N is low, or a supply that is watched is out of its range (R495). -/
def pinsReset (s : State) : Bool := !s.sys.resetN || !s.sys.suppliesGood
/-- The pins are held: in reset, and afterwards until an image has been accepted (R53). -/
def pinsHeld (s : State) : Bool := pinsReset s || !s.img.accepted
/-- A pin that is held at a level in reset is high-impedance while a supply is out of its range (R496). -/
def heldAt (s : State) (l : Level) : Level := if s.sys.suppliesGood then l else .hiZ
/-- SNUFF_N: low in reset and until the FUSE phase ends, in the snuffed state, and from the clock monitor's action on (R53, R410, R411, R496). -/
def snuffN (s : State) : Level :=
  if pinsReset s || !s.img.fuseRead || s.sys.snuffed || s.sys.monitorDue then .low else .high
/-- DRIVE_EN (R53, R342, R495). -/
def driveEnPin (s : State) : Level := Level.ofBool (!pinsHeld s && drivePad s)
/-- PWM_HA, PWM_LA, PWM_HB and PWM_LB of a channel (R53, R333, R495). -/
def pwmPins (s : State) (n : Nat) : List Level := (if pinsHeld s then [false, false, false, false] else gatesNow s n).map Level.ofBool
/-- WCK_OUTn and PPS_OUT (R53, R300, R496). -/
def wckPin (s : State) (n : Nat) : Level := if pinsHeld s then heldAt s .low else Level.ofBool (wckLevel s n)
def ppsPin (s : State) : Level := if pinsHeld s then heldAt s .low else Level.ofBool s.rsu.pps.high
/-- WICK may be pulled: by a chip that holds the wick or lights, and never while the pins are held (R53, R370, R375). -/
def wickDrives (s : State) : Bool := !pinsHeld s && (holder s || s.pair.wick == .lighting)
/-- FL_CS_N: high while the pins are held and while FLC does nothing (R53, R485). -/
def flCsN (s : State) : Level := if pinsHeld s then heldAt s .high else Level.ofBool (s.flc.st == .idle)
/-- FL_CLK and FL_IO are high-impedance while the pins are held (R53); SEQ's own reads of a flash boot drive them (R485). -/
def flPinsHiZ (s : State) : Bool := pinsHeld s
/-- APT_TD, APT_TBCLK and APT_TFS of a port are high-impedance (R53, R323, Table 16.3). -/
def aptPinsHiZ (s : State) (n : Nat) : Bool := pinsReset s || aptHiZ s n
/-- INT_A_N and INT_B_N are open-drain: low while asserted, else high-impedance, and so in reset (R430). -/
def intN (s : State) (h : HostId) : Level := if !pinsReset s && (s.pin h).asserted then .low else .hiZ

end Sys2Proof.Machine
end

