-- ==== Sys2Proof/WellFormed.lean ====
section
/-! DEFINITION. What the outside can send: the ranges of operands that their types do not fix. The meanings are total and do not
lean on it. -/
namespace Sys2Proof

/-- An address of the bus: 36 bits (R3, R29). -/
def addrOk (a : Nat) : Bool := decide (a < 2 ^ 36)
/-- An access to a memory: at most 256 bytes, at least one (R439). -/
def accessOk : MemAccess → Bool
  | .read a n => addrOk a && decide (1 ≤ n ∧ n ≤ 256)
  | .write a l => addrOk a && decide (1 ≤ l.length ∧ l.length ≤ 256)
/-- A 64-bit memory word (R472). -/
def wordOk (a : Nat) : Bool := addrOk a && a % 8 == 0
/-- The length of an Ethernet frame on the line, without its FCS (R218). -/
def frameOk (l : List Byte) : Bool := decide (1 ≤ l.length ∧ l.length ≤ 65536)
/-- A sense input: ISNS 0 to 31, VSNS 32 to 63, RAIL 64 to 67 (R348). -/
def senseOk (i : Nat) : Bool := decide (i < 68)
/-- A sample of a slot: 32 bits at most. -/
def slotOk (v : Nat) : Bool := decide (v < 2 ^ 32)
/-- A unit of a block that has several (Table 1.11). -/
def blockOk : Blk → Bool
  | .mac n => decide (n < 4)
  | .apt n => decide (n < 16)
  | .cell p => decide (p < 72)
  | _ => true
/-- A register offset within a window: word-aligned (R3). -/
def offOk (n : Nat) : Bool := n % 4 == 0
/-- The access of a host frame whose CS_N rose early. -/
def phaseOk : CsPhase → Bool
  | .sending => true
  | .afterWrite a ws => addrOk a && decide (ws.length ≤ 256)
  | .afterRead a n => addrOk a && decide (n ≤ 256)
/-- What a frame brings in names inputs the part has. -/
def frameInOk (f : FrameIn) : Bool := f.slots.all (fun e => decide (e.1 < 16) && e.2.all slotOk) && f.sense.all (fun e => senseOk e.1)

/-- A command whose operands lie in the ranges the spec gives them. -/
def Instr.wf : Instr → Bool
  | .frameBoundary f => frameInOk f
  | .memInitEnd _ g => decide (g < 17)
  | .macFrameReceive _ f _ => frameOk f.bytes
  | .txFrameEnqueue _ _ l => frameOk l
  | .frameSyncEdge _ _ _ _ l => l.all slotOk
  | .senseLost i | .senseInputRestored i => senseOk i
  | .sweepPassEnd cells macs => cells.all (fun p => decide (p < 72)) && macs.all (fun n => decide (n < 4))
  | .faultDetection b _ _ | .faultClear _ b _ => blockOk b
  | .write _ a ws => addrOk a && decide (ws.length ≤ 256)
  | .read _ a n => addrOk a && decide (n ≤ 256)
  | .csNEarlyRise _ p => phaseOk p
  | .busTimeout _ a | .lateWriteError _ a _ | .dramTimeout _ a | .registerWrite _ a _ => addrOk a
  | .dramAccess _ acc ce ue | .carafeAccess _ acc ce ue => accessOk acc && ce.all wordOk && ue.all wordOk
  | .dramScrub ce ue | .carafeScrub ce ue => ce.all wordOk && ue.all wordOk
  | .macConfigWrite _ _ off _ | .pwrConfigWrite _ off _ | .memcConfigWrite _ off _ | .pairCfgWrite _ off _ => offOk off.val
  | .dmaConfigWrite _ _ off _ | .chkConfigWrite _ _ off _ => offOk off.val
  | .matrixTableWrite _ _ off _ => offOk off.val
  | _ => true

end Sys2Proof
end

