-- ==== Sys2Proof/Tests/Slice0.lean ====
section
/-! SUPPORT. Tests: ill-formed commands, the spec's worked examples, and a witness for every statement that has hypotheses. -/
set_option Elab.async false
namespace Sys2Proof.Tests
open Sys2Proof Sys2Proof.Machine

/-! ### States of the tests -/

/-- The part after reset. -/
abbrev z : State := State.reset
/-- The state a command leads to. -/
def after (c : Instr) (s : State) : State := match exec c s with | .next t => t | _ => s
def onSys (f : Sys → Sys) (s : State := z) : State := { s with sys := f s.sys }
def onImg (f : Img → Img) (s : State := z) : State := { s with img := f s.img }
def onDma (f : Dma → Dma) (s : State := z) : State := { s with dma := f s.dma }
def onMxe (f : Mxe → Mxe) (s : State := z) : State := { s with mxe := f s.mxe }
def onFlc (f : Flc → Flc) (s : State := z) : State := { s with flc := f s.flc }
/-- s with the register at bus address a holding v. -/
def withReg (a : Nat) (v : Word) (s : State := z) : State := s.setReg a v
/-- s at tick n. -/
def atTick (n : Nat) (s : State := z) : State := onSys (fun y => { y with tick := n }) s
/-- Host ports serve, and host A holds G. -/
def served : State := { onImg (fun g => { g with fuseRead := true }) with sems := [(0, ⟨some .a, 0⟩)] }
/-- Aligned, with an accepted image, RUN 0. -/
def loaded : State := onSys (fun y => { y with aligned := true, standby := false })
  (onImg (fun g => { g with accepted := true, state := .ready, memReady := true, boot := .done, fuseRead := true }))
/-- RUN 1 and PHASE RUNNING, RSU out of its start-up. -/
def running : State := { onSys (fun y => { y with run := true, phase := .running, frameAt := none }) loaded with rsu := { startup := false } }
/-- A load or verify of the image at 0 in a stage. -/
def loading (st : LoadState) (p v : Bool := false) (s : State := z) : State :=
  onImg (fun g => { g with state := st, job := some { partialImg := p, verify := v, allowUnb := false, src := 0 } }) s

/-! ### Witnesses: concrete states and operands that meet the hypotheses of the statements, clause by clause. The bus master SEQ
passes every check of a register (R435); a host does where it serves and holds G. -/

theorem wit_RunSetRequest :
    MayWrite .hpa served ∧
    MayWrite .seq z ∧
    running.sys.run = true ∧
    z.sys.run = false ∧
    runSetRefusal (onSys (fun y => { y with snuffed := true })) = some 4 ∧
    runSetRefusal (loading .reading) = some 6 ∧
    runSetRefusal z = some 2 ∧
    runSetRefusal (onSys (fun y => { y with aligned := false }) loaded) = some 3 ∧
    runSetRefusal (withReg 0x4000011C 0 (onSys (fun y => { y with standby := true }) loaded)) = some 7 ∧
    runSetRefusal (onImg (fun g => { g with cold := true, storeCorrupt := true }) loaded) = some 8 ∧
    (runSetRefusal loaded = none ∧ loaded.img.cold = false ∧ loaded.pair.cold = .none) ∧
    runSetRefusal (onImg (fun g => { g with cold := true }) loaded) = none ∧
    (let s := onImg (fun g => { g with stale := true }) loaded; runSetRefusal s = none ∧ s.img.stale = true) := by and_intros <;> decide +kernel

theorem wit_RunClearAndAlarmRequests :
    (MayWrite .seq z ∧ z.sys.snuffed = false ∧ z.sys.run = false ∧ z.sys.alarm = false) ∧
    (let s := onSys (fun y => { y with alarm := true }) running; MayWrite .seq s ∧ s.sys.snuffed = false ∧ s.sys.run = true ∧ s.sys.alarm = true) ∧
    (MayWrite .seq running ∧ running.sys.snuffed = false ∧ running.sys.run = true ∧ running.sys.alarm = false ∧ running.sys.phase ≠ .stopped ∧ running.sys.phase ≠ .config) ∧
    (let s := onSys (fun y => { y with snuffed := true }); MayWrite .seq s ∧ s.sys.alarm ≠ true ∧ s.sys.snuffed = true) := by and_intros <;> decide +kernel

/-- At the end of a ramp: RAMP_IN, or RAMP_OUT. -/
def rampEnds (p : Phase) (run : Bool) : State := onSys (fun y => { y with phase := p, run := run, tick := 4160, rampEnd := some 4160 }) loaded
/-- The interlock of DRIVE_EN holds at a frame boundary, channel 31 enabled. -/
def drivable : State := withReg Blk.pwr.base 1 { running with pwr := { chs := [(31, { en := true })] } }

theorem wit_OutputRampAndDriveEnable :
    (let s := rampEnds .rampIn true; s.sys.rampEnd = some s.sys.tick ∧ s.sys.phase = .rampIn) ∧
    (let s := rampEnds .rampOut false; s.sys.rampEnd = some s.sys.tick ∧ s.sys.phase = .rampOut ∧ s.sys.run = false) ∧
    (let s := rampEnds .rampOut true; s.sys.rampEnd = some s.sys.tick ∧ s.sys.phase = .rampOut ∧ s.sys.run = true) ∧
    (z.sys.rampEnd ≠ some z.sys.tick ∧ z.sys.phase ≠ .rampIn ∧ z.sys.phase ≠ .rampOut) ∧
    (let s := drivable; s.atFrame = true ∧ s.sys.run = true ∧ s.sys.phase ≠ .config ∧ s.sys.standby = false ∧ s.sys.snuffed = false ∧
     (∃ e ∈ s.pwr.chs, e.2.en = true ∨ e.2.st = .stopping) ∧ s.rbit Blk.pwr.base 0 = true ∧ s.faultBit .pwr 7 = false ∧
     s.img.accepted = true ∧ s.pair.cold ≠ .restoring) ∧
    drivable.sys.monitorDue = false ∧ (after (.clkLost .refclk) drivable).sys.monitorDue = true ∧
    (atTick 63).atFrame = false ∧
    (MayWrite .seq z ∧ bit (0 : Word) 0 = false) := by and_intros <;> decide +kernel

theorem wit_EntryToTheSnuffedState :
    (served.sys.snuffed = false ∧ MayWrite HostId.a.master served ∧ bit served.sys.snuffCause 31 = false) ∧
    (running.sys.snuffed = false ∧ ticksRun (after (.clkLost .powerPll) running) = true ∧ running.sys.resetN = true ∧ running.sys.suppliesGood = true) ∧
    (ClkSrc.powerPll ≠ .refclk ∧ ClkSrc.powerPll ≠ .sysPll ∧ ClkSrc.powerPll ≠ .timePll) := by and_intros <;> decide +kernel

/-- Semaphore 63 held by host B from tick 0 with a limit of 1 ms: at 96 kHz 6,144 ticks. -/
def limited : State := withReg (semLimitReg 63) 1 { z with sems := [(63, ⟨some .b, 0⟩)] }

theorem wit_SemaphoreReadAndHoldLimit :
    (Reaches HostId.b.master served ∧ gPermitted served .b = false) ∧
    (Reaches HostId.a.master loaded ∧ gPermitted loaded .a = true ∧ (loaded.sem 0).owner = none) ∧
    (served.sem 63).owner = none ∧ (served.sem 0).owner = some .a ∧
    (Master.host? .seq = none ∧ Reaches .seq z) ∧
    (let s := atTick 6144 limited; (s.sem 63).owner.isSome = true ∧ s.fld (semLimitReg 63) 0 16 ≠ 0 ∧
     (s.sem 63).since + s.fld (semLimitReg 63) 0 16 * 64 * s.fs / 1000 ≤ s.sys.tick) ∧
    (let s := atTick 6143 limited; s.sys.tick < (s.sem 63).since + s.fld (semLimitReg 63) 0 16 * 64 * s.fs / 1000) := by and_intros <;> decide +kernel

theorem wit_SemaphoreRelease :
    (Reaches HostId.a.master served ∧ (served.sem 0).owner = some .a) ∧
    (Reaches .seq served ∧ ∀ h : HostId, Master.seq = h.master → (served.sem 0).owner ≠ some h) :=
  ⟨by decide +kernel, by decide +kernel, fun h e => by cases h <;> cases e⟩

/-- DMA channel 15 in state x. -/
def chan (x : DmaSt) (s : State := z) : State := onDma (fun d => { d with chs := [(15, { st := x })], queue := [15] }) s

theorem wit_DmaStartStopAndForce :
    (Reaches .seq z ∧ dmaFree (z.dmaCh 15) = true) ∧
    dmaFree ((chan .active).dmaCh 15) = false ∧
    ((chan .queued).dmaCh 15).st = .queued ∧
    ((chan .waitReq).dmaCh 15).st = .waitReq ∧
    ((chan .active).dmaCh 15).st = .active ∧
    ((chan .stopping).dmaCh 15).st = .stopping ∧
    ((chan .queued).dmaCh 15).st ≠ .stopping := by and_intros <;> decide +kernel

/-- Check unit 3 in state x, on a range of one word of carafe; unit 3 owned by the lantern sweep. -/
def unit (x : ChkSt) (s : State := z) : State := { s with chk := [(3, { st := x, addr0 := carafeBase, len0 := 4 })] }
def swept : State := { z with pair := { chkUnit := some 3 } }

theorem wit_UnitConfigurationAndCheckControl :
    (Reaches .seq z ∧ (∀ k < 16, dmaFree (z.dmaCh k) = true)) ∧
    (∃ k < 16, dmaFree ((chan .active).dmaCh k) = false) ∧
    (z.chkU 3).st = .idle ∧ chkSwept z 3 = false ∧
    (chkSwept swept 3 = true ∧ Master.hpa ≠ .seq) ∧
    ((unit .scanning).chkU 3).st ≠ .idle ∧ chkSwept (unit .scanning) 3 = false ∧
    chkLen z 3 = 0 ∧
    (let s := withReg (chkReg 3 0x10) 4 (withReg (chkReg 3 8) 0xFFFFFFFC (withReg (chkReg 3 0xC) 0xF z)); ¬ (chkAlg s 3 = 3 ∨ chkAddr s 3 % 4 ≠ 0 ∨ chkLen s 3 % 4 ≠ 0 ∨ chkLen s 3 = 0 ∨ 2 ^ 36 < chkAddr s 3 + chkLen s 3) ∧ chkAddr s 3 + chkLen s 3 = 2 ^ 36) ∧
    ((unit .rescanning).chkU 3).st = .rescanning ∧
    ((unit .stopping).chkU 3).st = .stopping := by and_intros <;> decide +kernel

theorem wit_CheckUnitVerdict : (∀ x, scanOf 3 ((unit x).chkU 3).len0 (unit x) = scanOf 3 4 (unit x)) ∧
    (let r := scanOf 3 4 (unit .scanning); r.2.2.2 = none ∧ r.1.chkU 3 = (unit .scanning).chkU 3 ∧ chkCmp r.1 3 = false) ∧
    (let r := scanOf 3 4 (withReg (chkReg 3 0x20) 0xFFFFFFFF (unit .rescanning)); r.2.2.2 = none ∧ r.1.chkU 3 = (unit .rescanning).chkU 3 ∧ chkResult (chkAlg r.1 3) r.2.1 = chkExp r.1 3) ∧
    (let r := scanOf 3 4 (unit .rescanning); r.2.2.2 = none ∧ chkResult (chkAlg r.1 3) r.2.1 ≠ chkExp r.1 3) ∧
    (let r := scanOf 3 4 (unit .stopping); r.2.2.2 = none ∧ ((unit .stopping).chkU 3).len0 % 4 = 0 ∧ ((unit .stopping).chkU 3).pos ≤ ((unit .stopping).chkU 3).len0 ∧ ((unit .stopping).chkU 3).second = false) :=
  ⟨fun _ => rfl, by decide +kernel, by decide +kernel, by decide +kernel, by decide +kernel⟩

theorem wit_TicksFramesAndWindows :
    (ticksRun z = true ∧ running.rsu.startup = false ∧ running.sys.src = false ∧ running.ptu.counter < 160 * (running.sys.tick + 1)) ∧
    (onSys (fun y => { y with fs48 := true }) running).ptu.counter < 320 * 1 ∧
    ticksRun (onSys (fun y => { y with resetN := false })) = false ∧
    (atTick 63).sys.tick % 64 ≠ 0 ∧
    (z.sys.tick % 64 = 0 ∧ z.sys.frameAt ≠ some z.sys.tick) ∧
    (onSys (fun y => { y with frameAt := some 0 })).sys.frameAt = some 0 ∧
    (atTick (2 ^ 22 - 1)).sys.tick % 2 ^ 22 ≠ 0 ∧
    (let s := atTick (2 ^ 22) running; s.sys.tick % 2 ^ 22 = 0 ∧ s.sys.tick ≠ 0 ∧ ticksRun s = true ∧ s.sys.windowAt ≠ some s.sys.tick) := by and_intros <;> decide +kernel

theorem wit_ResetSuppliesAndClocks :
    (z.sys.resetN = true ∧ z.sys.suppliesGood = true) ∧
    (onSys (fun y => { y with resetN := false })).sys.resetN = false ∧
    (onSys (fun y => { y with suppliesGood := false })).sys.suppliesGood = false ∧
    ClkSrc.refclk ∉ z.sys.clockLost ∧
    (let s := onSys (fun y => { y with clockLost := [.refclk] }); ClkSrc.refclk ∈ s.sys.clockLost ∧ s.sys.resetN = true ∧ s.sys.suppliesGood = true) ∧
    Reaches .seq z := by and_intros <;> decide +kernel

/-- s in a boot phase. -/
def boots (p : BootPhase) (s : State := z) : State := onImg (fun g => { g with boot := p }) s

/-- A record as it lies in memory: type and version 1, LENGTH, INSTANCE, the CRC, the payload (Table 3.4). -/
def record (typ : Nat) (pay : List Byte) : List Byte :=
  let h := leBytes 2 typ ++ [1, 0] ++ leBytes 4 pay.length ++ leBytes 4 0
  h ++ leBytes 4 (crc32c (h ++ pay)) ++ pay
/-- A partial image of region 3, selector 31, with a HEADER and a SIGNATURE and nothing else; 2 GiB, 224 bytes. -/
def smallImage : List Byte :=
  record 1 (leBytes 4 0x494E4245 ++ leBytes 2 1 ++ [1, 0] ++ leBytes 8 7 ++ leBytes 8 0 ++ leBytes 4 224 ++ leBytes 4 2 ++ [0, 2, 0, 0] ++
    leBytes 4 3 ++ leBytes 8 31 ++ leBytes 16 0) ++ record 0xFF (List.replicate 128 0)
/-- smallImage lies at the start of the carafe, where a job of the given stage finds it. -/
def imaged (st : LoadState) (v : Bool := false) : State :=
  (onImg (fun g => { g with state := st, dramGib := 2, job := some { partialImg := true, verify := v, allowUnb := false, src := carafeBase } }) z).setBytes carafeBase smallImage
/-- A BOOT record with no pairs. -/
def bootImage : List Byte := record 2 []
/-- The BOOT record behind the HEADER of the first copy in the flash. -/
def flashed : State := onFlc (fun f => { f with flash := (bootImage.zipIdx 80).map fun e => (e.2, e.1) })
  (onImg (fun g => { g with bootSrc := 2, boot := .waitBoot }) z)

theorem wit_BootPhases :
    (z.img.boot = .pllWait ∧ z.sys.resetN = true ∧ z.sys.suppliesGood = true) ∧
    (boots .fuse).img.boot = .fuse ∧
    trimOk { trim := 1 } = false ∧
    (boots .sramInit).img.boot = .sramInit ∧ (boots .sramInit).img.initBusy = false ∧ (after (.initMem .seq) (boots .sramInit)).img.initBusy = true ∧
    (flashActive flashed = true ∧ flashed.img.boot = .waitBoot ∧ flashed.img.flashTry < 2) ∧
    (bootRecord (fun n => flashBytes flashed.flc 80 n)).isSome = true ∧
    (let s := onFlc (fun f => { f with flash := [] }) flashed; bootRecord (fun n => flashBytes s.flc 80 n) = none ∧ s.img.memReady = false) ∧
    (boots .memInit).img.boot = .memInit ∧ (0 : Fin 7).val = 0 ∧ 16 ∈ [2, 4, 8, 12, 16] ∧
    (boots .memInit).img.bootSrc < 2 ∧ 17 ∉ [2, 4, 8, 12, 16] := by and_intros <;> decide +kernel

theorem wit_LoadCommandsAbortAndQueries :
    (MayWrite .seq z ∧ z.sys.snuffed = false ∧ imgBusy z = false ∧ z.img.memReady = false) ∧
    (let s := onSys (fun y => { y with snuffed := true }); MayWrite .seq s ∧ s.sys.snuffed = true) ∧
    imgBusy (loading .reading) = true ∧
    (loaded.img.memReady = true ∧ loaded.sys.run = false ∧ loaded.sys.phase = .stopped ∧ loaded.sys.maint = false ∧ imgBusy loaded = false) ∧
    z.img.accepted = false ∧
    (loaded.sys.alarm = false ∧ storeBarred loaded = false ∧ loaded.img.accepted = true ∧ loaded.img.needFull = false ∧ regionMigrates loaded = false ∧ regionStarts loaded = false) ∧
    (onSys (fun y => { y with alarm := true }) loaded).sys.alarm = true ∧
    (z.img.memReady = true ∨ z.img.boot ≠ .waitBoot) ∧
    (boots .waitBoot).img.memReady = false ∧ (boots .waitBoot).img.boot = .waitBoot ∧
    (let s := withReg 0x40010004 0x10000000 ((boots .waitBoot).setBytes carafeBase bootImage); (bootRecord fun n => s.bytes (imgSrc s) n) = some bootImage) ∧
    (let s := boots .waitBoot; bootRecord (fun n => s.bytes (imgSrc s) n) = none) ∧
    (loading .reading).img.job.isSome = true ∧ (loading .reading).img.state ≠ .applying ∧
    (loading .applying).img.state = .applying ∧
    (z.img.job = none ∧ (onImg (fun g => { g with doneAt := some 0 })).img.doneAt = some 0) ∧
    z.img.doneAt ≠ some z.sys.tick ∧
    Reaches .seq z ∧
    (onImg (fun g => { g with job := g.job.map fun j => { j with aborting := true } }) (loading .reading)).img.job.any (fun j => j.aborting) = true := by and_intros <;> decide +kernel

/-- The clause on an authentic image holds for either value of the signature's verdict, an open constant: nothing in Lean gives one. -/
theorem wit_LoadStages : z.fabric.queue = [] ∧
    stageJob .reading z = none ∧
    (stageJob .reading (loading .reading)).isSome = true ∧ (readingCheck (loading .reading) (imgReads (loading .reading)) 0 false).isSome = true ∧
    readingCheck (imaged .reading) (imgReads (imaged .reading)) carafeBase true = none ∧
    (stageJob .auth (imaged .auth)).isSome = true ∧ ((imageRecords (imaged .auth) carafeBase).getLast?).isSome = true ∧
    (imaged .auth).img.fuses.secure = false ∧
    (let s := onImg (fun g => { g with fuses := { secure := true } }) (imaged .auth)
     s.img.fuses.secure = true ∧ stageJob .auth s = stageJob .auth (imaged .auth)) ∧
    (stageJob .checking (imaged .checking)).isSome = true ∧
    (let x := checkCtx (imaged .checking) carafeBase
     checkingFail x = none ∧ (loadBound x false).fail = none) ∧
    (checkingFail (checkCtx (onImg (fun g => { g with dramGib := 1 }) (imaged .checking)) carafeBase)).isSome = true ∧
    (let s := onImg (fun g => { g with boot := .waitImage, memReady := true }) flashed
     flashActive s = true ∧ s.img.boot = .waitImage ∧ s.img.memReady = true ∧ imgBusy s = false ∧ s.sys.snuffed = false) := by and_intros <;> decide +kernel

/-- smallImage signed with the key that fuse KEY_HASH0 names, on a part with SECURE blown, in AUTH. -/
def signed : State :=
  (onImg (fun g => { g with fuses := { secure := true, keyHash0 := 0xee0e97d76d8dff66eefec632129dcecde3b75b647fc45a1fa3406c1ce58f1d67 } }) (imaged .auth)).setBytes carafeBase
    (smallImage.take 80 ++ record 0xFF (beBytes 64
      0xe5aaa880b3dcda6b033c8d2f19bac53da9ae11640549b81929c018edc088a7198e1c3b44f0c8a8b1615a96bf29286a6b46356e5595f3714451909e446c134733 ++ beBytes 64
      0x1e0c75414382f74f76a869908b5e8c1cb365df3e18dba92c4919ac062f82e98b1e0c75414382f74f76a869908b5e8c1cb365df3e18dba92c4919ac062f82e98b))
/-- The clause of LoadStages on a signature that verifies. -/
theorem wit_LoadStages_authentic : (stageJob .auth signed).isSome = true ∧
    ((imageRecords signed carafeBase).getLast?).map (authCheck signed carafeBase) = some none := by and_intros <;> decide +kernel

/-- A partial load in a step of its application. -/
def applying (k sel : Nat) (ph : PartialPhase) (due n : Nat) : State :=
  atTick n (onImg (fun g => { g with partialJob := some { kind := k, sel := sel, addr := 0, len := 0, phase := ph, due := due } }) (loading .applying true))

theorem wit_AcceptanceAndPartialLoads :
    (stageJob .applying (loading .applying)).isSome = true ∧ (loading .applying).img.partialJob = none ∧
    stageJob .applying z = none ∧
    (let s := applying 1 (2 ^ 63) .rampOut 4160 4160; s.img.partialJob = some { kind := 1, sel := 2 ^ 63, addr := 0, len := 0, phase := .rampOut, due := 4160 } ∧ 4160 ≤ s.sys.tick) ∧
    (applying 1 1 .rampOut 4160 4159).sys.tick < 4160 ∧
    (let s := applying 1 1 .waitB2 4161 4224; s.atFrame = true ∧ 4161 ≤ s.sys.tick) ∧
    (applying 1 1 .waitB2 4161 4161).atFrame = false ∧
    (let s := applying 3 31 .starting 0 64; (s.img.partialJob.map (partialOver s)) = some true ∧ s.img.job.isSome = true) ∧
    (let s := applying 1 1 .rampIn 4160 4159; (s.img.partialJob.map (partialOver s)) = some false) := by and_intros <;> decide +kernel

/-- Two-wire controller 1 as x, enabled or not. -/
def wire (x : Tw) (en : Bool := true) : State := withReg (twReg 1 0) (if en then 1 else 0) { z with twc := [(1, x)] }

theorem wit_TwoWireTransferFifoAndEnable :
    (Reaches .seq z ∧ twEn z 1 = false ∧ (z.tw 1).st = .idle) ∧
    ((wire { st := .busy }).tw 1).st = .busy ∧ twEn (wire { st := .busy }) 1 = true ∧
    (twEn (wire {}) 1 = true ∧ ((wire {}).tw 1).st = .idle ∧ bits (0x50 : Word) 8 8 = 0 ∧ bits (0x50 : Word) 16 8 = 0) ∧
    (bits (0xFF50 : Word) 8 8 ≠ 0 ∧ (wire {}).faultBit .twc 7 = false) ∧
    (withReg (Blk.twc.base + 0x80) 0x80 (wire {})).faultBit .twc (4 * 1 + 3) = true ∧ twEn (withReg (Blk.twc.base + 0x80) 0x80 (wire {})) 1 = true ∧
    ((wire { st := .recovering }).tw 1).st = .recovering ∧
    ((wire { st := .stopping }).tw 1).st = .stopping ∧ ((wire { st := .stopping }).tw 1).sclHeld = false ∧
    ((wire { st := .stopping, sclHeld := true }).tw 1).sclHeld = true := by and_intros <;> decide +kernel

theorem wit_TwoWireEvents :
    (let s := wire { st := .busy, wlen := 1, out := [0] }; (s.tw 1).st = .busy ∧ (s.tw 1).out.length = (s.tw 1).wlen ∧ (s.tw 1).got = (s.tw 1).rlen) ∧
    (let s := wire { st := .busy, out := [0] }; (s.tw 1).st = .busy ∧ 0 < (s.tw 1).out.length) ∧
    ((wire { st := .stopping }).tw 1).st = .stopping ∧ ((wire { st := .stopping }).tw 1).sclHeld = false ∧
    ((wire { st := .recovering }).tw 1).st = .recovering ∧ ((wire {}).tw 1).st = .idle ∧
    (let s := withReg (twReg 1 4) 0x0F000000 (wire { st := .busy, naks := 14 }); (s.tw 1).st = .busy ∧ (s.tw 1).lost = false ∧ (s.tw 1).naks < s.fld (twReg 1 4) 24 4) ∧
    (let s := withReg (twReg 1 4) 0x0F000000 (wire { st := .busy, naks := 15 }); s.fld (twReg 1 4) 24 4 ≤ (s.tw 1).naks) ∧
    ((wire { st := .busy, lost := true }).tw 1).lost = true ∧
    ((wire { st := .stopping, lost := true }).tw 1).lost = true ∧
    (let s := wire { st := .busy, lost := true, losses := 8 }; (s.tw 1).st ≠ .stopping ∧ 8 ≤ (s.tw 1).losses) ∧
    (let s := wire { st := .busy, lost := true, losses := 7 }; (s.tw 1).losses < 8) ∧
    (let s := wire { st := .busy, wlen := 1 }; (s.tw 1).lost = false ∧ (s.tw 1).out.length < (s.tw 1).wlen ∧ (s.tw 1).tx = []) := by and_intros <;> decide +kernel

/-- FLC as x after boot, with its CTRL, ADDR and LEN registers. -/
def port (x : Flc) (c a l : Word) : State := withReg Blk.flc.base c (withReg (Blk.flc.base + 8) a (withReg (Blk.flc.base + 0xC) l { boots .done with flc := x }))

theorem wit_FlashCommandsAndPort :
    (Reaches .seq z ∧ z.img.boot ≠ .done) ∧
    (port { st := .busy } 1 0 0).flc.st ≠ .idle ∧
    (let s := port {} 0 0 0; s.flc.st = .idle ∧ s.img.boot = .done ∧ flcEn s = false) ∧
    (let s := port {} 1 0 0; flcEn s = true ∧ flcArgsOk 2 (s.fld (Blk.flc.base + 8) 0 28) (s.fld (Blk.flc.base + 0xC) 0 28) = false) ∧
    (let s := port { dev := 24 } 1 0x00FFF000 4; flcEn s = true ∧ flcArgsOk 3 (s.fld (Blk.flc.base + 8) 0 28) (s.fld (Blk.flc.base + 0xC) 0 28) = true ∧ s.rbit Blk.flc.base 2 = false) ∧
    (let s := port { dev := 24 } 5 0x00FF0000 4; flcArgsOk 4 (s.fld (Blk.flc.base + 8) 0 28) (s.fld (Blk.flc.base + 0xC) 0 28) = true ∧ s.rbit Blk.flc.base 2 = true) ∧
    (port { st := .stopping } 1 0 0).flc.st = .stopping ∧
    (let x := (port { st := .busy, cmd := 1, len := 256, done := 256 } 1 0 256).flc; x.st = .busy ∧ x.len ≤ x.done) ∧
    (let x := (port { st := .busy, cmd := 2, len := 256, done := 255 } 1 0 256).flc; x.cmd ≠ 3 ∧ x.cmd ≠ 4 ∧ x.done < x.len) ∧
    (2 : Nat) ≤ (port { st := .busy, cmd := 2 } 1 0 0).flc.cmd ∧ (port { st := .busy, cmd := 4 } 1 0 0).flc.cmd ≤ 4 ∧
    MayWrite .seq z := by and_intros <;> decide +kernel

/-- DRAM of 2 GiB is ready; bad holds the words with an uncorrectable error. -/
def dram (bad : List Nat) (s : State := z) : State := { onImg (fun g => { g with memReady := true, dramGib := 2 }) s with memUe := bad }

theorem wit_MemoryTransactions :
    (pathErr .seq .dram (dram []) = none ∧ dramBase ≤ dramBase + dramCap (dram []) - 8) ∧
    (dramBase + dramCap (dram []) - 8 + 8 ≤ dramBase + dramCap (dram []) ∧ (∀ w ∈ wordsOf (dramBase + dramCap (dram []) - 8) 8, wordUe (dram []) w = false)) ∧
    dramBase + dramCap (dram []) < dramBase + dramCap (dram []) - 8 + 9 ∧
    (∃ w ∈ wordsOf dramBase 256, wordUe (dram [dramBase + 248]) w = true) ∧
    (pathErr .seq .carafe z = none ∧ carafeBase ≤ logEnd - 4 ∧ logEnd - 4 + 4 ≤ logEnd ∧ logEnd < logEnd - 4 + 8 ∧ logEnd - 4 + 8 ≤ carafeEnd) ∧
    (let s := { z with ste := { general := 61440 } }; pathErr .seq .carafe s = none ∧ carafeBase + 256 * 61440 - 4 + 4 ≤ generalEnd s ∧ generalEnd s < carafeBase + 256 * 61440 - 4 + 8) := by and_intros <;> decide +kernel

theorem wit_MemoryController :
    (dram []).img.memReady = true ∧ (dram []).memc.initDone = false ∧
    z.img.memReady = false ∧
    (let s := { dram [] with memc := { initDone := true } }; s.memc.initDone = true ∧ (dramBase + dramCap s - 8) % 8 = 0 ∧ dramBase + dramCap s - 8 < dramBase + dramCap s ∧ wordUe s (dramBase + dramCap s - 8) = false) ∧
    (carafeEnd - 8) % 8 = 0 ∧ carafeBase ≤ carafeEnd - 8 ∧ carafeEnd - 8 < carafeEnd ∧ wordUe z (carafeEnd - 8) = false ∧
    z.memc.hot = false ∧
    (Reaches .seq z ∧ (0x100 ≤ 0x110 ∧ (0x110 : Nat) ≤ 0x110)) := by and_intros <;> decide +kernel

theorem wit_FaultDetectionSetsItsBit :
    faultValid (.cell 71) 4 = true ∧
    faultValid (.cell 72) 0 = false ∧
    z.sys.snuffed = false := by and_intros <;> decide +kernel

theorem wit_FaultClearLogAndInterruptPin :
    (Reaches .seq z ∧ blkValid (.apt 15) = true ∧ bit (0x80000000 : Word) 31 = true ∧ z.sys.detected.contains ((Blk.apt 15).base, 31) = false) ∧
    (onSys (fun y => { y with detected := [((Blk.apt 15).base, 31)] })).sys.detected.contains ((Blk.apt 15).base, 31) = true ∧
    z.sys.log.queue = [] ∧
    (let s := onSys (fun y => { y with log := { queue := [⟨0, 0, 0, 0, 0, 0, 0⟩], stored := 4096 } }); sysClockLost s = false ∧ s.sys.log.queue = ⟨0, 0, 0, 0, 0, 0, 0⟩ :: [] ∧ 4096 ≤ s.sys.log.stored) ∧
    ticksRun (onSys (fun y => { y with resetN := false })) = false ∧
    (ticksRun z = true ∧ pendWord z .a = 0) := by and_intros <;> decide +kernel

/-- Block 0 asks for host A's pin, which last asserted at tick 0, with MIN_US = 100: at 96 kHz 615 ticks. -/
def asking (n : Nat) (p : IntPin) : State := atTick n (withReg 0x40000230 100 (onSys (fun y => { y with intA := p }) (asks z)))
where
  asks (s : State) : State := withReg 0x40000084 8 (s.setReg 0x40000080 8)

theorem wit_FaultClearLogAndInterruptPin2 :
    (ticksRun (asking 0 {}) = true ∧ pendWord (asking 0 {}) .a ≠ 0 ∧ ((asking 0 {}).pin .a).last = none) ∧
    (asking 5 { asserted := true }).pin .a = { asserted := true } ∧
    (let s := asking 615 { last := some 0 }; 0 + ceilDiv (s.fld 0x40000230 0 16 * 64 * s.fs) 1000000 ≤ s.sys.tick) ∧
    (let s := asking 614 { last := some 0, waiting := true }; s.sys.tick < 0 + ceilDiv (s.fld 0x40000230 0 16 * 64 * s.fs) 1000000) := by and_intros <;> decide +kernel

theorem wit_RegisterWriteRights :
    (busTarget 0x4000011C = some .regs ∧ regWindow 0x4000011C = some (.sys, 0x11C) ∧ (findRow (blkRows .sys) 0x11C).map (·.acc) = some .rws) ∧
    (Reaches .hpb served ∧ rwsOk .hpb served = false) ∧
    (Reaches .seq z ∧ rwsOk .seq z = true ∧ (blkLiveWrite .seq .bmx 0x40 0 z).isNone = true) ∧
    (findRow (blkRows .dma) 0x50).map (·.acc) = some .w1c ∧ (blkLiveWrite .seq .dma 0x50 0 z).isNone = true ∧
    (findRow (blkRows .dma) 0x54).map (·.acc) = some .rw ∧ (blkLiveWrite .seq .dma 0x54 0 z).isNone = true ∧
    (Master.host? .hpa ≠ none ∧ z.img.fuseRead = false) := by and_intros <;> decide +kernel

theorem wit_HostFrames :
    (¬ (2 ^ 36 ≤ 2 ^ 36 - 4 ∨ (2 ^ 36 - 4) % 4 ≠ 0 ∨ (256 : Nat) = 0 ∨ 256 < 256)) ∧
    (2 ^ 36 : Nat) ≤ 2 ^ 36 ∧
    (256 : Nat) < 257 := by and_intros <;> decide +kernel

theorem wit_PortFramingAndReset :
    ({ z with hpa := { resetArmed := true } } : State).hpa.resetArmed = true ∧
    (z.port .b).resetArmed = false ∧ portVoid z .b = false ∧ portVoid { z with hpb := { resetAt := some 0 } } .b = true ∧
    (z.port .b).resetDue = false ∧
    (let s := { served with hpa := { resetDue := true } }; (s.port .a).resetDue = true ∧ (s.sem 0).owner = some HostId.a) := by and_intros <;> decide +kernel

theorem wit_CapturesAndTimeouts :
    Reaches .hpa served ∧
    busTarget (dramBase + 14 * 2 ^ 30 - 1) = some .dram ∧
    busTarget dramBase = some .dram ∧ z.img.fuseRead = false ∧ loaded.img.fuseRead = true ∧ portVoid z .a = false := by and_intros <;> decide +kernel

/-- s with cell 71 as c; logical cell 63 lies there. -/
def celled (c : Cell) (s : State := z) : State :=
  { s with cells := [(71, c)], fabric := { s.fabric with map := Tab.set (fun _ => none) [] 63 (some 71), spareOrder := [70] } }
/-- An active, configured cell carrying logical cell 63. -/
def active : Cell := { role := .active, logical := some 63, configured := true }

theorem wit_CellBlock :
    (let s := celled active running; blockDue s 71 = true ∧ (s.cell 71).dataEcc = [] ∧ (s.cell 71).progEcc = []) ∧
    (blockDue z 71 = false ∧ (z.cell 71).halt = false) ∧
    (atTick 63).atFrame = false ∧
    (let s := celled { active with halt := true, sched := true } running; blockDue s 71 = false ∧ s.atFrame = true ∧ (s.cell 71).halt = true ∧ s.frame % (s.cell 71).blockN = 0 ∧ (s.cell 71).sched = true) := by and_intros <;> decide +kernel

theorem wit_CellMemoryWindows :
    (pathErr .seq .cellMem z = none ∧ (z.cell 71).dataState 16383 = .good ∧ (z.cell 71).progState 4095 = .good) ∧
    ((celled { dataEcc := [(16383, .ue)] }).cell 71).dataState 16383 = .ue ∧
    ((celled { progEcc := [(4095, .ue)] }).cell 71).progState 4095 = .ue ∧
    ((celled { role := .fenced }).cell 71).role = .fenced ∧
    (z.cell 71).role ≠ .fenced ∧ z.fabric.mig = none ∧ (z.cell 71).sched = false ∧
    ((celled { sched := true }).cell 71).sched = true := by and_intros <;> decide +kernel

theorem wit_CellControl :
    (MayWrite .seq z ∧ (z.cell 71).halt = false ∧ z.sys.run = false) ∧
    (let s := celled active running; MayWrite .seq s ∧ (s.cell 71).halt = false ∧ ¬ (s.sys.alarm = true ∨ s.sys.run = false ∨ (s.cell 71).role ≠ .active)) ∧
    ((celled { active with halt := true }).cell 71).halt = true ∧
    takeSpare z = none ∧
    (let s := { celled active running with cells := [(70, { role := .spare }), (71, active)] }; takeSpare s = some 70 ∧ underPartial s 71 = false ∧ s.fabric.mig = none ∧ s.fabric.queue = []) ∧
    ((celled { role := .fenced }).cell 71).role = .fenced ∧
    ((celled { sched := true }).cell 71).sched = true ∧
    (z.cell 71).sched = false ∧ Reaches .seq z ∧
    (let c : Cell := { dataScrub := 16383 }; c.dataState c.dataScrub = .good) := by and_intros <;> decide +kernel

/-- A migration of cell 71 to the spare 70 in a phase. -/
def migrating (ph : MigPhase) (bs n : Nat) (conf : Bool := true) : State :=
  let s := atTick n (celled active running)
  { s with cells := [(70, { role := .shadow, logical := some 63, configured := conf }), (71, active)]
           fabric := { s.fabric with mig := some ⟨71, 70, ph, false, bs⟩ } }
theorem wit_CellHardFaults : z.migApart ∧
    (let s := { celled active running with cells := [(70, { role := .spare }), (71, active)] }
     s.migApart ∧ s.sys.run = true ∧ (s.cell 71).role = .active ∧ (s.cell 71).logical = some 63 ∧ physOf s 63 = some 71 ∧ s.fabric.mig = none ∧
      takeSpare s = some 70) :=
  ⟨fun g h => (by cases h), fun g h => (by cases h), by decide +kernel⟩
theorem migrating_apart (ph : MigPhase) (bs n : Nat) (conf : Bool) : (migrating ph bs n conf).migApart := by
  intro g h
  obtain rfl : (⟨71, 70, ph, false, bs⟩ : Mig) = g := Option.some.inj h
  exact (by decide : (71 : Nat) ≠ 70)

theorem wit_CellMigrations :
    (migrating .loading 0 64 false).fabric.mig = some ⟨71, 70, .loading, false, 0⟩ ∧
    (let s := migrating .loading 0 64; (s.cell 70).configured = true ∧ atBlock s 71 = true) ∧
    atBlock (migrating .loading 0 65) 71 = false ∧
    (migrating .copying 0 64).fabric.mig = some ⟨71, 70, .copying, false, 0⟩ ∧ (∀ x ∈ ((migrating .copying 0 64).cell 71).dataEcc, x.2 ≠ .ue) ∧
    (∃ x ∈ ((migrating .copying 0 64).setCell 71 { active with dataEcc := [(5, .ue)] } |>.cell 71).dataEcc, x.2 = .ue) ∧
    atBlock (migrating .copying 1 64) 71 = true ∧
    (let s := migrating .shadow 64 (64 + 4096 * 64); s.fabric.mig = some ⟨71, 70, .shadow, false, 64⟩ ∧ s.sys.tick = 64 + 4096 * 64 ∧ (s.cell 71).logical = some 63) ∧
    (migrating .shadow 64 (63 + 4096 * 64)).sys.tick ≠ 64 + 4096 * 64 ∧
    z.fabric.mig = none ∧
    (let c := (celled { active with configured := false, mig := { phase := .restoring } }).cell 71; c.role = .active ∧ c.mig.phase = .restoring ∧ c.configured = false) ∧
    (let s := celled { active with mig := { phase := .restoring } }; (s.cell 71).configured = true ∧ atBlock s 71 = true ∧ s.fabric.queue = []) ∧
    (let c := (celled { active with role := .shadow, mig := { phase := .restoring } }).cell 71; c.role = .shadow ∧ c.configured = true) ∧
    (let s := celled { active with mig := { phase := .rampIn } } (atTick 4160 running); let t := { s with fabric := { s.fabric with ramps := [(63, some ⟨1, true⟩)] } }; Tab.get (fun _ => none) t.fabric.ramps 63 = some ⟨1, true⟩ ∧ (t.cell 71).role = .active ∧ (t.cell 71).mig.phase = .rampIn ∧ t.sys.tick = 64 * 1 + 4096 ∧ (t.cell 71).mig.partner ≠ some 71) := by and_intros <;> decide +kernel

theorem wit_LedgerAndBoundCheck :
    Reaches .seq z ∧
    z.mxe.swapPending = false ∧
    (let s := onMxe (fun m => { m with swapPending := true, checking := true }); s.mxe.swapPending = true ∧ s.mxe.checking = true ∧ hasDuplicate (s.mxe.bank s.mxe.inactive) = false ∧ boundFails s.img.boundTab (matrixStages s.mxe.bounds (s.mxe.bank s.mxe.inactive) ++ currentCellStages s) = []) ∧
    hasDuplicate ((onMxe (fun m => { m with bank1 := [(0, { valid := true, dst := 5, src := 5 }), (131071, { valid := true, dst := 5, src := 5 })] })).mxe.bank 1) = true := by and_intros <;> decide +kernel

theorem wit_MatrixCommands :
    (Reaches .seq z ∧ ¬ (mapKind (z.mxe.srcEnt 0) ≠ 0)) ∧
    (let s := onMxe (fun m => { m with srcMap := Tab.set (fun _ => 0) [] 0 0x10000000, dstMap := Tab.set (fun _ => 0) [] 0 0x10000000 }); mapKind (s.mxe.srcEnt 0) ≠ 0 ∧ mapKind (s.mxe.dstEnt 0) ≠ 0) ∧
    (let s := onMxe (fun m => { m with queue := List.replicate 256 ⟨1, 0, 0, 0, 0, none⟩ }); 256 ≤ s.mxe.queue.length) ∧
    z.mxe.queue.length < 256 ∧
    (MayWrite .seq z ∧ z.sys.alarm = false ∧ z.mxe.swapPending = false ∧ matrixLoading z = false) ∧
    (onSys (fun y => { y with alarm := true })).sys.alarm = true ∧
    (onMxe (fun m => { m with swapPending := true })).mxe.swapPending = true ∧
    matrixLoading (applying 2 0 .config 0 0) = true ∧
    (let s := atTick 64 (onSys (fun y => { y with alarm := true }) (onMxe (fun m => { m with alarmDue := some 64 }))); s.mxe.alarmDue = some s.sys.tick ∧ s.sys.alarm = true ∧ s.sys.snuffed = false) ∧
    z.mxe.alarmDue ≠ some z.sys.tick ∧
    (pathErr .seq .matrix z = none ∧ (0x220000 ≤ 0x220000) ∧ 0x210000 ≤ 0x21FFFC) ∧
    (1 : Fin 2).val ≠ z.mxe.active ∧ 0x20FFFC < 0x210000 := by and_intros <;> decide +kernel

/-- Player 63 as p; line 1023 as l. -/
def player (p : Player) (s : State := z) : State := onMxe (fun m => { m with players := [(63, p)] }) s
def lined (l : Line) (s : State := z) : State := { s with dly := { lines := [(1023, l)] } }

/-- The image store holds one message: a HEADER with its TOTAL, and a MESSAGES record with COUNT 1. -/
def told : State := running.setBytes 0x100000000
  (record 1 (leBytes 24 0 ++ leBytes 4 116 ++ leBytes 36 0) ++ record 0x22 (leBytes 4 1 ++ leBytes 16 0))

theorem wit_PlayersAndLines :
    (told.sys.run = true ∧ (told.player 63).state = .idle ∧ bits (setBits (0 : Word) 0 2 1) 8 10 < msgCount told ∧ told.mxe.corrupt.contains 0 = false) ∧
    (onMxe (fun m => { m with corrupt := [0] }) told).mxe.corrupt.contains 0 = true ∧
    (Reaches .seq z ∧ ((player { state := .playing }).player 63).state ≠ .idle) ∧
    (z.player 63).state = .idle ∧ z.sys.run = false ∧
    (running.player 63).state = .idle ∧ running.sys.run = true ∧ msgCount running ≤ bits (0x3FF00 : Word) 8 10 ∧
    ((player { state := .armed }).player 63).state = .armed ∧
    ((player { state := .stopping }).player 63).state = .stopping ∧
    (let l := (lined { valid := true, xf := 64, cap := 4096 }).line 1023; (l.valid && delayOk l (2 ^ 28 - 1)) = false ∧ (l.valid && delayOk l (1024 * 4096)) = true) ∧
    (z.line 1023).valid = false ∧
    (let s := player { state := .armed, start := 1 } (atTick 64); s.atFrame = true ∧ (s.player 63).start ≤ s.frame) ∧
    (let s := player { state := .armed, start := 2 } (atTick 64); s.frame < (s.player 63).start) ∧
    ((player { state := .playing, ended := true }).player 63).ended = true ∧
    (let s := player { state := .stopping, stopFrame := 1 } (atTick 4160); s.sys.tick = 64 * (s.player 63).stopFrame + 4096) ∧
    (let s := lined { valid := true, xfEnd := true, held := some 7 }; (s.line 1023).xfEnd = true ∧ s.atFrame = true ∧ s.sys.frameAt ≠ some s.sys.tick ∧ (s.line 1023).held = some 7 ∧ (s.line 1023).xfLeft = 0) ∧
    ((lined { valid := true, xfDone := true }).line 1023).xfDone = true ∧ ((lined { valid := true, xfEnd := true }).line 1023).held = none := by and_intros <;> decide +kernel

/-- MAC 3 as x, with a register at an offset. -/
def mac3 (x : Mac) (off : Nat := 0) (v : Word := 0) (s : State := z) : State := { withReg (macReg 3 off) v s with macs := [(3, x)] }

theorem wit_MacLinkAndPause :
    (let s := mac3 {} 8 2; (s.mac 3).link = false ∧ macSpeed s 3 = 2) ∧
    macSpeed z 3 = 0 ∧
    (let s := mac3 {} 8 5; macSpeed s 3 = 1 ∧ s.rbit (macReg 3 8) 2 = true ∧ (s.mac 3).anDone = false) ∧
    (let s := mac3 { link := true } 0 1; (s.mac 3).link = true ∧ macEnabled s 3 = true) ∧
    (macEnabled z 3 = false ∧ (z.mac 3).link = false) ∧
    (let s := atTick 3072000 (mac3 { enabledAt := some 0 } 0 1); (s.mac 3).enabledAt = some 0 ∧ (s.mac 3).link = false ∧ macEnabled s 3 = true ∧ 0 + s.msTicks 500 ≤ s.sys.tick) ∧
    (let s := atTick 3071999 (mac3 { enabledAt := some 0 } 0 1); s.sys.tick < 0 + s.msTicks 500) ∧
    (mac3 { link := true, holdoff := some 5 }).mac 3 = { link := true, holdoff := some 5 } ∧
    (mac3 { link := true, draining := true }).mac 3 = { link := true, draining := true } ∧
    (let x := (mac3 { link := true }).mac 3; x.holdoff = none ∧ x.draining = false) ∧
    (z.mac 3).pauseQ = 0 ∧
    (let s := atTick (pauseTicks z 3 4 8) (mac3 { pauseQ := 1 }); (s.mac 3).pauseQ ≠ 0 ∧ (s.mac 3).pauseSince + pauseTicks s 3 4 8 ≤ s.sys.tick) ∧
    (let s := atTick 5 (mac3 { holdoff := some 5 }); (s.mac 3).holdoff = some 5 ∧ 5 ≤ s.sys.tick) ∧
    (let s := atTick 4 (mac3 { holdoff := some 5 }); s.sys.tick < 5) := by and_intros <;> decide +kernel

/-- A frame on the line: 60 octets to the address 0, and their FCS. -/
def goodFrame : List Byte := List.replicate 60 0 ++ leBytes 4 (crc32 (List.replicate 60 0))
/-- The same to the address 2. -/
def otherFrame : List Byte := let b : List Byte := [2] ++ List.replicate 59 0; b ++ leBytes 4 (crc32 b)

theorem wit_MacControlAndFrames :
    (MayWrite .seq z ∧ (z.mac 3).fenced = false) ∧
    ((mac3 { fenced := true }).mac 3).fenced = true ∧
    ((mac3 { txOn := true, rxOn := true }).mac 3).txOn = true ∧ ((mac3 { txOn := true, rxOn := true }).mac 3).rxOn = true ∧
    (let x := (mac3 { draining := true }).mac 3; x.draining = true ∧ x.cur = none ∧ ∀ q, q < 8 → x.queue q = []) ∧
    (z.mac 3).draining = false ∧
    (macGuarded 8 = true ∧ macGuarded 0x18 = true ∧ macEnabled z 3 = false ∧ (z.mac 3).txIdle = true ∧ sizesOk (z.reg (macReg 3 0x14)) 0 (macMaxLen z 3) = true) ∧
    sizesOk (z.reg (macReg 3 0x14)) 0xFFFFFFFF (macMaxLen z 3) = false ∧ lineMode 1 ≠ lineMode (z.reg (macReg 3 8)) ∧
    macEnabled (mac3 {} 0 2) 3 = true ∧
    (Reaches .seq z ∧ 0x13C % 4 = 0) ∧
    (let x := (mac3 { txOn := true }).mac 3; ¬ (x.txOn = false ∨ x.draining = true ∨ (((7 : Fin 8).val = 5 ∨ (7 : Fin 8).val = 6) ∧ (z.sys.run = false ∨ z.sys.standby = true)))) ∧
    (z.mac 3).txOn = false ∧ z.sys.snuffed = false ∧
    (List.replicate 13 (0 : Byte)).length < 14 ∧ macMaxLen z 3 - 4 < (List.replicate 9213 (0 : Byte)).length ∧
    (let s := mac3 { txOn := true } 0x18 0; queueSize s 3 7 < queueUsed (s.mac 3) 7 + txOctets (List.replicate 14 0)) ∧
    (let s := mac3 { txOn := true } 0x18 0x40000000; queueUsed (s.mac 3) 7 + txOctets (List.replicate 14 0) ≤ queueSize s 3 7 ∧ (s.mac 3).cur = none ∧ (s.mac 3).pauseQ = 0 ∧ ∀ k, k < 8 → (s.mac 3).queue k = []) ∧
    ((mac3 { txOn := true, cur := some ⟨7, [], false⟩ }).mac 3).cur = some ⟨7, [], false⟩ ∧
    (let s := mac3 { link := true, rxOn := true }; (s.mac 3).link = true ∧ (s.mac 3).rxOn = true ∧ goodFrame.length = 64 ∧ fcsMatch goodFrame = true ∧ isControl goodFrame = false ∧ Machine.addrOk s 3 goodFrame = true ∧ (s.mac 3).fenced = false) ∧
    (fcsMatch otherFrame = true ∧ Machine.addrOk z 3 otherFrame = false) ∧
    fcsMatch (List.replicate 64 0) = false ∧
    macMaxLen z 3 < 9217 ∧
    (let x : Mac := { rx := List.replicate 16 ⟨List.replicate 4093 0, 0⟩ }; 65536 < (x.rx.map (·.bytes.length)).sum + 64 ∧ (x.rx.map (·.bytes.length)).sum + 48 ≤ 65536) := by and_intros <;> decide +kernel

/-- Flow entry 8191 as x. -/
def flowed (x : Flow) (s : State := z) : State := { s with ste := { s.ste with flows := [(8191, x)] } }
/-- The words of a receive flow entry on LINK 5, a pair, with SPP 16; of a transmit one. -/
def feRx : List Word := [0x02800000, 0, 0, 0, 0, 16, 0, 0]
def feSend : List Word := [0x20000000, 0, 0, 0, 0, 16, 0, 0]

theorem wit_StreamFlows :
    (Reaches .seq z ∧ (z.flow 8191).st = .free ∧ stageCheck z (staging z .seq) ≠ 1) ∧
    ((flowed { st := .staged }).flow 8191).st = .staged ∧
    ((flowed { st := .live }).flow 8191).st = .live ∧
    (let s := flowed { st := .retiring, fe := feRx }; (s.flow 8191).st = .retiring ∧ feTx (s.flow 8191).fe = false ∧ (s.flow 8191).pkts = [] ∧ s.atFrame = true) ∧
    (let s := atTick (64 * 256) (flowed { st := .live, fe := feRx, lastS := some 1 }); let x := s.flow 8191; x.st = .live ∧ feTx x.fe = false ∧ 4 ≤ feLink x.fe ∧ x.lastP.getD x.since + 16 * feSpp x.fe ≤ s.frame ∧ x.lastS.isSome = true ∧ ¬ (x.lastS.getD x.since + 16 * feSpp x.fe ≤ s.frame) ∧ x.pDown = false) ∧
    (let s := atTick (64 * 256) (flowed { st := .live, fe := feRx, lastP := some 1 }); let x := s.flow 8191; x.lastS.getD x.since + 16 * feSpp x.fe ≤ s.frame ∧ ¬ (x.lastP.getD x.since + 16 * feSpp x.fe ≤ s.frame) ∧ x.sDown = false) ∧
    (let s := flowed { st := .live, fe := feSend } (atTick 1024 running); let t := { s with ste := { s.ste with txOn := true } }; let x := t.flow 8191; x.st = .live ∧ feTx x.fe = true ∧ t.ste.txOn = true ∧ t.sys.run = true ∧ t.sys.standby = false ∧ t.sys.snuffed = false ∧ feSpp x.fe ≠ 0 ∧ t.frame % feSpp x.fe = 0 ∧ x.built ≠ some t.frame ∧ x.since < t.frame) := by and_intros <;> decide +kernel

/-- MAC 3 holds a received frame of an EtherType, with a first byte; reception of STE is on or off, and PTU holds so many stamps. -/
def arrived (ety : Nat) (on : Bool) (held : Nat := 0) (first : Byte := 0) : State :=
  { z with macs := [(3, { rx := [⟨List.replicate 12 0 ++ beBytes 2 ety ++ first :: List.replicate 49 0, 0⟩] })], ste := { z.ste with rxOn := on }, ptu := { z.ptu with stamps := [(3, List.replicate held 0)] } }
/-- The head of frame s's receive buffer, parsed. -/
def headOf (s : State) : Parsed := let g := ((s.mac 3).rx.map (·.bytes)).headD []; parseFrame (g.take (g.length - 4))

theorem wit_StreamFramesAndHosts :
    (z.mac 3).rx = [] ∧
    (headOf (arrived 0x88F7 true)).ety = 0x88F7 ∧ ((arrived 0x88F7 true 63).stamps 3).length = 63 ∧
    ((arrived 0x88F7 true 64).stamps 3).length = 64 ∧ ptpKnown 0 = true ∧ ptpKnown 2 = false ∧
    ((arrived 0x88F7 true 0 2).mac 3).rx.map (fun g => octs (g.bytes.drop (headOf (arrived 0x88F7 true 0 2)).ip) 0 1 % 16) = [2] ∧
    (headOf (arrived 0x0800 true)).ety = 0x0800 ∧ (headOf (arrived 0x0800 true)).ipOk = false ∧
    (let s := arrived 0x1234 false; let p := headOf s; ¬ (p.ety = 0x88F7 ∨ (p.udp = true ∧ (p.dport = 319 ∨ p.dport = 320))) ∧ ¬ (p.ety = 0x0800 ∧ (p.ipOk = false ∨ (p.proto = 17 ∧ p.udpOk = false))) ∧ s.ste.rxOn = false) ∧
    (let s := withReg (Blk.ste.base + 8) 0 (arrived 0x1234 true); let p := headOf s; s.ste.rxOn = true ∧ matchFlow s 3 p = none ∧ hostFilter s p = false ∧ s.rbit (Blk.ste.base + 8) 0 = false) ∧
    (Reaches .seq z ∧ hrxHead z = none) ∧
    (let s : State := { z with ste := { ctl := [⟨[1], .shared, 1⟩] } }; hrxHead s = some (⟨[1], .shared, 1⟩, 1)) ∧
    (let s : State := { z with ste := { be := [⟨[1], .own, 1⟩] } }; hrxHead s = some (⟨[1], .own, 1⟩, 0)) ∧
    hasTxwin .seq = false ∧
    (Reaches .hpa served ∧ hasTxwin .hpa = true ∧ bits (0x00400000 : Word) 20 3 ≤ 4 ∧ 4 < bits (0x00500000 : Word) 20 3) ∧
    (MayWrite .seq z ∧ z.reg Blk.ste.base &&& ~~~3 = 0 ∧ z.ste.rxIdle = true) ∧
    (let s : State := { z with ste := { txOn := true } }; s.ste.txOn = true ∧ s.ste.txStop = false) ∧
    (let s := withReg Blk.ste.base 2 (flowed { pkts := [{ m64 := 0, samples := [], src := .own, n := 0 }] } { z with ste := { rxIdle := false } }); s.rbit Blk.ste.base 0 = false ∧ s.rbit Blk.ste.base 1 = true ∧ s.ste.rxIdle = false ∧ stored s = true) ∧
    (let s : State := { z with ste := { rxIdle := false } }; s.ste.rxOn = false ∧ s.ste.rxIdle = false ∧ stored s = false) := by and_intros <;> decide +kernel

/-- Domain B's port as p; PTU holds a stamp of MAC 0. -/
def ptp (p : PtpPort) (s : State := z) : State := { s with ptu := { s.ptu with portB := p, stamps := [(0, [0])] } }
/-- Domain B's port as a master or a servo slave: the bits of PORTB. -/
def asMaster (s : State) : State := withReg (domReg .b 0) 0x100 s
def servo (s : State) : State := withReg (domReg .b 0) 0x10000 s
/-- A message the port of domain B hears in its reset configuration: by MAC 0, IPv4, version 2, domain 0. -/
def heard : PtpMsg := { src := 9, gm := 9 }

theorem wit_PtpSlave :
    (z.ptu.port .b).en = false ∧ z.stamps 0 = [] ∧ (ptp {}).stamps heard.mac ≠ [] ∧
    (ptp { en := true, faulty := true }).ptu.port .b = { en := true, faulty := true } ∧
    (let s := withReg (domReg .b 0) 0 (ptp { en := true }); (s.ptu.port .b).en = true ∧ (s.ptu.port .b).faulty = false ∧ msgFits s .b heard = true ∧ roleMaster s .b = false ∧ heard.src ≠ clockId s .b ∧ heard.steps < 255) ∧
    msgFits z .b { heard with version := 1 } = false ∧
    (let x := { heard with steps := 255 }; 255 ≤ x.steps) ∧
    (let s := withReg (domReg .b 0) 0 (ptp { en := true, masters := [⟨heard, 0, false⟩] }); (∃ f ∈ (s.ptu.port .b).masters, f.msg.src = heard.src ∧ f.msg.srcPort = heard.srcPort)) ∧
    fromBest z .b heard = false ∧
    (fromBest (ptp { en := true, best := some (9, 1) }) .b heard = true ∧ heard.twoStep = false) ∧
    (let s := ptp { en := true, best := some (9, 1), twoStep := some heard }; (s.ptu.port .b).twoStep = some heard ∧ fromBest s .b heard = true ∧ s.sys.tick ≤ (s.ptu.port .b).twoStepAt + logTicks s (logSync s .b)) ∧
    (let s := servo (ptp { en := true, best := some (9, 1), mpd := some 0 }); servoEn s .b = true ∧ (s.ptu.port .b).mpd = some 0) ∧
    servoEn (withReg (domReg .b 0) 0 z) .b = false ∧
    (let s := ptp { en := true, best := some (0, 1), t3 := some 0, msT3 := some 0 }; (s.ptu.port .b).t3 = some 0 ∧ (s.ptu.port .b).msT3 = some 0 ∧ fromBest s .b {} = true ∧ ({} : PtpMsg).reqId = clockId s .b ∧ ({} : PtpMsg).seq = (s.ptu.port .b).reqSeq) ∧
    (let s := withReg (domReg .b 0) 0 (ptp { en := true, best := some (9, 1), masters := [⟨heard, 0, true⟩] }); let t := atTick (annTo s .b * logTicks s (logAnn s .b)) s; roleMaster t .b = false ∧ ∃ f ∈ (t.ptu.port .b).masters, (t.ptu.port .b).best = some (f.msg.src, f.msg.srcPort) ∧ f.heard + annTo t .b * logTicks t (logAnn t .b) ≤ t.sys.tick) ∧
    (let s := withReg (domReg .b 0) 0 (ptp { en := true, syncSince := some 0 }); let t := atTick (3 * logTicks s (logSync s .b)) s; roleMaster t .b = false ∧ (t.ptu.port .b).syncSince = some 0 ∧ 0 + 3 * logTicks t (logSync t .b) ≤ t.sys.tick) ∧
    (let s := atTick 5 (ptp { upd := some ⟨0, none, (9, 1), 5⟩ }); (s.ptu.port .b).upd = some ⟨0, none, (9, 1), 5⟩ ∧ 5 ≤ s.sys.tick) ∧
    (let s := atTick 4 (ptp { upd := some ⟨0, none, (9, 1), 5⟩ }); s.sys.tick < 5) := by and_intros <;> decide +kernel

theorem wit_PtpMasterAndControl :
    (let s := asMaster (ptp { en := true } loaded); (s.ptu.port .b).en = true ∧ (s.ptu.port .b).faulty = false ∧ s.sys.snuffed = false ∧ roleMaster s .b = true ∧ s.sys.standby = false ∧ msgFits s .b heard = true) ∧
    (z.sys.standby = true ∧ (z.ptu.port .b).en = false) ∧
    (let s := asMaster (ptp { en := true } loaded); annDue s .b = true ∧ syncDue s .b = true ∧ s.stamps heard.mac ≠ []) ∧
    (let s := asMaster (ptp { annAt := some 0, syncAt := some 0 } loaded); annDue s .b = false ∧ syncDue s .b = false) ∧
    (let s := withReg (domReg .b 0) 0 (ptp { en := true, best := some (9, 1) }); s.sys.snuffed = false ∧ roleMaster s .b = false ∧ (s.ptu.port .b).best ≠ none ∧ (s.ptu.port .b).reqAt = none) ∧
    (let s := withReg (domReg .b 0) 0 (ptp { en := true, best := some (9, 1), reqAt := some 0 }); s.sys.tick < 0 + logTicks s (logDreq s .b)) ∧
    (Reaches .seq z ∧ MayWrite .seq z) ∧
    (let s := withReg (domReg .b 0x2C) 16666 (withReg (domReg .b 0x28) 0xAAAAAAAB (withReg (domReg .b 0) 0 z)); let rate := s.fld (domReg .b 0x2C) 0 16 * 2 ^ 32 + (s.reg (domReg .b 0x28)).toNat; servoEn s .b = false ∧ nominalRate ≤ rate + 2 ^ 36 ∧ rate ≤ nominalRate + 2 ^ 36) ∧
    (let s := withReg (domReg .b 0x2C) 0 (withReg (domReg .b 0x28) 0 z); ¬ (nominalRate ≤ s.fld (domReg .b 0x2C) 0 16 * 2 ^ 32 + (s.reg (domReg .b 0x28)).toNat + 2 ^ 36)) ∧
    servoEn (servo z) .b = true := by and_intros <;> decide +kernel

/-- The part with reference states, and with a register of RSU. -/
def refs (l : List (Nat × Ref)) (s : State := running) : State := { s with rsu := { s.rsu with refs := l } }
/-- At a window's end: references 2, 3 and 4 ELIGIBLE, of which 4 is 100 ppm off. -/
def windowed (pairs : List (Nat × Nat)) : State :=
  let e (n : Nat) : Ref := { state := 4, first := some 0, last := some n, k := 2 }
  let s := refs [(2, e 10240), (3, e 10240), (4, { e 983138304 with k := 10000001 })]
  { s with rsu := { s.rsu with pairs := pairs, winEnd := 0 } }

theorem wit_ReferencesMeasuredAndSelected :
    z.ptu.counter < z.rsu.winEnd ∧
    (windowed []).rsu.winEnd ≤ (windowed []).ptu.counter ∧
    MayWrite .seq z ∧
    (let t := after .measurementWindowEnd (windowed []); isolated t = some 4 ∧ (t.ref 2).rate.isSome = true) ∧
    (isolated z ≠ some 5 ∧ (5 : Nat) < 6) ∧
    (let t := after .measurementWindowEnd (windowed [(2, 4)]); (2, 4) ∈ t.rsu.pairs ∧ (2, 4) ∈ (windowed [(2, 4)]).rsu.pairs) ∧
    (let s := atTick (secTicks running (tQual running)) (refs [(5, { state := 2 })]); (s.ref 5).state = 2 ∧ (s.ref 5).since + secTicks s (tQual s) ≤ s.sys.tick ∧ s.rsu.fenced = false ∧ s.rsu.startup = false) ∧
    (let s := atTick (secTicks running (tWtr running)) (refs [(5, { state := 3 })]); (s.ref 5).state = 3 ∧ (s.ref 5).since + secTicks s (tWtr s) ≤ s.sys.tick) ∧
    (let s := atTick (secTicks running (tWtr running)) (refs [(5, { state := 5 })]); (s.ref 5).state = 5 ∧ (s.ref 5).since + secTicks s (tWtr s) ≤ s.sys.tick) ∧
    (let s := atTick (secTicks z (tFirst z)) (withReg Blk.rsu.base 1 { z with rsu := { startAt := some 0, firstElig := some 0, refs := [(5, { state := 4 })] } }); s.rsu.startup = true ∧ s.rsu.startAt ≠ none ∧ s.rbit Blk.rsu.base 0 = true ∧ s.rsu.fenced = false ∧ s.rsu.firstElig = some 0 ∧ 0 + secTicks s (tFirst s) ≤ s.sys.tick ∧ bestRef s = some 5 ∧ s.sys.aligned = false) ∧
    (let s := atTick (secTicks z (tFirst z)) (withReg Blk.rsu.base 1 { z with rsu := { startAt := some 0, firstElig := some 0 } }); bestRef s = none) ∧
    (let s := atTick (secTicks z (tStart z)) { z with rsu := { startAt := some 0 } }; s.rsu.startup = true ∧ s.rsu.firstElig = none ∧ s.rsu.startAt = some 0 ∧ 0 + secTicks s (tStart s) ≤ s.sys.tick) := by and_intros <;> decide +kernel

/-- The transmit direction of port 15 as x, with its configuration. -/
def dir15 (x : AptDir) (cfg : Word := 0x0 ) (s : State := running) : State := withReg (aptReg 15 0x14) cfg { s with apt := [(31, x)] }

theorem wit_PortDirections :
    (MayWrite .seq z ∧ Reaches .seq z) ∧
    (dir15 { st := .armed }).aptDir 15 .tx = { st := .armed } ∧
    ((dir15 { st := .stopping }).aptDir 15 .tx).st = .stopping ∧
    (withReg (aptReg 15 0) 2 running).rbit (aptReg 15 0) (Dir.tx).idx = true ∧
    (let s := dir15 {} 0x3E0; s.rbit (aptReg 15 0) (Dir.tx).idx = false ∧ cfgOk s .tx (dirCfg s 15 .tx) = false) ∧
    (let s := dir15 {} 1; (s.aptDir 15 .tx).st = .idle ∧ cfgOk s .tx (dirCfg s 15 .tx) = true ∧ aptLoading s 15 .tx = false ∧ s.sys.snuffed = false ∧ cfgMaster (dirCfg s 15 .tx) = true) ∧
    (let s := withReg (aptReg 15 8) 2048 (dir15 {} 1); s.sys.tick + 2048 ≤ 64 * ((startAt s 15 + 63) / 64)) ∧
    (¬ (z.sys.tick + 2048 ≤ 64 * ((startAt z 15 + 63) / 64))) ∧
    (let x := (dir15 { st := .armed, dataAt := 2048 }).aptDir 15 .tx; x.st = .armed ∧ x.dataAt ≤ running.sys.tick + 2048) ∧
    (let x := (dir15 { st := .starting, clocks := true }).aptDir 15 .tx; x.st = .starting ∧ x.clocks = true ∧ running.sys.tick % 64 = 0 ∧ x.dataAt ≤ running.sys.tick) ∧
    (let x := (dir15 { st := .acquiring, acquired := true }).aptDir 15 .tx; x.acquired = true ∧ x.relock = false) ∧
    (let s := dir15 { st := .stopping } 1; (s.aptDir 15 .tx).stopAt ≤ s.sys.tick ∧ (s.aptDir 15 .tx).stopLeft = 0) ∧
    ((dir15 { st := .muted }).aptDir 15 .tx).st = .muted ∧ ((dir15 { st := .muted }).aptDir 15 .tx).locked = false ∧
    ((dir15 { st := .muted, locked := true }).aptDir 15 .tx).locked = true ∧ ((dir15 { st := .starting }).aptDir 15 .tx).st = .starting := by and_intros <;> decide +kernel

theorem wit_PortClockSupervision :
    (let s := dir15 { st := .running, edge := some 0 }; cfgMaster (dirCfg s 15 .tx) = false ∧ isGlitch (expected s 15 .tx) 5 = true) ∧
    (cfgMaster (dirCfg (dir15 {} 1) 15 .tx) = true ∧ ((dir15 {}).aptDir 15 .tx).st = .idle) ∧
    3 ≤ (([true] ++ [true, true]).take 64 |>.filter id).length ∧ watched ((dir15 { st := .armed }).aptDir 15 .tx) = true ∧ watched ((dir15 { st := .muted }).aptDir 15 .tx) = false ∧
    (let c := dirCfg (dir15 {} 8) 15 .tx; cfgBulk c = true ∧ (0 + 25) % (cfgSlots c * cfgW c) ≠ 0 ∧ (List.replicate (min 64 ((0 + 25) / (cfgSlots c * cfgW c))) 5) ≠ []) ∧
    (let x : AptDir := { st := .running, locked := true, edge := some 0, periods := List.replicate 63 10240, lockMean := (655360, 64) }; let ps := (20480 :: x.periods).take 64; ps.length = 64 ∧ ps.length * x.lockMean.1 * lockWin running 15 .tx < absDiff (ps.sum * x.lockMean.2) (ps.length * x.lockMean.1) * 1000000) ∧
    (let s := dir15 { st := .running, edge := some 0 }; let t := { s with ptu := { s.ptu with counter := 4 * (expected s 15 .tx).1 } }; 0 * (expected t 15 .tx).2 + 4 * (expected t 15 .tx).1 ≤ t.ptu.counter * (expected t 15 .tx).2) ∧
    (let s := dir15 { st := .acquiring, acqT0 := some 0, edge := some (4096 * pfs running), acqM := 256 }; (s.aptDir 15 .tx).acquired = false ∧ 256 ≤ (s.aptDir 15 .tx).acqM ∧ 4096 * pfs s ≤ 4096 * pfs running - 0) ∧
    (let x := (dir15 { st := .acquiring, acquired := true, relock := true }).aptDir 15 .tx; x.relock = true ∧ x.locked = false ∧ running.sys.tick % 64 = 0) ∧
    cfgAuto (dirCfg (dir15 {} 0x40000) 15 .tx) = true ∧
    (let s := withReg (Blk.apt 15).base 0 (dir15 {}); s.faultBit (.apt 15) (Dir.tx).idx = false ∧ cfgAuto (dirCfg s 15 .tx) = false) := by and_intros <;> decide +kernel

/-- Modulator channel 31 as x, with DRIVE_EN at a level. -/
def chan31 (x : Mod) (dr : Bool := true) (s : State := running) : State := { s with pwr := { chs := [(31, x)], driveEn := dr } }

theorem wit_ModulatorChannels :
    (Reaches .seq running ∧ MayWrite .seq running ∧ bit (0x80000000 : Word) (31 : Fin 32) = true ∧ bit (0x80000000 : Word) (30 : Fin 32) = false) ∧
    ((chan31 { st := .stopping }).mod 31).st = .stopping ∧ ((chan31 { st := .running }).mod 31).st = .running ∧ ((chan31 { st := .latched }).mod 31).st = .latched ∧ (running.mod 31).st = .off ∧
    (withReg (Blk.pwr.base + 0x1C) 0x80000000 running).rbit (Blk.pwr.base + 0x1C) (31 : Fin 32) = true ∧
    (let s := atTick 4096 (chan31 { st := .starting, ramp := some ⟨0, 0, rgFull⟩ }); (s.mod 31).ramp = some ⟨0, 0, rgFull⟩ ∧ 0 + 64 ≤ s.sys.tick / 64) ∧
    (let s := atTick 4095 (chan31 {}); s.sys.tick / 64 < 64) ∧
    (let s := atTick 4096 (chan31 { st := .stopping, ramp := some ⟨0, rgFull, 0⟩ }); (s.mod 31).ramp = some ⟨0, rgFull, 0⟩) ∧
    (0x200 : Nat) ≤ 0x37C ∧ 0x37C < 0x380 ∧ 0x37C % 4 = 0 ∧ running.sys.run = true ∧ z.sys.run = false ∧
    (let y := running.mod ((0x13E8 - 0x1000) / 0x20); y.st = .off ∧ y.en = false ∧ 0x13E8 % 0x20 = 8) ∧
    (31 : Nat) = (0x13E0 - 0x1000) / 0x20 := by and_intros <;> decide +kernel

theorem wit_OverCurrent :
    (let s := withReg (modReg 31 8) 0 (chan31 { st := .running }); s.pwr.driveEn = true ∧ (s.mod 31).st = .running ∧ (s.mod 31).trunc = none ∧ true ≠ s.rbit (modReg 31 0) 2 ∧
     ocAsserts (ocBlanked (modDt s 31) (ocBlank s 31) (chLegs s 31 0)) (ocFilt s 31) 1 5 0 = some 5) ∧
    (let s := withReg (modReg 31 8) 0xF (chan31 { st := .running }); ocAsserts (ocBlanked (modDt s 31) (ocBlank s 31) (chLegs s 31 0)) (ocFilt s 31) 15 5 0 = none) ∧
    (let s := atTick 1 (chan31 { st := .running, trunc := some 0 }); (s.mod 31).trunc = some 0 ∧ 0 < s.sys.tick ∧ (s.mod 31).lims.head? ≠ some (0 / carrierTicks s) ∧ s.sys.detected.contains (Blk.pwr.base, 0) = false) ∧
    (let s := chan31 { st := .running, trunc := some 0, lims := [0] }; (s.mod 31).lims.head? = some (0 / carrierTicks s)) ∧
    (let s := atTick (16 * 255) (chan31 { st := .running, lims := List.range 64 }); 64 ≤ limitedCount s 31) ∧
    (let s := atTick (16 * 256) (chan31 { st := .running, trunc := some 4080, lims := List.range 64 }); limitedCount s 31 = 63 ∧ (s.mod 31).trunc = some 4080 ∧ 4080 < s.sys.tick ∧ (s.mod 31).lims.head? ≠ some (4080 / carrierTicks s)) ∧
    (let x := (chan31 { st := .stopping }).mod 31; x.st = .stopping ∧ x.en = false) ∧
    (let x := (chan31 { st := .running, en := true, retries := 8 }).mod 31; 8 ≤ x.retries ∧ running.sys.alarm = false) ∧
    (let x := (chan31 { st := .running, en := true, retries := 7 }).mod 31; ¬ (8 ≤ x.retries)) ∧
    (let s := withReg (spkReg 31 0) 5 running; spkCfg s 31 0 = true ∧ spkCfg s 31 2 = true) ∧
    (let s := atTick 64 (chan31 { st := .shutdown, waitEnd := 64 }); (s.mod 31).st = .shutdown ∧ s.sys.tick % 64 = 0 ∧ (s.mod 31).waitEnd ≤ s.sys.tick ∧ s.pwr.driveEn = true) ∧
    (let s := atTick 61440000 (chan31 { st := .running }); (s.mod 31).runSince + s.msTicks 10000 ≤ s.sys.tick) := by and_intros <;> decide +kernel

/-- The calibration as c. -/
def calib (c : Cal) (s : State := running) : State := { s with lsp := { s.lsp with cal := c } }

theorem wit_SensingAndCalibration :
    (let s := withReg (Blk.lsp.base + 8) 0x10000000 running; (67 : Nat) < 68 ∧ snsL (withReg (Blk.lsp.base + 8) 0x1000 running) (snsGroup 63) ≠ 0 ∧ (s.sns 67).lost = false) ∧
    (let s := withReg (Blk.lsp.base + 8) 0x6000 { running with lsp := { running.lsp with sns := [(63, { run := 256 })] } }; 4 * 2 ^ snsL s (snsGroup 63) ≤ (s.sns 63).run) ∧
    (let s := { running with lsp := { running.lsp with sns := [(63, { lost := true })] } }; (s.sns 63).lost = true) ∧
    (let s := calib { busy := true, kind := 1, index := 31 }; s.lsp.cal.busy = true ∧ 32 * s.lsp.cal.kind + s.lsp.cal.index = 63) ∧
    (z.lsp.cal).busy = false ∧
    MayWrite .seq z ∧
    (bits (0x1F10 : Word) 4 2 < 2) ∧ bits (0x1F10 : Word) 8 5 = 31 ∧
    (bits (0x320 : Word) 4 2 = 2 ∧ bits (0x320 : Word) 8 5 < 4) ∧
    (¬ (bits (0x420 : Word) 4 2 < 2 ∨ (bits (0x420 : Word) 4 2 = 2 ∧ bits (0x420 : Word) 8 5 < 4))) ∧
    ((chan31 { st := .running }).mod (bits (0x1F10 : Word) 8 5)).st ≠ .off ∧
    (running.mod 31).st = .off ∧ (running.mod 31).en = false ∧
    (let s := calib { kind := 1, index := 31, zeroDone := true }; (s.lsp.cal.zeroDone && (s.lsp.cal.kind == 1 && s.lsp.cal.index == 31)) = true) ∧
    (let s := calib { busy := true, count := 4096 }; s.lsp.cal.busy = true ∧ s.lsp.cal.isRef = false ∧ s.lsp.cal.count = 4096) ∧
    (let s := withReg (Blk.lsp.base + 0x28) 0x40000 (calib { busy := true, isRef := true, count := 4096, s1 := 2 ^ 30 }); let ref := sInt 20 (s.fld (Blk.lsp.base + 0x28 + 4 * s.lsp.cal.kind) 0 20); let gain := rneDiv (ref * 2 ^ 34) (s.lsp.cal.s1 - s.lsp.cal.s0); s.lsp.cal.isRef = true ∧ 0 < s.lsp.cal.s1 - s.lsp.cal.s0 ∧ 2 ^ 21 ≤ gain ∧ gain < 2 ^ 23) ∧
    (¬ (0 < (calib { busy := true, isRef := true, count := 4096 }).lsp.cal.s1)) := by and_intros <;> decide +kernel

/-- Loudspeaker channel 31 enabled and supervised, as x, at tick n. -/
def spk31 (x : LspCh) (n : Nat) (s : State := running) : State := withReg (spkReg 31 0) 7 (atTick n { s with lsp := { s.lsp with chs := [(31, x)] } })

theorem wit_ThermalModelAndLine :
    (let s := spk31 {} 0; s.sys.tick % 64 = 0 ∧ s.sys.tick / 64 % 64 = 0 ∧ s.lsp.stepped ≠ some 0 ∧ spkCfg s 31 0 = true ∧ spkLost s 31 = false) ∧
    spkCfg z 31 0 = false ∧
    (spk31 {} 63).sys.tick % 64 ≠ 0 ∧
    (let s := onSys (fun y => { y with alarmEff := true }) (withReg (spkReg 31 0x38) 0 (spk31 {} 0)); s.sys.alarmEff = true ∧ (s.spk 31).hot = false) ∧
    (let s := { running with lsp := { sns := [(63, { lost := true })] } }; spkLost s 31 = true) ∧
    (let s := spk31 { estOk := true, sxy := 1, syy := 1 } (64 * 25600); s.sys.tick / 64 % estFrames s = 0 ∧ (s.spk 31).estOk = true ∧ (estSums s 31).2 ≠ 0) ∧
    (let s := withReg (spkReg 31 0x44) 0 (spk31 { estOk := true, syy := 1 } 0); (((estFrames s * (s.fld (spkReg 31 0x44) 0 16 * 4096) ^ 2 : Nat) : Int)) ≤ (estSums s 31).2 ∧ spkCfg s 31 3 = false) ∧
    (let s := spk31 { supOk := true } (64 * 4800); s.sys.tick / 64 % supFrames s = 0 ∧ spkCfg s 31 2 = true ∧ (s.spk 31).supOk = true) ∧
    lineClass (withReg (spkReg 31 0x44) 0x10000 (spk31 { supOk := true } 0)) 31 none = 6 ∧
    lineClass (withReg (spkReg 31 0x44) 0 (spk31 { supOk := true } 0)) 31 (lineZ (spk31 { supOk := true } 0) 31).1 = 2 := by and_intros <;> decide +kernel

/-- The pair logic as p, with ARM and CFG.UNIT 1. -/
def paired (p : Pair) (s : State := running) : State := withReg 0x40160000 1 (withReg 0x40160008 0x10A { s with pair := p })

theorem wit_PairLinkAndCheckpoints :
    solo z = false ∧
    solo (withReg 0x40160008 0x200 z) = true ∧
    (let s := paired { linkUp := true }; let f : PairStatus := { unit := true, health := 1 }; s.pair.linkUp = true ∧ f.unit = unitOf s ∧ unitClash s = false ∧ ticksRun s = true ∧ s.pair.phealth ≠ f.health) ∧
    (let s := paired { partner := some {} }; solo s = false ∧ s.pair.linkUp = false ∧ s.pair.partner ≠ none) ∧
    (paired { linkUp := true, wick := .releasing }).pair.wick = .releasing ∧
    (let s := { paired { linkUp := true, wick := .standby } with ckpt := { collecting := true } }; s.pair.wick ≠ .holding ∧ s.pair.wick ≠ .releasing ∧ s.ckpt.collecting = true) ∧
    (let s := atTick 6144 (paired { wick := .holding }); holder s = true ∧ s.sys.tick % 64 = 0 ∧ (s.sys.tick / 64) % (s.fs / 1000) = 0 ∧ s.ckpt.sentAt ≠ some s.sys.tick) ∧
    receives z = false ∧
    receives (paired { linkUp := true }) = true ∧
    (let c : Ckpt := { nextDelta := some 5, valid := true }; c.nextDelta = some 5 ∧ c.frozen = false) ∧
    (let c : Ckpt := { collecting := true, nextSlice := 99 }; c.collecting = true ∧ 99 = c.nextSlice ∧ 98 ≠ c.nextSlice ∧ 0 ≠ c.nextSlice) ∧
    (z.ckpt.collecting = false ∧ z.ckpt.valid = false) ∧
    (let s := onSys (fun y => { y with standby := true, run := false }) (onImg (fun g => { g with cold := true }) (paired { linkUp := true, wick := .standby })); receives s = true ∧ s.pair.wick = .standby ∧ s.sys.standby = true ∧ s.sys.run = false ∧ s.img.cold = true ∧ s.pair.cold = .none) ∧
    (let s := paired { linkUp := true, releasedAt := some 0 }; s.pair.linkUp = true ∧ s.pair.releasedAt ≠ none) := by and_intros <;> decide +kernel

theorem wit_WickPilotsAndTimers :
    (MayWrite .seq z ∧ z.pair.wick = .disarmed ∧ armed z = false ∧ bit (1 : Word) 0 = true) ∧
    ticksRun (onSys (fun y => { y with resetN := false })) = false ∧
    (let s := onImg (fun g => { g with activeId := 1 }) running; s.img.activeId ≠ 0 ∧ storeBarred s = false ∧ s.sys.snuffed = false ∧ unitClash s = false) ∧
    running.sys.monitorDue = false ∧ (paired { wick := .lighting }).pair.wick = .lighting ∧ (paired { wick := .releasing }).pair.wick = .releasing ∧
    (let s := atTick (pilotTicks (paired {})) (paired { wick := .holding, lastPilot := some 0 }); s.pair.lastPilot = some 0 ∧ 0 + pilotTicks s ≤ s.sys.tick ∧ s.sys.snuffed = false ∧ ticksRun s = true ∧ s.pair.pilotTick ≠ some s.sys.tick) ∧
    (armed (paired {}) = true ∧ armed z = false) ∧
    (let s := onImg (fun g => { g with activeId := 1 }) (paired { wick := .preparing }); eligibleNow s = true) ∧
    (unitOf (paired { wick := .holding }) = true ∧ unitOf z = false) ∧
    (let s := atTick (leaseTicks (paired {})) (paired { wick := .holding, lastPilot := some 0 }); holder s = true ∧ s.pair.lastPilot = some 0 ∧ 0 + leaseTicks s ≤ s.sys.tick) ∧
    (let s := atTick (leaseThr (paired {})) (paired { wick := .standby }); s.pair.wick = .standby ∧ s.pair.leaseFrom + leaseThr s ≤ s.sys.tick) ∧
    (let s := atTick (leaseThr (paired {}) + guardTicks (paired {})) (paired { wick := .preparing }); s.pair.leaseFrom + (leaseThr s + guardTicks s) ≤ s.sys.tick) ∧
    (let s := { atTick (guardTicks (paired {})) (paired { wick := .standby, gotReleased := true }) with ckpt := { nextDelta := some 0 } }; s.pair.gotReleased = true ∧ s.ckpt.nextDelta ≠ none ∧ s.pair.leaseFrom + guardTicks s ≤ s.sys.tick) ∧
    (let s := onSys (fun y => { y with standby := true, run := false }) (onImg (fun g => { g with cold := true }) (paired { wick := .standby })); s.sys.standby = true ∧ s.sys.run = false ∧ s.img.cold = true ∧ s.pair.cold = .none) := by and_intros <;> decide +kernel

theorem wit_TakeoverAndHandover :
    (let s := atTick (pilotTicks (paired {})) (paired { wick := .lighting }); s.pair.wick = .lighting ∧ ticksRun s = true ∧ s.pair.lightAt + pilotTicks s ≤ s.sys.tick ∧ s.ckpt.valid = false ∧ s.pair.newest = none) ∧
    (paired { newest := some (true, true), gotReleased := true }).pair.newest = some (true, true) ∧
    ({ valid := true } : Ckpt).valid = true ∧
    (let s := paired { cold := .configuring }; s.pair.cold = .configuring ∧ s.img.storeCorrupt = false ∧ s.ckpt.held = none ∧ s.sys.run = true) ∧
    (let s : Ckpt := { held := some .image }; s.held ≠ none) ∧
    (let s := paired { cold := .restoring, wick := .holding }; s.pair.cold = .restoring ∧ holder s = true) ∧
    (let s := paired { cold := .restoring }; holder s = false ∧ s.sys.run = true) ∧ z.sys.run = false ∧
    (MayWrite .seq z ∧ z.pair.wick ≠ .holding) ∧
    (let s := paired { wick := .holding, linkUp := true, partner := some { mode := 4, arm := true, wick := 1, ckptValid := true } }; s.sys.snuffed = false ∧ s.sys.maint = false ∧ s.pair.linkFenced = false ∧ ∃ f ∈ s.pair.partner, nbit f.mode 2 = true ∧ f.arm = true ∧ f.wick = 1 ∧ f.ckptValid = true) ∧
    (onSys (fun y => { y with snuffed := true, maint := true }) (paired {})).sys.snuffed = true ∧
    (paired { wick := .holding }).pair.linkUp = false ∧
    (let s := atTick 4160 (paired { wick := .releasing, rampEnd := some 4160 }); s.pair.rampEnd = some 4160 ∧ 4160 ≤ s.sys.tick) ∧
    (let t := leaseTicks (paired {}) + guardTicks (paired {}) + running.msTicks 10; let s := atTick t (paired { releasedAt := some 0 }); s.pair.releasedAt = some 0 ∧ 0 + leaseTicks s + guardTicks s + s.msTicks 10 ≤ s.sys.tick) ∧
    (let s := paired { sweepNext := some 0 }; s.pair.sweepNext = some 0 ∧ 0 ≤ s.sys.tick ∧ s.pair.sweepOn = false) ∧
    (paired { sweepOn := true }).pair.sweepOn = true ∧
    loopable (mac3 {} 8 2) 3 = true ∧
    (let s := { celled { role := .test } with fabric := { tested := [71] } }; 71 ∈ s.fabric.tested ∧ (s.cell 71).role = .test) ∧
    storeBad told = false := by and_intros <;> decide +kernel

/-- Table 18.5's gather descriptor, 32 bytes at 0x10000000 in carafe; its indices at 0x10004000, records in DRAM at 0x120000000. -/
def gather : List Nat := [0x11840000, 0x20000000, 0x10008000, 0x00000001, 0x00000003, 0, 0x10004000, 0]
/-- Channel 15 is served, with a descriptor or without. -/
def dmaServed (x : DmaCh) (s : State := dram []) : State := onDma (fun d => { d with chs := [(15, x)], queue := [15], served := some 15 }) s
def gathering : State :=
  (((dmaServed { st := .active, desc := some gather }).setBytes 0x10004000 (leBytes 4 5 ++ leBytes 4 0 ++ leBytes 4 130)).setBytes 0x120000050 [0xA5]).setBytes 0x12000082F [0x5A]

theorem wit_DmaDescriptorsAndWaits :
    z.dma.served = none ∧
    (let s := dmaServed { st := .active, cur := 1 }; s.dma.served = some 15 ∧ (s.dmaCh 15).desc = none ∧ (s.dmaCh 15).cur % 32 ≠ 0) ∧
    (let s := dmaServed { st := .active, cur := 0x20000000 }; (s.dmaCh 15).cur % 32 = 0 ∧ (spanRead .dma (s.dmaCh 15).cur 32 s).2.2 ≠ none) ∧
    (let s := (dmaServed { st := .active, cur := carafeBase }).setBytes carafeBase (gather.flatMap (leBytes 4)); let r := spanRead .dma carafeBase 32 s; r.2.2 = none ∧ descCheck carafeBase (descWords r.2.1) = 0 ∧ busTarget carafeBase = some .carafe) ∧
    (let r := spanRead .dma carafeBase 32 (dmaServed { st := .active, cur := carafeBase }); r.2.2 = none ∧ descCheck carafeBase (descWords r.2.1) ≠ 0) ∧
    (gathering.dmaCh 15).desc = some gather ∧ (gathering.dmaCh 15).done < dLen gather ∧
    (let x := (dmaServed { st := .active, desc := some gather, done := 3 }).dmaCh 15; dLen gather ≤ x.done ∧ dInt gather = true ∧ dLast gather = true ∧ x.lateHalt = false) ∧
    (dLast (0x10840000 :: gather.tail) = false ∧ (withReg (dmaReg 15 8) 1 z |> (dmaLimit · 15)) ≤ 0 + 1) ∧
    (let s := withReg (dmaReg 15 8) 2 z; 0 + 1 < dmaLimit s 15) ∧
    (let s := withReg (dmaReg 15 4) 0x10100 (atTick 10000 (onDma (fun d => { d with chs := [(15, { st := .queued })], queue := [15] }))); 15 ∈ s.dma.queue ∧ dmaLc s 15 = true ∧ dmaReady s 15 = true ∧ s.dma.served ≠ some 15 ∧ s.usTicks (dmaWaitLim s 15) ≤ s.sys.tick - (s.dmaCh 15).waitFrom) ∧
    (let s := onDma (fun d => { d with chs := [(15, { open_ := true })] }); (s.dmaCh 15).open_ = true ∧ (6 : Fin 7).val ≠ 0) ∧
    (let s := chan .waitReq; (s.dmaCh 15).st = .waitReq ∧ dmaHeld s 15 = false ∧ s.dma.served = none ∧ 15 ∈ s.dma.queue) := by and_intros <;> decide +kernel

theorem wit_DmaBursts :
    (let r := burstRead gather 0 gathering; r.2.2.2.1 = false ∧ r.2.2.2.2 = none ∧ r.1.dmaCh 15 = gathering.dmaCh 15 ∧ dmaHeld gathering 15 = false) ∧
    (let r := burstRead gather 0 gathering; (spanWrite .dma (burstDst gather 0) r.2.1 { r.1 with ste := { general := 61440 } }).2.2 = none ∧ (spanWrite .dma (burstDst gather 0) r.2.1 r.1).2.2 ≠ none ∧ dmaCompat r.1 = false) ∧
    (busTarget (dIdx gather) = some .carafe ∧ busTarget (burstDst gather 0) = some .carafe ∧ (∀ i < 48, busTarget (dSrc gather + gathering.le (dIdx gather + 4 * (i / 16)) 4 * 16 + i % 16) = some .dram)) ∧
    (burstRead (0x11840000 :: 0xFFFFFFF0 :: 0x10008000 :: 0x0000000F :: gather.drop 4) 0 gathering).2.2.2.1 = true ∧
    (burstRead (0x11840000 :: 0x20000000 :: 0x10008000 :: 0 :: gather.drop 4) 0 gathering).2.2.2.2 ≠ none := by and_intros <;> decide +kernel

theorem wit_StepRunsTheCommand : step { z with pending := [.eventTick, .pllLock] } = exec .eventTick { z with pending := [.pllLock] } := rfl
theorem wit_StepKeepsInvariants : z.memOk ∧ z.migApart ∧ (migrating .loading 0 64).migApart ∧ (imaged .reading).memOk ∧
    (∃ t, step { z with pending := [.pllLock] } = .next t) :=
  ⟨(by decide +kernel : Memory.wf z.mem = true), fun g h => (by cases h), migrating_apart _ _ _ _,
    (by decide +kernel : Memory.wf (imaged .reading).mem = true), ⟨_, rfl⟩⟩
/-- The part in the snuffed state, as a host's SNUFF leaves it. -/
def snuffed : State := after (.snuff .hpa) { running with sems := [(0, ⟨some .a, 0⟩)] }

theorem wit_SnuffedStateLasts :
    (Reaches .hpa running ∧ rwsOk .seq running = true ∧ running.sys.snuffed = false) ∧
    (snuffed.sys.snuffed = true ∧ snuffed.sys.run = false ∧ snuffed.sys.standby = true ∧ snuffed.pwr.driveEn = false ∧ snuffed.pair.wick = .disarmed) ∧
    (match step { snuffed with pending := [.runSet .seq] } with | .next t => t.sys.runResult | _ => 0) = 4 := by and_intros <;> decide +kernel

theorem wit_SemaphoresFreed :
    (({ z with hpb := { resetDue := true } } : State).port .b).resetDue = true ∧
    (served.sem 0).owner = some HostId.a := by and_intros <;> decide +kernel

theorem wit_TimeCapture :
    Reaches .hpb served :=
  by decide +kernel

/-! ### Ill-formed commands: a term for each check of WellFormed.lean, which the check refuses -/

theorem ill_addrOk : Instr.wf (.busTimeout .seq (2 ^ 36)) = false ∧ Instr.wf (.write .a (2 ^ 36) [0]) = false := by decide
theorem ill_accessOk : Instr.wf (.dramAccess .seq (.read 0x100000000 0) [] []) = false ∧
    Instr.wf (.dramAccess .seq (.write 0x100000000 (List.replicate 257 0)) [] []) = false := by decide +kernel
theorem ill_wordOk : Instr.wf (.dramScrub [0x100000004] []) = false ∧ Instr.wf (.carafeScrub [] [2 ^ 36]) = false := by decide
theorem ill_frameOk : Instr.wf (.macFrameReceive 0 ⟨[], 0⟩ false) = false := by decide
theorem ill_senseOk : Instr.wf (.senseLost 68) = false := by decide
theorem ill_slotOk : Instr.wf (.frameSyncEdge 0 .rx 0 0 [2 ^ 32]) = false := by decide
theorem ill_blockOk : Instr.wf (.faultDetection (.cell 72) 0 0) = false ∧ Instr.wf (.faultClear .seq (.apt 16) 0) = false := by decide
theorem ill_offOk : Instr.wf (.pwrConfigWrite .seq 2 0) = false := by decide
theorem ill_phaseOk : Instr.wf (.csNEarlyRise .a (.afterRead 0 257)) = false := by decide
theorem ill_frameInOk : Instr.wf (.frameBoundary { sense := [(68, 0)] }) = false := by decide
theorem ill_ranges : Instr.wf (.memInitEnd 0 17) = false ∧ Instr.wf (.sweepPassEnd [72] []) = false ∧ Instr.wf (.sweepPassEnd [] [4]) = false := by decide
theorem well_formed_write : Instr.wf (.write .b (2 ^ 36 - 4) (List.replicate 256 0)) = true := by decide +kernel

/-! ### The spec's own figures, and single steps. Each comment names the table or rule that gives the expected value -/

/-- The nine ASCII bytes "123456789". -/
def nine : List Byte := [0x31, 0x32, 0x33, 0x34, 0x35, 0x36, 0x37, 0x38, 0x39]
/-- R63. -/
theorem test_crc32c : crc32c nine = 0xE3069283 := by decide +kernel
/-- Table 18.11. -/
theorem test_check_units : ((List.range 3).map fun a => chkResult a (chkBytes a (chkInit a) nine)) = [0xCBF43926, 0xE3069283, 0x29B1] := by decide +kernel
/-- R217: the FCS of IEEE 802.3. -/
theorem test_fcs : crc32 nine = 0xCBF43926 := by decide +kernel
/-- The accumulator of Table 4.6. -/
def biquad : Int :=
  alignProduct .s20c20 true 0 (32768 * 200000) + alignProduct .s20c20 true 0 (65536 * 199000) + alignProduct .s20c20 true 0 (32768 * 198000) +
    alignProduct .x40c20 true 1 (137438953473 * 393216) + alignProduct .x40c20 true 0 (68719476737 * (-327681))
/-- Table 4.6: the sum V, the X40 state and the S20 output. -/
theorem test_biquad : biquad = 110272144474559 ∧ (writeback .x40 true .rne biquad 0 0 0).value = 215375282177 ∧
    (writeback .s20 true .rne biquad 0 0 0).value = 205398 := by decide +kernel
/-- Table 4.7: RNE saturates and counts, TRN does not. -/
theorem test_matrix_sum : (let w := writeback .s20 false .rne 274877644800 0 0 0; (w.value, w.raw, w.sat) = (524287, 524288, true)) ∧
    (let w := writeback .s20 false .trn 274877644800 0 0 0; (w.value, w.sat) = (524287, false)) := by decide +kernel
/-- Table 4.8: the written values and the states of six EFB samples, from inputs in units of 1/8 LSB. -/
theorem test_error_feedback :
    (([83, 83, 83, 83, -28, -28] : List Int).foldl (fun (x : List (Int × Nat) × Nat) v =>
      let w := writeback .s20 false .efb (v * 2 ^ 16) x.2 0 0
      (x.1 ++ [(w.value, w.e)], w.e)) ([], 0)).1 =
      [(10, 196608), (10, 393216), (11, 65536), (10, 262144), (-3, 0), (-4, 262144)] := by decide +kernel
/-- Table 4.10: H after the stages of path 412. -/
theorem test_bound_path : hardwareSum [20971520, 26843552, 12582912] = 25165830 ∧ hardwareSum [20971520, 26843552] = 33554440 := by decide +kernel
/-- R110's figures: s0 = -12,800; REF = 349,525 with s1 - s0 = 4,096 × 349,000. The quotient is 4,200,613.48, which rne rounds down; the
example under R110 prints 4,200,614 (notes/assumptions/11). -/
theorem test_calibration : rneDiv (-12800) 256 = -50 ∧ rneDiv (349525 * 2 ^ 34) (4096 * 349000) = 4200613 := by decide +kernel
/-- Table 5.8: LEN 600, then P2 = 1,000 while a schedule runs, at the block boundary. -/
theorem test_resize :
    (let g : AddrGen := { base := 12000, len := 4999, p := [(0, 4500), (1, 620), (2, 600), (3, 1199)], pendLen := some 599, pendP := [(2, some 1000)] }
     let r := (g.takeOver).1
     (r.len, r.ptr 0, r.ptr 1, r.ptr 2, r.ptr 3) = (599, 300, 20, 400, 599) ∧ (g.takeOver).2 = true) := by decide +kernel
/-- Table 10.2: domain A's time at ANCHOR + 983,040,000 periods, in units of 2^-32 ns. -/
theorem test_domain_time : timeNow ⟨4000000000000, 1748000000000000000 * 2 ^ 32, 71582788970354⟩ (4000000000000 + 983040000) =
    1748000001000000009 * 2 ^ 32 + 3566534336 := by decide +kernel
/-- Table 18.5: the fields of the gather descriptor, and that every check of Table 18.4 passes. -/
theorem test_gather_fields : [dKind gather, dEsize gather, dSrc gather, dDst gather, dIdx gather, dLen gather] =
    [1, 4, 0x120000000, 0x10008000, 0x10004000, 3] ∧ dLast gather = true ∧ dInt gather = true ∧ descCheck 0x10000000 gather = 0 := by decide +kernel
/-- Table 18.5: records 5, 0 and 130 lie at 0x120000050, 0x120000000 and 0x120000820, and go to 0x10008000 in one burst of 48 bytes. -/
theorem test_gather_burst : (let t := after .dmaBurst { gathering with ste := { general := 61440 } }
     (t.byte 0x10008000, t.byte 0x10008010, t.byte 0x1000802F, (t.dmaCh 15).bytes, (t.dmaCh 15).done) = (0xA5, 0, 0x5A, 48, 3)) := by decide +kernel
/-- Table 14.4: the end of a block of channel 7. -/
def coil : State :=
  withReg (spkReg 7 4) 0x03E80064 (withReg (spkReg 7 0x18) 6000 (withReg (spkReg 7 0x1C) 400
    (withReg (spkReg 7 0x34) 4096 (withReg (spkReg 7 0x44) 0
      (withReg (spkReg 7 0) 3 { atTick (64 * 25600) running with lsp := { chs := [(7, { tc := 5898240, tm := 3932160, p := 12000, estOk := true, sxy := 765, syy := 1000, useLim := 2240 * 65536 + 1760, useKnee := 320, useRcw := 50332 })] } })))))
/-- Table 14.4, VFS 1 V and IFS 1 A, so that RES is 10^4 × 100 × sxy / (1,000 × syy). -/
theorem test_hot_coil : (let y := (after (.estimationBlockEnd 7) (withReg (spkReg 7 4) 0x03E803E8 coil)).spk 7
     (y.res, y.tmeas, y.tc, y.gt) = (7650, 6224252, 5918615, 2935961)) := by decide +kernel
/-- R335: an active input truncates the period; with FILT 15, 15 counter periods of it do not. -/
theorem test_oc_filter : ((after (.ocInAssert ⟨31, true, 5, 1⟩) (withReg (modReg 31 8) 0 (chan31 { st := .running }))).mod 31).trunc = some 0 ∧
    ((after (.ocInAssert ⟨31, true, 5, 15⟩) (withReg (modReg 31 8) 0xF (chan31 { st := .running }))).mod 31).trunc = none := by decide +kernel
/-- FIPS 180-4: the digest of "abc". -/
theorem test_sha256 : sha256 [0x61, 0x62, 0x63] = 0xba7816bf8f01cfea414140de5dae2223b00361a396177a9cb410ff61f20015ad := by decide +kernel
/-- R508: STEP 0 shifts out 0x04032B5F. -/
theorem test_idcode : (after .idcode z).jtag.out = 0x4032B5F := by decide +kernel
/-- R34, R50: MODE reads the combination code 0x0C after reset. -/
theorem test_mode_code : (busRead .seq 0x40000100 z).2 = (0x0C, .ok) := by decide +kernel
/-- R29, R4: a reserved address ends with DECODE_ERR, an access before the fuses are read with NOT_READY. -/
theorem test_bus_errors : ((after (.registerWrite .seq 0x40190000 0) z).resp .seq).code = .decodeErr ∧
    ((after (.registerWrite .hpa 0x40000118 0) z).resp .hpa).code = .notReady := by decide +kernel
/-- R435: the master that does not hold G gets RWS_DENIED. -/
theorem test_rws_denied : ((after (.runSet .hpb) served).resp .hpb).code = .rwsDenied ∧ ((after (.runSet .hpa) served).resp .hpa).code = .ok := by decide +kernel
/-- R431: a read of a free semaphore takes it, and the next read shows its holder with NEW 0. -/
theorem test_semaphore : (let t := after (.semAcquire .hpb 7) served
     (t.resp .hpb, (after (.semAcquire .hpa 7) t).resp .hpa) = (⟨.ok, [6]⟩, ⟨.ok, [2]⟩)) := by decide +kernel
/-- R421, R422: a frame of 257 words makes no access and answers FRAME_ERR. -/
theorem test_frame_err : ((after (.read .a 0x40000000 257) served).resp .hpa).code = .frameErr := by decide +kernel
/-- R21: three commands in the queue are taken one by one, the first in front. -/
theorem test_queue : (match step { z with pending := [.idcode, .bypass, .extest] } with | .next t => t.pending | _ => []) = [.bypass, .extest] := by decide +kernel
/-- No row of the opcode table has bits: no word spells a command. -/
theorem test_no_words : decodeTableWord 32 0 = none ∧ State.withFetchWord z 32 0 = z := ⟨rfl, rfl⟩

end Sys2Proof.Tests
end

section
/-! SUPPORT. Registers after reset: why the first register of every row of a register table reads the row's Reset column. A row is the
one its own offset finds, its address leads back to its block, so a plain register reads the register file, which holds the Reset
column; a write-only one reads 0; and a register that shows live state shows the state's reset value. -/
namespace Sys2Proof.Machine
open Sys2Proof

/-! ### An address leads back to its block (Table 1.11, R31) -/

/-- The size of a block's register window. -/
def regWindowSize : Blk → Nat
  | .apt _ | .cell _ => 0x1000
  | _ => 0x10000

/-- The 64 KiB page of the register space that a block's window lies in; `regPage_base` ties it to the addresses. -/
def regPage : Blk → Nat
  | .sys => 0 | .img => 1 | .hp => 2 | .bmx => 3 | .dma => 4 | .chk => 5 | .twc => 6 | .flc => 7
  | .mac n => 8 + n | .ste => 12 | .ptu => 13 | .rsu => 14 | .mxe => 16 | .ldg => 17 | .apt _ => 18
  | .pwr => 20 | .lsp => 21 | .pair => 22 | .memc => 23 | .dly => 24 | .cell p => 32 + p / 16

theorem regSpace_le_base (b : Blk) : 0x40000000 ≤ b.base := by
  cases b <;> simp only [Blk.base] <;> omega

theorem regPage_base {b : Blk} {off : Nat} (hb : blockOk b = true) (hoff : off < regWindowSize b) :
    (b.base + off - 0x40000000) / 0x10000 = regPage b := by
  cases b <;> simp only [Blk.base, regPage, regWindowSize, blockOk, decide_eq_true_eq] at * <;> omega

theorem base_add_mod_windowSize {b : Blk} {off : Nat} (hoff : off < regWindowSize b) : (b.base + off) % regWindowSize b = off := by
  cases b <;> simp only [Blk.base, regWindowSize] at * <;> omega

theorem aptBase_unit {n off : Nat} (hn : n < 16) (hoff : off < 0x1000) : ((Blk.apt n).base + off) % 0x10000 / 0x1000 = n := by
  simp only [Blk.base]; omega

theorem aptBase_offset {n off : Nat} (hoff : off < 0x1000) : ((Blk.apt n).base + off) % 0x10000 % 0x1000 = off := by
  simp only [Blk.base]; omega

theorem cellBase_unit {p off : Nat} (hoff : off < 0x1000) : ((Blk.cell p).base + off - 0x40200000) / 0x1000 = p := by
  simp only [Blk.base]; omega

theorem cellSpace_le_base (p off : Nat) : 0x40200000 ≤ (Blk.cell p).base + off := by
  rw [Blk.base]; omega

/-- The windows of Table 1.11 do not overlap: an address in a block's window is that block's register at that offset. -/
theorem regWindow_base {b : Blk} {off : Nat} (hb : blockOk b = true) (hoff : off < regWindowSize b) :
    regWindow (b.base + off) = some (b, off) := by
  have hlow : ¬ b.base + off < 0x40000000 := not_lt.mpr ((regSpace_le_base b).trans (Nat.le_add_right _ _))
  have hrest := base_add_mod_windowSize hoff
  unfold regWindow
  rw [if_neg hlow]
  dsimp only
  rw [regPage_base hb hoff]
  cases b with
  | mac n =>
    have hn : n < 4 := of_decide_eq_true hb
    interval_cases n <;> exact congrArg (fun o => some (_, o)) hrest
  | apt n =>
    have hn : n < 16 := of_decide_eq_true hb
    exact congrArg₂ (fun k o => some (Blk.apt k, o)) (aptBase_unit hn hoff) (aptBase_offset hoff)
  | cell p =>
    have hp : p < 72 := of_decide_eq_true hb
    dsimp only [regPage]
    split <;> try omega
    rw [if_neg (not_lt.mpr (cellSpace_le_base p off)), cellBase_unit hoff, if_pos hp]
    exact congrArg (fun o => some (_, o)) hrest
  | _ => exact congrArg (fun o => some (_, o)) hrest

/-! ### The register tables -/

/-- The unit whose table and reset state stand for those of all units of its kind: port 0, cell 0. -/
def tableUnit : Blk → Blk
  | .apt _ => .apt 0
  | .cell _ => .cell 0
  | b => b

/-- The blocks that `tableUnit` has to tell apart. -/
def tableUnits : List Blk := pendBlks ++ [.apt 0, .cell 0]

theorem tableUnit_mem {b : Blk} (hb : blockOk b = true) : tableUnit b ∈ tableUnits := by
  cases b with
  | mac n =>
    have hn : n < 4 := of_decide_eq_true hb
    interval_cases n <;> decide
  | _ => simp [tableUnit, tableUnits, pendBlks]

theorem blkRows_tableUnit (b : Blk) : blkRows (tableUnit b) = blkRows b := by cases b <;> rfl
theorem intPairs_tableUnit (b : Blk) : intPairs (tableUnit b) = intPairs b := by cases b <;> rfl
theorem regWindowSize_tableUnit (b : Blk) : regWindowSize (tableUnit b) = regWindowSize b := by cases b <;> rfl

/-- What a row of a table is to a reader of its first register: the row its offset finds, inside the window, and 0 after reset if it can
only be written. -/
abbrev RowReadable (b : Blk) (r : RegRow) : Prop :=
  findRow (blkRows b) r.off = some r ∧ r.off < regWindowSize b ∧ (r.acc = .wo → r.reset = 0)

theorem tableUnits_rowReadable : ∀ b ∈ tableUnits, ∀ r ∈ blkRows b, RowReadable b r := by decide +kernel

theorem rowReadable {b : Blk} (hb : blockOk b = true) {r : RegRow} (hr : r ∈ blkRows b) : RowReadable b r := by
  have h := tableUnits_rowReadable _ (tableUnit_mem hb) r
  rw [RowReadable, blkRows_tableUnit, regWindowSize_tableUnit] at h
  exact h hr

/-! ### The register file after reset (R7) -/

theorem reset_reg (a : Nat) : State.reset.reg a = regReset a := rfl

/-- The register file starts with the Reset column of the block's table, and 0 at an unoccupied offset (R6). -/
theorem regReset_base {b : Blk} {off : Nat} (hb : blockOk b = true) (hoff : off < regWindowSize b) :
    regReset (b.base + off) = (findRow (blkRows b) off).elim 0 fun r => wd r.reset := by
  simp only [regReset, regWindow_base hb hoff]
  cases findRow (blkRows b) off <;> rfl

theorem regReset_row {b : Blk} (hb : blockOk b = true) {r : RegRow} (hr : r ∈ blkRows b) : regReset (b.base + r.off) = wd r.reset := by
  obtain ⟨hrow, hoff, -⟩ := rowReadable hb hr
  rw [regReset_base hb hoff, hrow]
  rfl

/-! ### No block asks for an interrupt after reset (R402, R403) -/

theorem tableUnits_statusReset : ∀ b ∈ tableUnits, ∀ t ∈ intPairs b,
    t.1 < regWindowSize b ∧ ((findRow (blkRows b) t.1).elim 0 fun r => wd r.reset) = 0 := by decide +kernel

/-- Every status register that can raise an interrupt reads 0 after reset. -/
theorem reset_statusReg {b : Blk} (hb : blockOk b = true) {t : Nat × Nat × Nat} (ht : t ∈ intPairs b) :
    State.reset.reg (b.base + t.1) = 0 := by
  have h := tableUnits_statusReset _ (tableUnit_mem hb) t
  rw [intPairs_tableUnit, blkRows_tableUnit, regWindowSize_tableUnit] at h
  obtain ⟨hoff, hzero⟩ := h ht
  rw [reset_reg, regReset_base hb hoff, hzero]

theorem reset_faultStatus {b : Blk} (hb : blockOk b = true) : State.reset.reg (b.base + 0x80) = 0 := by
  have hmem : (0x080, 0x084, 0x088) ∈ intPairs b := by cases b <;> exact List.mem_cons_self
  exact reset_statusReg hb hmem

theorem blkRequest_reset (h : HostId) {b : Blk} (hb : blockOk b = true) : blkRequest State.reset h b = false := by
  unfold blkRequest
  rw [List.any_eq_false]
  intro t ht
  simp [reset_statusReg hb ht]

theorem requestBit_reset (h : HostId) {b : Blk} (hb : blockOk b = true) (k : Nat) : b2n (blkRequest State.reset h b) * 2 ^ k = 0 := by
  rw [blkRequest_reset h hb]
  exact Nat.zero_mul _

theorem pendBlks_ok : ∀ b ∈ pendBlks, blockOk b = true := by decide

theorem blocksOf_ok {i : Nat} {b : Blk} (hb : b ∈ blocksOf i) : blockOk b = true := by
  unfold blocksOf at hb
  split at hb
  · obtain ⟨n, hn, rfl⟩ := List.mem_map.mp hb
    exact decide_eq_true (List.mem_range.mp hn)
  · split at hb
    · obtain ⟨p, hp, rfl⟩ := List.mem_map.mp hb
      exact decide_eq_true (List.mem_range.mp hp)
    · exact pendBlks_ok b (List.mem_of_mem_filter hb)

theorem pendApt_reset (h : HostId) : pendApt State.reset h = 0 := by
  refine List.sum_eq_zero fun x hx => ?_
  obtain ⟨n, hn, rfl⟩ := List.mem_map.mp hx
  have hport : blockOk (.apt n) = true := decide_eq_true (List.mem_range.mp hn)
  exact requestBit_reset h hport n

theorem pendCells_reset (h : HostId) (i : Nat) : pendCells State.reset h i = 0 := by
  refine List.sum_eq_zero fun x hx => ?_
  obtain ⟨k, -, rfl⟩ := List.mem_map.mp hx
  split
  case isTrue hp =>
    have hcell : blockOk (.cell (32 * i + k)) = true := decide_eq_true hp
    exact requestBit_reset h hcell k
  case isFalse => rfl

theorem pendWord_reset (h : HostId) : pendWord State.reset h = 0 := by
  have hblks : (pendBlks.map fun b => b2n (blkRequest State.reset h b) * 2 ^ b.index).sum = 0 := by
    refine List.sum_eq_zero fun x hx => ?_
    obtain ⟨b, hb, rfl⟩ := List.mem_map.mp hx
    exact requestBit_reset h (pendBlks_ok b hb) b.index
  rw [pendWord, hblks]
  simp [pendApt_reset, pendCells_reset, b2n]

theorem faultAny_reset : faultAny State.reset = 0 := by
  have hbit (i : Nat) : ((blocksOf i).any fun b => State.reset.reg (b.base + 0x80) != 0) = false := by
    rw [List.any_eq_false]
    intro b hb
    simp [reset_faultStatus (blocksOf_ok hb)]
  simp only [faultAny, hbit]
  rfl

/-! ### Registers that show live state -/

/-- The registers of the table that have a value after reset: all but SEM, which a read acquires, and RXWIN, for which the spec gives none. -/
abbrev HasReset (b : Blk) (r : RegRow) : Prop := ¬ (b = .hp ∧ r.off = 0x1000) ∧ ¬ (b = .ste ∧ r.off = 0x8000)

/-- A live register at the start of this row shows the row's reset value. -/
abbrev LiveReset (b : Blk) (r : RegRow) : Prop := ∀ x ∈ blkLiveRead .hpa b r.off State.reset, x.2 = wd r.reset

theorem hasReset_tableUnit (b : Blk) (r : RegRow) : HasReset (tableUnit b) r ↔ HasReset b r := by
  cases b <;> simp [tableUnit, HasReset]

/-- After reset all ports are alike, and all cells. -/
theorem blkLiveRead_tableUnit (b : Blk) (off : Nat) : blkLiveRead .hpa (tableUnit b) off State.reset = blkLiveRead .hpa b off State.reset := by
  cases b <;> rfl

/-- The offsets in SYS of PEND_A, PEND_B, FAULT_ANY, PEND_APT and the first words of PEND_CELL, which sum up the blocks (R403). -/
def sysSummaries : List Nat := [0x200, 0x204, 0x208, 0x20C, 0x210, 0x220]

theorem sysRegRead_summary {off : Nat} (h : off ∈ sysSummaries) (m : Master) : sysRegRead m off State.reset = some (State.reset, 0) := by
  fin_cases h <;> simp [sysRegRead, pendWord_reset, faultAny_reset, pendApt_reset, pendCells_reset, pack, wd]

theorem rowsSys_summary_reset : ∀ r ∈ rowsSys, r.off ∈ sysSummaries → r.reset = 0 := by decide

/-- Every live register that sums up no other block is evaluated on the reset state, where it stands at the start of a row. -/
theorem tableUnits_liveReset :
    ∀ b ∈ tableUnits, ∀ r ∈ blkRows b, HasReset b r → ¬ (b = .sys ∧ r.off ∈ sysSummaries) → LiveReset b r := by decide +kernel

theorem liveReset {b : Blk} (hb : blockOk b = true) {r : RegRow} (hr : r ∈ blkRows b) (hreset : HasReset b r) : LiveReset b r := by
  by_cases hsum : tableUnit b = .sys ∧ r.off ∈ sysSummaries
  · obtain ⟨hsys, hoff⟩ := hsum
    rw [← blkRows_tableUnit, hsys] at hr
    rw [LiveReset, ← blkLiveRead_tableUnit, hsys]
    intro x hx
    rw [blkLiveRead, sysRegRead_summary hoff] at hx
    cases hx
    rw [rowsSys_summary_reset r hr hoff]
    rfl
  · rw [LiveReset, ← blkLiveRead_tableUnit]
    rw [← blkRows_tableUnit] at hr
    exact tableUnits_liveReset _ (tableUnit_mem hb) r hr ((hasReset_tableUnit b r).mpr hreset) hsum

/-! ### A register read -/

/-- What a host's read of the register at an occupied offset answers: the live value where there is one, 0 if it can only be written,
and otherwise the register file (R4). -/
theorem regRead_host {b : Blk} {off : Nat} {s : State} {r : RegRow} (hrow : findRow (blkRows b) off = some r) :
    (regRead .hpa b off s).2.1 = (blkLiveRead .hpa b off s).elim (if r.acc = .wo then 0 else s.reg (b.base + off)) Prod.snd := by
  have hacc : steAccessErr .hpa off = false := rfl
  unfold regRead
  rw [hrow]
  cases b <;> simp only [hacc, Bool.false_eq_true, if_false] <;> cases blkLiveRead _ _ _ _ <;> rfl

/-- After reset the first register of every row reads the Reset column, in every block, port and cell (R7). -/
theorem regRead_reset {b : Blk} (hb : blockOk b = true) {r : RegRow} (hr : r ∈ blkRows b) (hreset : HasReset b r) :
    (regRead .hpa b r.off State.reset).2.1 = wd r.reset := by
  obtain ⟨hrow, -, hwo⟩ := rowReadable hb hr
  rw [regRead_host hrow]
  cases hlive : blkLiveRead .hpa b r.off State.reset with
  | some x => exact liveReset hb hr hreset x hlive
  | none =>
    simp only [Option.elim_none]
    split
    case isTrue hacc => rw [hwo hacc]; rfl
    case isFalse => exact regReset_row hb hr

/-! ### The obligation -/

theorem reset_migApart : State.reset.migApart := fun _ hmig => nomatch hmig

theorem modeWord_reset : modeWord State.reset = 0x0C := by decide

/-- Settles O54: the fields stand in State.reset, and regRead_reset reads the tables of the blocks named. -/
theorem resetState : Obligations.ResetState := by
  refine ⟨rfl, wf_nil, reset_migApart, rfl, modeWord_reset, rfl, rfl, rfl, rfl, rfl, fun _ => rfl, reset_reg, ?_⟩
  intro b hb r hr hsem hrxwin
  have hok : blockOk b = true := List.all_eq_true.mp (by decide) b hb
  exact regRead_reset hok hr ⟨hsem, hrxwin⟩

end Sys2Proof.Machine
end

section
/-! SUPPORT. A step takes the front of the queue; the reads that capture, and a bus timeout (R33, R258, R268, R417, R444). -/
namespace Sys2Proof.Machine
open Sys2Proof

/-- Settles O55: the two clauses are the two arms of step. -/
theorem stepRunsTheCommand : Obligations.StepRunsTheCommand := by
  intro s c q
  refine ⟨rfl, fun hempty => ?_⟩
  rw [step, hempty]

/-! ### The reads that capture -/

theorem waitMaxRead_beforeFuses (i : Nat) {s : State} (h : s.img.fuseRead = false) : waitMaxRead i s = (s, 0) := by
  simp [waitMaxRead, h]

/-- Once a host can have waited, the read draws one free value and clears its own entry (R444). -/
theorem waitMaxRead_afterFuses (i : Nat) {s : State} (h : s.img.fuseRead = true) :
    (waitMaxRead i s).1 =
      { s with freeCount := s.freeCount + 1, bmx := { s.bmx with waitMax := Tab.set (fun _ => 0) s.bmx.waitMax i 0 } } := by
  simp [waitMaxRead, h, State.draw]

/-! ### A bus timeout (R417) -/

/-- FAULT_STATUS of MEMC, where the timeout of an access to DRAM shows. -/
abbrev memcFaults : Nat := Blk.memc.base + 0x80

/-- What the end of a master's work leaves as it is: every memory byte, every cell, and the status of MEMC. -/
def memcView (s : State) : List Host.Cell × Tab Cell × Word := (s.mem, s.cells, s.reg memcFaults)

section
variable (s : State)

@[simp] theorem memcView_updCh (n : Nat) (f : DmaCh → DmaCh) : memcView (updCh n f s) = memcView s := rfl
@[simp] theorem memcView_updDma (f : Dma → Dma) : memcView (updDma f s) = memcView s := rfl
@[simp] theorem memcView_updChk (u : Nat) (f : ChkU → ChkU) : memcView (updChk u f s) = memcView s := rfl
@[simp] theorem memcView_updLine (i : Nat) (f : Line → Line) : memcView (updLine i f s) = memcView s := rfl

theorem memcView_raise {b : Blk} {i : Nat} (hstatus : memcFaults ≠ b.base + 0x80) (hcount : memcFaults ≠ b.base + 0x90 + 4 * i) :
    memcView (raise b i s) = memcView s := by
  rw [memcView, raise_mem, raise_cells, raise_reg b i _ s hstatus hcount]
  rfl

@[simp] theorem memcView_dmaSelect : memcView (dmaSelect s) = memcView s := by
  obtain ⟨hframe, -⟩ := select_sel s
  rw [hframe]
  rfl

theorem memcView_dmaBusErr (n a : Nat) (c : Code) : memcView (dmaBusErr n a c s) = memcView s := by
  have hraise (t : State) : memcView (raise .dma 1 t) = memcView t := memcView_raise t (by decide) (by decide)
  simp [dmaBusErr, dmaHalt, dmaLeave, hraise]

theorem memcView_chkBusErr {u : Nat} (hu : u < 4) (a : Nat) (c : Code) : memcView (chkBusErr u a c s) = memcView s := by
  have hevt (t : State) : memcView (evt .chk u t) = memcView t := congrArg (t.mem, t.cells, ·) (evt_reg .chk u memcFaults t)
  have hraise : memcView (raise .chk (4 * u + 2) s) = memcView s :=
    memcView_raise s (by decide) (by simp only [memcFaults, Blk.base]; omega)
  simp [chkBusErr, chkIdle, hevt, hraise]

theorem memcView_lineErr (l : Nat) : memcView (lineErr 0 l s) = memcView s := by
  have hraise : memcView (raise .dly 0 s) = memcView s := memcView_raise s (by decide) (by decide)
  simp [lineErr, hraise]

theorem memcView_endFrame (h : HostId) (c : Code) (fail : Option Nat) (arms : Bool) : memcView (endFrame h c fail arms s) = memcView s := by
  unfold endFrame
  split
  · rfl
  · cases h <;> rfl

theorem chkAt_lt {s : State} {a u : Nat} (h : chkAt s a = some u) : u < 4 := List.mem_range.mp (List.mem_of_find?_eq_some h)

theorem memcView_timeoutAct (m : Master) (a : Nat) : memcView (timeoutAct m a s) = memcView s := by
  cases m with
  | hpa => exact memcView_endFrame s .a .timeout (some a) false
  | hpb => exact memcView_endFrame s .b .timeout (some a) false
  | dma =>
    dsimp only [timeoutAct]
    split
    · exact memcView_dmaBusErr s _ a .timeout
    · rfl
  | chk =>
    dsimp only [timeoutAct]
    split
    next u hu => exact memcView_chkBusErr s (chkAt_lt hu) a .timeout
    next => rfl
  | dly =>
    dsimp only [timeoutAct]
    split
    · exact memcView_lineErr s _
    · rfl
  | _ => rfl

end

/-- The state in which a timeout ends its master's work: where the target is DRAM, MEMC has detected it. -/
def timeoutDetected (a : Nat) (s : State) : State := if busTarget a == some .dram then raise .memc 2 s else s

theorem busTimeout_eq (m : Master) (a : Nat) (s : State) :
    busTimeout m a s = respond m .timeout [0] (timeoutAct m a (timeoutDetected a s)) := rfl

theorem timeoutDetected_frame (a : Nat) (s : State) :
    timeoutDetected a s = { s with regs := (timeoutDetected a s).regs, sys := (timeoutDetected a s).sys } := by
  unfold timeoutDetected
  split
  · exact raise_frame .memc 2 s
  · rfl

/-- The frame of host A that a timeout ends records its address and the status TIMEOUT (Table 17.2). -/
theorem endFrame_timeout {a : Nat} {s : State} (h : portVoid s .a = false) :
    (endFrame .a .timeout (some a) false s).hpa.errAddr = a ∧ (endFrame .a .timeout (some a) false s).hpa.last % 16 = Code.timeout.num := by
  unfold endFrame
  rw [h]
  refine ⟨rfl, ?_⟩
  show (128 + 64 * _ + 32 * _ + Code.timeout.num) % 16 = Code.timeout.num
  simp only [Code.num]
  omega

theorem timeoutDetected_tick (a : Nat) (s : State) : (timeoutDetected a s).sys.tick = s.sys.tick := by
  unfold timeoutDetected
  split <;> rfl

theorem busTimeout_spec (m : Master) (a : Nat) (s : State) :
    ∃ t, exec (.busTimeout m a) s = .next t ∧ t.resp m = ⟨.timeout, [0]⟩ ∧ t.mem = s.mem ∧ t.cells = s.cells ∧
      (busTarget a = some .dram → t.faultBit .memc 2 = true) ∧
      (m = .hpa → portVoid s .a = false → t.hpa.errAddr = a ∧ t.hpa.last % 16 = Code.timeout.num) := by
  have hframe := timeoutDetected_frame a s
  have hview := memcView_timeoutAct (timeoutDetected a s) m a
  simp only [memcView, Prod.mk.injEq] at hview
  obtain ⟨hmem, hcells, hfaults⟩ := hview
  refine ⟨busTimeout m a s, rfl, ?_, ?_, ?_, fun hdram => ?_, fun hm hvoid => ?_⟩
  · rw [busTimeout_eq, resp_respond_same]
  · rw [busTimeout_eq, respond_mem, hmem, hframe]
  · rw [busTimeout_eq, respond_cells, hcells, hframe]
  · have hreg : (busTimeout m a s).reg memcFaults = (timeoutDetected a s).reg memcFaults := hfaults
    rw [State.faultBit, State.rbit, hreg, timeoutDetected, hdram]
    exact raise_fault .memc 2 s (by decide)
  · subst hm
    have hvoid' : portVoid (timeoutDetected a s) .a = false := by
      rw [portVoid, timeoutDetected_tick, hframe]
      exact hvoid
    exact endFrame_timeout hvoid'

/-- Settles O27: each read is its effect and the answer OK, and busTimeout_spec is the timeout. -/
theorem capturesAndTimeouts : Obligations.CapturesAndTimeouts := by
  intro s m
  refine ⟨fun hreach => ⟨?_, ?_, fun i hfuse => ?_, fun i hfuse => ?_, ?_⟩, fun a => busTimeout_spec m a s⟩
  · refine ⟨_, rfl, ?_⟩
    rw [rdCmd_ok hreach]
    exact ⟨resp_respond_same .., rfl, fun k => tab_get_set _ _ _ _ _⟩
  · refine ⟨_, rfl, ?_⟩
    rw [rdCmd_ok hreach]
    exact ⟨resp_respond_same .., rfl, fun k => tab_get_set _ _ _ _ _⟩
  · refine ⟨_, rfl, ?_⟩
    rw [rdCmd_ok hreach, waitMaxRead_beforeFuses _ hfuse]
    exact ⟨resp_respond_same .., rfl⟩
  · refine ⟨_, (waitMaxRead i.val s).2, rfl, ?_⟩
    rw [rdCmd_ok hreach, waitMaxRead_afterFuses _ hfuse]
    exact ⟨resp_respond_same .., rfl, fun k => tab_get_set (fun _ => 0) s.bmx.waitMax i.val k 0⟩
  · refine ⟨_, rfl, ?_⟩
    rw [rdCmd_ok hreach]
    exact ⟨resp_respond_same .., rfl⟩

end Sys2Proof.Machine
end

section
/-! SUPPORT. What the work of a tick, of a sample frame and of a window leaves as it is. One projection of the state, `kept`, holds it, and
each operation that work calls is shown to keep it; the operations stand block by block, in the order of the model. -/
namespace Sys2Proof.Machine
open Sys2Proof

/-- Whose work it is: what a tick strobe brings about, what a frame evaluates, or what settles behind the counts of a closed window. -/
inductive Work where
  | tick | frame | window

/-- Of SYS: the tick number always; in a frame also RUN, ALARM, STANDBY and the boundaries already evaluated. -/
def keptSys (w : Work) (y : Sys) : Nat × Option (Bool × Bool × Bool × Option Nat × Option Nat) :=
  (y.tick, match w with
    | .frame => some (y.run, y.alarm, y.standby, y.frameAt, y.windowAt)
    | _ => none)

/-- What the work keeps: the counter and the start-up wait of RSU always; in a tick the memory, the fuses and the flash; behind a window's
counts the counts themselves. -/
structure Kept where
  sys : Nat × Option (Bool × Bool × Bool × Option Nat × Option Nat)
  counter : Nat
  startup : Bool
  stores : Option (List Host.Cell × Fuses × Tab Byte)
  counts : Option (Ldg × Memc)

/-- What the work leaves as it is of a state: two states with the same projection agree on it (`kept_tick_iff`, `kept_frame_iff`). -/
def kept (w : Work) (s : State) : Kept where
  sys := keptSys w s.sys
  counter := s.ptu.counter
  startup := s.rsu.startup
  stores := match w with
    | .tick => some (s.mem, s.img.fuses, s.flc.flash)
    | _ => none
  counts := match w with
    | .window => some (s.ldg, s.memc)
    | _ => none

theorem kept_tick_iff {s t : State} :
    kept .tick t = kept .tick s ↔
      t.sys.tick = s.sys.tick ∧ t.ptu.counter = s.ptu.counter ∧ t.rsu.startup = s.rsu.startup ∧
        t.mem = s.mem ∧ t.img.fuses = s.img.fuses ∧ t.flc.flash = s.flc.flash := by
  simp [kept, keptSys]

theorem kept_frame_iff {s t : State} :
    kept .frame t = kept .frame s ↔
      (t.sys.tick = s.sys.tick ∧ t.sys.run = s.sys.run ∧ t.sys.alarm = s.sys.alarm ∧ t.sys.standby = s.sys.standby ∧
        t.sys.frameAt = s.sys.frameAt ∧ t.sys.windowAt = s.sys.windowAt) ∧ t.ptu.counter = s.ptu.counter ∧ t.rsu.startup = s.rsu.startup := by
  simp [kept, keptSys]

theorem kept_window_counts {s t : State} (h : kept .window t = kept .window s) : t.ldg = s.ldg ∧ t.memc = s.memc := by
  simpa [kept] using congrArg Kept.counts h

/-- Work done one element of a list after the other keeps what each piece of it keeps. -/
theorem kept_foldl {α : Type} {w : Work} {f : State → α → State} (h : ∀ s a, kept w (f s a) = kept w s) (l : List α) (s : State) :
    kept w (l.foldl f s) = kept w s := by
  induction l generalizing s with
  | nil => rfl
  | cons a l ih => rw [List.foldl_cons, ih, h]

/-- The same for work that carries a value of its own along. -/
theorem kept_foldl_fst {α β : Type} {w : Work} {f : State × β → α → State × β} (h : ∀ r a, kept w (f r a).1 = kept w r.1) (l : List α)
    (r : State × β) : kept w (l.foldl f r).1 = kept w r.1 := by
  induction l generalizing r with
  | nil => rfl
  | cons a l ih => rw [List.foldl_cons, ih, h]

section
variable (w : Work) (s : State)

/-! ### The fields and their setters -/

@[simp] theorem kept_setReg (a : Nat) (v : Word) : kept w (s.setReg a v) = kept w s := rfl
@[simp] theorem kept_setFld (a lo n v : Nat) : kept w (s.setFld a lo n v) = kept w s := rfl
@[simp] theorem kept_orReg (a : Nat) (m : Word) : kept w (s.orReg a m) = kept w s := rfl
@[simp] theorem kept_setCell (p : Nat) (c : Cell) : kept w (s.setCell p c) = kept w s := rfl
@[simp] theorem kept_updCell (p : Nat) (f : Cell → Cell) : kept w (s.updCell p f) = kept w s := rfl
@[simp] theorem kept_cells (x : Tab Cell) : kept w { s with cells := x } = kept w s := rfl
@[simp] theorem kept_fabric (x : Fabric) : kept w { s with fabric := x } = kept w s := rfl
@[simp] theorem kept_tick_updLdg (f : Ldg → Ldg) : kept .tick (s.updLdg f) = kept .tick s := rfl
@[simp] theorem kept_updMxe (f : Mxe → Mxe) : kept w (s.updMxe f) = kept w s := rfl
@[simp] theorem kept_dly (x : Dly) : kept w { s with dly := x } = kept w s := rfl
@[simp] theorem kept_updLine (i : Nat) (f : Line → Line) : kept w (updLine i f s) = kept w s := rfl
@[simp] theorem kept_updMac (n : Nat) (f : Mac → Mac) : kept w (updMac n f s) = kept w s := rfl
@[simp] theorem kept_updSte (f : Ste → Ste) : kept w (updSte f s) = kept w s := rfl
@[simp] theorem kept_updFlow (i : Nat) (f : Flow → Flow) : kept w (updFlow i f s) = kept w s := rfl
@[simp] theorem kept_netRx (x : Tab Int) : kept w { s with netRx := x } = kept w s := rfl
@[simp] theorem kept_portIn (x : Tab Int) : kept w { s with portIn := x } = kept w s := rfl
@[simp] theorem kept_rails (x : Tab Rail) : kept w { s with rails := x } = kept w s := rfl
@[simp] theorem kept_updDir (n : Nat) (d : Dir) (f : AptDir → AptDir) : kept w (updDir n d f s) = kept w s := rfl
@[simp] theorem kept_updSpk (n : Nat) (f : LspCh → LspCh) : kept w (updSpk n f s) = kept w s := rfl
@[simp] theorem kept_updSns (i : Nat) (f : Sense → Sense) : kept w (updSns i f s) = kept w s := rfl
@[simp] theorem kept_updMod (n : Nat) (f : Mod → Mod) : kept w (updMod n f s) = kept w s := rfl
@[simp] theorem kept_setChBit (o n : Nat) (v : Bool) : kept w (setChBit o n v s) = kept w s := rfl
@[simp] theorem kept_pwr (x : Pwr) : kept w { s with pwr := x } = kept w s := rfl
@[simp] theorem kept_frame_updMemc (f : Memc → Memc) : kept .frame (updMemc f s) = kept .frame s := rfl
@[simp] theorem kept_updPair (f : Pair → Pair) : kept w (s.updPair f) = kept w s := rfl
@[simp] theorem kept_pair (x : Pair) : kept w { s with pair := x } = kept w s := rfl
@[simp] theorem kept_setBytes (a : Nat) (l : List Byte) : kept .frame (s.setBytes a l) = kept .frame s := rfl

variable {w s} in
/-- A change of SYS keeps what it keeps of SYS's own fields. -/
theorem kept_updSys {f : Sys → Sys} (h : keptSys w (f s.sys) = keptSys w s.sys) : kept w (s.updSys f) = kept w s := by
  simp only [kept, State.updSys, h]

variable {w s} in
theorem kept_updImg {f : Img → Img} (h : (f s.img).fuses = s.img.fuses) : kept w (s.updImg f) = kept w s := by
  simp only [kept, State.updImg, h]


variable {w s} in
theorem kept_updRsu {f : Rsu → Rsu} (h : (f s.rsu).startup = s.rsu.startup) : kept w (updRsu f s) = kept w s := by
  simp only [kept, updRsu, h]

/-! ### SYS: the log, faults, events, flags, pins -/

@[simp] theorem kept_logPush (k b u i a : Nat) : kept w (logPush k b u i a s) = kept w s := rfl
@[simp] theorem kept_raise (b : Blk) (i : Nat) : kept w (raise b i s) = kept w s := by
  have hdetected (t : State) : kept w (t.updSys fun y => { y with detected := (b.base, i) :: y.detected }) = kept w t := rfl
  simp [raise, hdetected]
@[simp] theorem kept_evt (b : Blk) (i : Nat) : kept w (evt b i s) = kept w s := rfl
@[simp] theorem kept_beginRamp (p : Phase) : kept w (beginRamp p s) = kept w s := rfl

theorem keptSys_tick_putFlag (y : Sys) (i : Nat) (v : Bool) : keptSys .tick (y.putFlag i v) = keptSys .tick y := by
  unfold Sys.putFlag
  split <;> rfl

/-- The flags above STANDBY are none that a frame keeps (Table 2.1). -/
theorem keptSys_putFlag {i : Nat} (hi : 2 < i) (y : Sys) (v : Bool) : keptSys w (y.putFlag i v) = keptSys w y := by
  match i with
  | 3 | 4 | _ + 5 => rfl

variable {w} in
theorem kept_setFlag_of {i : Nat} {v : Bool} (o : Option HostId) (h : keptSys w (s.sys.putFlag i v) = keptSys w s.sys) :
    kept w (setFlag i v o s) = kept w s := by
  unfold setFlag
  split
  · rfl
  · simp [kept_updSys (f := fun y => y.putFlag i v) h]

@[simp] theorem kept_tick_setFlag (i : Nat) (v : Bool) (o : Option HostId) : kept .tick (setFlag i v o s) = kept .tick s :=
  kept_setFlag_of s o (keptSys_tick_putFlag s.sys i v)

@[simp] theorem kept_settle : kept w (settle s) = kept w s := by
  have hflag (i : Nat) (hi : 2 < i) (v : Bool) (t : State) : kept w (setFlag i v none t) = kept w t :=
    kept_setFlag_of t none (keptSys_putFlag w hi t.sys v)
  simp [settle, hflag]

theorem kept_setPin (h : HostId) (p : IntPin) : kept w (s.setPin h p) = kept w s := by cases h <;> rfl

theorem kept_settlePin (h : HostId) : kept w (settlePin h s) = kept w s := by
  have hpin (p : IntPin) : kept w (s.setPin h p) = kept w s := kept_setPin w s h p
  simp [settlePin, apply_ite (kept w), hpin]

@[simp] theorem kept_settlePins : kept w (settlePins s) = kept w s := by
  simp [settlePins, kept_settlePin]

end
end Sys2Proof.Machine
end

section
/-! SUPPORT. What the blocks do in a sample frame and at a window's end keeps what `kept` holds (R19, R103, R105, R178). -/
namespace Sys2Proof.Machine
open Sys2Proof

section
variable (w : Work) (s : State)

/-! ### Cells and migrations -/

@[simp] theorem kept_migEvt (p i : Nat) : kept w (migEvt p i s) = kept w s := rfl
@[simp] theorem kept_updMig (p : Nat) (f : MigStat → MigStat) : kept w (updMig p f s) = kept w s := rfl

@[simp] theorem kept_stopSched (p : Nat) : kept w (stopSched p s) = kept w s := by
  simp [stopSched, takeOverCell, apply_ite (kept w)]

@[simp] theorem kept_startProactive (p : Nat) (ce : Bool) : kept w (startProactive p ce s) = kept w s := by
  unfold startProactive
  split
  · simp
  · exact (kept_fabric w _ _).trans (by simp)

theorem kept_dequeueList (l : List (Nat × Bool)) : kept w (dequeueList l s).2 = kept w s := by
  induction l generalizing s with
  | nil => rfl
  | cons e t ih =>
    unfold dequeueList
    split_ifs <;> simp [ih]

@[simp] theorem kept_dequeueMig : kept w (dequeueMig s) = kept w s := by
  simp [dequeueMig, kept_dequeueList]

theorem kept_ceMigrate (p : Nat) : kept w (ceMigrate s p) = kept w s := by
  simp [ceMigrate, requestMig, apply_ite (kept w)]

@[simp] theorem kept_endMig (r : MigResult) (role : Role) : kept w (endMig r role s) = kept w s := by
  unfold endMig
  split <;> simp

@[simp] theorem kept_abortMigs (r : MigResult) (inShadow : Bool) : kept w (abortMigs r inShadow s) = kept w s := by
  unfold abortMigs
  extract_lets t fabric u
  have ht : kept w t = kept w s := kept_foldl (fun v e => by simp) _ s
  have hu : kept w u = kept w s := (kept_fabric w t _).trans ht
  split
  · exact hu
  · split
    · exact hu
    · rw [kept_endMig, hu]

@[simp] theorem kept_abortRestores : kept w (abortRestores s) = kept w s :=
  kept_foldl (fun t e => by simp [apply_ite (kept w)]) _ s

@[simp] theorem kept_cellsSeed : kept w (cellsSeed s) = kept w s := rfl

theorem kept_cellFrameFaults : kept w (cellFrameFaults s) = kept w s :=
  kept_foldl (fun t e => by simp [apply_ite (kept w)]) _ s

theorem kept_feedCells (out : Nat → Int) : kept w (feedCells out s) = kept w s := by
  refine kept_foldl (fun t e => ?_) _ s
  split <;> simp [apply_ite (kept w)]

theorem kept_shadowCompare : kept w (shadowCompare s) = kept w s := by
  unfold shadowCompare withMig
  split <;> simp [apply_ite (kept w)]

/-! ### The ledger and the windows -/

theorem kept_tick_frameFaults : kept .tick (frameFaults s) = kept .tick s := by
  simp [frameFaults, ldgFrameFault, apply_ite (kept .tick), kept_cellFrameFaults]

theorem kept_frame_ldgWindow : kept .frame (ldgWindow s) = kept .frame s := by
  unfold ldgWindow
  extract_lets _ _ _ _ _ _ _ t
  have hclosed : kept .frame t = kept .frame s := rfl
  split
  · rw [kept_raise, hclosed]
  · exact hclosed

theorem kept_frame_memcWindow : kept .frame (memcWindow s) = kept .frame s := by
  simp [memcWindow, apply_ite (kept .frame)]

theorem kept_closeCeWindow : kept w (closeCeWindow s).1 = kept w s := by
  refine kept_foldl_fst (fun r e => ?_) s.cells (s, [])
  dsimp only
  split <;> simp

theorem kept_frame_closeWindows : kept .frame (closeWindows s) = kept .frame s := by
  unfold closeWindows
  rw [kept_frame_memcWindow, kept_foldl (kept_ceMigrate .frame), kept_closeCeWindow, kept_frame_ldgWindow]

/-! ### The matrix and the delay lines -/

theorem kept_frame_endSwap (r : SwapResult) : kept .frame (endSwap r s) = kept .frame s := rfl

theorem kept_frame_acceptSwap : kept .frame (acceptSwap s) = kept .frame s := by
  unfold acceptSwap
  extract_lets l t
  have ht : kept .frame t = kept .frame s := kept_updImg (s := s.updLdg _) rfl
  split
  · exact ht
  · rw [kept_raise, ht]

@[simp] theorem kept_frame_swapStep : kept .frame (swapStep s) = kept .frame s := by
  simp [swapStep, apply_ite (kept .frame), kept_frame_endSwap, kept_frame_acceptSwap]

@[simp] theorem kept_editStep : kept w (editStep s) = kept w s := by
  simp [editStep, apply_ite (kept w)]

theorem kept_writeAlarmSet (b : Nat) : kept w (writeAlarmSet b s) = kept w s := by
  unfold writeAlarmSet
  split <;> rfl

theorem kept_alarmExchange (v : Bool) : kept w (alarmExchange v s) = kept w s := by
  simp [alarmExchange, apply_ite (kept w)]

@[simp] theorem kept_frame_alarmStep : kept .frame (alarmStep s) = kept .frame s := by
  simp [alarmStep, apply_ite (kept .frame), kept_alarmExchange, kept_writeAlarmSet, kept_frame_endSwap]

theorem kept_mxeOpen : kept w (mxeOpen s) = kept w s := by
  simp [mxeOpen, apply_ite (kept w)]

@[simp] theorem kept_alarmSwap : kept w (alarmSwap s) = kept w s := by
  simp [alarmSwap, apply_ite (kept w), kept_alarmExchange, kept_mxeOpen]

theorem kept_frame_mxeTakeovers : kept .frame (mxeTakeovers s) = kept .frame s := by
  simp [mxeTakeovers, apply_ite (kept .frame), kept_mxeOpen]

theorem kept_frame_evalAll : kept .frame (evalAll s) = kept .frame s := by
  unfold evalAll
  extract_lets mxe₀ r mxe t
  have ht : kept .frame t = kept .frame s := rfl
  split
  · rw [kept_evt, ht]
  · exact ht

theorem kept_stepPlayers : kept w (stepPlayers s) = kept w s := by
  unfold stepPlayers
  extract_lets r t
  rw [kept_foldl (f := fun s _ => raise .mxe 1 s) (fun u _ => kept_raise w u .mxe 1)]
  rfl

theorem kept_frame_mxeFrame : kept .frame (mxeFrame s) = kept .frame s := by
  simp [mxeFrame, apply_ite (kept .frame), kept_stepPlayers, kept_frame_evalAll, finishRamps]

theorem kept_frame_lineFrame (i : Nat) : kept .frame (lineFrame i s) = kept .frame s := by
  simp [lineFrame, ↓apply_ite (kept .frame)]

theorem kept_frame_dlyFrame : kept .frame (dlyFrame s) = kept .frame s := by
  unfold dlyFrame
  extract_lets dly t
  split
  · refine (kept_foldl (fun u e => ?_) _ t).trans rfl
    simp [apply_ite (kept .frame), kept_frame_lineFrame]
  · rfl

/-! ### The stream engine and the audio ports in a frame -/

theorem kept_freeFlow (f : Nat) : kept w (freeFlow f s) = kept w s := rfl

theorem kept_playSample (fe : List Word) (ch x : Nat) : kept w (playSample fe ch x s).1 = kept w s := by
  unfold playSample
  split <;> simp [apply_ite (kept w)]

theorem kept_flowFrame (f : Nat) : kept w (flowFrame f s) = kept w s := by
  unfold flowFrame
  extract_lets k x gone t₁ t₂ present
  have ht : kept w t₂ = kept w s := rfl
  clear_value present
  cases present with
  | some p =>
    refine (kept_foldl (fun u c => ?_) _ t₂).trans ht
    exact (kept_netRx w _ _).trans (kept_playSample w u _ _ _)
  | none => simp [apply_ite (kept w), ht]

theorem kept_steFrameStart : kept w (steFrameStart s) = kept w s := by
  unfold steFrameStart
  extract_lets t₁ t₂
  have ht : kept w t₂ = kept w t₁ := by
    refine kept_foldl (fun u e => ?_) _ t₁
    split_ifs <;> simp [kept_freeFlow, kept_flowFrame]
  have hnet : kept w t₁ = kept w s := kept_netRx w s []
  simp [apply_ite (kept w), ht, hnet]

theorem kept_steFrameEnd : kept w (steFrameEnd s) = kept w s := rfl

theorem kept_aptXrun (n : Nat) (d : Dir) : kept w (aptXrun n d s) = kept w s := by
  simp [aptXrun]

theorem kept_rxConvert (n i rnd : Nat) (v : Int) : kept w (rxConvert n i rnd v s).1 = kept w s := by
  unfold rxConvert
  extract_lets d r c t₁ t₂
  have ht : kept w t₁ = kept w s := rfl
  simp [t₂, apply_ite (kept w), ht]

theorem kept_rxFrame (n : Nat) (slots : List Nat) : kept w (rxFrame n slots s) = kept w s := by
  unfold rxFrame
  extract_lets x c k m flowing under t₁ t₂ kp ki tob
  have hunder : kept w t₁ = kept w s := by simp [t₁, apply_ite (kept w), kept_aptXrun]
  have hslots : kept w t₂ = kept w t₁ := by
    refine kept_foldl (fun u i => ?_) _ t₁
    extract_lets on r v src t
    have hr : kept w r.1 = kept w u := by
      unfold r
      split
      · rfl
      split
      · rfl
      · exact kept_rxConvert w u _ _ _ _
    have ht : kept w t = kept w r.1 := rfl
    rw [kept_updDir, ht, hr]
  split
  · rw [kept_updDir, hslots, hunder]
  · rw [hslots, hunder]

theorem kept_txFrameStart (n : Nat) : kept w (txFrameStart n s) = kept w s := by
  simp [txFrameStart, ↓apply_ite (kept w), kept_aptXrun]

theorem kept_firstFlow (n : Nat) (d : Dir) : kept w (firstFlow n d s) = kept w s := by
  simp [firstFlow, apply_ite (kept w)]

theorem kept_aptFrame (inp : List (Nat × List Nat)) : kept w (aptFrame inp s) = kept w s := by
  unfold aptFrame
  extract_lets t
  refine (kept_foldl (fun u i => ?_) _ t).trans (kept_portIn w s [])
  extract_lets n d k mask u₁ u₂
  have hmask : kept w u₁ = kept w u := by simp [u₁, apply_ite (kept w)]
  have hflow : kept w u₂ = kept w u := by rw [kept_updDir, kept_firstFlow, hmask]
  split_ifs
  · exact hmask
  · exact hflow
  · cases d with
    | rx => exact (kept_rxFrame w u₂ _ _).trans hflow
    | tx => exact (kept_txFrameStart w u₂ _).trans hflow

/-! ### The loudspeaker channels and the modulators in a frame -/

@[simp] theorem kept_lspBlocksOff (n : Nat) : kept w (lspBlocksOff n s) = kept w s := rfl
@[simp] theorem kept_calEnd (r : Nat) : kept w (calEnd r s) = kept w s := rfl

theorem kept_railFrame (g : Nat) : kept w (railFrame g s) = kept w s := by
  simp [railFrame, apply_ite (kept w)]

theorem kept_senseAll (inp : List (Nat × Nat)) : kept w (senseAll inp s) = kept w s :=
  kept_foldl (fun t i => by simp [apply_ite (kept w)]) _ s

theorem kept_spkReadings (n : Nat) : kept w (spkReadings n s) = kept w s := rfl

theorem kept_spkFrame (n : Nat) : kept w (spkFrame n s) = kept w s := by
  unfold spkFrame
  extract_lets k on lim t
  have ht : kept w t = kept w s := rfl
  split
  · rw [kept_evt, ht]
  · exact ht

theorem kept_lspFrame (inp : List (Nat × Nat)) : kept w (lspFrame inp s) = kept w s := by
  unfold lspFrame
  extract_lets t₁ t₂ t₃ t₄ c r
  have h₁ : kept w t₁ = kept w s := kept_senseAll w s inp
  have h₂ : kept w t₂ = kept w t₁ := kept_foldl (kept_railFrame w) _ t₁
  have h₃ : kept w t₃ = kept w t₂ := kept_foldl (fun u n => by simp [apply_ite (kept w), kept_spkReadings]) _ t₂
  have h₄ : kept w t₄ = kept w t₃ := kept_foldl (fun u n => by simp [apply_ite (kept w), kept_spkFrame]) _ t₃
  have h : kept w t₄ = kept w s := h₄.trans (h₃.trans (h₂.trans h₁))
  split
  · exact h
  · exact h

theorem kept_calDisturb (n : Nat) : kept w (calDisturb n s) = kept w s := by
  simp [calDisturb, apply_ite (kept w)]

theorem kept_modStart (n k : Nat) : kept w (modStart n k s) = kept w s := by
  simp [modStart, kept_calDisturb, lspChStart]

theorem kept_modFrame (n : Nat) : kept w (modFrame n s) = kept w s := by
  unfold modFrame
  extract_lets x k fb wp u zs r e
  split
  next c lim _ =>
    extract_lets v t₁ t₂
    have h₁ : kept w t₁ = kept w s := rfl
    have h₂ : kept w t₂ = kept w s := by simp [t₂, apply_ite (kept w), h₁]
    simp [apply_ite (kept w), h₂]

theorem kept_pwrFrameEnd : kept w (pwrFrameEnd s) = kept w s :=
  kept_foldl (fun t n => by simp [apply_ite (kept w), kept_modFrame]) _ s

theorem kept_modBoundary (n : Nat) : kept w (modBoundary n s) = kept w s := by
  simp [modBoundary, apply_ite (kept w), kept_calDisturb, kept_modStart]

theorem kept_pwrFrameStart : kept w (pwrFrameStart s) = kept w s :=
  kept_foldl (kept_modBoundary w) _ s

/-! ### The image and the wick -/

theorem kept_unconfigure : kept w (unconfigure s) = kept w s := by
  unfold unconfigure
  split
  · exact (kept_cells w _ _).trans (kept_updImg rfl)
  · rfl

@[simp] theorem kept_setWick (x : WickSt) : kept w (setWick x s) = kept w s := by
  simp [setWick, apply_ite (kept w)]

@[simp] theorem kept_dropCold : kept w (dropCold s) = kept w s := by
  unfold dropCold
  split
  · rfl
  · extract_lets t₁ t₂
    have ht : kept w t₂ = kept w s := by
      unfold t₂
      split <;> rfl
    rw [kept_unconfigure, ht]

@[simp] theorem kept_wickSettle : kept w (wickSettle s) = kept w s := by
  unfold wickSettle
  split
  · rfl
  · dsimp only
    split <;> simp [withdraw, apply_ite (kept w)]

/-! ### The frame -/

/-- The body of a sample frame, block by block in the frame's order. -/
theorem kept_frameBody (inp : FrameIn) : kept .frame (frameBody inp s) = kept .frame s := by
  unfold frameBody
  dsimp only
  rw [kept_shadowCompare, kept_pwrFrameEnd, kept_steFrameEnd, kept_feedCells, kept_frame_dlyFrame, kept_frame_mxeFrame,
    kept_frame_mxeTakeovers, kept_aptFrame, kept_steFrameStart, kept_lspFrame, kept_pwrFrameStart]

end
end Sys2Proof.Machine
end

section
/-! SUPPORT. What the blocks do in a tick keeps what `kept` holds (R20, R21, R266, R410). -/
namespace Sys2Proof.Machine
open Sys2Proof

section
variable (w : Work) (s : State)

/-! ### The MACs, the time units and the references in a tick -/

theorem kept_flushQueues (n : Nat) (qs : List Nat) : kept w (flushQueues n qs s) = kept w s := by
  simp [flushQueues, apply_ite (kept w), macCount]

@[simp] theorem kept_flushAudio : kept w (flushAudio s) = kept w s :=
  kept_foldl (fun t n => kept_flushQueues w t n [5, 6]) _ s

theorem kept_macLinkLost (n : Nat) : kept w (macLinkLost n s) = kept w s := by
  have hfence (t : State) : kept w (updMac n (fun m => { m with fenced := true, enabledAt := none }) t) = kept w t := kept_updMac w t n _
  unfold macLinkLost
  rw [kept_settle, kept_flushQueues, hfence, kept_raise]

theorem kept_macRxTick : kept w (macRxTick s) = kept w s :=
  kept_foldl (fun t n => by simp [apply_ite (kept w)]) _ s

/-- A change of a domain's time leaves the counter (R271). -/
@[simp] theorem kept_masterCopy : kept w (masterCopy s) = kept w s := by
  have hdom (d : Dom) (t : State) : kept w (updPtu (fun p => p.setDom d p.sel) t) = kept w t := by cases d <;> rfl
  simp [masterCopy, apply_ite (kept w), hdom]

theorem kept_updSel (f : Nat → TimePar → TimePar) : kept w (updSel f s) = kept w s := by
  have hsel : kept w (updPtu (fun p => { p with sel := f p.counter p.sel }) s) = kept w s := rfl
  rw [updSel, kept_masterCopy, hsel]

theorem kept_setPulling (v : Bool) : kept w (setPulling v s) = kept w s := by
  unfold setPulling
  extract_lets t
  have ht : kept w t = kept w s := by
    unfold t
    split <;> simp
  exact (kept_updRsu rfl).trans ht

@[simp] theorem kept_selUpdate : kept w (selUpdate s) = kept w s := by
  unfold selUpdate
  split
  · rfl
  split
  · rfl
  · rw [kept_setPulling, kept_updRsu, setSelRate, kept_updSel]
    rfl

theorem kept_farSwitch (c : Nat) : kept w (farSwitch c s) = kept w s := by
  have hfar (v : Bool) (o : Int) (t : State) : kept w (updRsu (fun r => { r with far := v, farOfs := o }) t) = kept w t := rfl
  simp [farSwitch, apply_ite (kept w), hfar]

theorem kept_tick_selectNone : kept .tick (selectNone s) = kept .tick s := by
  unfold selectNone
  extract_lets t₁ t₂ t₃
  have h₁ : kept .tick t₁ = kept .tick s := by
    unfold t₁
    split <;> simp
  have h₂ : kept .tick t₂ = kept .tick t₁ := kept_updRsu rfl
  rw [kept_tick_setFlag, setSelRate, kept_updSel, kept_setPulling, h₂, h₁]

theorem kept_tick_selectRef (c : Nat) : kept .tick (selectRef c s) = kept .tick s := by
  have hsel (t : State) : kept .tick (updRsu (fun r => { r with selected := some c }) t) = kept .tick t := rfl
  unfold selectRef
  rw [kept_selUpdate, kept_tick_setFlag, kept_evt, hsel, kept_farSwitch]

theorem kept_noteBackup : kept w (noteBackup s) = kept w s := by
  have hbackup (b : Bool) : kept w (updRsu (fun r => { r with backup := b }) s) = kept w s := rfl
  simp [noteBackup, apply_ite (kept w), hbackup]

theorem kept_updRef (c : Nat) (f : Ref → Ref) : kept w (updRef c f s) = kept w s := rfl

theorem kept_enterRef (c st : Nat) : kept w (enterRef c st s) = kept w s := by
  simp [enterRef, apply_ite (kept w), kept_updRef]

theorem kept_evalRef (q : List Nat) (c : Nat) : kept w (evalRef q c s) = kept w s := by
  simp [evalRef, apply_ite (kept w), kept_enterRef]

theorem kept_evalRefs (q : List Nat) : kept w (refList.foldl (fun s c => evalRef q c s) s) = kept w s :=
  kept_foldl (fun t c => kept_evalRef w t q c) _ s

/-- Outside the start-up wait no selection renumbers the ticks (R17, R295). -/
theorem kept_tick_rsuSelect {s : State} (f : (Nat → Nat) → State → State) (h : s.rsu.startup = false) :
    kept .tick (rsuSelect f s) = kept .tick s := by
  unfold rsuSelect
  split
  · rfl
  rw [kept_noteBackup]
  extract_lets tick t
  have ht : t = s := by
    unfold t
    split <;> simp [h]
  clear_value t
  subst ht
  simp only [h, Bool.false_eq_true, if_false]
  split
  · split
    · exact kept_tick_selectNone t
    · rfl
  · split <;> simp [apply_ite (kept .tick), kept_tick_selectRef, kept_tick_selectNone]

theorem kept_stepOuts : kept w (stepOuts s) = kept w s := kept_updRsu rfl

/-! ### The audio ports in a tick -/

@[simp] theorem kept_setEn (n : Nat) (d : Dir) (v : Bool) : kept w (setEn n d v s) = kept w s := rfl

@[simp] theorem kept_aptIdle (n : Nat) (d : Dir) : kept w (aptIdle n d s) = kept w s := by
  simp [aptIdle, aptLock, apply_ite (kept w)]

@[simp] theorem kept_aptSetEn (n : Nat) (d : Dir) (arm : Bool) : kept w (aptSetEn n d arm s) = kept w s := by
  unfold aptSetEn
  split <;> simp [aptResult, admitStart]

@[simp] theorem kept_aptClearEn (n : Nat) (d : Dir) : kept w (aptClearEn n d s) = kept w s := by
  unfold aptClearEn
  dsimp only
  split <;> simp [apply_ite (kept w)]

@[simp] theorem kept_aptAbort (n : Nat) (d : Dir) : kept w (aptAbort n d s) = kept w s := rfl

theorem kept_aptCtrlWrite (n : Nat) (v : Word) : kept w (aptCtrlWrite n v s) = kept w s := by
  unfold aptCtrlWrite
  extract_lets old stopping t one u v₁
  have hone (d : Dir) (x : State) : kept w (one d x) = kept w x := by simp [one, apply_ite (kept w)]
  have hu : kept w u = kept w s := by simp [u, t, hone]
  have hv : kept w v₁ = kept w u := by simp [v₁, apply_ite (kept w)]
  simp [apply_ite (kept w), hu, hv]

theorem kept_applyPortSetup (n : Nat) (d : Dir) (ps : List (Nat × Word)) : kept w (applyPortSetup n d ps s) = kept w s :=
  kept_foldl (fun t p => by simp [apply_ite (kept w), kept_aptCtrlWrite]) _ s

theorem kept_forgetAptRnd (n : Nat) (d : Dir) : kept w (forgetAptRnd n d s) = kept w s := by cases d <;> rfl

theorem kept_portApply (i : Nat) (ps : List (Nat × Word)) : kept w (portApply i ps s) = kept w s := by
  unfold portApply
  extract_lets d n pj j t u v
  split
  · rw [kept_updDir]
    exact kept_aptClearEn w s n d
  · have hu : kept w u = kept w t := kept_updImg rfl
    refine (kept_updImg rfl).trans ?_
    rw [kept_applyPortSetup, kept_forgetAptRnd, hu, kept_aptClearEn]

theorem kept_portSetups : kept w (portSetups s) = kept w s := by
  refine kept_foldl (fun t e => ?_) _ s
  split
  · exact kept_foldl (fun u ps => kept_portApply w u e.1 ps) _ _
  · rfl

/-! ### The loudspeaker channels and the modulators in a tick -/

@[simp] theorem kept_latchLim (n : Nat) : kept w (latchLim n s) = kept w s := rfl

theorem kept_lspAlarm : kept w (lspAlarm s) = kept w s :=
  kept_foldl (fun t n => by simp [renewGain]) _ s

theorem kept_estBlocksOff : kept w ((upto 32).foldl (fun s n => if (s.spk n).estOk || (s.spk n).supOk then lspBlocksOff n s else s) s) = kept w s :=
  kept_foldl (fun t n => by simp [apply_ite (kept w)]) _ s

theorem kept_lspSnuff : kept w (lspSnuff s) = kept w s := by
  unfold lspSnuff
  extract_lets t
  have ht : kept w t = kept w s := kept_estBlocksOff w s
  simp [apply_ite (kept w), ht]

@[simp] theorem kept_gainFull (n : Nat) : kept w (gainFull n s) = kept w s := by
  simp [gainFull, apply_ite (kept w)]

theorem kept_spkCfgWrite (n : Nat) (v : Word) : kept w (spkCfgWrite n v s) = kept w s := by
  simp [spkCfgWrite, apply_ite (kept w)]

theorem kept_snsCfgWrite (v : Word) : kept w (snsCfgWrite v s) = kept w s := rfl

theorem kept_lspPut (off : Nat) (v : Word) : kept w (lspPut off v s) = kept w s := by
  simp [lspPut, apply_ite (kept w), kept_spkCfgWrite, kept_snsCfgWrite]

theorem kept_applyLspSetup (g : Nat) (ps : List (Nat × Word)) : kept w (applyLspSetup g ps s) = kept w s := by
  unfold applyLspSetup lspGroupReset
  refine (kept_foldl (fun t i => by simp) _ _).trans ?_
  exact kept_foldl (fun t (p : Nat × Word) => kept_lspPut w t p.1 p.2) ps s

@[simp] theorem kept_modOff (n : Nat) : kept w (modOff n s) = kept w s := by
  simp [modOff, apply_ite (kept w)]

theorem kept_driveFall : kept w (driveFall s) = kept w s :=
  (kept_foldl (fun t n => by simp [apply_ite (kept w)]) _ _).trans (kept_pwr w s _)

@[simp] theorem kept_driveCheck : kept w (driveCheck s) = kept w s := by
  simp [driveCheck, apply_ite (kept w), kept_driveFall]

@[simp] theorem kept_modRamp (n f target : Nat) : kept w (modRamp n f target s) = kept w s := rfl

theorem kept_chStart1 (n : Nat) : kept w (chStart1 n s) = kept w s := by
  unfold chStart1
  split <;> simp

theorem kept_pwrRunRamp (up : Bool) : kept w (pwrRunRamp up s) = kept w s :=
  kept_foldl (fun t n => by simp [apply_ite (kept w)]) _ s

theorem kept_pwrTick : kept w (pwrTick s) = kept w s := by
  have hforced : kept w ((upto 32).foldl (fun s n => if (s.mod n).forced then modOff n s else s) s) = kept w s :=
    kept_foldl (fun t n => by simp [apply_ite (kept w)]) _ s
  simp [pwrTick, apply_ite (kept w), hforced]

theorem kept_pwrAlarm : kept w (pwrAlarm s) = kept w s := by
  refine kept_foldl (fun t n => ?_) _ s
  split <;> simp [apply_ite (kept w)]

theorem kept_modPut (off : Nat) (v : Word) : kept w (modPut off v s) = kept w s := by
  have hstarts : kept w (eachCh v chStart1 s) = kept w s :=
    kept_foldl (fun t n => by simp [apply_ite (kept w), kept_chStart1]) _ s
  simp [modPut, apply_ite (kept w), hstarts]

theorem kept_applyModSetup (ps : List (Nat × Word)) : kept w (applyModSetup ps s) = kept w s :=
  kept_foldl (fun t (p : Nat × Word) => kept_modPut w t p.1 p.2) ps s

/-! ### The snuffed state, the wick's release and what restores -/

@[simp] theorem kept_boundNext : kept .tick (boundNext s) = kept .tick s := rfl

theorem kept_snuffRecord (c : SnuffBy) : kept w (snuffRecord c s) = kept w s := by
  have hcause (y : Sys) : keptSys w (if bit y.snuffCause 31 then y else { y with snuffCause := c.cause }) = keptSys w y := by
    split <;> rfl
  exact kept_updSys (hcause s.sys)

theorem kept_coldCheck : kept w (coldCheck s) = kept w s := by
  simp [coldCheck, apply_ite (kept w), kept_unconfigure]

theorem kept_tick_loadFail (f : Failure) : kept .tick (loadFail f s) = kept .tick s := by
  unfold loadFail
  extract_lets t a u v
  have ht : kept .tick t = kept .tick s := kept_updImg rfl
  have hu : kept .tick u = kept .tick t := kept_updImg rfl
  have hv : kept .tick v = kept .tick u := by simp [v]
  rw [kept_settle, kept_evt, hv, hu, ht]

theorem kept_tick_loadCut (e : LoadErr) : kept .tick (loadCut e s) = kept .tick s := by
  simp [loadCut, apply_ite (kept .tick), kept_tick_loadFail]

theorem kept_endTests : kept w (endTests s) = kept w s := rfl

/-- RUN falls: the flag changes, which a tick does not keep, and the ramp down begins (R48). -/
theorem kept_tick_runCleared (o : Option HostId) : kept .tick (runCleared o s) = kept .tick s := by
  unfold runCleared
  split
  · rfl
  extract_lets t₁ t₂ t₃ t₄ t₅ c pair t₆
  have h₄ : kept .tick t₄ = kept .tick s := by
    simp only [t₄, t₃, t₂, t₁, kept_flushAudio, kept_endTests, kept_abortMigs, kept_estBlocksOff, kept_tick_setFlag]
  clear_value t₄
  have h₆ : kept .tick t₆ = kept .tick t₄ := rfl
  split
  · exact h₄
  · rw [kept_driveCheck]
    split
    · rw [h₆, h₄]
    · rw [kept_unconfigure, h₆, h₄]
  · rw [kept_driveCheck, kept_pwrRunRamp, kept_beginRamp, h₄]

@[simp] theorem kept_ckptRestart : kept w (ckptRestart s) = kept w s := rfl

theorem kept_wickSnuff : kept w (wickSnuff s) = kept w s := by
  unfold wickSnuff
  extract_lets t u
  have ht : kept w t = kept w s := by
    unfold t
    split
    · rfl
    · exact kept_evt w s _ _
  exact (kept_pair w u _).trans ((kept_ckptRestart w t).trans ht)

theorem kept_tick_enterSnuff (c : SnuffBy) : kept .tick (enterSnuff c s) = kept .tick s := by
  have hlog (t : State) : kept .tick (c.log t) = kept .tick t := by cases c <;> rfl
  unfold enterSnuff
  extract_lets t t₁ t₂ t₃ t₄ t₅ t₆
  have ht : kept .tick t = kept .tick s := by rw [hlog, kept_snuffRecord]
  split
  · exact ht
  have h₁ : kept .tick t₁ = kept .tick t := kept_updSys rfl
  have h₄ : kept .tick t₄ = kept .tick t₁ := by rw [kept_driveFall, kept_tick_setFlag, kept_tick_runCleared]
  have h₅ : kept .tick t₅ = kept .tick t₄ := kept_foldl (fun u n => kept_flushQueues .tick u n allQueues) _ t₄
  have h₆ : kept .tick t₆ = kept .tick t₅ := by rw [kept_abortRestores, kept_tick_loadCut, kept_lspSnuff]
  rw [kept_settle, kept_coldCheck, kept_wickSnuff, h₆, h₅, h₄, h₁, ht]

theorem kept_tick_wickLoss : kept .tick (wickLoss s) = kept .tick s := by
  unfold wickLoss
  extract_lets t₁ t₂ t₃
  have h₂ : kept .tick t₂ = kept .tick s := by rw [kept_driveCheck, kept_flushAudio, kept_tick_setFlag]
  have h₃ : kept .tick t₃ = kept .tick t₂ := by
    unfold t₃
    split
    · exact kept_tick_runCleared t₂ none
    · rfl
  rw [kept_settle, kept_coldCheck, h₃, h₂]

theorem kept_startRamp : kept w (startRamp s) = kept w s := by
  have hstart : kept w (s.updSys fun y => { y with runStart := true }) = kept w s := rfl
  rw [startRamp, rampUp, kept_pwrRunRamp, kept_beginRamp, hstart]

theorem kept_cutRestore : kept w (cutRestore s) = kept w s := by
  unfold cutRestore
  extract_lets ckpt t u
  have ht : kept w t = kept w s := rfl
  have hu : kept w u = kept w s := rfl
  split
  · split
    · split
      · rw [kept_startRamp, hu]
      · rw [kept_coldCheck, ← hu]
        exact kept_updSys rfl
    · rw [kept_coldCheck, hu]
  · exact ht

theorem kept_tick_finishRelease : kept .tick (finishRelease s) = kept .tick s := by
  unfold finishRelease
  split
  · rw [kept_ckptRestart, kept_cutRestore, kept_tick_wickLoss, kept_raise, kept_updPair]
  · rfl

/-! ### The detections of a tick -/

theorem kept_storeCorruptFault : kept w (storeCorruptFault s) = kept w s := by
  have himg (t : State) : kept w (t.updImg fun i => { i with storeCorrupt := true, storeFenced := true }) = kept w t := kept_updImg rfl
  rw [storeCorruptFault, kept_wickSettle, kept_settle, himg, kept_raise]

theorem kept_tick_chipFault (b : Blk) (i : Nat) : kept .tick (chipFault b i s) = kept .tick s := by
  rw [chipFault, kept_tick_enterSnuff, kept_raise]

theorem kept_tick_detectAgain (e : Blk × Nat) : kept .tick (detectAgain s e) = kept .tick s := by
  have hmonitor : kept .tick (s.updSys fun y => { y with monitorDue := false }) = kept .tick s := rfl
  unfold detectAgain
  split
  · rfl
  split
  · rw [kept_tick_chipFault, hmonitor]
  · exact kept_storeCorruptFault .tick s
  · exact kept_tick_chipFault s .pwr 7
  · exact kept_macLinkLost .tick s _
  · exact kept_raise .tick s _ _

theorem kept_tick_detectDue : kept .tick (detectDue s) = kept .tick s :=
  (kept_foldl kept_tick_detectAgain _ _).trans (kept_updSys rfl)

/-! ### What opens a frame, and a partial load's steps -/

theorem kept_tick_alarmBoundary : kept .tick (alarmBoundary s) = kept .tick s := by
  have hsil (t : State) : kept .tick (silClear t) = kept .tick t := by simp [silClear, apply_ite (kept .tick)]
  unfold alarmBoundary
  split
  · rfl
  extract_lets t
  have ht : kept .tick t = kept .tick s := rfl
  split
  · rw [kept_pwrAlarm, kept_lspAlarm, hsil, ht]
  · exact ht

theorem kept_dlyRunStart : kept w (dlyRunStart s) = kept w s := rfl
theorem kept_aptRunStart : kept w (aptRunStart s) = kept w s := rfl

theorem kept_tick_startBoundary : kept .tick (startBoundary s) = kept .tick s := by
  unfold startBoundary
  split
  · extract_lets restored t u
    have ht : kept .tick t = kept .tick s := by
      unfold t
      split
      · rfl
      · exact kept_cellsSeed .tick s
    have hu : kept .tick u = kept .tick t := by
      rw [kept_dlyRunStart, kept_aptRunStart, steRunStart, kept_updSte, mxeSeed, kept_updMxe]
    have hheld : kept .tick { u with ckpt := { u.ckpt with held := none }, sys := { u.sys with runStart := false } } = kept .tick u := rfl
    exact hheld.trans (hu.trans ht)
  · rfl

theorem kept_tick_boundaryOpen : kept .tick (boundaryOpen s) = kept .tick s := by
  unfold boundaryOpen
  split
  · rw [kept_tick_startBoundary, kept_tick_alarmBoundary, kept_selUpdate]
  · rfl

theorem kept_applyS1Rec (base : Nat) (full : Bool) (r : ImgRec) : kept w (applyS1Rec base full s r) = kept w s := by
  unfold applyS1Rec
  split
  · exact kept_updMxe w s _
  · exact kept_portApply w s _ _
  · exact kept_applyModSetup w s _
  · exact kept_applyLspSetup w s _ _
  · rfl

theorem kept_partialStep : kept w (partialStep s) = kept w s := by
  have hjob (t : State) (p : PartialJob) : kept w (t.updImg fun i => { i with partialJob := some p }) = kept w t := kept_updImg rfl
  unfold partialStep
  split
  next p _ =>
    extract_lets recs d t u v
    have ht : kept w t = kept w s := kept_foldl (fun x r => kept_portApply w x _ _) _ s
    have hu : kept w u = kept w s := kept_foldl (fun x r => kept_applyS1Rec w x _ _ _) _ s
    have hv : kept w v = kept w u := kept_foldl (fun x i => by simp [apply_ite (kept w), kept_chStart1]) _ u
    split_ifs
    · rw [hjob, ht]
    · rfl
    · rw [hjob, hv, hu]
    · rfl
    · rfl
  next => rfl

end
end Sys2Proof.Machine
end

section
/-! SUPPORT. EVENT_TICK, FRAME_BOUNDARY and WINDOW_BOUNDARY (R16, R17, R19, R20, R103, R105, R473). -/
namespace Sys2Proof.Machine
open Sys2Proof

/-! ### EVENT_TICK -/

theorem nextCounter_settlePins (s : State) : nextCounter (settlePins s) = nextCounter s := by
  have hset (h : HostId) (p : IntPin) (t : State) : nextCounter (t.setPin h p) = nextCounter t := by cases h <;> rfl
  have hpin (h : HostId) (t : State) : nextCounter (settlePin h t) = nextCounter t := by simp [settlePin, apply_ite nextCounter, hset]
  rw [settlePins, hpin, hpin]

theorem counter_lt_nextCounter (s : State) : s.ptu.counter < nextCounter s := Nat.lt_of_lt_of_le (Nat.lt_succ_self _) (Nat.le_max_right _ _)

/-- With SRC 0 a tick is 160 counter periods at 96 kHz and 320 at 48 kHz (R17). -/
theorem nextCounter_local {s : State} (hsrc : s.sys.src = false) (h : s.ptu.counter < (if s.sys.fs48 then 320 else 160) * (s.sys.tick + 1)) :
    nextCounter s = (if s.sys.fs48 then 320 else 160) * (s.sys.tick + 1) := by
  simp only [nextCounter, hsrc, Bool.false_eq_true, if_false]
  exact Nat.max_eq_left h

/-- The work of the next tick between its count and the evaluation of the references: detections and the wick's release. -/
def tickDetections (s : State) : State := finishRelease (detectDue (frameFaults (tickCount (settlePins s))))
/-- The work that follows the evaluation of the references. -/
def tickRest (s : State) : State :=
  wickSettle (settle (partialStep (portSetups (pwrTick (stepOuts (macRxTick (boundaryOpen s)))))))

theorem eventTick_of_standing {s : State} (h : ticksRun s = false) : eventTick s = s := by
  simp [eventTick, h]

theorem eventTick_of_ticksRun {s : State} (h : ticksRun s = true) :
    eventTick s = tickRest (rsuEvaluate realign (qualifiedRefs s) (masterCopy (tickDetections s))) := by
  simp only [eventTick, h, Bool.not_true, Bool.false_eq_true, if_false]
  rfl

theorem kept_tickDetections (s : State) : kept .tick (tickDetections s) = kept .tick (tickCount (settlePins s)) := by
  rw [tickDetections, kept_tick_finishRelease, kept_tick_detectDue, kept_tick_frameFaults]

theorem kept_tickRest (s : State) : kept .tick (tickRest s) = kept .tick s := by
  rw [tickRest, kept_wickSettle, kept_settle, kept_partialStep, kept_portSetups, kept_pwrTick, kept_stepOuts, kept_macRxTick,
    kept_tick_boundaryOpen]

theorem stores_updRsu (f : Rsu → Rsu) (s : State) : (kept .tick (updRsu f s)).stores = (kept .tick s).stores := rfl
theorem stores_updSys (f : Sys → Sys) (s : State) : (kept .tick (s.updSys f)).stores = (kept .tick s).stores := rfl
theorem stores_realign (f : Nat → Nat) (s : State) : (kept .tick (realign f s)).stores = (kept .tick s).stores := rfl

/-- The end of the start-up wait renumbers the ticks, but moves no byte and no fuse (R17). -/
theorem stores_endStartup (c : Option Nat) (s : State) : (kept .tick (endStartup realign c s)).stores = (kept .tick s).stores := by
  unfold endStartup
  extract_lets t u old new v x
  have ht : (kept .tick t).stores = (kept .tick s).stores := stores_updRsu _ s
  have hu : kept .tick u = kept .tick t := by
    unfold u
    split
    · exact kept_updSel .tick t _
    · rfl
  have hx : (kept .tick x).stores = (kept .tick u).stores := (stores_updSys _ v).trans (stores_realign _ u)
  split <;> split
  · rw [kept_tick_selectRef, ht]
  · exact ht
  · rw [kept_tick_selectRef, hx, hu, ht]
  · rw [hx, hu, ht]

theorem stores_rsuSelect (s : State) : (kept .tick (rsuSelect realign s)).stores = (kept .tick s).stores := by
  unfold rsuSelect
  split
  · rfl
  rw [kept_noteBackup]
  extract_lets tick t
  have ht : kept .tick t = kept .tick s := by
    unfold t
    split
    · split
      · exact kept_updRsu rfl
      · rfl
    · rfl
  clear_value t
  rw [← ht]
  split
  · split
    · rw [kept_tick_selectNone]
    · rfl
  split
  · split
    · exact stores_endStartup (bestRef t) t
    · rfl
  · split <;> simp [apply_ite (kept .tick), kept_tick_selectRef, kept_tick_selectNone]

theorem stores_tickCount (s : State) : (kept .tick (tickCount s)).stores = (kept .tick s).stores := rfl
theorem tickCount_tick (s : State) : (tickCount s).sys.tick = s.sys.tick + 1 := rfl
theorem tickCount_counter (s : State) : (tickCount s).ptu.counter = nextCounter s := rfl
theorem tickCount_startup (s : State) : (tickCount s).rsu.startup = s.rsu.startup := rfl

theorem eventTick_stores {s : State} (h : ticksRun s = true) :
    (eventTick s).mem = s.mem ∧ (eventTick s).img.fuses = s.img.fuses ∧ (eventTick s).flc.flash = s.flc.flash := by
  have hstores : (kept .tick (eventTick s)).stores = (kept .tick s).stores := by
    rw [eventTick_of_ticksRun h, kept_tickRest, rsuEvaluate, stores_rsuSelect, kept_evalRefs, kept_masterCopy, kept_tickDetections,
      stores_tickCount, kept_settlePins]
  simpa [kept] using hstores

theorem kept_tick_rsuEvaluate {s : State} (q : List Nat) (h : s.rsu.startup = false) :
    kept .tick (rsuEvaluate realign q s) = kept .tick s := by
  have hrefs := kept_evalRefs .tick s q
  obtain ⟨-, -, hstartup, -⟩ := kept_tick_iff.mp hrefs
  rw [rsuEvaluate, kept_tick_rsuSelect realign (hstartup.trans h), hrefs]

/-- Outside the start-up wait a tick adds one to the tick number and moves the counter to the new tick's edge (R16, R20). -/
theorem eventTick_time {s : State} (h : ticksRun s = true) (hstartup : s.rsu.startup = false) :
    (eventTick s).sys.tick = s.sys.tick + 1 ∧ (eventTick s).ptu.counter = nextCounter s := by
  have hdetections : kept .tick (masterCopy (tickDetections s)) = kept .tick (tickCount (settlePins s)) := by
    rw [kept_masterCopy, kept_tickDetections]
  obtain ⟨hpinsTick, -, hpinsStartup, -⟩ := kept_tick_iff.mp (kept_settlePins .tick s)
  obtain ⟨-, -, hwait, -⟩ := kept_tick_iff.mp hdetections
  rw [tickCount_startup, hpinsStartup, hstartup] at hwait
  have hevent : kept .tick (eventTick s) = kept .tick (tickCount (settlePins s)) := by
    rw [eventTick_of_ticksRun h, kept_tickRest, kept_tick_rsuEvaluate _ hwait, hdetections]
  obtain ⟨htick, hcounter, -⟩ := kept_tick_iff.mp hevent
  exact ⟨by rw [htick, tickCount_tick, hpinsTick], by rw [hcounter, tickCount_counter, nextCounter_settlePins]⟩

/-! ### FRAME_BOUNDARY and WINDOW_BOUNDARY -/

/-- A frame is due: a tick that is a multiple of 64, the ticks run, and it was not evaluated in this tick (R19). -/
abbrev frameDue (s : State) : Bool := s.atFrame && ticksRun s && s.sys.frameAt != some s.sys.tick

theorem frameDue_eq_false {s : State} (h : s.sys.tick % 64 ≠ 0 ∨ ticksRun s = false ∨ s.sys.frameAt = some s.sys.tick) :
    frameDue s = false := by
  rcases h with hphase | hstand | hdone
  · simp [State.atFrame, hphase]
  · simp [hstand]
  · simp [hdone]

theorem frameBoundary_of_due {s : State} (inp : FrameIn) (h : frameDue s = true) :
    frameBoundary inp s = wickSettle (settle (frameBody inp (s.updSys fun y => { y with frameAt := some y.tick }))) := if_pos h

theorem frameBoundary_of_not_due {s : State} (inp : FrameIn) (h : frameDue s = false) : frameBoundary inp s = s :=
  if_neg (Bool.eq_false_iff.mp h)

/-- What a due frame keeps, and that it is then evaluated. -/
theorem kept_frameBoundary {s : State} (inp : FrameIn) (h : frameDue s = true) :
    kept .frame (frameBoundary inp s) = kept .frame (s.updSys fun y => { y with frameAt := some y.tick }) := by
  rw [frameBoundary_of_due inp h, kept_wickSettle, kept_settle, kept_frameBody]

/-- A window closes: a tick that is a multiple of 2^22 other than 0, the ticks run, and it was not closed in this tick (R19, R103). -/
abbrev windowDue (s : State) : Bool := s.sys.tick % 4194304 == 0 && s.sys.tick != 0 && ticksRun s && s.sys.windowAt != some s.sys.tick

theorem windowDue_eq_false {s : State}
    (h : s.sys.tick % 2 ^ 22 ≠ 0 ∨ s.sys.tick = 0 ∨ ticksRun s = false ∨ s.sys.windowAt = some s.sys.tick) : windowDue s = false := by
  rcases h with hphase | hzero | hstand | hdone
  · simp [show ¬ s.sys.tick % 4194304 = 0 from hphase]
  · simp [hzero]
  · simp [hstand]
  · simp [hdone]

theorem windowBoundary_of_due {s : State} (h : windowDue s = true) :
    windowBoundary s = wickSettle (settle (closeWindows (s.updSys fun y => { y with windowAt := some y.tick }))) := if_pos h

theorem windowBoundary_of_not_due {s : State} (h : windowDue s = false) : windowBoundary s = s := if_neg (Bool.eq_false_iff.mp h)

theorem kept_windowBoundary {s : State} (h : windowDue s = true) :
    kept .frame (windowBoundary s) = kept .frame (s.updSys fun y => { y with windowAt := some y.tick }) := by
  rw [windowBoundary_of_due h, kept_wickSettle, kept_settle, kept_frame_closeWindows]

theorem ldgWindow_lastWin (s : State) : (ldgWindow s).ldg.lastWin = s.sys.tick / 4194304 - 1 := by
  unfold ldgWindow
  extract_lets win _ _ _ _ _ _ u
  have hu : u.ldg.lastWin = win := rfl
  split
  · rw [raise_ldg, hu]
  · exact hu

theorem memcWindow_ldg (s : State) : (memcWindow s).ldg = s.ldg := by
  unfold memcWindow
  extract_lets _ _ _ _ u
  have hu : u.ldg = s.ldg := rfl
  split
  · rw [raise_ldg, hu]
  · exact hu

/-- The counts of corrected errors start again at 0 (R473). -/
theorem memcWindow_counts (s : State) : (memcWindow s).memc.ceDram = 0 ∧ (memcWindow s).memc.ceCar = 0 := by
  unfold memcWindow
  extract_lets _ _ _ _ u
  have hu : u.memc.ceDram = 0 ∧ u.memc.ceCar = 0 := ⟨rfl, rfl⟩
  split
  · rw [raise_memc]
    exact hu
  · exact hu

/-- WIN shows the number of the window that ended, and the counts behind it start again (R103, R105). -/
theorem windowBoundary_counts {s : State} (h : windowDue s = true) :
    (windowBoundary s).ldg.lastWin = s.sys.tick / 4194304 - 1 ∧ (windowBoundary s).memc.ceDram = 0 ∧ (windowBoundary s).memc.ceCar = 0 := by
  have hopen (t : State) : (t.updSys fun y => { y with windowAt := some y.tick }).sys.tick = t.sys.tick := rfl
  have hsettle (t : State) : kept .window (wickSettle (settle t)) = kept .window t := by rw [kept_wickSettle, kept_settle]
  have hcells (t : State) : kept .window ((closeCeWindow t).2.foldl ceMigrate (closeCeWindow t).1) = kept .window t := by
    rw [kept_foldl (kept_ceMigrate .window), kept_closeCeWindow]
  rw [windowBoundary_of_due h]
  obtain ⟨hldg, hmemc⟩ := kept_window_counts (hsettle (closeWindows (s.updSys fun y => { y with windowAt := some y.tick })))
  obtain ⟨hcellsLdg, -⟩ := kept_window_counts (hcells (ldgWindow (s.updSys fun y => { y with windowAt := some y.tick })))
  rw [hldg, hmemc, closeWindows, memcWindow_ldg, hcellsLdg, ldgWindow_lastWin, hopen]
  exact ⟨rfl, memcWindow_counts _⟩

/-! ### The obligation -/

theorem eventTick_spec (s : State) :
    (ticksRun s = false → exec .eventTick s = .next s) ∧
    (ticksRun s = true → ∃ t, exec .eventTick s = .next t ∧ t.mem = s.mem ∧ t.img.fuses = s.img.fuses ∧ t.flc.flash = s.flc.flash ∧
      (s.rsu.startup = false →
        t.sys.tick = s.sys.tick + 1 ∧ s.ptu.counter < t.ptu.counter ∧
        (s.sys.src = false → s.ptu.counter < (if s.sys.fs48 then 320 else 160) * (s.sys.tick + 1) →
          t.ptu.counter = (if s.sys.fs48 then 320 else 160) * (s.sys.tick + 1)))) := by
  refine ⟨fun hstand => congrArg Host.Outcome.next (eventTick_of_standing hstand), fun hrun => ?_⟩
  obtain ⟨hmem, hfuses, hflash⟩ := eventTick_stores hrun
  refine ⟨eventTick s, rfl, hmem, hfuses, hflash, fun hstartup => ?_⟩
  obtain ⟨htick, hcounter⟩ := eventTick_time hrun hstartup
  rw [hcounter]
  exact ⟨htick, counter_lt_nextCounter s, nextCounter_local⟩

theorem frameBoundary_spec (s : State) (inp : FrameIn) :
    (s.sys.tick % 64 ≠ 0 ∨ ticksRun s = false ∨ s.sys.frameAt = some s.sys.tick → exec (.frameBoundary inp) s = .next s) ∧
    (s.sys.tick % 64 = 0 → ticksRun s = true → s.sys.frameAt ≠ some s.sys.tick → ∃ t, exec (.frameBoundary inp) s = .next t ∧
      t.sys.frameAt = some s.sys.tick ∧ t.sys.tick = s.sys.tick ∧ t.ptu.counter = s.ptu.counter ∧
      t.sys.run = s.sys.run ∧ t.sys.alarm = s.sys.alarm ∧ t.sys.standby = s.sys.standby ∧
      ∀ again, exec (.frameBoundary again) t = .next t) := by
  refine ⟨fun hnot => congrArg Host.Outcome.next (frameBoundary_of_not_due inp (frameDue_eq_false hnot)), fun hframe hrun hnew => ?_⟩
  have hdue : frameDue s = true := by simp [State.atFrame, hframe, hrun, hnew]
  obtain ⟨⟨htick, hRun, halarm, hstandby, hat, -⟩, hcounter, -⟩ := kept_frame_iff.mp (kept_frameBoundary inp hdue)
  have hdone : frameDue (frameBoundary inp s) = false := frameDue_eq_false (.inr (.inr (hat.trans (congrArg some htick.symm))))
  exact ⟨frameBoundary inp s, rfl, hat, htick, hcounter, hRun, halarm, hstandby,
    fun again => congrArg Host.Outcome.next (frameBoundary_of_not_due again hdone)⟩

theorem windowBoundary_spec (s : State) :
    (s.sys.tick % 2 ^ 22 ≠ 0 ∨ s.sys.tick = 0 ∨ ticksRun s = false ∨ s.sys.windowAt = some s.sys.tick → exec .windowBoundary s = .next s) ∧
    (s.sys.tick % 2 ^ 22 = 0 → s.sys.tick ≠ 0 → ticksRun s = true → s.sys.windowAt ≠ some s.sys.tick → ∃ t, exec .windowBoundary s = .next t ∧
      t.sys.windowAt = some s.sys.tick ∧ t.sys.tick = s.sys.tick ∧ t.ldg.lastWin = s.sys.tick / 2 ^ 22 - 1 ∧
      t.memc.ceDram = 0 ∧ t.memc.ceCar = 0 ∧ exec .windowBoundary t = .next t) := by
  refine ⟨fun hnot => congrArg Host.Outcome.next (windowBoundary_of_not_due (windowDue_eq_false hnot)), fun hwin hzero hrun hnew => ?_⟩
  have hdue : windowDue s = true := by simp [show s.sys.tick % 4194304 = 0 from hwin, hzero, hrun, hnew]
  obtain ⟨⟨htick, -, -, -, -, hat⟩, -⟩ := kept_frame_iff.mp (kept_windowBoundary hdue)
  obtain ⟨hlast, hdram, hcarafe⟩ := windowBoundary_counts hdue
  have hdone : windowDue (windowBoundary s) = false :=
    windowDue_eq_false (.inr (.inr (.inr (hat.trans (congrArg some htick.symm)))))
  exact ⟨windowBoundary s, rfl, hat, htick, hlast, hdram, hcarafe, congrArg Host.Outcome.next (windowBoundary_of_not_due hdone)⟩

/-- Settles O11: `kept` holds what a tick, a frame and a window leave as they are, and each step of their work keeps it. -/
theorem ticksFramesAndWindows : Obligations.TicksFramesAndWindows :=
  ⟨eventTick_spec, fun s => ⟨frameBoundary_spec s, windowBoundary_spec s⟩⟩

end Sys2Proof.Machine
end

section
/-! SUPPORT. The requests of SYS.MODE_REQ (R41 to R49). What a request shows of itself stands in SYS and in SYS.MODE_CHG: one projection of
the state, `modeView`, holds both, and the work of the blocks that a request brings about is shown to leave it. -/
namespace Sys2Proof.Machine
open Sys2Proof

/-- The register of the sticky change bits of the mode flags (R50). -/
abbrev modeChg : Nat := 0x4000010C

/-- Where a request shows its outcome: SYS, and SYS.MODE_CHG. -/
def modeView (s : State) : Sys × Word := (s.sys, s.reg modeChg)

theorem modeView_eq_iff {s t : State} : modeView t = modeView s ↔ t.sys = s.sys ∧ t.reg modeChg = s.reg modeChg := Prod.ext_iff

theorem sys_eq_of_modeView {s t : State} (h : modeView t = modeView s) : t.sys = s.sys := congrArg Prod.fst h

/-- Work done one element of a list after the other leaves what each piece of it leaves. -/
theorem modeView_foldl {α : Type} {f : State → α → State} (h : ∀ s a, modeView (f s a) = modeView s) (l : List α) (s : State) :
    modeView (l.foldl f s) = modeView s :=
  l.foldlRecOn (motive := fun t => modeView t = modeView s) f rfl fun t ht a _ => (h t a).trans ht

section
variable (s : State)

/-! ### The work of the blocks leaves SYS and SYS.MODE_CHG -/

@[simp] theorem modeView_updCell (p : Nat) (f : Cell → Cell) : modeView (s.updCell p f) = modeView s := rfl
@[simp] theorem modeView_updMig (p : Nat) (f : MigStat → MigStat) : modeView (updMig p f s) = modeView s := rfl
@[simp] theorem modeView_fabric (x : Fabric) : modeView { s with fabric := x } = modeView s := rfl
@[simp] theorem modeView_setMap (l : Nat) (p : Option Nat) : modeView (setMap l p s) = modeView s := rfl
@[simp] theorem modeView_noteSpare (q : Nat) : modeView (noteSpare q s) = modeView s := rfl
@[simp] theorem modeView_pair (x : Pair) : modeView { s with pair := x } = modeView s := rfl
@[simp] theorem modeView_updMac (n : Nat) (f : Mac → Mac) : modeView (updMac n f s) = modeView s := rfl
@[simp] theorem modeView_updMod (n : Nat) (f : Mod → Mod) : modeView (updMod n f s) = modeView s := rfl
@[simp] theorem modeView_lspBlocksOff (n : Nat) : modeView (lspBlocksOff n s) = modeView s := rfl
@[simp] theorem modeView_endTests : modeView (endTests s) = modeView s := rfl
@[simp] theorem modeView_mxeAlarmSet : modeView (mxeAlarmSet s) = modeView s := rfl
@[simp] theorem modeView_mxeAlarmClear : modeView (mxeAlarmClear s) = modeView s := rfl

variable {s} in
theorem modeView_orReg {a : Nat} {m : Word} (h : modeChg ≠ a) : modeView (s.orReg a m) = modeView s := by
  rw [modeView_eq_iff, reg_orReg, if_neg h]
  exact ⟨rfl, rfl⟩

/-- The registers of a cell stand behind those of every other block (Table 1.11). -/
theorem modeChg_ne_cell (p off : Nat) : modeChg ≠ (Blk.cell p).base + off := by
  simp only [modeChg, Blk.base]
  omega

@[simp] theorem modeView_migEvt (p i : Nat) : modeView (migEvt p i s) = modeView s := modeView_orReg (modeChg_ne_cell p _)

@[simp] theorem modeView_stopSched (p : Nat) : modeView (stopSched p s) = modeView s := by
  have htakeOver : modeView (takeOverCell p s) = modeView s := modeView_orReg (modeChg_ne_cell p _)
  simp [stopSched, apply_ite modeView, htakeOver]

@[simp] theorem modeView_endMig (r : MigResult) (role : Role) : modeView (endMig r role s) = modeView s := by
  unfold endMig
  split <;> simp

@[simp] theorem modeView_abortMigs (r : MigResult) (inShadow : Bool) : modeView (abortMigs r inShadow s) = modeView s := by
  unfold abortMigs
  extract_lets t fabric u
  have hqueue : modeView t = modeView s := modeView_foldl (fun v e => by simp) _ s
  have hu : modeView u = modeView s := (modeView_fabric t _).trans hqueue
  split
  · exact hu
  · split
    · exact hu
    · rw [modeView_endMig, hu]

theorem modeView_placeCell (l : Nat) : modeView (placeCell s l) = modeView s := by
  unfold placeCell
  split
  · rfl
  · extract_lets old bad
    split
    · split
      · simp
      · cases old <;> rfl
    · rfl

theorem modeView_configCell (l : Nat) : modeView (configCell s l) = modeView s := by
  unfold configCell
  split
  · rfl
  · split <;> rfl

@[simp] theorem modeView_placeLost : modeView (placeLost s) = modeView s :=
  modeView_foldl (fun t l => by simp [apply_ite modeView, modeView_configCell, modeView_placeCell]) _ s

theorem modeView_flushQueues (n : Nat) (qs : List Nat) : modeView (flushQueues n qs s) = modeView s := by
  simp [flushQueues, macCount, apply_ite modeView]

@[simp] theorem modeView_flushAudio : modeView (flushAudio s) = modeView s :=
  modeView_foldl (fun t n => modeView_flushQueues t n [5, 6]) _ s

theorem modeView_modOff (n : Nat) : modeView (modOff n s) = modeView s := by
  have hevt (i : Nat) (t : State) : modeView (evt .pwr i t) = modeView t := modeView_orReg (by decide)
  simp [modOff, apply_ite modeView, hevt]

theorem modeView_driveFall : modeView (driveFall s) = modeView s :=
  (modeView_foldl (fun t n => by simp [apply_ite modeView, modeView_modOff]) _ _).trans rfl

@[simp] theorem modeView_driveCheck : modeView (driveCheck s) = modeView s := by
  simp [driveCheck, apply_ite modeView, modeView_driveFall]

@[simp] theorem modeView_pwrRunRamp (up : Bool) : modeView (pwrRunRamp up s) = modeView s :=
  modeView_foldl (fun t n => by simp [modRamp, apply_ite modeView]) _ s

@[simp] theorem modeView_unconfigure : modeView (unconfigure s) = modeView s := by
  unfold unconfigure
  split <;> rfl

@[simp] theorem modeView_coldCheck : modeView (coldCheck s) = modeView s := by
  simp [coldCheck, apply_ite modeView]

@[simp] theorem modeView_dropStale : modeView (dropStale s) = modeView s := by
  unfold dropStale
  split
  · exact modeView_unconfigure s
  · rfl

/-! ### The mode flags and their change bits (R34, R50) -/

theorem Sys.putFlag_flag (y : Sys) (i : Nat) : y.putFlag i (y.flag i) = y := by
  match i with
  | 0 | 1 | 2 | 3 | 4 | _ + 5 => rfl

/-- Of SYS a flag's change touches the flag and the log. -/
theorem setFlag_sys (i : Nat) (v : Bool) (o : Option HostId) : ∃ l, (setFlag i v o s).sys = { s.sys.putFlag i v with log := l } := by
  unfold setFlag
  split
  next hsame =>
    rw [← eq_of_beq hsame, Sys.putFlag_flag]
    exact ⟨_, rfl⟩
  next => exact ⟨_, rfl⟩

/-- Of SYS the settling touches DEGRADED, MAINT and the log. -/
theorem settle_sys : ∃ d m l, (settle s).sys = { s.sys with degraded := d, maint := m, log := l } := by
  unfold settle
  extract_lets t
  obtain ⟨_, ht⟩ := setFlag_sys s 4 (degFenced s || degSpare s) none
  obtain ⟨_, hmaint⟩ := setFlag_sys t 5 (maintPartial t || maintMigrate t || maintTest t) none
  exact ⟨_, _, _, hmaint.trans (by rw [ht]; rfl)⟩

variable {s}

theorem bit_or (a b : Word) (i : Nat) : bit (a ||| b) i = (bit a i || bit b i) := by
  simp [bit, Nat.testBit_or]

theorem bit_bm_self {i : Nat} (h : i < 32) : bit (bm i) i = true := by
  have hfits : 2 ^ i % 2 ^ 32 = 2 ^ i := Nat.mod_eq_of_lt (Nat.pow_lt_pow_right (by decide) h)
  rw [bit, bm, wd, BitVec.toNat_ofNat, hfits, Nat.testBit_two_pow_self]

/-- A bit that is 1 stays 1 while bits are set. -/
theorem rbit_orReg {a i : Nat} (b : Nat) (m : Word) (h : s.rbit a i = true) : (s.orReg b m).rbit a i = true := by
  unfold State.rbit at h ⊢
  rw [reg_orReg]
  split
  next hab => rw [bit_or, ← hab, h, Bool.true_or]
  next => exact h

/-- The change bits are sticky. -/
theorem setFlag_keeps_changes {j : Nat} (i : Nat) (v : Bool) (o : Option HostId) (h : s.rbit modeChg j = true) :
    (setFlag i v o s).rbit modeChg j = true := by
  unfold setFlag
  split
  · exact h
  · exact (rbit_congr (logPush_regs _ _ _ _ _ _) _ _).trans (rbit_orReg _ _ (s := s.updSys _) h)

theorem settle_keeps_changes {j : Nat} (h : s.rbit modeChg j = true) : (settle s).rbit modeChg j = true :=
  setFlag_keeps_changes 5 _ none (setFlag_keeps_changes 4 _ none h)

/-- A flag that takes its other value leaves its change bit set. -/
theorem setFlag_notes_change {i : Nat} {v : Bool} (o : Option HostId) (hi : i < 32) (h : s.sys.flag i ≠ v) :
    (setFlag i v o s).rbit modeChg i = true := by
  unfold setFlag
  rw [if_neg (by simpa using h)]
  refine (rbit_congr (logPush_regs _ _ _ _ _ _) _ _).trans ?_
  rw [State.rbit, reg_orReg, if_pos rfl, bit_or, bit_bm_self hi, Bool.or_true]

end
end Sys2Proof.Machine
end

section
/-! SUPPORT. RUN and ALARM requests (R41 to R49). -/
namespace Sys2Proof.Machine
open Sys2Proof

/-! ### A write of SYS.MODE_REQ asks for one flag at a time (R41, R42) -/

/-- SYS.MODE_REQ holds the word of a request. -/
def modeRequested (run alarm : Option Bool) (s : State) : State := s.setReg 0x40000104 (modeReqWord s run alarm &&& 3)

theorem modeReqWord_bits (s : State) (run alarm : Option Bool) :
    bit (modeReqWord s run alarm) 0 = run.getD s.sys.run ∧ bit (modeReqWord s run alarm) 1 = alarm.getD s.sys.alarm := by
  unfold modeReqWord
  generalize run.getD s.sys.run = r, alarm.getD s.sys.alarm = a
  revert r a
  decide

theorem alarmRequest_same {v : Bool} (o : Option HostId) {s : State} (h : s.sys.alarm = v) : alarmRequest v o s = s := by
  simp [alarmRequest, h]
theorem runRequest_same {v : Bool} (o : Option HostId) {s : State} (h : s.sys.run = v) : runRequest v o s = s := by
  simp [runRequest, h]

theorem modeReqWrite_run (m : Master) (v : Bool) (s : State) :
    modeReqWrite m (modeReqWord s (some v) none) s = runRequest v m.host? (modeRequested (some v) none s) := by
  obtain ⟨hrun, halarm⟩ := modeReqWord_bits s (some v) none
  unfold modeReqWrite
  rw [hrun, halarm]
  exact congrArg (runRequest v m.host?) (alarmRequest_same _ rfl)

/-- An ALARM request leaves RUN, so the RUN request that follows it asks for nothing. -/
theorem modeReqWrite_alarm {m : Master} {v : Bool} {s : State}
    (h : (alarmRequest v m.host? (modeRequested none (some v) s)).sys.run = s.sys.run) :
    modeReqWrite m (modeReqWord s none (some v)) s = alarmRequest v m.host? (modeRequested none (some v) s) := by
  obtain ⟨hrun, halarm⟩ := modeReqWord_bits s none (some v)
  unfold modeReqWrite
  rw [hrun, halarm, Option.getD_none, Option.getD_some]
  exact runRequest_same _ h

theorem mayWrite_cmd {m : Master} {s : State} (k : State → State) (h : MayWrite m s) : cmd m true k s = respond m .ok [] (k s) :=
  let ⟨hreach, hright⟩ := h
  cmd_ok hreach (.inr hright)

/-! ### RUN set (R43, R45 to R47) -/

/-- A refusal rests on nothing that SYS.MODE_REQ shows. -/
theorem runSetRefusal_modeRequested (run alarm : Option Bool) (s : State) :
    runSetRefusal (modeRequested run alarm s) = runSetRefusal s := by
  have hrehearsal : (modeRequested run alarm s).rbit 0x4000011C 1 = s.rbit 0x4000011C 1 :=
    congrArg (bit · 1) (reg_setReg_ne s _ (by decide))
  unfold runSetRefusal
  rw [hrehearsal]
  rfl

/-- Without an accepted image a RUN set is refused (R43). -/
theorem accepted_of_runSetRefusal {s : State} (h : runSetRefusal s = none) : s.img.accepted = true := by
  by_contra hno
  have himage : noImage s = true := by simp [noImage, Bool.eq_false_iff.mpr hno]
  simp only [runSetRefusal, himage, if_true] at h
  split_ifs at h

theorem runSetRefusal_ne_applied {s : State} {c : Nat} (h : runSetRefusal s = some c) : c ≠ 1 := by
  rintro rfl
  unfold runSetRefusal at h
  split_ifs at h <;> exact absurd (Option.some.inj h) (by decide)

theorem runRequest_set {o : Option HostId} {s : State} (h : s.sys.run = false) :
    (∀ c, runSetRefusal s = some c → runRequest true o s = modeResult false c s) ∧
    (runSetRefusal s = none → runRequest true o s = modeResult false 1 (runApplied o s)) := by
  refine ⟨fun c hc => ?_, fun hn => ?_⟩
  · simp [runRequest, h, hc]
  · simp [runRequest, h, hn]

theorem dropStale_of_fresh {s : State} (h : s.img.stale = false) : dropStale s = s := by simp [dropStale, h]

/-- Cells that a partial load has overtaken are not configured (R38). -/
theorem dropStale_of_stale {s : State} (hstale : s.img.stale = true) (himage : s.img.accepted = true) : (dropStale s).img.cold = true := by
  simp [dropStale, unconfigure, hstale, himage, State.updImg]

/-- The cells are still to be configured when the ramp of a RUN set falls due (R47). -/
def cellsWait (s : State) : Bool := s.img.cold || s.pair.cold == .configuring || s.pair.cold == .restoring

theorem setFlag_cellsWait (i : Nat) (v : Bool) (o : Option HostId) (s : State) : cellsWait (setFlag i v o s) = cellsWait s := by
  rw [setFlag_frame]
  rfl

/-- The ramp up: PHASE RAMP_IN to b + 4,096, and SYS otherwise as it was but for the amplitudes (R45, R46). -/
theorem startRamp_sys (s : State) : ∃ r,
    (startRamp s).sys = { s.sys with runStart := true, phase := .rampIn, rampEnd := some (nextBoundary s.sys.tick + 4096), outRamp := r } := by
  rw [startRamp, rampUp, sys_eq_of_modeView (modeView_pwrRunRamp _ true)]
  exact ⟨_, rfl⟩

/-- RUN is 1 while the cells are configured (R47). -/
def awaitCells (s : State) : State :=
  let s := s.updSys fun y => { y with phase := .config, rampEnd := none }
  if s.pair.cold = .none then { s with pair := { s.pair with cold := .configuring } } else s

theorem awaitCells_sys (s : State) : (awaitCells s).sys = { s.sys with phase := .config, rampEnd := none } := by
  unfold awaitCells
  extract_lets t
  split <;> rfl

/-- The cells are configured, and start (R47). -/
def startCells (s : State) : State := startRamp (placeLost { s with pair := { s.pair with cold := .none } })

theorem startCells_sys (s : State) : ∃ r,
    (startCells s).sys = { s.sys with runStart := true, phase := .rampIn, rampEnd := some (nextBoundary s.sys.tick + 4096), outRamp := r } := by
  obtain ⟨r, hramp⟩ := startRamp_sys (placeLost { s with pair := { s.pair with cold := .none } })
  have hplace := sys_eq_of_modeView ((modeView_placeLost { s with pair := { s.pair with cold := .none } }).trans (modeView_pair s _))
  exact ⟨r, by rw [startCells, hramp, hplace]⟩

theorem runApplied_eq (o : Option HostId) (s : State) :
    runApplied o s =
      if cellsWait (dropStale (setFlag 0 true o s)) then awaitCells (dropStale (setFlag 0 true o s))
      else startCells (dropStale (setFlag 0 true o s)) := rfl

/-- Up to the choice between CONFIG and the ramp only RUN changes in SYS. -/
theorem dropStale_setRun_sys (o : Option HostId) (s : State) :
    ∃ l, (dropStale (setFlag 0 true o s)).sys = { s.sys with run := true, log := l } := by
  obtain ⟨l, hflag⟩ := setFlag_sys s 0 true o
  exact ⟨l, (sys_eq_of_modeView (modeView_dropStale _)).trans hflag⟩

/-- RUN set with the cells still to be configured: the flag, and PHASE CONFIG (R47). -/
theorem runApplied_sys_of_wait {o : Option HostId} {s : State} (h : cellsWait (dropStale (setFlag 0 true o s)) = true) :
    ∃ l, (runApplied o s).sys = { s.sys with run := true, log := l, phase := .config, rampEnd := none } := by
  obtain ⟨l, hdrop⟩ := dropStale_setRun_sys o s
  exact ⟨l, by rw [runApplied_eq, if_pos h, awaitCells_sys, hdrop]⟩

/-- RUN set with the cells configured: the flag, and the ramp at once (R47). -/
theorem runApplied_sys_of_ready {o : Option HostId} {s : State} (h : cellsWait (dropStale (setFlag 0 true o s)) = false) :
    ∃ l r, (runApplied o s).sys =
      { s.sys with run := true, log := l, runStart := true, phase := .rampIn, rampEnd := some (nextBoundary s.sys.tick + 4096), outRamp := r } := by
  obtain ⟨l, hdrop⟩ := dropStale_setRun_sys o s
  obtain ⟨r, hstart⟩ := startCells_sys (dropStale (setFlag 0 true o s))
  exact ⟨l, r, by rw [runApplied_eq, if_neg (Bool.eq_false_iff.mp h), hstart, hdrop]⟩

/-- RUN is set, ALARM and the tick stay. -/
theorem runApplied_flags (o : Option HostId) (s : State) :
    (runApplied o s).sys.run = true ∧ (runApplied o s).sys.alarm = s.sys.alarm ∧ (runApplied o s).sys.tick = s.sys.tick := by
  cases h : cellsWait (dropStale (setFlag 0 true o s)) with
  | true =>
    obtain ⟨_, hsys⟩ := runApplied_sys_of_wait h
    simp [hsys]
  | false =>
    obtain ⟨_, _, hsys⟩ := runApplied_sys_of_ready h
    simp [hsys]

theorem runApplied_ramps {o : Option HostId} {s : State} (hfresh : s.img.stale = false) (hready : cellsWait s = false) :
    (runApplied o s).sys.phase = .rampIn ∧ (runApplied o s).sys.rampEnd = some (nextBoundary s.sys.tick + 4096) := by
  have himg : (setFlag 0 true o s).img = s.img := by rw [setFlag_frame]
  obtain ⟨_, _, hsys⟩ := runApplied_sys_of_ready (o := o) (s := s)
    (by rw [dropStale_of_fresh (by rw [himg, hfresh]), setFlag_cellsWait, hready])
  simp [hsys]

theorem runApplied_config {o : Option HostId} {s : State} (himage : s.img.accepted = true) (h : s.img.cold = true ∨ s.img.stale = true) :
    (runApplied o s).sys.phase = .config ∧ (runApplied o s).sys.rampEnd = none := by
  have himg : (setFlag 0 true o s).img = s.img := by rw [setFlag_frame]
  have hcold : (dropStale (setFlag 0 true o s)).img.cold = true := by
    by_cases hstale : s.img.stale = true
    · exact dropStale_of_stale (by rw [himg, hstale]) (by rw [himg, himage])
    · rw [dropStale_of_fresh (by rw [himg, Bool.eq_false_iff.mpr hstale]), himg]
      exact h.resolve_right hstale
  obtain ⟨_, hsys⟩ := runApplied_sys_of_wait (o := o) (s := s) (by simp [cellsWait, hcold])
  simp [hsys]

/-! ### RUN clear (R43, R48) -/

/-- RUN is cleared: ALARM and the tick stay, and outputs that are not stopped ramp out to b + 4,096. -/
theorem runCleared_modes {o : Option HostId} {s : State} (h : s.sys.run = true) :
    ((runCleared o s).sys.run = false ∧ (runCleared o s).sys.alarm = s.sys.alarm ∧ (runCleared o s).sys.tick = s.sys.tick) ∧
    (s.sys.phase ≠ .stopped → s.sys.phase ≠ .config →
      (runCleared o s).sys.phase = .rampOut ∧ (runCleared o s).sys.rampEnd = some (nextBoundary s.sys.tick + 4096)) := by
  unfold runCleared
  rw [if_neg (by simp [h])]
  extract_lets t₁ t₂ t₃ t₄ t₅ c pair t₆
  have hblocks : modeView t₂ = modeView t₁ := modeView_foldl (fun u n => by simp [apply_ite modeView]) _ t₁
  have hwork : t₄.sys = t₁.sys := sys_eq_of_modeView (by simp [t₄, t₃, hblocks])
  obtain ⟨l, hflag⟩ := setFlag_sys s 0 false o
  have hsys : t₄.sys = { s.sys with run := false, log := l } := hwork.trans hflag
  clear_value t₄
  split
  next hstopped =>
    rw [hsys] at hstopped ⊢
    exact ⟨⟨rfl, rfl, rfl⟩, fun hne => absurd hstopped hne⟩
  next hconfig =>
    have hcold : (driveCheck (if c = .none then t₆ else unconfigure t₆)).sys = t₅.sys :=
      sys_eq_of_modeView (by rw [modeView_driveCheck]; split <;> simp [t₆])
    rw [hcold]
    dsimp only [t₅, State.updSys]
    rw [hsys] at hconfig ⊢
    exact ⟨⟨rfl, rfl, rfl⟩, fun _ hne => absurd hconfig hne⟩
  next =>
    have hramp : (driveCheck (pwrRunRamp false (beginRamp .rampOut t₄))).sys = (beginRamp .rampOut t₄).sys :=
      sys_eq_of_modeView (by simp)
    rw [hramp]
    dsimp only [beginRamp, State.updSys]
    rw [hsys]
    exact ⟨⟨rfl, rfl, rfl⟩, fun _ _ => ⟨rfl, rfl⟩⟩

/-- What follows a cleared RUN, a cold standby and the settled flags, leaves RUN, ALARM, PHASE, the ramp and the tick. -/
theorem settle_coldCheck_sys (s : State) : ∃ d m l, (settle (coldCheck s)).sys = { s.sys with degraded := d, maint := m, log := l } := by
  obtain ⟨d, m, l, hsettle⟩ := settle_sys (coldCheck s)
  exact ⟨d, m, l, by rw [hsettle, sys_eq_of_modeView (modeView_coldCheck s)]⟩

theorem runRequest_clear_held {o : Option HostId} {s : State} (hrun : s.sys.run = true) (hsnuff : s.sys.snuffed = false)
    (halarm : s.sys.alarm = true) : runRequest false o s = modeResult false 5 s := by
  simp [runRequest, hrun, hsnuff, halarm]

/-- A RUN clear that is applied (R43, R48). -/
theorem runRequest_clear_applied {o : Option HostId} {s : State} (hrun : s.sys.run = true) (hsnuff : s.sys.snuffed = false)
    (halarm : s.sys.alarm = false) :
    (runRequest false o s).sys.alarm = false ∧ (runRequest false o s).sys.run = false ∧ (runRequest false o s).sys.runResult = 1 ∧
      (runRequest false o s).sys.resTick = s.sys.tick % 65536 ∧
      (s.sys.phase ≠ .stopped → s.sys.phase ≠ .config →
        (runRequest false o s).sys.phase = .rampOut ∧ (runRequest false o s).sys.rampEnd = some (nextBoundary s.sys.tick + 4096)) := by
  have hrequest : runRequest false o s = modeResult false 1 (settle (coldCheck (runCleared o s))) := by
    simp [runRequest, hrun, hsnuff, halarm]
  obtain ⟨⟨hclear, hkeeps, htick⟩, hramp⟩ := runCleared_modes (o := o) hrun
  obtain ⟨_, _, _, hsettle⟩ := settle_coldCheck_sys (runCleared o s)
  rw [hrequest]
  simp only [modeResult, State.updSys, hsettle]
  exact ⟨hkeeps.trans halarm, hclear, rfl, congrArg (· % 65536) htick, hramp⟩

/-! ### ALARM requests (R43, R49) -/

/-- The work of an ALARM change touches nothing of SYS and of SYS.MODE_CHG but what the flag's change does. -/
theorem modeView_alarmApplied (v : Bool) (o : Option HostId) (s : State) :
    modeView (alarmApplied v o s) = modeView (setFlag 1 v o (s.updSys fun y => { y with alarmRose := y.alarmRose || (v && !y.alarm) })) := by
  simp [alarmApplied, apply_ite modeView]

/-- ALARM takes the value, RUN and the tick stay, and a change is noted (R49, R50). -/
theorem alarmApplied_modes {v : Bool} (o : Option HostId) {s : State} (h : s.sys.alarm ≠ v) :
    (alarmApplied v o s).sys.alarm = v ∧ (alarmApplied v o s).sys.run = s.sys.run ∧ (alarmApplied v o s).sys.tick = s.sys.tick ∧
      (alarmApplied v o s).rbit modeChg 1 = true := by
  obtain ⟨hsys, hreg⟩ := modeView_eq_iff.mp (modeView_alarmApplied v o s)
  rw [State.rbit, hreg, hsys]
  refine and_assoc.mp (and_assoc.mp ⟨?_, setFlag_notes_change o (by decide) h⟩)
  obtain ⟨_, hflag⟩ := setFlag_sys (s.updSys fun y => { y with alarmRose := y.alarmRose || (v && !y.alarm) }) 1 v o
  rw [hflag]
  exact ⟨⟨rfl, rfl⟩, rfl⟩

theorem alarmRequest_refused {v : Bool} (o : Option HostId) {s : State} (h : s.sys.alarm ≠ v) (hsnuff : s.sys.snuffed = true) :
    alarmRequest v o s = modeResult true 4 s := by
  simp [alarmRequest, h, hsnuff]

/-- An ALARM request that is applied (R43, R49, R50). -/
theorem alarmRequest_applied {v : Bool} (o : Option HostId) {s : State} (h : s.sys.alarm ≠ v) (hsnuff : s.sys.snuffed = false) :
    ((alarmRequest v o s).sys.alarm = v ∧ (alarmRequest v o s).sys.run = s.sys.run) ∧ (alarmRequest v o s).sys.alarmResult = 1 ∧
      (alarmRequest v o s).sys.resTick = s.sys.tick % 65536 ∧ (alarmRequest v o s).rbit modeChg 1 = true := by
  have hrequest : alarmRequest v o s = modeResult true 1 (settle ((alarmApplied v o s).updSys fun y => { y with alarmMirror := false })) := by
    simp [alarmRequest, h, hsnuff]
  obtain ⟨halarm, hrun, htick, hchg⟩ := alarmApplied_modes o h
  have hstays : (settle ((alarmApplied v o s).updSys fun y => { y with alarmMirror := false })).rbit modeChg 1 = true := settle_keeps_changes hchg
  obtain ⟨_, _, _, hsettle⟩ := settle_sys ((alarmApplied v o s).updSys fun y => { y with alarmMirror := false })
  simp only [State.updSys] at hsettle hstays
  rw [hrequest]
  simp only [modeResult, State.updSys, hsettle]
  exact ⟨⟨halarm, hrun⟩, rfl, congrArg (· % 65536) htick, hstays⟩

theorem alarmRequest_run (v : Bool) (o : Option HostId) (s : State) : (alarmRequest v o s).sys.run = s.sys.run := by
  by_cases h : s.sys.alarm = v
  · rw [alarmRequest_same o h]
  by_cases hsnuff : s.sys.snuffed = true
  · rw [alarmRequest_refused o h hsnuff]
    rfl
  · obtain ⟨⟨-, hrun⟩, -⟩ := alarmRequest_applied o h (Bool.eq_false_iff.mpr hsnuff)
    exact hrun

/-! ### The commands -/

theorem exec_runSet {m : Master} {s : State} (h : MayWrite m s) :
    exec (.runSet m) s = .next (respond m .ok [] (runRequest true m.host? (modeRequested (some true) none s))) := by
  rw [← modeReqWrite_run, ← mayWrite_cmd (fun t => modeReqWrite m (modeReqWord t (some true) none) t) h]
  rfl

theorem exec_runClear {m : Master} {s : State} (h : MayWrite m s) :
    exec (.runClear m) s = .next (respond m .ok [] (runRequest false m.host? (modeRequested (some false) none s))) := by
  rw [← modeReqWrite_run, ← mayWrite_cmd (fun t => modeReqWrite m (modeReqWord t (some false) none) t) h]
  rfl

theorem exec_alarm {m : Master} {s : State} (v : Bool) (h : MayWrite m s) :
    exec (if v then .alarmSet m else .alarmClear m) s =
      .next (respond m .ok [] (alarmRequest v m.host? (modeRequested none (some v) s))) := by
  rw [← modeReqWrite_alarm (alarmRequest_run _ _ _), ← mayWrite_cmd (fun t => modeReqWrite m (modeReqWord t none (some v)) t) h]
  cases v <;> rfl

/-! ### The obligations -/

/-- Settles O1: RUN is 1 already, or `runSetRefusal` names a code, or RUN is applied and `cellsWait` decides between CONFIG and the ramp. -/
theorem runSetRequest : Obligations.RunSetRequest := by
  intro s m hwrite
  refine ⟨_, exec_runSet hwrite, resp_respond_same _ _ _ _, ?_⟩
  cases hrun : s.sys.run with
  | true =>
    rw [runRequest_same m.host? (s := modeRequested (some true) none s) hrun]
    exact ⟨rfl, hrun, fun _ => rfl, nofun⟩
  | false =>
    obtain ⟨hrefused, happlied⟩ := runRequest_set (o := m.host?) (s := modeRequested (some true) none s) hrun
    rw [runSetRefusal_modeRequested] at hrefused happlied
    cases hcode : runSetRefusal s with
    | some c =>
      have hflag : (s.sys.refused || c != 1) = true := by simp [runSetRefusal_ne_applied hcode]
      rw [hrefused c hcode]
      refine ⟨rfl, hrun, nofun, fun _ => ⟨hcode.symm.trans rfl, rfl, rfl, ?_, nofun, nofun⟩⟩
      rintro _ ⟨⟩
      exact ⟨hflag, rfl, rfl⟩
    | none =>
      rw [happlied hcode]
      obtain ⟨hset, halarm, htick⟩ := runApplied_flags m.host? (modeRequested (some true) none s)
      refine ⟨halarm, hset, nofun, fun _ => ⟨hcode.symm.trans rfl, congrArg (· % 65536) htick, rfl, nofun, ?_, ?_⟩⟩
      · intro _ hcold hstale hconfiguring hrestoring
        exact runApplied_ramps hstale (by simp [cellsWait, modeRequested, hcold, hconfiguring, hrestoring])
      · intro _ hwait
        exact runApplied_config (s := modeRequested (some true) none s) (accepted_of_runSetRefusal (s := s) hcode) hwait

/-- Settles O2: of a RUN clear ALARM decides, of an ALARM request the snuffed state. -/
theorem runClearAndAlarmRequests : Obligations.RunClearAndAlarmRequests := by
  refine ⟨fun s m hwrite hsnuff => ⟨_, exec_runClear hwrite, resp_respond_same _ _ _ _, ?_⟩,
    fun s m v hwrite => ⟨_, exec_alarm v hwrite, resp_respond_same _ _ _ _, alarmRequest_run v m.host? _, fun hsame => ?_,
      fun hother hsnuff => ?_, fun hother hsnuff => ?_⟩⟩
  · cases hrun : s.sys.run with
    | false =>
      rw [runRequest_same m.host? (s := modeRequested (some false) none s) hrun]
      exact ⟨rfl, fun _ => rfl, nofun, nofun⟩
    | true =>
      cases halarm : s.sys.alarm with
      | true =>
        rw [runRequest_clear_held (s := modeRequested (some false) none s) hrun hsnuff halarm]
        exact ⟨halarm, nofun, fun _ _ => ⟨hrun, rfl, Bool.or_true _, rfl, rfl⟩, nofun⟩
      | false =>
        obtain ⟨hkeeps, happlied⟩ := runRequest_clear_applied (o := m.host?) (s := modeRequested (some false) none s) hrun hsnuff halarm
        exact ⟨hkeeps, nofun, nofun, fun _ _ => happlied⟩
  · rw [alarmRequest_same m.host? (s := modeRequested none (some v) s) hsame]
    rfl
  · rw [alarmRequest_refused m.host? (s := modeRequested none (some v) s) hother hsnuff]
    exact ⟨rfl, rfl, Bool.or_true _, rfl⟩
  · obtain ⟨⟨halarm, -⟩, happlied⟩ := alarmRequest_applied m.host? (s := modeRequested none (some v) s) hother hsnuff
    exact ⟨halarm, happlied⟩

end Sys2Proof.Machine
end

section
/-! SUPPORT. What no command changes: the queue that waits behind it, and the fuses; and what only a reset, a clock's return, a tick and the
end of the start-up wait change: ALIGNED, and the note that the counter stood still (R410). One projection of the state, `lasting`, holds
both pairs, and every operation of the model is shown to keep it, or its first pair (`_fst`), block by block in the order of the model; a
state that is written out keeps it by `lasting_mk`. The equations stand by `by rfl`: as definitional ones they would have the kernel unfold
every operation they rewrite. -/
namespace Sys2Proof.Machine
open Sys2Proof

/-- What lasts: through every command the queue that waits and the fuses; through all work but that on time ALIGNED and the counter's note. -/
def lasting (s : State) : (List Instr × Fuses) × Bool × Bool := ((s.pending, s.img.fuses), s.sys.aligned, s.sys.tickLoss)

/-- ALIGNED is set anew, as the end of the start-up wait sets it (R295). -/
def renumbered (x : (List Instr × Fuses) × Bool × Bool) : (List Instr × Fuses) × Bool × Bool := (x.1, !x.2.2, x.2.2)

/-- Work done one element of a list after the other keeps what each piece of it keeps. -/
@[simp] theorem lasting_foldl {α : Type} {f : State → α → State} (h : ∀ s a, lasting (f s a) = lasting s) (l : List α) (s : State) :
    lasting (l.foldl f s) = lasting s :=
  l.foldlRecOn (motive := fun t => lasting t = lasting s) f rfl fun t ht a _ => (h t a).trans ht

/-- The same for work that carries a value of its own along. -/
@[simp] theorem lasting_foldl_fst {α β : Type} {f : State × β → α → State × β}
    (h : ∀ (r : State × β) a, lasting (f r a).1 = lasting r.1) (l : List α) (r : State × β) : lasting (l.foldl f r).1 = lasting r.1 :=
  l.foldlRecOn (motive := fun t : State × β => lasting t.1 = lasting r.1) f rfl fun t ht a _ => (h t a).trans ht

@[simp] theorem lasting_ite (c : Prop) [Decidable c] (a b : State) : lasting (if c then a else b) = if c then lasting a else lasting b :=
  apply_ite lasting c a b

/-- A register's effect, where it has one, by the case of its offset. -/
theorem lasting_mem_ite {α : Type} {c : Prop} [Decidable c] {o₁ o₂ : Option (State × α)} {s : State}
    (h₁ : ∀ r ∈ o₁, lasting r.1 = lasting s) (h₂ : ∀ r ∈ o₂, lasting r.1 = lasting s) :
    ∀ r ∈ (if c then o₁ else o₂), lasting r.1 = lasting s := by
  split <;> assumption

section
variable (s : State)

@[simp] theorem lasting_mk (q regs mem n bus sys hpa hpb sems bmx img ldg rails cells fabric ckpt mxe dly netRx portIn memUe poisoned macs ste
    ptu rsu apt aptRnd pwr lsp dma chk memc twc flc jtag pair) :
    lasting ⟨q, regs, mem, n, bus, sys, hpa, hpb, sems, bmx, img, ldg, rails, cells, fabric, ckpt, mxe, dly, netRx, portIn, memUe, poisoned,
      macs, ste, ptu, rsu, apt, aptRnd, pwr, lsp, dma, chk, memc, twc, flc, jtag, pair⟩ = ((q, img.fuses), sys.aligned, sys.tickLoss) := by rfl
@[simp] theorem lasting_eta : ((s.pending, s.img.fuses), s.sys.aligned, s.sys.tickLoss) = lasting s := by rfl

/-- A change of IMG keeps what lasts where it keeps the fuses. -/
@[simp] theorem lasting_updImg {f : Img → Img} (h : ∀ i, (f i).fuses = i.fuses) : lasting (s.updImg f) = lasting s := by
  simp only [lasting, State.updImg, h]

/-! ### Registers, memory bytes, answers, faults, events, flags and pins -/

@[simp] theorem lasting_setReg (a : Nat) (v : Word) : lasting (s.setReg a v) = lasting s := by rfl
@[simp] theorem lasting_setFld (a lo n v : Nat) : lasting (s.setFld a lo n v) = lasting s := by rfl
@[simp] theorem lasting_orReg (a : Nat) (m : Word) : lasting (s.orReg a m) = lasting s := by rfl
@[simp] theorem lasting_clrReg (a : Nat) (m : Word) : lasting (s.clrReg a m) = lasting s := by rfl
@[simp] theorem lasting_setBytes (a : Nat) (l : List Byte) : lasting (s.setBytes a l) = lasting s := by rfl
@[simp] theorem lasting_draw : lasting (s.draw).2 = lasting s := by rfl
@[simp] theorem lasting_drawBytes (n : Nat) : lasting (drawBytes n s).2 = lasting s := by simp [drawBytes_frame]
@[simp] theorem lasting_updSys {f : Sys → Sys} (h : ∀ y, (f y).aligned = y.aligned ∧ (f y).tickLoss = y.tickLoss) :
    lasting (s.updSys f) = lasting s := by
  simp only [lasting, State.updSys, h]
@[simp] theorem lasting_setCell (p : Nat) (c : Cell) : lasting (s.setCell p c) = lasting s := by rfl
@[simp] theorem lasting_updCell (p : Nat) (f : Cell → Cell) : lasting (s.updCell p f) = lasting s := by rfl

@[simp] theorem lasting_setPort (h : HostId) (p : HPort) : lasting (s.setPort h p) = lasting s := by
  unfold State.setPort
  split <;> simp

@[simp] theorem lasting_setSem (i : Nat) (x : Sem) : lasting (s.setSem i x) = lasting s := by rfl
@[simp] theorem lasting_beginRamp (p : Phase) : lasting (beginRamp p s) = lasting s := by rfl
@[simp] theorem lasting_logPush (kind block unit source attr : Nat) : lasting (logPush kind block unit source attr s) = lasting s := by rfl
@[simp] theorem lasting_raise (b : Blk) (i : Nat) : lasting (raise b i s) = lasting s := by simp [raise]
@[simp] theorem lasting_evt (b : Blk) (i : Nat) : lasting (evt b i s) = lasting s := by rfl
@[simp] theorem lasting_respond (m : Master) (c : Code) (ws : List Word) : lasting (respond m c ws s) = lasting s := by rfl

@[simp] theorem lasting_cmdAt (t : BusTarget) (m : Master) (k : State → State × Code) (hk : ∀ t, lasting (k t).1 = lasting t) :
    lasting (cmdAt t m k s) = lasting s := by
  unfold cmdAt
  split <;> simp [hk]

@[simp] theorem lasting_rdAt (t : BusTarget) (m : Master) (k : State → State × Word × Code) (hk : ∀ t, lasting (k t).1 = lasting t) :
    lasting (rdAt t m k s) = lasting s := by
  unfold rdAt
  split <;> simp [hk]

@[simp] theorem lasting_cmdC (m : Master) (rws : Bool) (k : State → State × Code) (hk : ∀ t, lasting (k t).1 = lasting t) :
    lasting (cmdC m rws k s) = lasting s := by
  unfold cmdC
  split <;> simp [hk]

@[simp] theorem lasting_cmd (m : Master) (rws : Bool) (k : State → State) (hk : ∀ t, lasting (k t) = lasting t) :
    lasting (cmd m rws k s) = lasting s :=
  lasting_cmdC s m rws _ hk

@[simp] theorem lasting_rdCmd (m : Master) (k : State → State × Word) (hk : ∀ t, lasting (k t).1 = lasting t) :
    lasting (rdCmd m k s) = lasting s := by
  unfold rdCmd
  split <;> simp [hk]

/-- No mode flag is ALIGNED. -/
theorem Sys.putFlag_alignment (y : Sys) (i : Nat) (v : Bool) : (y.putFlag i v).aligned = y.aligned ∧ (y.putFlag i v).tickLoss = y.tickLoss := by
  unfold Sys.putFlag
  split <;> exact ⟨rfl, rfl⟩

@[simp] theorem lasting_setFlag (i : Nat) (v : Bool) (o : Option HostId) : lasting (setFlag i v o s) = lasting s := by
  unfold setFlag
  split
  · rfl
  · simp [lasting_updSys s fun y => Sys.putFlag_alignment y i v]

@[simp] theorem lasting_settle : lasting (settle s) = lasting s := by simp [settle]
@[simp] theorem lasting_setPin (h : HostId) (p : IntPin) : lasting (s.setPin h p) = lasting s := by cases h <;> rfl
@[simp] theorem lasting_settlePin (h : HostId) : lasting (settlePin h s) = lasting s := by simp [settlePin]
@[simp] theorem lasting_settlePins : lasting (settlePins s) = lasting s := by simp [settlePins]

end
end Sys2Proof.Machine
end

section
/-! SUPPORT. What lasts through every command: the cells, the ledger, the matrix and the delay lines. -/
namespace Sys2Proof.Machine
open Sys2Proof

section
variable (s : State)

/-! ### The cell fabric -/

@[simp] theorem lasting_setMap (l : Nat) (p : Option Nat) : lasting (setMap l p s) = lasting s := by rfl
@[simp] theorem lasting_migEvt (p i : Nat) : lasting (migEvt p i s) = lasting s := by rfl
@[simp] theorem lasting_takeOverCell (p : Nat) : lasting (takeOverCell p s) = lasting s := by simp [takeOverCell]
@[simp] theorem lasting_stopSched (p : Nat) : lasting (stopSched p s) = lasting s := by simp [stopSched]
@[simp] theorem lasting_fenceCell (p : Nat) : lasting (fenceCell p s) = lasting s := by simp [fenceCell]
@[simp] theorem lasting_updMig (p : Nat) (f : MigStat → MigStat) : lasting (updMig p f s) = lasting s := by rfl
@[simp] theorem lasting_noteSpare (q : Nat) : lasting (noteSpare q s) = lasting s := by rfl

@[simp] theorem lasting_placeCell (l : Nat) : lasting (placeCell s l) = lasting s := by
  unfold placeCell
  dsimp only
  repeat' split
  all_goals simp

@[simp] theorem lasting_configCell (l : Nat) : lasting (configCell s l) = lasting s := by
  unfold configCell
  split <;> simp

@[simp] theorem lasting_placeLost : lasting (placeLost s) = lasting s := by simp [placeLost]

@[simp] theorem lasting_startProactive (p : Nat) (ce : Bool) : lasting (startProactive p ce s) = lasting s := by
  unfold startProactive
  split <;> simp

@[simp] theorem lasting_dequeueList (l : List (Nat × Bool)) : lasting (dequeueList l s).2 = lasting s := by
  induction l generalizing s with
  | nil => rfl
  | cons e t ih =>
    unfold dequeueList
    split_ifs <;> simp [ih]

@[simp] theorem lasting_dequeueMig : lasting (dequeueMig s) = lasting s := by simp [dequeueMig]
@[simp] theorem lasting_requestMig (p : Nat) (ce : Bool) : lasting (requestMig p ce s) = lasting s := by simp [requestMig]
@[simp] theorem lasting_ceMigrate (p : Nat) : lasting (ceMigrate s p) = lasting s := by simp [ceMigrate]

@[simp] theorem lasting_endMig (r : MigResult) (spareRole : Role) : lasting (endMig r spareRole s) = lasting s := by
  unfold endMig
  split <;> simp

@[simp] theorem lasting_restoreOn (l src q : Nat) (r : Role) : lasting (restoreOn l src q r s) = lasting s := by simp [restoreOn]

@[simp] theorem lasting_startRestore (l src : Nat) (r : Role) : lasting (startRestore l src r s) = lasting s := by
  unfold startRestore
  split
  · rfl
  · split
    · simp
    · split <;> simp

@[simp] theorem lasting_promote (m : Mig) (l : Option Nat) : lasting (promote m l s) = lasting s := by
  unfold promote
  split <;> simp

@[simp] theorem lasting_failFence (p : Nat) : lasting (failFence p s) = lasting s := by
  unfold failFence
  dsimp only
  repeat' split
  all_goals simp

@[simp] theorem lasting_failTaken (p : Nat) : lasting (failTaken p s) = lasting s := by
  unfold failTaken
  split <;> simp

@[simp] theorem lasting_hardFail (p : Nat) : lasting (hardFail p s) = lasting s := by
  unfold hardFail
  dsimp only
  split <;> simp

@[simp] theorem lasting_cellUe (src p : Nat) : lasting (cellUe src p s) = lasting s := by simp [cellUe]

@[simp] theorem lasting_abortMigs (r : MigResult) (inShadow : Bool) : lasting (abortMigs r inShadow s) = lasting s := by
  unfold abortMigs
  extract_lets t fabric u
  have hu : lasting u = lasting s := by simp [u, t]
  split
  · exact hu
  · simp [hu]

@[simp] theorem lasting_abortRestores : lasting (abortRestores s) = lasting s := by simp [abortRestores]

@[simp] theorem lasting_scrubProg (p : Nat) : lasting (scrubProg p s) = lasting s := by
  unfold scrubProg
  dsimp only
  split <;> simp

@[simp] theorem lasting_scrubData (p : Nat) : lasting (scrubData p s) = lasting s := by
  unfold scrubData
  dsimp only
  split <;> simp

@[simp] theorem lasting_mirrorData (p : Nat) : lasting (mirrorData p s) = lasting s := by
  unfold mirrorData
  split <;> simp

@[simp] theorem lasting_runBlock (p : Nat) : lasting (runBlock p s) = lasting s := by
  unfold runBlock
  extract_lets late s₁ s₂ s₃ s₄ lim r run c d c' s₅
  have h₄ : lasting s₄ = lasting s := by simp [s₄, s₃, s₂, s₁]
  have h₅ : lasting s₅ = lasting s₄ := by simp [s₅]
  split
  · exact h₄
  · simp [h₅, h₄]

@[simp] theorem lasting_cellsSeed : lasting (cellsSeed s) = lasting s := by rfl
@[simp] theorem lasting_cellBlockStart (p : Nat) : lasting (cellBlockStart p s) = lasting s := by simp [cellBlockStart]
@[simp] theorem lasting_cellFrameFaults : lasting (cellFrameFaults s) = lasting s := by simp [cellFrameFaults]

@[simp] theorem lasting_cellScrub (p : Nat) (k : ScrubKind) : lasting (cellScrub p k s) = lasting s := by
  unfold cellScrub
  split <;> simp

@[simp] theorem lasting_dataRead (m : Master) (p w : Nat) : lasting (dataRead m p w s).1 = lasting s := by
  unfold dataRead
  dsimp only
  split <;> simp

@[simp] theorem lasting_dataWrite (m : Master) (p w : Nat) (v : Word) : lasting (dataWrite m p w v s).1 = lasting s := by
  unfold dataWrite
  dsimp only
  repeat' split
  all_goals simp

@[simp] theorem lasting_instrHiWrite (m : Master) (p : Nat) (v : Word) : lasting (instrHiWrite m p v s).1 = lasting s := by
  unfold instrHiWrite
  split <;> simp

@[simp] theorem lasting_instrLoWrite (m : Master) (p i : Nat) (v : Word) : lasting (instrLoWrite m p i v s).1 = lasting s := by
  unfold instrLoWrite
  dsimp only
  split <;> simp

@[simp] theorem lasting_instrLoRead (m : Master) (p i : Nat) : lasting (instrLoRead m p i s).1 = lasting s := by
  unfold instrLoRead
  dsimp only
  split <;> simp

@[simp] theorem lasting_cellMemRead (m : Master) (p off : Nat) : lasting (cellMemRead m p off s).1 = lasting s := by
  unfold cellMemRead
  split_ifs <;> simp

@[simp] theorem lasting_cellMemWrite (m : Master) (p off : Nat) (v : Word) : lasting (cellMemWrite m p off v s).1 = lasting s := by
  unfold cellMemWrite
  split_ifs <;> simp

@[simp] theorem lasting_haltSet (p : Nat) : lasting (haltSet p s) = lasting s := by simp [haltSet]
@[simp] theorem lasting_haltClear (p : Nat) : lasting (haltClear p s) = lasting s := by simp [haltClear]
@[simp] theorem lasting_retire (p : Nat) : lasting (retire p s) = lasting s := by simp [retire]
@[simp] theorem lasting_fenceClr (p : Nat) : lasting (fenceClr p s) = lasting s := by simp [fenceClr]
@[simp] theorem lasting_cellCtrlWrite (p : Nat) (v : Word) : lasting (cellCtrlWrite p v s) = lasting s := by simp [cellCtrlWrite]
@[simp] theorem lasting_agWrite (p g r : Nat) (v : Word) : lasting (agWrite p g r v s) = lasting s := by simp [agWrite]

@[simp] theorem lasting_cellStateWrite (p : Nat) (r : CellReg) (v : Word) : lasting (cellStateWrite p r v s).1 = lasting s := by
  unfold cellStateWrite
  split <;> simp

theorem lasting_cellRegWrite (m : Master) (p off : Nat) (v : Word) : ∀ r ∈ cellRegWrite m p off v s, lasting r.1 = lasting s := by
  unfold cellRegWrite
  split_ifs <;> simp

@[simp] theorem lasting_withMig (ph : MigPhase) (k : Mig → State → State) (hk : ∀ m t, lasting (k m t) = lasting t) :
    lasting (withMig ph k s) = lasting s := by
  unfold withMig
  split <;> simp [hk]

@[simp] theorem lasting_enterMig (m : Mig) (ph : MigPhase) (bs : Nat) : lasting (enterMig m ph bs s) = lasting s := by simp [enterMig]

@[simp] theorem lasting_migrationLoaded : lasting (migrationLoaded s) = lasting s :=
  lasting_withMig s _ _ fun _ _ => rfl

@[simp] theorem lasting_migrationCopyStart : lasting (migrationCopyStart s) = lasting s := by simp [migrationCopyStart]
@[simp] theorem lasting_migrationCopyEnd : lasting (migrationCopyEnd s) = lasting s := by simp [migrationCopyEnd]
@[simp] theorem lasting_migrationShadowStart : lasting (migrationShadowStart s) = lasting s := by simp [migrationShadowStart]

@[simp] theorem lasting_migrationSwitch : lasting (migrationSwitch s) = lasting s := by
  refine lasting_withMig s _ _ fun m t => ?_
  dsimp only
  split
  · split <;> simp
  · rfl

@[simp] theorem lasting_shadowCompare : lasting (shadowCompare s) = lasting s := by simp [shadowCompare]
@[simp] theorem lasting_restoreLoaded (p : Nat) : lasting (restoreLoaded p s) = lasting s := by simp [restoreLoaded]

@[simp] theorem lasting_restoreCellStart (p : Nat) : lasting (restoreCellStart p s) = lasting s := by
  unfold restoreCellStart
  dsimp only
  repeat' split
  all_goals simp

@[simp] theorem lasting_restoreRampEnd (p : Nat) : lasting (restoreRampEnd p s) = lasting s := by
  unfold restoreRampEnd
  dsimp only
  repeat' split
  all_goals simp

@[simp] theorem lasting_closeCeWindow : lasting (closeCeWindow s).1 = lasting s := by
  refine lasting_foldl_fst (fun r e => ?_) _ _
  dsimp only
  split <;> simp

/-! ### The ledger -/

@[simp] theorem lasting_updLdg (f : Ldg → Ldg) : lasting (s.updLdg f) = lasting s := by rfl
@[simp] theorem lasting_ldgFrameFault : lasting (ldgFrameFault s) = lasting s := by simp [ldgFrameFault]

@[simp] theorem lasting_ldgWindow : lasting (ldgWindow s) = lasting s := by
  unfold ldgWindow
  dsimp only
  split <;> simp

@[simp] theorem lasting_ldgRestart : lasting (ldgRestart s) = lasting s := by rfl
@[simp] theorem lasting_recSel (m : Master) (v : Word) : lasting (recSel m v s) = lasting s := by rfl
@[simp] theorem lasting_winLoRead (m : Master) : lasting (winLoRead m s).1 = lasting s := by rfl

theorem lasting_ldgRegRead (m : Master) (off : Nat) : ∀ r ∈ ldgRegRead m off s, lasting r.1 = lasting s := by
  unfold ldgRegRead
  split <;> simp

@[simp] theorem lasting_boundResult (safe accepted : Bool) (fails : List BoundFail) :
    lasting (boundResult safe accepted fails s) = lasting s := by rfl

/-! ### The matrix engine -/

@[simp] theorem lasting_updMxe (f : Mxe → Mxe) : lasting (s.updMxe f) = lasting s := by rfl
@[simp] theorem lasting_finishRamps : lasting (finishRamps s) = lasting s := by rfl
@[simp] theorem lasting_editStep : lasting (editStep s) = lasting s := by simp [editStep]
@[simp] theorem lasting_editCmd (m : Master) (c : Nat) : lasting (editCmd m c s) = lasting s := by simp [editCmd]
@[simp] theorem lasting_swapResult (r : SwapResult) : lasting (swapResult r s) = lasting s := by rfl
@[simp] theorem lasting_endSwap (r : SwapResult) : lasting (endSwap r s) = lasting s := by rfl
@[simp] theorem lasting_boundNext : lasting (boundNext s) = lasting s := by rfl
@[simp] theorem lasting_swapReq (unb : Bool) : lasting (swapReq unb s) = lasting s := by simp [swapReq]
@[simp] theorem lasting_swapCancel : lasting (swapCancel s) = lasting s := by simp [swapCancel]
@[simp] theorem lasting_boundCheckDone : lasting (boundCheckDone s) = lasting s := by simp [boundCheckDone]
@[simp] theorem lasting_acceptSwap : lasting (acceptSwap s) = lasting s := by simp [acceptSwap]
@[simp] theorem lasting_swapStep : lasting (swapStep s) = lasting s := by simp [swapStep]

@[simp] theorem lasting_writeAlarmSet (bank : Nat) : lasting (writeAlarmSet bank s) = lasting s := by
  unfold writeAlarmSet
  split <;> simp

@[simp] theorem lasting_alarmExchange (toAlarm : Bool) : lasting (alarmExchange toAlarm s) = lasting s := by simp [alarmExchange]
@[simp] theorem lasting_mxeAlarmSet : lasting (mxeAlarmSet s) = lasting s := by rfl
@[simp] theorem lasting_mxeAlarmClear : lasting (mxeAlarmClear s) = lasting s := by rfl
@[simp] theorem lasting_alarmStep : lasting (alarmStep s) = lasting s := by simp [alarmStep]
@[simp] theorem lasting_mxeOpen : lasting (mxeOpen s) = lasting s := by simp [mxeOpen]
@[simp] theorem lasting_alarmSwap : lasting (alarmSwap s) = lasting s := by simp [alarmSwap]
@[simp] theorem lasting_alarmBankSwap : lasting (alarmBankSwap s) = lasting s := by simp [alarmBankSwap]

@[simp] theorem lasting_matrixWrite (bank off : Nat) (v : Word) : lasting (matrixWrite bank off v s).1 = lasting s := by
  unfold matrixWrite
  split_ifs <;> simp

@[simp] theorem lasting_applyBank (a bank : Nat) (full : Bool) : lasting (applyBank a bank full s) = lasting s := by rfl

@[simp] theorem lasting_matrixConfigured : lasting (matrixConfigured s) = lasting s := by
  unfold matrixConfigured
  simp [↓lasting_ite]

@[simp] theorem lasting_updPlayer (i : Nat) (f : Player → Player) : lasting (updPlayer i f s) = lasting s := by rfl
@[simp] theorem lasting_playStart (i : Nat) (v : Word) : lasting (playStart i v s) = lasting s := by simp [playStart]

@[simp] theorem lasting_playStop (i : Nat) : lasting (playStop i s) = lasting s := by
  unfold playStop
  split <;> simp

@[simp] theorem lasting_playFinish (i : Nat) : lasting (playFinish i s) = lasting s := by
  unfold playFinish
  split <;> simp

@[simp] theorem lasting_playCtrl (i : Nat) (v : Word) : lasting (playCtrl i v s) = lasting s := by
  unfold playCtrl
  split <;> simp

@[simp] theorem lasting_playerFirst (i : Nat) : lasting (playerFirst i s) = lasting s := by simp [playerFirst]
@[simp] theorem lasting_playerDone (i : Nat) : lasting (playerDone i s) = lasting s := by simp [playerDone]
@[simp] theorem lasting_playerStopEnd (i : Nat) : lasting (playerStopEnd i s) = lasting s := by simp [playerStopEnd]
@[simp] theorem lasting_playersStopRun : lasting (playersStopRun s) = lasting s := by rfl
@[simp] theorem lasting_evalAll : lasting (evalAll s) = lasting s := by simp [evalAll]
@[simp] theorem lasting_stepPlayers : lasting (stepPlayers s) = lasting s := by simp [stepPlayers]
@[simp] theorem lasting_mxeTakeovers : lasting (mxeTakeovers s) = lasting s := by simp [mxeTakeovers]
@[simp] theorem lasting_silClear : lasting (silClear s) = lasting s := by simp [silClear]
@[simp] theorem lasting_mxeSeed : lasting (mxeSeed s) = lasting s := by rfl
@[simp] theorem lasting_mxeFrame : lasting (mxeFrame s) = lasting s := by simp [mxeFrame]

@[simp] theorem lasting_feedCells (outOf : Nat → Int) : lasting (feedCells outOf s) = lasting s := by
  refine lasting_foldl (fun t e => ?_) _ s
  split <;> simp

theorem lasting_mxeRegWrite (m : Master) (off : Nat) (v : Word) : ∀ r ∈ mxeRegWrite m off v s, lasting r = lasting s := by
  unfold mxeRegWrite
  split_ifs <;> simp

/-! ### The delay engine -/

@[simp] theorem lasting_updLine (i : Nat) (f : Line → Line) : lasting (updLine i f s) = lasting s := by rfl
@[simp] theorem lasting_lineDelayWrite (i : Nat) (v : Word) : lasting (lineDelayWrite i v s) = lasting s := by simp [lineDelayWrite]
@[simp] theorem lasting_xfadeDone (i : Nat) : lasting (xfadeDone i s) = lasting s := by simp [xfadeDone]
@[simp] theorem lasting_lineFrame (i : Nat) : lasting (lineFrame i s) = lasting s := by simp [lineFrame]
@[simp] theorem lasting_dlyFrame : lasting (dlyFrame s) = lasting s := by simp [dlyFrame]
@[simp] theorem lasting_dlyRunStart : lasting (dlyRunStart s) = lasting s := by rfl
@[simp] theorem lasting_applyLines (a : Nat) : lasting (applyLines a s) = lasting s := by simp [applyLines]

end
end Sys2Proof.Machine
end

section
/-! SUPPORT. What lasts through every command: the network, the time units, the references and the audio ports. -/
namespace Sys2Proof.Machine
open Sys2Proof

section
variable (s : State)

/-! ### The MACs -/

@[simp] theorem lasting_updMac (n : Nat) (f : Mac → Mac) : lasting (updMac n f s) = lasting s := by rfl
@[simp] theorem lasting_macCount (n c k : Nat) : lasting (macCount n c k s) = lasting s := by rfl

@[simp] theorem lasting_macSelect (n : Nat) : lasting (macSelect n s) = lasting s := by
  unfold macSelect
  split
  · simp
  · split <;> simp

@[simp] theorem lasting_macEnqueue (n q : Nat) (f : List Byte) : lasting (macEnqueue n q f s).1 = lasting s := by
  unfold macEnqueue
  dsimp only
  repeat' split
  all_goals simp

@[simp] theorem lasting_frameTransmitEnd (n : Nat) : lasting (frameTransmitEnd n s) = lasting s := by
  unfold frameTransmitEnd
  split <;> simp

@[simp] theorem lasting_flushQueues (n : Nat) (qs : List Nat) : lasting (flushQueues n qs s) = lasting s := by simp [flushQueues]
@[simp] theorem lasting_flushAudio : lasting (flushAudio s) = lasting s := by simp [flushAudio]
@[simp] theorem lasting_macLinkLost (n : Nat) : lasting (macLinkLost n s) = lasting s := by simp [macLinkLost]
@[simp] theorem lasting_linkUp (n : Nat) : lasting (linkUp n s) = lasting s := by simp [linkUp]
@[simp] theorem lasting_linkDown (n : Nat) (lock lf rf an : Bool) : lasting (linkDown n lock lf rf an s) = lasting s := by simp [linkDown]

@[simp] theorem lasting_macLinkTimeout (n : Nat) : lasting (macLinkTimeout n s) = lasting s := by
  unfold macLinkTimeout
  dsimp only
  split <;> simp

@[simp] theorem lasting_autoNegDone (n : Nat) : lasting (autoNegDone n s) = lasting s := by simp [autoNegDone]
@[simp] theorem lasting_macLine (n : Nat) (old : Word) : lasting (macLine n old s) = lasting s := by simp [macLine]
@[simp] theorem lasting_macApplyEnables (n : Nat) : lasting (macApplyEnables n s) = lasting s := by rfl
@[simp] theorem lasting_macClearLinkLost (n : Nat) : lasting (macClearLinkLost n s) = lasting s := by simp [macClearLinkLost]
@[simp] theorem lasting_setPause (q n : Nat) : lasting (setPause q n s) = lasting s := by rfl
@[simp] theorem lasting_pauseReceive (n quanta : Nat) : lasting (pauseReceive n quanta s) = lasting s := by simp [pauseReceive]
@[simp] theorem lasting_pauseExpiry (n : Nat) : lasting (pauseExpiry n s) = lasting s := by simp [pauseExpiry]
@[simp] theorem lasting_pauseBreak (n : Nat) : lasting (pauseBreak n s) = lasting s := by simp [pauseBreak]
@[simp] theorem lasting_pauseWatchdog (n : Nat) : lasting (pauseWatchdog n s) = lasting s := by simp [pauseWatchdog]

@[simp] theorem lasting_holdoffEnd (n : Nat) : lasting (holdoffEnd n s) = lasting s := by
  unfold holdoffEnd
  split <;> simp

@[simp] theorem lasting_macDeliver (n : Nat) (f : List Byte) (c : Nat) : lasting (macDeliver n f c s) = lasting s := by simp [macDeliver]

@[simp] theorem lasting_macChecks (n : Nat) (f : List Byte) (codeErr on : Bool) (c : Nat) :
    lasting (macChecks n f codeErr on c s) = lasting s := by
  simp [macChecks]

@[simp] theorem lasting_macFrameReceive (n : Nat) (f : List Byte) (codeErr : Bool) (c : Nat) :
    lasting (macFrameReceive n f codeErr c s) = lasting s := by
  simp [macFrameReceive]

@[simp] theorem lasting_macStartDrain (n : Nat) : lasting (macStartDrain n s) = lasting s := by simp [macStartDrain]
@[simp] theorem lasting_macStopRx (n : Nat) (busy : Bool) : lasting (macStopRx n busy s) = lasting s := by rfl
@[simp] theorem lasting_macRxTick : lasting (macRxTick s) = lasting s := by simp [macRxTick]

@[simp] theorem lasting_macCtrlWrite (n : Nat) (v : Word) (busy : Bool) : lasting (macCtrlWrite n v busy s) = lasting s := by
  simp [macCtrlWrite]

@[simp] theorem lasting_macCtrlBus (n : Nat) (v : Word) : lasting (macCtrlBus n v s) = lasting s := by simp [macCtrlBus]
@[simp] theorem lasting_macTxIdle (n : Nat) : lasting (macTxIdle n s) = lasting s := by simp [macTxIdle]

@[simp] theorem lasting_macGuardedWrite (n off : Nat) (v : Word) : lasting (macGuardedWrite n off v s).1 = lasting s := by
  unfold macGuardedWrite
  dsimp only
  repeat' split
  all_goals simp

theorem lasting_macRegWrite (n off : Nat) (v : Word) : ∀ r ∈ macRegWrite n off v s, lasting r.1 = lasting s := by
  unfold macRegWrite
  split <;> simp

@[simp] theorem lasting_macCntRead (m : Master) (n c : Nat) : lasting (macCntRead m n c s).1 = lasting s := by rfl

theorem lasting_macRegRead (m : Master) (n off : Nat) : ∀ r ∈ macRegRead m n off s, lasting r.1 = lasting s := by
  unfold macRegRead
  split_ifs <;> simp

@[simp] theorem lasting_macMemUe (n d : Nat) : lasting (macMemUe n d s) = lasting s := by simp [macMemUe]
@[simp] theorem lasting_macReset (n : Nat) : lasting (macReset s n) = lasting s := by simp [macReset]
@[simp] theorem lasting_macSetup (n : Nat) (ps : List (Nat × Word)) : lasting (macSetup n ps s) = lasting s := by simp [macSetup]

@[simp] theorem lasting_macsReload (f : State → State) (hf : ∀ t, lasting (f t) = lasting t) : lasting (macsReload f s) = lasting s := by
  simp [macsReload, hf]

/-! ### The stream engine -/

@[simp] theorem lasting_updSte (f : Ste → Ste) : lasting (updSte f s) = lasting s := by rfl
@[simp] theorem lasting_updFlow (f : Nat) (g : Flow → Flow) : lasting (updFlow f g s) = lasting s := by rfl
@[simp] theorem lasting_classDrop (c : Nat) : lasting (classDrop c s) = lasting s := by simp [classDrop]
@[simp] theorem lasting_freeFlow (f : Nat) : lasting (freeFlow f s) = lasting s := by rfl
@[simp] theorem lasting_doStage (f : Nat) (fe : List Word) : lasting (doStage f fe s) = lasting s := by rfl
@[simp] theorem lasting_doPublish (f : Nat) : lasting (doPublish f s) = lasting s := by rfl
@[simp] theorem lasting_doRead (m : Master) (f : Nat) : lasting (doRead m f s) = lasting s := by rfl

@[simp] theorem lasting_ftEffect (m : Master) (c f : Nat) : lasting (ftEffect m c f s).1 = lasting s := by
  unfold ftEffect
  dsimp only
  repeat' split
  all_goals simp

@[simp] theorem lasting_ftCmd (m : Master) (c f : Nat) : lasting (ftCmd m c f s) = lasting s := by simp [ftCmd]
@[simp] theorem lasting_flowFreed (f : Nat) : lasting (flowFreed f s) = lasting s := by simp [flowFreed]
@[simp] theorem lasting_pathDelivery (f n : Nat) : lasting (pathDelivery f n s) = lasting s := by simp [pathDelivery]

@[simp] theorem lasting_audioPacket (f n : Nat) (pay : List Byte) : lasting (audioPacket f n pay s) = lasting s := by
  unfold audioPacket
  dsimp only
  repeat' split
  all_goals simp

@[simp] theorem lasting_storeHost (c : Nat) (f : List Byte) : lasting (storeHost c f s) = lasting s := by
  unfold storeHost
  dsimp only
  repeat' split
  all_goals simp

@[simp] theorem lasting_updPtu (f : Ptu → Ptu) : lasting (updPtu f s) = lasting s := by rfl
@[simp] theorem lasting_updPort (d : Dom) (f : PtpPort → PtpPort) : lasting (updPort d f s) = lasting s := by rfl
@[simp] theorem lasting_rxOther (d : Dom) : lasting (rxOther d s) = lasting s := by rfl
@[simp] theorem lasting_setStamps (n : Nat) (l : List Nat) : lasting (setStamps n l s) = lasting s := by rfl
@[simp] theorem lasting_ptpOther (n : Nat) : lasting (ptpOther n s) = lasting s := by simp [ptpOther]
@[simp] theorem lasting_ptpArrive (n : Nat) (msg : List Byte) (c : Nat) : lasting (ptpArrive n msg c s) = lasting s := by simp [ptpArrive]

@[simp] theorem lasting_steFrame (n : Nat) (f : List Byte) (c : Nat) : lasting (steFrame n f c s) = lasting s := by
  unfold steFrame
  dsimp only
  repeat' split
  all_goals simp

@[simp] theorem lasting_steClassify (n : Nat) : lasting (steClassify n s) = lasting s := by
  unfold steClassify
  split <;> simp

@[simp] theorem lasting_pathDown (f : Nat) : lasting (pathDown f s) = lasting s := by simp [pathDown]

@[simp] theorem lasting_playSample (fe : List Word) (ch x : Nat) : lasting (playSample fe ch x s).1 = lasting s := by
  unfold playSample
  split <;> simp

@[simp] theorem lasting_flowFrame (f : Nat) : lasting (flowFrame f s) = lasting s := by
  unfold flowFrame
  dsimp only
  split <;> simp

@[simp] theorem lasting_steFrameStart : lasting (steFrameStart s) = lasting s := by simp [steFrameStart]
@[simp] theorem lasting_steFrameEnd : lasting (steFrameEnd s) = lasting s := by rfl
@[simp] theorem lasting_steRunStart : lasting (steRunStart s) = lasting s := by rfl
@[simp] theorem lasting_txHand (f n : Nat) (fr : List Byte) : lasting (txHand f n fr s) = lasting s := by simp [txHand]
@[simp] theorem lasting_txPacketBuild (f : Nat) : lasting (txPacketBuild f s) = lasting s := by simp [txPacketBuild]

@[simp] theorem lasting_hrxPop : lasting (hrxPop s) = lasting s := by
  unfold hrxPop
  split <;> simp

@[simp] theorem lasting_htxCmd (m : Master) (v : Word) : lasting (htxCmd m v s).1 = lasting s := by
  unfold htxCmd
  dsimp only
  repeat' split
  all_goals simp

@[simp] theorem lasting_dropPackets : lasting (dropPackets s) = lasting s := by rfl
@[simp] theorem lasting_stopFlows : lasting (stopFlows s) = lasting s := by rfl
@[simp] theorem lasting_steCtrlWrite (v : Word) : lasting (steCtrlWrite v s) = lasting s := by simp [steCtrlWrite]
@[simp] theorem lasting_steRxIdle : lasting (steRxIdle s) = lasting s := by simp [steRxIdle]
@[simp] theorem lasting_poolLowRead : lasting (poolLowRead s).1 = lasting s := by rfl

theorem lasting_steRegRead (m : Master) (off : Nat) : ∀ r ∈ steRegRead m off s, lasting r.1 = lasting s := by
  unfold steRegRead
  rcases hrxHead s with _ | ⟨h, _⟩
  all_goals
    extract_lets _ _ _ _ _ d
    repeat' apply lasting_mem_ite
    all_goals simp [d]

theorem lasting_steRegWrite (m : Master) (off : Nat) (v : Word) : ∀ r ∈ steRegWrite m off v s, lasting r.1 = lasting s := by
  unfold steRegWrite
  split_ifs <;> simp

@[simp] theorem lasting_steCarafeUe (f i : Nat) : lasting (steCarafeUe f i s) = lasting s := by simp [steCarafeUe]
@[simp] theorem lasting_steFlowUe (f : Nat) : lasting (steFlowUe f s) = lasting s := by simp [steFlowUe]
@[simp] theorem lasting_applyPartition (p : Partition) : lasting (applyPartition p s) = lasting s := by rfl

@[simp] theorem lasting_stageAll (l : List (Nat × List Word)) : lasting (stageAll l s).1 = lasting s := by
  induction l generalizing s with
  | nil => rfl
  | cons e t ih =>
    unfold stageAll
    dsimp only
    split_ifs <;> simp [ih]

@[simp] theorem lasting_applyFlowDefaults (a : Nat) : lasting (applyFlowDefaults a s) = lasting s := by simp [applyFlowDefaults]

/-! ### The precision time unit -/

@[simp] theorem lasting_ptuCntRead (m : Master) : lasting (ptuCntRead m s).1 = lasting s := by rfl
@[simp] theorem lasting_tcap (m : Master) : lasting (tcap m s) = lasting s := by rfl
@[simp] theorem lasting_ptpSend (d : Dom) (event : Bool) (o : PtpOut) : lasting (ptpSend d event o s).1 = lasting s := by simp [ptpSend]
@[simp] theorem lasting_setLocked (d : Dom) (v : Bool) : lasting (setLocked d v s) = lasting s := by simp [setLocked]

@[simp] theorem lasting_withMsg (d : Dom) (x : PtpMsg) (slave : Bool) (k : PtpMsg → State → State) (hk : ∀ y t, lasting (k y t) = lasting t) :
    lasting (withMsg d x slave k s) = lasting s := by
  unfold withMsg
  split
  · rfl
  · simp [hk]

@[simp] theorem lasting_chooseMaster (d : Dom) : lasting (chooseMaster d s) = lasting s := by simp [chooseMaster]
@[simp] theorem lasting_announceReceive (d : Dom) (x : PtpMsg) : lasting (announceReceive d x s) = lasting s := by simp [announceReceive]
@[simp] theorem lasting_annTimeout (d : Dom) : lasting (annTimeout d s) = lasting s := by simp [annTimeout]

@[simp] theorem lasting_syncLoss (d : Dom) : lasting (syncLoss d s) = lasting s := by
  unfold syncLoss
  dsimp only
  split <;> simp

@[simp] theorem lasting_servo (d : Dom) (ms mpd : Int) : lasting (servo d ms mpd s) = lasting s := by simp [servo]

@[simp] theorem lasting_syncAccepted (d : Dom) (t1 t2 : Int) : lasting (syncAccepted d t1 t2 s) = lasting s := by
  unfold syncAccepted
  dsimp only
  split <;> simp

@[simp] theorem lasting_syncReceive (d : Dom) (x : PtpMsg) : lasting (syncReceive d x s) = lasting s := by simp [syncReceive]

@[simp] theorem lasting_followUpReceive (d : Dom) (x : PtpMsg) : lasting (followUpReceive d x s) = lasting s := by
  refine lasting_withMsg s d x true _ fun y t => ?_
  dsimp only
  split <;> simp

@[simp] theorem lasting_delayRespReceive (d : Dom) (x : PtpMsg) : lasting (delayRespReceive d x s) = lasting s := by
  refine lasting_withMsg s d x true _ fun y t => ?_
  dsimp only
  split <;> simp

@[simp] theorem lasting_delayReqSend (d : Dom) (stamp : Nat) : lasting (delayReqSend d stamp s) = lasting s := by simp [delayReqSend]

@[simp] theorem lasting_domainUpdate (d : Dom) : lasting (domainUpdate d s) = lasting s := by
  unfold domainUpdate
  split <;> simp

@[simp] theorem lasting_ptuUpd (d : Dom) : lasting (ptuUpd d s) = lasting s := by simp [ptuUpd]
@[simp] theorem lasting_masterCopy : lasting (masterCopy s) = lasting s := by simp [masterCopy]
@[simp] theorem lasting_announceSend (d : Dom) : lasting (announceSend d s) = lasting s := by simp [announceSend]
@[simp] theorem lasting_syncSend (d : Dom) (stamp : Nat) : lasting (syncSend d stamp s) = lasting s := by simp [syncSend]
@[simp] theorem lasting_delayReqReceive (d : Dom) (x : PtpMsg) : lasting (delayReqReceive d x s) = lasting s := by simp [delayReqReceive]
@[simp] theorem lasting_portEnable (d : Dom) : lasting (portEnable d s) = lasting s := by simp [portEnable]
@[simp] theorem lasting_portDisable (d : Dom) : lasting (portDisable d s) = lasting s := by simp [portDisable]
@[simp] theorem lasting_ptuCtrlWrite (v : Word) : lasting (ptuCtrlWrite v s) = lasting s := by simp [ptuCtrlWrite]
@[simp] theorem lasting_domainUe (d : Dom) : lasting (domainUe d s) = lasting s := by simp [domainUe]

theorem lasting_ptuRegRead (m : Master) (off : Nat) : ∀ r ∈ ptuRegRead m off s, lasting r.1 = lasting s := by
  unfold ptuRegRead
  extract_lets
  iterate 8 refine lasting_mem_ite (by simp) ?_
  refine lasting_mem_ite ?_ (by simp)
  split <;> simp

theorem lasting_ptuRegWrite (m : Master) (off : Nat) (v : Word) : ∀ r ∈ ptuRegWrite m off v s, lasting r.1 = lasting s := by
  unfold ptuRegWrite
  split_ifs <;> simp

@[simp] theorem lasting_applyTimeSetup (ps : List (Nat × Word)) : lasting (applyTimeSetup ps s) = lasting s := by simp [applyTimeSetup]

/-! ### The reference selection unit -/

@[simp] theorem lasting_updRsu (f : Rsu → Rsu) : lasting (updRsu f s) = lasting s := by rfl
@[simp] theorem lasting_updRef (c : Nat) (f : Ref → Ref) : lasting (updRef c f s) = lasting s := by rfl

@[simp] theorem lasting_referenceEdge (pin : RefPin) (c : Nat) : lasting (referenceEdge pin c s) = lasting s := by
  unfold referenceEdge
  split <;> simp

@[simp] theorem lasting_updSel (f : Nat → TimePar → TimePar) : lasting (updSel f s) = lasting s := by simp [updSel]
@[simp] theorem lasting_setSelRate (rate : Nat) : lasting (setSelRate rate s) = lasting s := by simp [setSelRate]
@[simp] theorem lasting_setPulling (v : Bool) : lasting (setPulling v s) = lasting s := by simp [setPulling]

@[simp] theorem lasting_selUpdate : lasting (selUpdate s) = lasting s := by
  unfold selUpdate
  split
  · simp
  · split <;> simp

@[simp] theorem lasting_farSwitch (c : Nat) : lasting (farSwitch c s) = lasting s := by simp [farSwitch]
@[simp] theorem lasting_selectNone : lasting (selectNone s) = lasting s := by simp [selectNone]
@[simp] theorem lasting_selectRef (c : Nat) : lasting (selectRef c s) = lasting s := by simp [selectRef]

@[simp] theorem lasting_noteBackup : lasting (noteBackup s) = lasting s := by simp [noteBackup]

theorem lasting_renumber (n : Nat) :
    lasting (s.updSys fun y => { y with tick := n, aligned := !y.tickLoss, src := true }) = renumbered (lasting s) := by rfl

/-- The end of the start-up wait aligns the tick number, unless the counter stood still before; nothing else that lasts changes. -/
theorem lasting_endStartup {retime : (Nat → Nat) → State → State} (h : ∀ f t, lasting (retime f t) = lasting t) (c : Option Nat) :
    lasting (endStartup retime c s) = lasting s ∨ lasting (endStartup retime c s) = renumbered (lasting s) := by
  unfold endStartup
  extract_lets t u old new v x
  have ht : lasting t = lasting s := by simp [t]
  have hv : lasting v = lasting s := by
    unfold v u
    cases c <;> simp [h, ht]
  clear_value v
  have hx : lasting x = renumbered (lasting v) := lasting_renumber v new
  clear_value x
  split
  · cases c <;> simp [ht]
  · cases c <;> simp [hx, hv]

theorem lasting_rsuSelect {retime : (Nat → Nat) → State → State} (h : ∀ f t, lasting (retime f t) = lasting t) :
    lasting (rsuSelect retime s) = lasting s ∨ lasting (rsuSelect retime s) = renumbered (lasting s) := by
  unfold rsuSelect
  split
  · exact .inl rfl
  rw [lasting_noteBackup]
  extract_lets tick t
  have ht : lasting t = lasting s := by
    unfold t
    split <;> simp
  clear_value t
  rw [← ht]
  split
  · exact .inl (by simp)
  split
  · split
    · exact lasting_endStartup t h (bestRef t)
    · exact .inl rfl
  · exact .inl (by split <;> simp)

@[simp] theorem lasting_endStartup_fst (retime : (Nat → Nat) → State → State) (c : Option Nat) (h : ∀ f t, lasting (retime f t) = lasting t) :
    (lasting (endStartup retime c s)).1 = (lasting s).1 := by
  rcases lasting_endStartup s h c with h | h
  · rw [h]
  · rw [h, renumbered]

@[simp] theorem lasting_rsuSelect_fst (retime : (Nat → Nat) → State → State) (h : ∀ f t, lasting (retime f t) = lasting t) :
    (lasting (rsuSelect retime s)).1 = (lasting s).1 := by
  rcases lasting_rsuSelect s h with h | h
  · rw [h]
  · rw [h, renumbered]

@[simp] theorem lasting_enterRef (c st : Nat) : lasting (enterRef c st s) = lasting s := by simp [enterRef]
@[simp] theorem lasting_evalRef (q : List Nat) (c : Nat) : lasting (evalRef q c s) = lasting s := by simp [evalRef]

@[simp] theorem lasting_rsuEvaluate_fst (retime : (Nat → Nat) → State → State) (q : List Nat) (h : ∀ f t, lasting (retime f t) = lasting t) :
    (lasting (rsuEvaluate retime q s)).1 = (lasting s).1 := by
  simp [rsuEvaluate, h]

@[simp] theorem lasting_refQualified_fst (retime : (Nat → Nat) → State → State) (c : Nat) (h : ∀ f t, lasting (retime f t) = lasting t) :
    (lasting (refQualified retime c s)).1 = (lasting s).1 := by
  simp [refQualified, h, apply_ite Prod.fst]

@[simp] theorem lasting_wtrEnd_fst (retime : (Nat → Nat) → State → State) (c : Nat) (h : ∀ f t, lasting (retime f t) = lasting t) :
    (lasting (wtrEnd retime c s)).1 = (lasting s).1 := by
  simp [wtrEnd, h, apply_ite Prod.fst]

@[simp] theorem lasting_disqEnd_fst (retime : (Nat → Nat) → State → State) (c : Nat) (h : ∀ f t, lasting (retime f t) = lasting t) :
    (lasting (disqEnd retime c s)).1 = (lasting s).1 := by
  simp [disqEnd, h, apply_ite Prod.fst]

@[simp] theorem lasting_firstWaitEnd_fst (retime : (Nat → Nat) → State → State) (h : ∀ f t, lasting (retime f t) = lasting t) :
    (lasting (firstWaitEnd retime s)).1 = (lasting s).1 := by
  unfold firstWaitEnd
  split
  · split
    · split <;> simp [h]
    · rfl
  · rfl

@[simp] theorem lasting_startWaitEnd_fst (retime : (Nat → Nat) → State → State) (h : ∀ f t, lasting (retime f t) = lasting t) :
    (lasting (startWaitEnd retime s)).1 = (lasting s).1 := by
  unfold startWaitEnd
  split <;> simp [h, apply_ite Prod.fst]

@[simp] theorem lasting_windowEnd : lasting (windowEnd s) = lasting s := by
  unfold windowEnd
  split
  · rfl
  extract_lets t₁ bp twice t₂ t₃ tick t₄ t₅ r rec16 ho
  have h₃ : lasting t₃ = lasting s := by simp [t₃, t₂, t₁]
  have h₄ : lasting t₄ = lasting t₃ := by simp [t₄]
  have h₅ : lasting t₅ = lasting t₄ := by
    unfold t₅
    split <;> simp
  rw [lasting_updRsu, h₅, h₄, h₃]

@[simp] theorem lasting_rsuCtrlWrite (v : Word) : lasting (rsuCtrlWrite v s) = lasting s := by rfl
@[simp] theorem lasting_rsuStateUe : lasting (rsuStateUe s) = lasting s := by simp [rsuStateUe]
@[simp] theorem lasting_restartRefs : lasting (restartRefs s) = lasting s := by simp [restartRefs]
@[simp] theorem lasting_forgetRefs : lasting (forgetRefs s) = lasting s := by simp [forgetRefs]
@[simp] theorem lasting_rsuClearUe : lasting (rsuClearUe s) = lasting s := by simp [rsuClearUe]

@[simp] theorem lasting_applyRefSetup (ps : List (Nat × Word)) : lasting (applyRefSetup ps s) = lasting s := by
  unfold applyRefSetup
  simp

@[simp] theorem lasting_stepOuts : lasting (stepOuts s) = lasting s := by simp [stepOuts]

/-! ### The audio ports -/

@[simp] theorem lasting_updDir (n : Nat) (d : Dir) (f : AptDir → AptDir) : lasting (updDir n d f s) = lasting s := by rfl
@[simp] theorem lasting_aptLock (n : Nat) (d : Dir) (v : Bool) : lasting (aptLock n d v s) = lasting s := by simp [aptLock]
@[simp] theorem lasting_aptResult (n : Nat) (d : Dir) (r : Nat) : lasting (aptResult n d r s) = lasting s := by rfl
@[simp] theorem lasting_aptIdle (n : Nat) (d : Dir) : lasting (aptIdle n d s) = lasting s := by simp [aptIdle]
@[simp] theorem lasting_admitStart (n : Nat) (d : Dir) (arm : Bool) : lasting (admitStart n d arm s) = lasting s := by rfl
@[simp] theorem lasting_setEn (n : Nat) (d : Dir) (v : Bool) : lasting (setEn n d v s) = lasting s := by simp [setEn]

@[simp] theorem lasting_aptSetEn (n : Nat) (d : Dir) (arm : Bool) : lasting (aptSetEn n d arm s) = lasting s := by
  unfold aptSetEn
  split <;> simp

@[simp] theorem lasting_aptClearEn (n : Nat) (d : Dir) : lasting (aptClearEn n d s) = lasting s := by
  unfold aptClearEn
  dsimp only
  split <;> simp

@[simp] theorem lasting_aptAbort (n : Nat) (d : Dir) : lasting (aptAbort n d s) = lasting s := by rfl
@[simp] theorem lasting_aptCtrlWrite (n : Nat) (v : Word) : lasting (aptCtrlWrite n v s) = lasting s := by simp [aptCtrlWrite]
@[simp] theorem lasting_aptClockStart (n : Nat) (d : Dir) : lasting (aptClockStart n d s) = lasting s := by simp [aptClockStart]
@[simp] theorem lasting_aptDataStart (n : Nat) (d : Dir) : lasting (aptDataStart n d s) = lasting s := by simp [aptDataStart]
@[simp] theorem lasting_aptStopEnd (n : Nat) (d : Dir) : lasting (aptStopEnd n d s) = lasting s := by simp [aptStopEnd]

@[simp] theorem lasting_aptCfg (n : Nat) (d : Dir) (v : Word) : lasting (aptCfg n d v s).1 = lasting s := by
  unfold aptCfg
  split <;> simp

@[simp] theorem lasting_aptLose (n : Nat) (d : Dir) (cause : Nat) : lasting (aptLose n d cause s) = lasting s := by simp [aptLose]

@[simp] theorem lasting_aptClockLost (n : Nat) (d : Dir) : lasting (aptClockLost n d s) = lasting s := by
  unfold aptClockLost
  dsimp only
  split <;> simp

@[simp] theorem lasting_aptXrun (n : Nat) (d : Dir) : lasting (aptXrun n d s) = lasting s := by simp [aptXrun]

@[simp] theorem lasting_asrcAcquired (n : Nat) (d : Dir) : lasting (asrcAcquired n d s) = lasting s := by
  unfold asrcAcquired
  dsimp only
  split <;> simp

@[simp] theorem lasting_aptRelock (n : Nat) (d : Dir) : lasting (aptRelock n d s) = lasting s := by simp [aptRelock]
@[simp] theorem lasting_aptClearLost (n : Nat) (d : Dir) : lasting (aptClearLost n d s) = lasting s := by rfl
@[simp] theorem lasting_slaveSend (n tob : Nat) : lasting (slaveSend n tob s) = lasting s := by simp [slaveSend]

@[simp] theorem lasting_safetyReceive (n stamp : Nat) (glitch : Bool) (slots : List Nat) :
    lasting (safetyReceive n stamp glitch slots s) = lasting s := by
  simp [safetyReceive]

@[simp] theorem lasting_bulkReceive (n from_ stamp : Nat) (slots : List Nat) : lasting (bulkReceive n from_ stamp slots s) = lasting s := by
  simp [bulkReceive]

@[simp] theorem lasting_frameSyncEdge (n : Nat) (d : Dir) (stamp nbits : Nat) (slots : List Nat) :
    lasting (frameSyncEdge n d stamp nbits slots s) = lasting s := by
  unfold frameSyncEdge
  extract_lets x c want pers flags glitch phase mask t₁ t₂ t₃ y t₄
  have h₃ : lasting t₃ = lasting s := by simp [t₃, t₂, t₁]
  have h₄ : lasting t₄ = lasting t₃ := by
    unfold t₄
    split <;> simp
  clear_value t₃ t₄
  split
  · rfl
  split
  · simp [h₃]
  split
  · simp [h₃]
  · split <;> simp [h₄, h₃]

@[simp] theorem lasting_rxConvert (n i rnd : Nat) (v : Int) : lasting (rxConvert n i rnd v s).1 = lasting s := by simp [rxConvert]

@[simp] theorem lasting_rxFrame (n : Nat) (slots : List Nat) : lasting (rxFrame n slots s) = lasting s := by
  unfold rxFrame
  extract_lets x c k m flowing under t₁ t₂ kp ki tob
  have h₁ : lasting t₁ = lasting s := by simp [t₁]
  have h₂ : lasting t₂ = lasting t₁ := by
    refine lasting_foldl (fun u i => ?_) _ t₁
    extract_lets on r v src t
    have hr : lasting r.1 = lasting u := by
      unfold r
      split_ifs <;> simp
    have ht : lasting t = lasting r.1 := rfl
    rw [lasting_updDir, ht, hr]
  clear_value t₁ t₂
  simp [h₂, h₁]

@[simp] theorem lasting_txFrameStart (n : Nat) : lasting (txFrameStart n s) = lasting s := by simp [txFrameStart]
@[simp] theorem lasting_firstFlow (n : Nat) (d : Dir) : lasting (firstFlow n d s) = lasting s := by simp [firstFlow]

@[simp] theorem lasting_aptFrame (inp : List (Nat × List Nat)) : lasting (aptFrame inp s) = lasting s := by
  unfold aptFrame
  extract_lets t
  refine (lasting_foldl (fun u i => ?_) _ t).trans rfl
  extract_lets n d k mask u₁ u₂
  have h₁ : lasting u₁ = lasting u := by simp [u₁]
  have h₂ : lasting u₂ = lasting u := by simp [u₂, h₁]
  split_ifs
  · exact h₁
  · exact h₂
  · cases d <;> simp [h₂]

@[simp] theorem lasting_aptRunStart : lasting (aptRunStart s) = lasting s := by rfl
@[simp] theorem lasting_aptStandbyClear : lasting (aptStandbyClear s) = lasting s := by rfl
@[simp] theorem lasting_aptBufUe (n i : Nat) : lasting (aptBufUe n i s) = lasting s := by
  unfold aptBufUe
  extract_lets t
  have ht : lasting t = lasting s := lasting_raise s (.apt n) 4
  clear_value t
  split
  · exact ht
  · simp [ht]

theorem lasting_aptRegWrite (n off : Nat) (v : Word) : ∀ r ∈ aptRegWrite n off v s, lasting r.1 = lasting s := by
  unfold aptRegWrite
  split_ifs <;> simp

@[simp] theorem lasting_applyPortSetup (n : Nat) (d : Dir) (ps : List (Nat × Word)) : lasting (applyPortSetup n d ps s) = lasting s := by
  simp [applyPortSetup]

@[simp] theorem lasting_forgetAptRnd (n : Nat) (d : Dir) : lasting (forgetAptRnd n d s) = lasting s := by
  unfold forgetAptRnd
  split <;> simp

@[simp] theorem lasting_portApply (i : Nat) (ps : List (Nat × Word)) : lasting (portApply i ps s) = lasting s := by simp [portApply]
@[simp] theorem lasting_portSetups : lasting (portSetups s) = lasting s := by simp [portSetups]

end
end Sys2Proof.Machine
end

section
/-! SUPPORT. What lasts through every command: the flash port, the two-wire controllers, DMA, the check units,
the memories, the loudspeaker channels and the modulators. -/
namespace Sys2Proof.Machine
open Sys2Proof

section
variable (s : State)

/-! ### The boot-flash port -/

@[simp] theorem lasting_updFlc (f : Flc → Flc) : lasting (updFlc f s) = lasting s := by rfl

@[simp] theorem lasting_flcPump : lasting (flcPump s) = lasting s := by
  unfold flcPump
  dsimp only
  repeat' split
  all_goals simp

@[simp] theorem lasting_flcEnd (r : Nat) : lasting (flcEnd r s) = lasting s := by rfl
@[simp] theorem lasting_flcCmd (c : Nat) : lasting (flcCmd c s) = lasting s := by simp [flcCmd]

@[simp] theorem lasting_flcCommandEnd : lasting (flcCommandEnd s) = lasting s := by
  unfold flcCommandEnd
  dsimp only
  split <;> simp

@[simp] theorem lasting_flcCtrl (v : Word) : lasting (flcCtrl v s) = lasting s := by simp [flcCtrl]
@[simp] theorem lasting_flcPush (v : Word) : lasting (flcPush v s) = lasting s := by simp [flcPush]
@[simp] theorem lasting_flcPop : lasting (flcPop s).1 = lasting s := by simp [flcPop]

theorem lasting_flcRegRead (off : Nat) : ∀ r ∈ flcRegRead off s, lasting r.1 = lasting s := by
  unfold flcRegRead
  split_ifs <;> simp

theorem lasting_flcRegWrite (off : Nat) (v : Word) : ∀ r ∈ flcRegWrite off v s, lasting r.1 = lasting s := by
  unfold flcRegWrite
  split_ifs <;> simp

/-! ### The two-wire controllers -/

@[simp] theorem lasting_updTw (k : Nat) (f : Tw → Tw) : lasting (updTw k f s) = lasting s := by rfl
@[simp] theorem lasting_twEnd (k r : Nat) : lasting (twEnd k r s) = lasting s := by rfl
@[simp] theorem lasting_xferWrite (k : Nat) (v : Word) (resp : List Byte) : lasting (xferWrite k v resp s) = lasting s := by simp [xferWrite]

@[simp] theorem lasting_twCtrl (k : Nat) (v : Word) : lasting (twCtrl k v s) = lasting s := by
  unfold twCtrl
  dsimp only
  repeat' split
  all_goals simp

@[simp] theorem lasting_transferEnd (k : Nat) (o : TwEnd) : lasting (transferEnd k o s) = lasting s := by
  unfold transferEnd
  split <;> simp

@[simp] theorem lasting_nakRetry (k : Nat) : lasting (nakRetry k s) = lasting s := by simp [nakRetry]
@[simp] theorem lasting_arbLost (k byte bit : Nat) : lasting (arbLost k byte bit s) = lasting s := by simp [arbLost]
@[simp] theorem lasting_arbRetry (k : Nat) : lasting (arbRetry k s) = lasting s := by simp [arbRetry]
@[simp] theorem lasting_sclStuck (k : Nat) : lasting (sclStuck k s) = lasting s := by simp [sclStuck]
@[simp] theorem lasting_fifoStall (k : Nat) : lasting (fifoStall k s) = lasting s := by simp [fifoStall]
@[simp] theorem lasting_stuckBusRecovery (k : Nat) (ok : Bool) : lasting (stuckBusRecovery k ok s) = lasting s := by simp [stuckBusRecovery]
@[simp] theorem lasting_twRecoverAgain (k : Nat) : lasting (twRecoverAgain k s) = lasting s := by rfl
@[simp] theorem lasting_twPush (k : Nat) (v : Word) : lasting (twPush k v s) = lasting s := by rfl
@[simp] theorem lasting_twPop (k : Nat) : lasting (twPop k s).1 = lasting s := by rfl

@[simp] theorem lasting_twCfg (k : Nat) (v : Word) : lasting (twCfg k v s).1 = lasting s := by
  unfold twCfg
  split <;> simp

theorem lasting_twcRegRead (off : Nat) : ∀ r ∈ twcRegRead off s, lasting r.1 = lasting s := by
  unfold twcRegRead
  split <;> simp

theorem lasting_twcRegWrite (off : Nat) (v : Word) : ∀ r ∈ twcRegWrite off v s, lasting r.1 = lasting s := by
  unfold twcRegWrite
  split <;> simp

/-! ### The DMA engine -/

@[simp] theorem lasting_updDma (f : Dma → Dma) : lasting (updDma f s) = lasting s := by rfl
@[simp] theorem lasting_updCh (n : Nat) (f : DmaCh → DmaCh) : lasting (updCh n f s) = lasting s := by rfl

@[simp] theorem lasting_dmaSelect : lasting (dmaSelect s) = lasting s := by
  unfold dmaSelect
  dsimp only
  split <;> simp

@[simp] theorem lasting_dmaLeave (n : Nat) (st : DmaSt) : lasting (dmaLeave n st s) = lasting s := by simp [dmaLeave]
@[simp] theorem lasting_dmaHalt (n cause src : Nat) : lasting (dmaHalt n cause src s) = lasting s := by simp [dmaHalt]
@[simp] theorem lasting_dmaIdle (n : Nat) : lasting (dmaIdle n s) = lasting s := by simp [dmaIdle]
@[simp] theorem lasting_dmaBusErr (n addr : Nat) (c : Code) : lasting (dmaBusErr n addr c s) = lasting s := by simp [dmaBusErr]
@[simp] theorem lasting_dmaBufUe (n : Nat) : lasting (dmaBufUe n s) = lasting s := by simp [dmaBufUe]
@[simp] theorem lasting_dmaStart (n : Nat) : lasting (dmaStart n s) = lasting s := by simp [dmaStart]

@[simp] theorem lasting_dmaStop (n : Nat) : lasting (dmaStop n s) = lasting s := by
  unfold dmaStop
  split <;> simp

@[simp] theorem lasting_dmaForce (n : Nat) (en : Bool) : lasting (dmaForce n en s) = lasting s := by simp [dmaForce]
@[simp] theorem lasting_dmaCtrl (n : Nat) (v : Word) : lasting (dmaCtrl n v s) = lasting s := by simp [dmaCtrl]

@[simp] theorem lasting_dmaCompatWrite (v : Word) : lasting (dmaCompatWrite v s).1 = lasting s := by
  unfold dmaCompatWrite
  split <;> simp

@[simp] theorem lasting_dmaConfig (n off : Nat) (v : Word) : lasting (dmaConfig n off v s).1 = lasting s := by
  unfold dmaConfig
  split_ifs <;> simp

@[simp] theorem lasting_waitLong (n : Nat) : lasting (waitLong n s) = lasting s := by simp [waitLong]
@[simp] theorem lasting_dmaRequest (n : Nat) : lasting (dmaRequest n s) = lasting s := by simp [dmaRequest]
@[simp] theorem lasting_lateWriteError (n addr code : Nat) : lasting (lateWriteError n addr code s) = lasting s := by simp [lateWriteError]

@[simp] theorem lasting_descriptorComplete : lasting (descriptorComplete s) = lasting s := by
  unfold descriptorComplete
  dsimp only
  repeat' split
  all_goals simp

theorem lasting_dmaRegWrite (off : Nat) (v : Word) : ∀ r ∈ dmaRegWrite off v s, lasting r.1 = lasting s := by
  unfold dmaRegWrite
  repeat' split
  all_goals simp

/-! ### The check units -/

@[simp] theorem lasting_updChk (u : Nat) (f : ChkU → ChkU) : lasting (updChk u f s) = lasting s := by rfl
@[simp] theorem lasting_chkIdle (u r : Nat) : lasting (chkIdle u r s) = lasting s := by rfl
@[simp] theorem lasting_chkStart (u : Nat) : lasting (chkStart u s) = lasting s := by simp [chkStart]

@[simp] theorem lasting_chkStop (u : Nat) : lasting (chkStop u s) = lasting s := by
  unfold chkStop
  split <;> simp

@[simp] theorem lasting_chkCtrl (u : Nat) (v : Word) : lasting (chkCtrl u v s) = lasting s := by simp [chkCtrl]

@[simp] theorem lasting_chkGuard (u : Nat) (m : Master) (k : State → State × Code) (hk : ∀ t, lasting (k t).1 = lasting t) :
    lasting (chkGuard u m k s).1 = lasting s := by
  unfold chkGuard
  split <;> simp [hk]

@[simp] theorem lasting_chkConfig (u off : Nat) (v : Word) : lasting (chkConfig u off v s).1 = lasting s := by
  unfold chkConfig
  split_ifs <;> simp

@[simp] theorem lasting_chkLeave (u a l run : Nat) : lasting (chkLeave u a l run s) = lasting s := by simp [chkLeave]
@[simp] theorem lasting_chkBusErr (u a : Nat) (c : Code) : lasting (chkBusErr u a c s) = lasting s := by simp [chkBusErr]
@[simp] theorem lasting_chkVerdict (u run : Nat) : lasting (chkVerdict u run s) = lasting s := by simp [chkVerdict]
@[simp] theorem lasting_chkAdvance (u : Nat) : lasting (chkAdvance u s) = lasting s := by rfl
@[simp] theorem lasting_chkProgress (u k : Nat) : lasting (chkProgress u k s).1 = lasting s := by rfl

theorem lasting_chkRegRead (off : Nat) : ∀ r ∈ chkRegRead off s, lasting r.1 = lasting s := by
  unfold chkRegRead
  dsimp only
  repeat' split
  all_goals simp

theorem lasting_chkRegWrite (m : Master) (off : Nat) (v : Word) : ∀ r ∈ chkRegWrite m off v s, lasting r.1 = lasting s := by
  unfold chkRegWrite
  split_ifs <;> simp

/-! ### DRAM and carafe -/

@[simp] theorem lasting_updMemc (f : Memc → Memc) : lasting (updMemc f s) = lasting s := by rfl
@[simp] theorem lasting_replaceRow (r : Nat) : lasting (replaceRow r s) = lasting s := by simp [replaceRow]
@[simp] theorem lasting_carafeCe (w : Nat) : lasting (carafeCe w s) = lasting s := by simp [carafeCe]
@[simp] theorem lasting_findErrors (ce ue : List Nat) : lasting (findErrors ce ue s) = lasting s := by simp [findErrors]
@[simp] theorem lasting_memUeRaise (w : Nat) : lasting (memUeRaise w s) = lasting s := by simp [memUeRaise]
@[simp] theorem lasting_touchPages (a len : Nat) : lasting (touchPages a len s) = lasting s := by simp [touchPages]

@[simp] theorem lasting_memRead (a len : Nat) : lasting (memRead a len s).1 = lasting s := by
  unfold memRead
  dsimp only
  split <;> simp

@[simp] theorem lasting_memWriteWord (a : Nat) (l : List Byte) (w : Nat) : lasting (memWriteWord a l w s) = lasting s := by simp [memWriteWord]
@[simp] theorem lasting_memWrite (a : Nat) (l : List Byte) : lasting (memWrite a l s).1 = lasting s := by simp [memWrite]

@[simp] theorem lasting_carafeRead (a len : Nat) : lasting (carafeRead a len s).1 = lasting s := by
  unfold carafeRead
  split_ifs <;> simp

@[simp] theorem lasting_carafeWrite (a : Nat) (l : List Byte) : lasting (carafeWrite a l s).1 = lasting s := by
  unfold carafeWrite
  split_ifs <;> simp

@[simp] theorem lasting_dramRead (a len : Nat) : lasting (dramRead a len s).1 = lasting s := by
  unfold dramRead
  split <;> simp

@[simp] theorem lasting_dramWrite (a : Nat) (l : List Byte) : lasting (dramWrite a l s).1 = lasting s := by
  unfold dramWrite
  split <;> simp

@[simp] theorem lasting_memAccess (t : BusTarget) (m : Master) (lo : Nat) (lim : State → Bool → Nat) (acc : MemAccess) (ce ue : List Nat)
    (rd : Nat → Nat → State → State × List Byte × Code) (wr : Nat → List Byte → State → State × Code)
    (hrd : ∀ a n t, lasting (rd a n t).1 = lasting t) (hwr : ∀ a l t, lasting (wr a l t).1 = lasting t) :
    lasting (memAccess t m lo lim acc ce ue rd wr s) = lasting s := by
  unfold memAccess
  split
  · rfl
  · cases acc <;> dsimp only <;> split_ifs <;> simp [hrd, hwr]

@[simp] theorem lasting_memcInit : lasting (memcInit s) = lasting s := by rfl
@[simp] theorem lasting_dramInitDone : lasting (dramInitDone s) = lasting s := by simp [dramInitDone]
@[simp] theorem lasting_scrub (ce ue : List Nat) : lasting (scrub ce ue s) = lasting s := by simp [scrub]
@[simp] theorem lasting_memcWindow : lasting (memcWindow s) = lasting s := by simp [memcWindow]
@[simp] theorem lasting_mr4Poll (hot : Bool) : lasting (mr4Poll hot s) = lasting s := by simp [mr4Poll]
@[simp] theorem lasting_rowSpared (r : Nat) : lasting (rowSpared r s) = lasting s := by simp [rowSpared]

@[simp] theorem lasting_memcConfigWrite (off : Nat) (v : Word) : lasting (memcConfigWrite off v s).1 = lasting s := by
  unfold memcConfigWrite
  split_ifs <;> simp

theorem lasting_memcRegWrite (off : Nat) (v : Word) : ∀ r ∈ memcRegWrite off v s, lasting r.1 = lasting s := by simp [memcRegWrite]

/-! ### The loudspeaker channels -/

@[simp] theorem lasting_updLsp (f : Lsp → Lsp) : lasting (updLsp f s) = lasting s := by rfl
@[simp] theorem lasting_updSpk (n : Nat) (f : LspCh → LspCh) : lasting (updSpk n f s) = lasting s := by rfl
@[simp] theorem lasting_updSns (i : Nat) (f : Sense → Sense) : lasting (updSns i f s) = lasting s := by rfl
@[simp] theorem lasting_updMod (n : Nat) (f : Mod → Mod) : lasting (updMod n f s) = lasting s := by rfl
@[simp] theorem lasting_latchLim (n : Nat) : lasting (latchLim n s) = lasting s := by rfl
@[simp] theorem lasting_renewGain (n : Nat) : lasting (renewGain n s) = lasting s := by rfl
@[simp] theorem lasting_survival (n : Nat) : lasting (survival n s) = lasting s := by simp [survival]
@[simp] theorem lasting_spkStep (n : Nat) : lasting (spkStep n s) = lasting s := by simp [spkStep]
@[simp] theorem lasting_modelStep : lasting (modelStep s) = lasting s := by simp [modelStep]

@[simp] theorem lasting_lspAlarm : lasting (lspAlarm s) = lasting s :=
  lasting_foldl (fun t n => lasting_renewGain t n) _ s

@[simp] theorem lasting_estValues (n : Nat) (sxy syy : Int) : lasting (estValues n sxy syy s).2.2 = lasting s := by
  unfold estValues
  dsimp only
  repeat' split
  all_goals simp

@[simp] theorem lasting_estEnd (n : Nat) : lasting (estEnd n s) = lasting s := by simp [estEnd]

@[simp] theorem lasting_lineZ (n : Nat) : lasting (lineZ s n).2 = lasting s := by
  unfold lineZ
  dsimp only
  repeat' split
  all_goals simp

@[simp] theorem lasting_setLine (n v : Nat) : lasting (setLine n v s) = lasting s := by
  unfold setLine
  split
  · simp
  · split <;> simp

@[simp] theorem lasting_supEnd (n : Nat) : lasting (supEnd n s) = lasting s := by simp [supEnd]
@[simp] theorem lasting_lineRunStart (n : Nat) : lasting (lineRunStart n s) = lasting s := by rfl
@[simp] theorem lasting_lineShutdown (n : Nat) : lasting (lineShutdown n s) = lasting s := by simp [lineShutdown]
@[simp] theorem lasting_lspBlocksOff (n : Nat) : lasting (lspBlocksOff n s) = lasting s := by rfl
@[simp] theorem lasting_lspChStart (n : Nat) : lasting (lspChStart n s) = lasting s := by rfl
@[simp] theorem lasting_calEnd (r : Nat) : lasting (calEnd r s) = lasting s := by rfl
@[simp] theorem lasting_loseSense (i : Nat) : lasting (loseSense i s) = lasting s := by simp [loseSense]
@[simp] theorem lasting_senseLost (i : Nat) : lasting (senseLost i s) = lasting s := by simp [senseLost]
@[simp] theorem lasting_calResult (r : Nat) : lasting (calResult r s) = lasting s := by rfl
@[simp] theorem lasting_calOther (kind idx : Nat) : lasting (calOther kind idx s) = lasting s := by rfl
@[simp] theorem lasting_calStart (isRef : Bool) (kind idx : Nat) : lasting (calStart isRef kind idx s) = lasting s := by simp [calStart]
@[simp] theorem lasting_calCancelOp (kind idx : Nat) : lasting (calCancelOp kind idx s) = lasting s := by simp [calCancelOp]

@[simp] theorem lasting_calWrite (v : Word) : lasting (calWrite v s) = lasting s := by
  unfold calWrite
  split <;> simp

@[simp] theorem lasting_calZeroDone : lasting (calZeroDone s) = lasting s := by simp [calZeroDone]
@[simp] theorem lasting_writeTrims (kind idx : Nat) (off : Int) (gain : Nat) : lasting (writeTrims kind idx off gain s) = lasting s := by rfl

@[simp] theorem lasting_calRefDone : lasting (calRefDone s) = lasting s := by
  unfold calRefDone
  dsimp only
  repeat' split
  all_goals simp

@[simp] theorem lasting_railFrame (g : Nat) : lasting (railFrame g s) = lasting s := by simp [railFrame]
@[simp] theorem lasting_senseAll (inp : List (Nat × Nat)) : lasting (senseAll inp s) = lasting s := by simp [senseAll]
@[simp] theorem lasting_spkReadings (n : Nat) : lasting (spkReadings n s) = lasting s := by rfl
@[simp] theorem lasting_spkFrame (n : Nat) : lasting (spkFrame n s) = lasting s := by simp [spkFrame]
@[simp] theorem lasting_lspFrame (inp : List (Nat × Nat)) : lasting (lspFrame inp s) = lasting s := by simp [lspFrame]
@[simp] theorem lasting_calDisturb (n : Nat) : lasting (calDisturb n s) = lasting s := by simp [calDisturb]
@[simp] theorem lasting_lspSnuff : lasting (lspSnuff s) = lasting s := by simp [lspSnuff]
@[simp] theorem lasting_lspStateUe (n : Nat) : lasting (lspStateUe n s) = lasting s := by simp [lspStateUe]
@[simp] theorem lasting_gainFull (n : Nat) : lasting (gainFull n s) = lasting s := by simp [gainFull]
@[simp] theorem lasting_lspGroupReset (g : Nat) : lasting (lspGroupReset g s) = lasting s := by simp [lspGroupReset]
@[simp] theorem lasting_spkCfgWrite (n : Nat) (v : Word) : lasting (spkCfgWrite n v s) = lasting s := by simp [spkCfgWrite]
@[simp] theorem lasting_snsCfgWrite (v : Word) : lasting (snsCfgWrite v s) = lasting s := by rfl
@[simp] theorem lasting_lspPut (off : Nat) (v : Word) : lasting (lspPut off v s) = lasting s := by simp [lspPut]
@[simp] theorem lasting_applyLspSetup (g : Nat) (ps : List (Nat × Word)) : lasting (applyLspSetup g ps s) = lasting s := by simp [applyLspSetup]

theorem lasting_lspRegWrite (off : Nat) (v : Word) : ∀ r ∈ lspRegWrite off v s, lasting r = lasting s := by
  unfold lspRegWrite
  split <;> simp

/-! ### The modulators -/

@[simp] theorem lasting_setChBit (off n : Nat) (v : Bool) : lasting (setChBit off n v s) = lasting s := by rfl
@[simp] theorem lasting_modOff (n : Nat) : lasting (modOff n s) = lasting s := by simp [modOff]
@[simp] theorem lasting_driveFall : lasting (driveFall s) = lasting s := by simp [driveFall]
@[simp] theorem lasting_driveCheck : lasting (driveCheck s) = lasting s := by simp [driveCheck]
@[simp] theorem lasting_driveRise : lasting (driveRise s) = lasting s := by simp [driveRise]
@[simp] theorem lasting_drvAllow (v : Word) : lasting (drvAllow v s) = lasting s := by simp [drvAllow]
@[simp] theorem lasting_modRamp (n f target : Nat) : lasting (modRamp n f target s) = lasting s := by rfl
@[simp] theorem lasting_modStart (n k : Nat) : lasting (modStart n k s) = lasting s := by simp [modStart]

@[simp] theorem lasting_chStart1 (n : Nat) : lasting (chStart1 n s) = lasting s := by
  unfold chStart1
  split <;> simp

@[simp] theorem lasting_chStop1 (n : Nat) : lasting (chStop1 n s) = lasting s := by
  unfold chStop1
  dsimp only
  split <;> simp

@[simp] theorem lasting_chForce1 (n : Nat) : lasting (chForce1 n s) = lasting s := by simp [chForce1]

@[simp] theorem lasting_eachCh (v : Word) (f : Nat → State → State) (hf : ∀ n t, lasting (f n t) = lasting t) :
    lasting (eachCh v f s) = lasting s := by
  simp [eachCh, hf]

@[simp] theorem lasting_chStartRampEnd (n : Nat) : lasting (chStartRampEnd n s) = lasting s := by
  unfold chStartRampEnd
  split <;> simp

@[simp] theorem lasting_chStopRampEnd (n : Nat) : lasting (chStopRampEnd n s) = lasting s := by
  unfold chStopRampEnd
  split <;> simp

@[simp] theorem lasting_pwrRunRamp (up : Bool) : lasting (pwrRunRamp up s) = lasting s := by simp [pwrRunRamp]
@[simp] theorem lasting_pwrTick : lasting (pwrTick s) = lasting s := by simp [pwrTick]
@[simp] theorem lasting_pwrStateUe (n : Nat) : lasting (pwrStateUe n s) = lasting s := by simp [pwrStateUe]

@[simp] theorem lasting_ocInAssert (n : Nat) (level : Bool) (q len : Nat) : lasting (ocInAssert n level q len s) = lasting s := by
  unfold ocInAssert
  dsimp only
  repeat' split
  all_goals simp

@[simp] theorem lasting_ocLimit (n : Nat) : lasting (ocLimit n s) = lasting s := by
  unfold ocLimit
  split <;> simp

@[simp] theorem lasting_ocLatch (n : Nat) : lasting (ocLatch n s) = lasting s := by simp [ocLatch]
@[simp] theorem lasting_shutDown (n : Nat) : lasting (shutDown n s) = lasting s := by simp [shutDown]
@[simp] theorem lasting_ocShutdown (n : Nat) : lasting (ocShutdown n s) = lasting s := by simp [ocShutdown]
@[simp] theorem lasting_ocDetect (i n : Nat) : lasting (ocDetect i n s) = lasting s := by simp [ocDetect]
@[simp] theorem lasting_ocRetry (n : Nat) : lasting (ocRetry n s) = lasting s := by simp [ocRetry]
@[simp] theorem lasting_retriesReset (n : Nat) : lasting (retriesReset n s) = lasting s := by simp [retriesReset]
@[simp] theorem lasting_ocRelease1 (n : Nat) : lasting (ocRelease1 n s) = lasting s := by simp [ocRelease1]

@[simp] theorem lasting_pwrAlarm : lasting (pwrAlarm s) = lasting s := by
  refine lasting_foldl (fun t n => ?_) _ s
  split <;> simp

@[simp] theorem lasting_modFrame (n : Nat) : lasting (modFrame n s) = lasting s := by simp [modFrame]
@[simp] theorem lasting_pwrFrameEnd : lasting (pwrFrameEnd s) = lasting s := by simp [pwrFrameEnd]
@[simp] theorem lasting_modBoundary (n : Nat) : lasting (modBoundary n s) = lasting s := by simp [modBoundary]
@[simp] theorem lasting_pwrFrameStart : lasting (pwrFrameStart s) = lasting s := by simp [pwrFrameStart]
@[simp] theorem lasting_padStuck : lasting (padStuck s) = lasting s := by rfl

@[simp] theorem lasting_pwrConfigWrite (off : Nat) (v : Word) : lasting (pwrConfigWrite off v s).1 = lasting s := by
  unfold pwrConfigWrite
  dsimp only
  repeat' split
  all_goals simp

@[simp] theorem lasting_modPut (off : Nat) (v : Word) : lasting (modPut off v s) = lasting s := by simp [modPut]
@[simp] theorem lasting_applyModSetup (ps : List (Nat × Word)) : lasting (applyModSetup ps s) = lasting s := by simp [applyModSetup]

theorem lasting_pwrRegWrite (off : Nat) (v : Word) : ∀ r ∈ pwrRegWrite off v s, lasting r.1 = lasting s := by
  unfold pwrRegWrite
  split_ifs <;> simp

end
end Sys2Proof.Machine
end

section
/-! SUPPORT. What lasts through every command: the modes, the wick, a load and the pair link. -/
namespace Sys2Proof.Machine
open Sys2Proof

section
variable (s : State)

/-! ### The mode flags and the snuffed state -/

@[simp] theorem lasting_unconfigure : lasting (unconfigure s) = lasting s := by
  unfold unconfigure
  split <;> rfl

@[simp] theorem lasting_coldCheck : lasting (coldCheck s) = lasting s := by simp [coldCheck]
@[simp] theorem lasting_loadErr (f : Failure) : lasting (loadErr f s) = lasting s := by rfl
@[simp] theorem lasting_loadFail (f : Failure) : lasting (loadFail f s) = lasting s := by simp [loadFail]
@[simp] theorem lasting_loadCut (e : LoadErr) : lasting (loadCut e s) = lasting s := by simp [loadCut]
@[simp] theorem lasting_endTests : lasting (endTests s) = lasting s := by rfl

@[simp] theorem lasting_runCleared (o : Option HostId) : lasting (runCleared o s) = lasting s := by
  unfold runCleared
  split
  · rfl
  extract_lets t₁ t₂ t₃ t₄ t₅ c pair t₆
  have h₄ : lasting t₄ = lasting s := by simp [t₄, t₃, t₂, t₁]
  clear_value t₄
  have h₆ : lasting t₆ = lasting s := h₄
  split <;> simp [h₄, h₆]

@[simp] theorem lasting_alarmApplied (v : Bool) (o : Option HostId) : lasting (alarmApplied v o s) = lasting s := by simp [alarmApplied]

@[simp] theorem lasting_snuffLog (a : SnuffBy) : lasting (SnuffBy.log a s) = lasting s := by
  unfold SnuffBy.log
  split <;> simp

@[simp] theorem lasting_ckptRestart : lasting (ckptRestart s) = lasting s := by rfl
@[simp] theorem lasting_wickSnuff : lasting (wickSnuff s) = lasting s := by simp [wickSnuff]
@[simp] theorem lasting_snuffRecord (c : SnuffBy) : lasting (snuffRecord c s) = lasting s := by
  simp [snuffRecord, apply_ite Sys.aligned, apply_ite Sys.tickLoss]
@[simp] theorem lasting_enterSnuff (c : SnuffBy) : lasting (enterSnuff c s) = lasting s := by simp [enterSnuff]
@[simp] theorem lasting_snuffCtrlWrite (m : Master) (v : Word) : lasting (snuffCtrlWrite m v s) = lasting s := by simp [snuffCtrlWrite]
@[simp] theorem lasting_snuffCauseWrite (v : Word) : lasting (snuffCauseWrite v s) = lasting s := by simp [snuffCauseWrite]
@[simp] theorem lasting_wickLoss : lasting (wickLoss s) = lasting s := by simp [wickLoss]
@[simp] theorem lasting_rampUp : lasting (rampUp s) = lasting s := by simp [rampUp]
@[simp] theorem lasting_startRamp : lasting (startRamp s) = lasting s := by simp [startRamp]
@[simp] theorem lasting_modeResult (isAlarm : Bool) (code : Nat) : lasting (modeResult isAlarm code s) = lasting s := by
  cases isAlarm <;> rfl
@[simp] theorem lasting_dropStale : lasting (dropStale s) = lasting s := by simp [dropStale]

@[simp] theorem lasting_runApplied (o : Option HostId) : lasting (runApplied o s) = lasting s := by
  unfold runApplied
  extract_lets t u
  have ht : lasting t = lasting s := by simp [t]
  have hu : lasting u = lasting s := ht
  clear_value t u
  split
  · split <;> exact hu
  · simp [ht]

@[simp] theorem lasting_runRequest (v : Bool) (o : Option HostId) : lasting (runRequest v o s) = lasting s := by
  unfold runRequest
  split_ifs
  · rfl
  · split <;> simp
  all_goals simp

@[simp] theorem lasting_alarmRequest (v : Bool) (o : Option HostId) : lasting (alarmRequest v o s) = lasting s := by simp [alarmRequest]
@[simp] theorem lasting_modeReqWrite (m : Master) (v : Word) : lasting (modeReqWrite m v s) = lasting s := by simp [modeReqWrite]

@[simp] theorem lasting_outputRampEnd : lasting (outputRampEnd s) = lasting s := by
  unfold outputRampEnd
  split
  · split <;> simp
  · simp

/-! ### The wick -/

@[simp] theorem lasting_updPair (f : Pair → Pair) : lasting (s.updPair f) = lasting s := by rfl
@[simp] theorem lasting_clashEdge (before : Bool) : lasting (clashEdge before s) = lasting s := by simp [clashEdge]
@[simp] theorem lasting_setWick (w : WickSt) : lasting (setWick w s) = lasting s := by simp [setWick]

@[simp] theorem lasting_startCold : lasting (startCold s) = lasting s := by
  unfold startCold
  simp [↓lasting_ite]

@[simp] theorem lasting_dropCold : lasting (dropCold s) = lasting s := by
  unfold dropCold
  dsimp only
  repeat' split
  all_goals simp

@[simp] theorem lasting_withdraw (w : WickSt) : lasting (withdraw w s) = lasting s := by simp [withdraw]

@[simp] theorem lasting_wickSettle : lasting (wickSettle s) = lasting s := by
  unfold wickSettle
  dsimp only
  repeat' split
  all_goals simp

@[simp] theorem lasting_cutRestore : lasting (cutRestore s) = lasting s := by
  unfold cutRestore
  simp [↓lasting_ite]

@[simp] theorem lasting_releaseWick : lasting (releaseWick s) = lasting s := by simp [releaseWick]
@[simp] theorem lasting_setArm (on : Bool) : lasting (setArm on s) = lasting s := by simp [setArm]
@[simp] theorem lasting_clearArm : lasting (clearArm s) = lasting s := by rfl
@[simp] theorem lasting_hoResult (c : Nat) : lasting (hoResult c s) = lasting s := by simp [hoResult]

@[simp] theorem lasting_handoverReq : lasting (handoverReq s) = lasting s := by
  unfold handoverReq
  split <;> simp

@[simp] theorem lasting_pairCtrlWrite (v : Word) : lasting (pairCtrlWrite v s) = lasting s := by simp [pairCtrlWrite]
@[simp] theorem lasting_linkOff : lasting (linkOff s) = lasting s := by rfl

@[simp] theorem lasting_pairCfgPut (v : Word) : lasting (pairCfgPut v s).1 = lasting s := by
  unfold pairCfgPut
  split <;> simp

theorem lasting_pairRegWrite (off : Nat) (v : Word) : ∀ r ∈ pairRegWrite off v s, lasting r.1 = lasting s := by
  unfold pairRegWrite
  split_ifs <;> simp

@[simp] theorem lasting_applyPairSetup (ps : List (Nat × Word)) : lasting (applyPairSetup ps s) = lasting s := by
  refine lasting_foldl (fun t p => ?_) ps s
  split
  next r hr => exact lasting_pairRegWrite t _ _ r hr
  next => rfl

/-! ### The records of a full image -/

@[simp] theorem lasting_applySlices (l : List (Nat × Nat × Nat × Nat)) : lasting (applySlices l s) = lasting s := by rfl
@[simp] theorem lasting_applySeqService (a : Nat) : lasting (applySeqService a s) = lasting s := by rfl

@[simp] theorem lasting_applyS0Rec (base : Nat) (r : ImgRec) : lasting (applyS0Rec base s r) = lasting s := by
  unfold applyS0Rec
  split <;> simp

@[simp] theorem lasting_applyS0 (base : Nat) (rs : List ImgRec) : lasting (applyS0 base rs s) = lasting s := by
  unfold applyS0
  split <;> simp

/-! ### The renumbering of the ticks -/

@[simp] theorem lasting_retime (f : Nat → Nat) : lasting (retime f s) = lasting s := by rfl

/-! ### Boot and loading -/

@[simp] theorem lasting_loadTrims : lasting (loadTrims s) = lasting s := by simp [loadTrims]
@[simp] theorem lasting_fusePhaseEnd : lasting (fusePhaseEnd s) = lasting s := by simp [fusePhaseEnd]
@[simp] theorem lasting_flashFail : lasting (flashFail s) = lasting s := by simp [flashFail]

@[simp] theorem lasting_startMemInit (r : Option (List Byte)) : lasting (startMemInit r s) = lasting s := by
  unfold startMemInit
  split <;> simp

@[simp] theorem lasting_flashBootRecordRead (dev : Word) : lasting (flashBootRecordRead dev s) = lasting s := by
  unfold flashBootRecordRead
  dsimp only
  repeat' split
  all_goals simp

@[simp] theorem lasting_memInitEnd (trainErr gib : Nat) : lasting (memInitEnd trainErr gib s) = lasting s := by
  unfold memInitEnd
  extract_lets bad t u v
  have ht : lasting t = lasting s := by simp [t]
  split_ifs <;> simp [u, v, ht]

@[simp] theorem lasting_imgRefuse (e : LoadErr) : lasting (imgRefuse e s) = lasting s := by rfl

@[simp] theorem lasting_startJob (partialImg verify allow : Bool) : lasting (startJob partialImg verify allow s) = lasting s := by
  simp [startJob]

@[simp] theorem lasting_initFrom : lasting (initFrom s) = lasting s := by simp [initFrom]
@[simp] theorem lasting_sramCleared : lasting (sramCleared s) = lasting s := by rfl
@[simp] theorem lasting_sramInitEnd : lasting (sramInitEnd s) = lasting s := by simp [sramInitEnd]

@[simp] theorem lasting_initMem : lasting (initMem s) = lasting s := by
  unfold initMem
  split_ifs <;> simp

@[simp] theorem lasting_loadFull (allow : Bool) : lasting (loadFull allow s) = lasting s := by simp [loadFull]
@[simp] theorem lasting_loadPartial (allow : Bool) : lasting (loadPartial allow s) = lasting s := by simp [loadPartial]
@[simp] theorem lasting_verify (allow : Bool) : lasting (verify allow s) = lasting s := by simp [verify]

@[simp] theorem lasting_imgAbort : lasting (imgAbort s) = lasting s := by
  unfold imgAbort
  split <;> simp

@[simp] theorem lasting_imgCommand (c : Nat) (allow : Bool) : lasting (imgCommand c allow s) = lasting s := by
  unfold imgCommand
  split <;> simp

@[simp] theorem lasting_imgCtrlWrite (v : Word) : lasting (imgCtrlWrite v s) = lasting s := by simp [imgCtrlWrite]
@[simp] theorem lasting_flashImageCopyEnd : lasting (flashImageCopyEnd s) = lasting s := by simp [flashImageCopyEnd]
@[simp] theorem lasting_loadReject (f : Failure) : lasting (loadReject f s) = lasting s := by simp [loadReject]

@[simp] theorem lasting_readingEnd : lasting (readingEnd s) = lasting s := by
  unfold readingEnd
  split
  · rfl
  dsimp only
  split
  · rw [lasting_loadReject]
    split <;> simp
  · simp

@[simp] theorem lasting_authEnd : lasting (authEnd s) = lasting s := by
  unfold authEnd
  dsimp only
  repeat' split
  all_goals simp

@[simp] theorem lasting_applyMap : lasting (applyMap s) = lasting s := by
  unfold applyMap
  split
  · rfl
  refine (lasting_foldl (fun t p => ?_) _ _).trans rfl
  split <;> rfl

@[simp] theorem lasting_applyS1Rec (base : Nat) (full : Bool) (r : ImgRec) : lasting (applyS1Rec base full s r) = lasting s := by
  unfold applyS1Rec
  split <;> simp

@[simp] theorem lasting_applyS1 : lasting (applyS1 s) = lasting s := by
  unfold applyS1
  extract_lets t₁ t₂ t₃ t₄ dly t₅ t₆
  have h₄ : lasting t₄ = lasting s := by simp [t₄, t₃, t₂, t₁]
  have h₅ : lasting t₅ = lasting t₄ := by
    unfold t₅
    split <;> simp
  simp [t₆, h₅, h₄]

@[simp] theorem lasting_jobDone : lasting (jobDone s) = lasting s := by rfl
@[simp] theorem lasting_acceptUnbounded (l : List Nat) : lasting (acceptUnbounded l s) = lasting s := by simp [acceptUnbounded]
@[simp] theorem lasting_partialDone (j : LoadJob) : lasting (partialDone j s) = lasting s := by simp [partialDone]
@[simp] theorem lasting_rampCells (sel k : Nat) (up : Bool) : lasting (rampCells sel k up s) = lasting s := by rfl

@[simp] theorem lasting_startPartial (j : LoadJob) : lasting (startPartial j s) = lasting s := by
  unfold startPartial
  extract_lets h b pj g mask t
  have hpj (p : PartialPhase) (due : Nat) (t : State) : lasting (pj p due t) = lasting t := by simp [pj]
  have ht : lasting t = lasting s := by simp [t]
  clear_value t
  split <;> simp [hpj, ht]

@[simp] theorem lasting_checkingEnd : lasting (checkingEnd s) = lasting s := by
  unfold checkingEnd
  split
  · rfl
  extract_lets x t b u j v
  have ht : lasting t = lasting s := by simp [t]
  have hu : lasting u = lasting t := by simp [u]
  have hv : lasting v = lasting u := by simp [v]
  clear_value t u v
  split
  · simp [ht]
  split
  · simp [hu, ht]
  · simp [apply_ite Img.fuses, hv, hu, ht]

@[simp] theorem lasting_loadAbortEnd : lasting (loadAbortEnd s) = lasting s := by simp [loadAbortEnd]
@[simp] theorem lasting_changeFs (fs48 : Bool) : lasting (changeFs fs48 s) = lasting s := by simp [changeFs]

@[simp] theorem lasting_loadAccept : lasting (loadAccept s) = lasting s := by
  unfold loadAccept
  split
  · rfl
  next j _ =>
    extract_lets h t₁ t₂ t₃ bmx t₅ t₆ t₇ t₈ t₉ t₁₀
    have h₃ : lasting t₃ = lasting s := by simp [t₃, t₂, t₁]
    have h₇ : lasting t₇ = lasting t₃ := by simp [t₇, t₆, t₅]
    have h₉ : lasting t₉ = lasting t₇ := by
      unfold t₉
      split <;> simp [t₈]
    have h₁₀ : lasting t₁₀ = lasting t₉ := by simp [t₁₀]
    clear_value t₃ t₇ t₉ t₁₀
    simp [h₁₀, h₉, h₇, h₃]

@[simp] theorem lasting_partialCell (p : PartialJob) (l : Nat) : lasting (partialCell p s l) = lasting s := by
  unfold partialCell
  split <;> simp

@[simp] theorem lasting_partialCellsHalt : lasting (partialCellsHalt s) = lasting s := by
  unfold partialCellsHalt
  split <;> simp

@[simp] theorem lasting_partialCellsRestart : lasting (partialCellsRestart s) = lasting s := by
  unfold partialCellsRestart
  split
  · simp
  · rfl

@[simp] theorem lasting_partialStep : lasting (partialStep s) = lasting s := by
  unfold partialStep
  split <;> simp

@[simp] theorem lasting_partialLoadDone : lasting (partialLoadDone s) = lasting s := by
  unfold partialLoadDone
  split <;> simp

/-! ### The pair link -/

@[simp] theorem lasting_updCkpt (f : Ckpt → Ckpt) : lasting (s.updCkpt f) = lasting s := by rfl
@[simp] theorem lasting_ckptValid (v : Bool) : lasting (ckptValid v s) = lasting s := by simp [ckptValid]
@[simp] theorem lasting_ckptDelta (num : Nat) (its : List CkItem) : lasting (ckptDelta num its s) = lasting s := by rfl
@[simp] theorem lasting_ckptSlice (k : Nat) (its : List CkItem) : lasting (ckptSlice k its s) = lasting s := by simp [ckptSlice]
@[simp] theorem lasting_ckptLoss : lasting (ckptLoss s) = lasting s := by simp [ckptLoss]
@[simp] theorem lasting_closeDelta : lasting (closeDelta s) = lasting s := by rfl
@[simp] theorem lasting_sendSlice : lasting (sendSlice s) = lasting s := by simp [sendSlice]
@[simp] theorem lasting_deltaPeriodEnd : lasting (deltaPeriodEnd s) = lasting s := by simp [deltaPeriodEnd]

@[simp] theorem lasting_putFlow (f : Nat) (st : FlowSt) (seq : Nat) (fe : List Word) : lasting (putFlow f st seq fe s) = lasting s := by
  simp [putFlow]

@[simp] theorem lasting_putSwap (v : List Int) : lasting (putSwap v s) = lasting s := by rfl

@[simp] theorem lasting_putLive (it : CkItem) : lasting (putLive it s) = lasting s := by
  unfold putLive
  split <;> simp

@[simp] theorem lasting_putPwr (it : CkItem) : lasting (putPwr it s) = lasting s := by
  unfold putPwr
  split <;> simp

@[simp] theorem lasting_putCell (its : List CkItem) (l : Nat) : lasting (putCell its s l) = lasting s := by
  unfold putCell
  split <;> simp

@[simp] theorem lasting_restoreFull (its : List CkItem) : lasting (restoreFull its s) = lasting s := by simp [restoreFull]

@[simp] theorem lasting_restoreImage : lasting (restoreImage s) = lasting s := by
  unfold restoreImage
  extract_lets b t₁ t₂ t₃ t₄ ch t₅
  have h₂ : lasting t₂ = lasting s := by
    unfold t₂
    split <;> simp [t₁]
  have h₄ : lasting t₄ = lasting t₂ := by simp [t₄, t₃]
  simp [t₅, h₄, h₂]

@[simp] theorem lasting_setPhealth (h : Nat) : lasting (setPhealth h s) = lasting s := by simp [setPhealth]
@[simp] theorem lasting_linkError : lasting (linkError s) = lasting s := by rfl
@[simp] theorem lasting_statusSend : lasting (statusSend s) = lasting s := by simp [statusSend]
@[simp] theorem lasting_statusReceive (f : PairStatus) : lasting (statusReceive f s) = lasting s := by simp [statusReceive]
@[simp] theorem lasting_pairLinkUp : lasting (pairLinkUp s) = lasting s := by simp [pairLinkUp]
@[simp] theorem lasting_handoverAbort : lasting (handoverAbort s) = lasting s := by simp [handoverAbort]
@[simp] theorem lasting_pairLinkDown : lasting (pairLinkDown s) = lasting s := by simp [pairLinkDown]
@[simp] theorem lasting_mirrorAlarm (v : Bool) : lasting (mirrorAlarm v s) = lasting s := by simp [mirrorAlarm]

@[simp] theorem lasting_itemLive (it : CkItem) : lasting (itemLive it s) = lasting s := by
  unfold itemLive
  split <;> simp

@[simp] theorem lasting_deltaReceive (d : Delta) : lasting (deltaReceive d s) = lasting s := by
  unfold deltaReceive
  repeat' split
  all_goals simp

@[simp] theorem lasting_sliceReceive (x : Slice) : lasting (sliceReceive x s) = lasting s := by
  unfold sliceReceive
  split_ifs
  · rfl
  · simp
  · refine (lasting_foldl (fun t it => ?_) _ _).trans (by simp)
    split <;> simp

@[simp] theorem lasting_detailReceive (ws : List Word) : lasting (detailReceive ws s) = lasting s := by
  unfold detailReceive
  split_ifs
  · simp
  · refine lasting_foldl (fun t i => ?_) _ s
    split <;> rfl
  · rfl

@[simp] theorem lasting_lightFail : lasting (lightFail s) = lasting s := by simp [lightFail]
@[simp] theorem lasting_enterLighting (lineHigh : Bool) : lasting (enterLighting lineHigh s) = lasting s := by simp [enterLighting]
@[simp] theorem lasting_pilotSend (ok : Bool) : lasting (pilotSend ok s) = lasting s := by simp [pilotSend]

@[simp] theorem lasting_foreignPulse : lasting (foreignPulse s) = lasting s := by
  unfold foreignPulse
  split <;> simp

@[simp] theorem lasting_pilotRead : lasting (pilotRead s) = lasting s := by
  unfold pilotRead
  split <;> simp

@[simp] theorem lasting_pilotGap : lasting (pilotGap s) = lasting s := by simp [pilotGap]
@[simp] theorem lasting_finishRelease : lasting (finishRelease s) = lasting s := by simp [finishRelease]
@[simp] theorem lasting_leaseExpiry : lasting (leaseExpiry s) = lasting s := by simp [leaseExpiry]
@[simp] theorem lasting_guardExpiry (lineHigh : Bool) : lasting (guardExpiry lineHigh s) = lasting s := by simp [guardExpiry]

@[simp] theorem lasting_takeoverAlarm : lasting (takeoverAlarm s) = lasting s := by
  unfold takeoverAlarm
  split
  · rfl
  · split <;> simp

@[simp] theorem lasting_beginConfig : lasting (beginConfig s) = lasting s := by simp [beginConfig]

@[simp] theorem lasting_takeoverStart (hot run : Bool) : lasting (takeoverStart hot run s) = lasting s := by
  unfold takeoverStart
  dsimp only
  repeat' split
  all_goals simp

@[simp] theorem lasting_takeover : lasting (takeover s) = lasting s := by simp [takeover]
@[simp] theorem lasting_coldConfigEnd : lasting (coldConfigEnd s) = lasting s := by simp [coldConfigEnd]

@[simp] theorem lasting_restoreStart (src : Restore) : lasting (restoreStart src s) = lasting s := by
  unfold restoreStart
  split <;> simp

@[simp] theorem lasting_restoreEnd : lasting (restoreEnd s) = lasting s := by
  unfold restoreEnd
  dsimp only
  repeat' split
  all_goals simp

@[simp] theorem lasting_handoverRequest : lasting (handoverRequest s) = lasting s := by simp [handoverRequest]
@[simp] theorem lasting_releasedReceive : lasting (releasedReceive s) = lasting s := by simp [releasedReceive]
@[simp] theorem lasting_pilotWaitEnd : lasting (pilotWaitEnd s) = lasting s := by simp [pilotWaitEnd]
@[simp] theorem lasting_handoverStop : lasting (handoverStop s) = lasting s := by simp [handoverStop]

@[simp] theorem lasting_handoverRampEnd : lasting (handoverRampEnd s) = lasting s := by
  unfold handoverRampEnd
  split <;> simp

@[simp] theorem lasting_takenReceive : lasting (takenReceive s) = lasting s := by simp [takenReceive]

@[simp] theorem lasting_handoverTimeout : lasting (handoverTimeout s) = lasting s := by
  unfold handoverTimeout
  split <;> simp

@[simp] theorem lasting_sweepBegin : lasting (sweepBegin s) = lasting s := by rfl

@[simp] theorem lasting_sweepStart : lasting (sweepStart s) = lasting s := by
  unfold sweepStart
  split <;> simp

@[simp] theorem lasting_storeCorruptFault : lasting (storeCorruptFault s) = lasting s := by simp [storeCorruptFault]
@[simp] theorem lasting_sweepCells (failed : List Nat) : lasting (sweepCells failed s) = lasting s := by simp [sweepCells]
@[simp] theorem lasting_sweepEnd (failed macs : List Nat) : lasting (sweepEnd failed macs s) = lasting s := by simp [sweepEnd]

end
end Sys2Proof.Machine
end

section
/-! SUPPORT. What lasts through every command: the semaphores, the faults, time, the bus and the test port. -/
namespace Sys2Proof.Machine
open Sys2Proof

section
variable (s : State)

/-! ### The semaphores -/

@[simp] theorem lasting_semOwner (i : Nat) (o : Option HostId) : lasting (semOwner i o s) = lasting s := by simp [semOwner]

@[simp] theorem lasting_semRead (m : Master) (i : Nat) : lasting (semRead m i s).1 = lasting s := by
  unfold semRead
  split
  · rfl
  · split
    · rfl
    · split <;> simp

@[simp] theorem lasting_semWrite (m : Master) (i : Nat) : lasting (semWrite m i s).1 = lasting s := by
  unfold semWrite
  split <;> simp

@[simp] theorem lasting_holdExpired (i : Nat) : lasting (holdExpired i s) = lasting s := by simp [holdExpired]
@[simp] theorem lasting_semReleaseAll (p : Option HostId → Bool) : lasting (semReleaseAll p s) = lasting s := by simp [semReleaseAll]

/-! ### Detections, the log and the clock monitor -/

@[simp] theorem lasting_chipFault (b : Blk) (i : Nat) : lasting (chipFault b i s) = lasting s := by simp [chipFault]
@[simp] theorem lasting_regParity (d : Nat) : lasting (regParity d s) = lasting s := by simp [regParity]
@[simp] theorem lasting_logUe : lasting (logUe s) = lasting s := by simp [logUe]

@[simp] theorem lasting_dmaFault (i d : Nat) : lasting (dmaFault i d s) = lasting s := by
  unfold dmaFault
  split
  · simp
  · split <;> simp

@[simp] theorem lasting_chkFault (i : Nat) : lasting (chkFault i s) = lasting s := by simp [chkFault]

@[simp] theorem lasting_twcFault (i : Nat) : lasting (twcFault i s) = lasting s := by
  unfold twcFault
  split <;> simp

@[simp] theorem lasting_flcFault (i : Nat) : lasting (flcFault i s) = lasting s := by simp [flcFault]
@[simp] theorem lasting_entryUe (e : Nat) : lasting (entryUe e s) = lasting s := by simp [entryUe]
@[simp] theorem lasting_lineErr (i l : Nat) : lasting (lineErr i l s) = lasting s := by simp [lineErr]
@[simp] theorem lasting_playerUnderrun (p : Nat) : lasting (playerUnderrun p s) = lasting s := by simp [playerUnderrun]
@[simp] theorem lasting_ledgerEcc (j : Nat) : lasting (ledgerEcc j s) = lasting s := by simp [ledgerEcc]
@[simp] theorem lasting_overrun (p : Nat) : lasting (overrun p s) = lasting s := by simp [overrun]

@[simp] theorem lasting_shadowMismatch (p : Nat) : lasting (shadowMismatch p s) = lasting s := by
  unfold shadowMismatch
  dsimp only
  split <;> simp

@[simp] theorem lasting_selftestFail (p : Nat) : lasting (selftestFail p s) = lasting s := by simp [selftestFail]
@[simp] theorem lasting_memFault (i d : Nat) : lasting (memFault i d s) = lasting s := by simp [memFault]

@[simp] theorem lasting_pairFault (i : Nat) : lasting (pairFault i s) = lasting s := by
  unfold pairFault
  split <;> simp

@[simp] theorem lasting_faultAct (b : Blk) (i d : Nat) : lasting (faultAct b i d s) = lasting s := by
  unfold faultAct
  split <;> simp

@[simp] theorem lasting_faultDetect (b : Blk) (i d : Nat) : lasting (faultDetect b i d s) = lasting s := by simp [faultDetect]

@[simp] theorem lasting_clearAct (b : Blk) (i : Nat) : lasting (clearAct b i s) = lasting s := by
  unfold clearAct
  split <;> simp

@[simp] theorem lasting_redetect (b : Blk) (i : Nat) : lasting (redetect b i s) = lasting s := by simp [redetect]
@[simp] theorem lasting_faultClear1 (m : Master) (b : Blk) (i : Nat) : lasting (faultClear1 m b s i) = lasting s := by simp [faultClear1]
@[simp] theorem lasting_faultClear (m : Master) (b : Blk) (v : Word) : lasting (faultClear m b v s) = lasting s := by simp [faultClear]

@[simp] theorem lasting_detectAgain (e : Blk × Nat) : lasting (detectAgain s e) = lasting s := by
  unfold detectAgain
  split
  · rfl
  · split <;> simp

@[simp] theorem lasting_detectDue : lasting (detectDue s) = lasting s := by simp [detectDue]

@[simp] theorem lasting_logStore : lasting (logStore s) = lasting s := by
  unfold logStore
  split
  · simp
  · split <;> simp

@[simp] theorem lasting_logClear : lasting (logClear s) = lasting s := by rfl
@[simp] theorem lasting_monitorAct : lasting (monitorAct s) = lasting s := by simp [monitorAct]
@[simp] theorem lasting_clkLost (c : ClkSrc) : lasting (clkLost c s) = lasting s := by simp [clkLost]

/-! ### Ticks, frames, windows, reset and the clocks -/

@[simp] theorem lasting_realign (f : Nat → Nat) : lasting (realign f s) = lasting s := by rfl
@[simp] theorem lasting_frameFaults : lasting (frameFaults s) = lasting s := by simp [frameFaults]
@[simp] theorem lasting_alarmBoundary : lasting (alarmBoundary s) = lasting s := by simp [alarmBoundary]
@[simp] theorem lasting_startBoundary : lasting (startBoundary s) = lasting s := by simp [startBoundary]
@[simp] theorem lasting_boundaryOpen : lasting (boundaryOpen s) = lasting s := by simp [boundaryOpen]
@[simp] theorem lasting_tickCount_fst : (lasting (tickCount s)).1 = (lasting s).1 := by rfl
@[simp] theorem lasting_eventTick_fst : (lasting (eventTick s)).1 = (lasting s).1 := by simp [eventTick, apply_ite Prod.fst]
@[simp] theorem lasting_frameBody (inp : FrameIn) : lasting (frameBody inp s) = lasting s := by simp [frameBody]
@[simp] theorem lasting_frameBoundary (inp : FrameIn) : lasting (frameBoundary inp s) = lasting s := by simp [frameBoundary]
@[simp] theorem lasting_closeWindows : lasting (closeWindows s) = lasting s := by simp [closeWindows]
@[simp] theorem lasting_windowBoundary : lasting (windowBoundary s) = lasting s := by simp [windowBoundary]
@[simp] theorem lasting_tickLoRead (m : Master) : lasting (tickLoRead m s).1 = lasting s := by rfl
@[simp] theorem lasting_inReset_fst : (lasting (inReset s)).1 = (lasting s).1 := by rfl
@[simp] theorem lasting_resetAssert_fst : (lasting (resetAssert s)).1 = (lasting s).1 := by rfl
@[simp] theorem lasting_resetRelease_fst (bootSel : Nat) : (lasting (resetRelease bootSel s)).1 = (lasting s).1 := by
  unfold resetRelease
  split <;> rfl


@[simp] theorem lasting_pllLock : lasting (pllLock s) = lasting s := by
  unfold pllLock
  split <;> rfl

@[simp] theorem lasting_undervoltage_fst (vddio : Bool) : (lasting (undervoltage vddio s)).1 = (lasting s).1 := by rfl
@[simp] theorem lasting_supplyRestored_fst : (lasting (supplyRestored s)).1 = (lasting s).1 := by
  unfold supplyRestored
  split <;> rfl

@[simp] theorem lasting_counterRanOn : lasting (counterRanOn s) = lasting s := by rfl
@[simp] theorem lasting_clockReturn_fst (c : ClkSrc) : (lasting (clockReturn c s)).1 = (lasting s).1 := by
  unfold clockReturn
  dsimp only
  split
  · rfl
  · split
    · rfl
    · split <;> rfl


/-! ### The internal bus and the host ports -/

@[simp] theorem lasting_lowRead (a : Nat) : lasting (lowRead a s).1 = lasting s := by
  unfold lowRead
  split <;> simp

@[simp] theorem lasting_lowWrite (m : Master) (a : Nat) (v : Word) : lasting (lowWrite m a v s).1 = lasting s := by
  unfold lowWrite
  split
  · rfl
  · split <;> rfl
  · rfl

theorem lasting_sysRegRead (m : Master) (off : Nat) : ∀ r ∈ sysRegRead m off s, lasting r.1 = lasting s := by
  unfold sysRegRead
  split <;> simp

theorem lasting_sysRegWrite (m : Master) (off : Nat) (v : Word) : ∀ r ∈ sysRegWrite m off v s, lasting r = lasting s := by
  unfold sysRegWrite
  split_ifs <;> simp

theorem lasting_hpRegRead (m : Master) (off : Nat) : ∀ r ∈ hpRegRead m off s, lasting r.1 = lasting s := by
  unfold hpRegRead
  split_ifs <;> simp

@[simp] theorem lasting_waitMaxRead (t : Nat) : lasting (waitMaxRead t s).1 = lasting s := by
  unfold waitMaxRead
  split <;> simp

theorem lasting_bmxRegRead (off : Nat) : ∀ r ∈ bmxRegRead off s, lasting r.1 = lasting s := by
  unfold bmxRegRead
  split_ifs <;> simp

theorem lasting_still (o : Option Word) : ∀ r ∈ still s o, lasting r.1 = lasting s := by simp [still]

theorem lasting_blkLiveRead (m : Master) (b : Blk) (off : Nat) : ∀ r ∈ blkLiveRead m b off s, lasting r.1 = lasting s := by
  cases b with
  | sys => exact lasting_sysRegRead s m off
  | hp => exact lasting_hpRegRead s m off
  | bmx => exact lasting_bmxRegRead s off
  | chk => exact lasting_chkRegRead s off
  | twc => exact lasting_twcRegRead s off
  | flc => exact lasting_flcRegRead s off
  | mac n => exact lasting_macRegRead s m n off
  | ste => exact lasting_steRegRead s m off
  | ptu => exact lasting_ptuRegRead s m off
  | ldg => exact lasting_ldgRegRead s m off
  | _ => exact lasting_still s _

theorem lasting_blkLiveWrite (m : Master) (b : Blk) (off : Nat) (v : Word) : ∀ r ∈ blkLiveWrite m b off v s, lasting r.1 = lasting s := by
  unfold blkLiveWrite
  extract_lets ok
  have hok (o : Option State) (h : ∀ t ∈ o, lasting t = lasting s) : ∀ r ∈ ok o, lasting r.1 = lasting s := by
    intro r hr
    obtain ⟨t, ht, rfl⟩ := Option.map_eq_some_iff.mp hr
    exact h t ht
  split
  · simp
  · cases b with
    | sys => exact hok _ (lasting_sysRegWrite s m off v)
    | img | rsu | hp | ldg | dly =>
      dsimp only
      split <;> simp
    | dma => exact lasting_dmaRegWrite s off v
    | chk => exact lasting_chkRegWrite s m off v
    | twc => exact lasting_twcRegWrite s off v
    | flc => exact lasting_flcRegWrite s off v
    | mac n => exact lasting_macRegWrite s n off v
    | ste => exact lasting_steRegWrite s m off v
    | ptu => exact lasting_ptuRegWrite s m off v
    | mxe => exact hok _ (lasting_mxeRegWrite s m off v)
    | apt n => exact lasting_aptRegWrite s n off v
    | pwr => exact lasting_pwrRegWrite s off v
    | lsp => exact hok _ (lasting_lspRegWrite s off v)
    | pair => exact lasting_pairRegWrite s off v
    | memc => exact lasting_memcRegWrite s off v
    | cell p => exact lasting_cellRegWrite s m p off v
    | bmx => simp

@[simp] theorem lasting_regRead (m : Master) (b : Blk) (off : Nat) : lasting (regRead m b off s).1 = lasting s := by
  unfold regRead
  split_ifs
  · rfl
  split
  · rfl
  split
  next x hx => exact lasting_blkLiveRead s m b off x hx
  next => rfl

@[simp] theorem lasting_plainWrite (b : Blk) (off : Nat) (r : RegRow) (v : Word) : lasting (plainWrite b off r v s) = lasting s := by
  unfold plainWrite
  split <;> simp

@[simp] theorem lasting_regWrite (m : Master) (b : Blk) (off : Nat) (v : Word) : lasting (regWrite m b off v s).1 = lasting s := by
  unfold regWrite
  split
  · rfl
  split
  · rfl
  split
  next x hx => exact lasting_blkLiveWrite s m b off v x hx
  next => simp
@[simp] theorem memWord_fst (r : State × List Byte × Code) : (memWord r).1 = r.1 := by rfl

@[simp] theorem lasting_targetRead (m : Master) (t : BusTarget) (a : Nat) : lasting (targetRead m t a s).1 = lasting s := by
  cases t with
  | regs | matrix =>
    unfold targetRead
    dsimp only
    split <;> simp
  | _ => simp [targetRead, memWord]

@[simp] theorem lasting_targetWrite (m : Master) (t : BusTarget) (a : Nat) (v : Word) : lasting (targetWrite m t a v s).1 = lasting s := by
  cases t with
  | regs =>
    unfold targetWrite
    dsimp only
    split <;> simp
  | _ => simp [targetWrite]

@[simp] theorem lasting_busRead (m : Master) (a : Nat) : lasting (busRead m a s).1 = lasting s := by
  unfold busRead
  split
  · rfl
  · split <;> simp

@[simp] theorem lasting_busWrite (m : Master) (a : Nat) (v : Word) : lasting (busWrite m a v s).1 = lasting s := by
  unfold busWrite
  split
  · rfl
  · split <;> simp

@[simp] theorem lasting_busWrites (m : Master) (a : Nat) (l : List Word) : lasting (busWrites m a l s).1 = lasting s := by
  induction l generalizing a s with
  | nil => rfl
  | cons v t ih => simp [busWrites, ih]

@[simp] theorem lasting_busReads (m : Master) (a n : Nat) : lasting (busReads m a n s).1 = lasting s := by
  induction n generalizing a s with
  | zero => rfl
  | succ n ih => simp [busReads, ih]

@[simp] theorem lasting_endFrame (h : HostId) (c : Code) (fail : Option Nat) (arms : Bool) :
    lasting (endFrame h c fail arms s) = lasting s := by
  simp [endFrame]

@[simp] theorem lasting_frameErr (h : HostId) : lasting (frameErr h s) = lasting s := by simp [frameErr]
@[simp] theorem lasting_writeFrame (h : HostId) (a : Nat) (ws : List Word) : lasting (writeFrame h a ws s).1 = lasting s := by simp [writeFrame]
@[simp] theorem lasting_readFrame (h : HostId) (a n : Nat) : lasting (readFrame h a n s).1 = lasting s := by simp [readFrame]
@[simp] theorem lasting_plainFrame (h : HostId) (arms : Bool) : lasting (plainFrame h arms s) = lasting s := by simp [plainFrame]
@[simp] theorem lasting_setQuad (h : HostId) (q : Bool) : lasting (setQuad h q s) = lasting s := by simp [setQuad]
@[simp] theorem lasting_portReset (h : HostId) : lasting (portReset h s) = lasting s := by simp [portReset]
@[simp] theorem lasting_clearCopies (k : Nat) : lasting (clearCopies k s) = lasting s := by rfl
@[simp] theorem lasting_portResetApply (h : HostId) : lasting (portResetApply h s) = lasting s := by simp [portResetApply]
@[simp] theorem lasting_badFrame (h : HostId) : lasting (badFrame h s) = lasting s := by simp [badFrame]

@[simp] theorem lasting_earlyRise (h : HostId) (ph : CsPhase) : lasting (earlyRise h ph s) = lasting s := by
  unfold earlyRise
  split <;> simp

@[simp] theorem lasting_timeoutAct (m : Master) (a : Nat) : lasting (timeoutAct m a s) = lasting s := by
  cases m with
  | dma | chk | dly =>
    unfold timeoutAct
    dsimp only
    split <;> simp
  | _ => simp [timeoutAct]

@[simp] theorem lasting_busTimeout (m : Master) (a : Nat) : lasting (busTimeout m a s) = lasting s := by simp [busTimeout]

/-! ### The transfers of the DMA engine and of the check units -/

@[simp] theorem lasting_wordsRead (m : Master) (a n : Nat) : lasting (wordsRead m a n s).1 = lasting s := by
  induction n generalizing a s with
  | zero => rfl
  | succ n ih =>
    unfold wordsRead
    dsimp only
    split <;> simp [ih]

@[simp] theorem lasting_wordsWrite (m : Master) (a n : Nat) (l : List Byte) : lasting (wordsWrite m a n l s).1 = lasting s := by
  induction n generalizing a l s with
  | zero => rfl
  | succ n ih =>
    unfold wordsWrite
    dsimp only
    split <;> simp [ih]

@[simp] theorem lasting_spanRead (m : Master) (a len : Nat) : lasting (spanRead m a len s).1 = lasting s := by
  unfold spanRead
  extract_lets one
  have hone (t : BusTarget) {k : State → State × List Byte × Code} (hk : lasting (k s).1 = lasting s) : lasting (one t k).1 = lasting s := by
    unfold one
    split
    · rfl
    · exact hk
  split
  · exact hone _ (lasting_carafeRead s a len)
  · exact hone _ (lasting_dramRead s a len)
  · simp

@[simp] theorem lasting_spanWrite (m : Master) (a : Nat) (l : List Byte) : lasting (spanWrite m a l s).1 = lasting s := by
  unfold spanWrite
  extract_lets one
  have hone (t : BusTarget) {k : State → State × Code} (hk : lasting (k s).1 = lasting s) : lasting (one t k).1 = lasting s := by
    unfold one
    split
    · rfl
    · dsimp only
      split <;> exact hk
  split
  · exact hone _ (lasting_carafeWrite s a l)
  · exact hone _ (lasting_dramWrite s a l)
  · simp

@[simp] theorem lasting_dmaProgErr (n p : Nat) : lasting (dmaProgErr n p s) = lasting s := by simp [dmaProgErr]

@[simp] theorem lasting_descriptorFetch : lasting (descriptorFetch s) = lasting s := by
  unfold descriptorFetch
  dsimp only
  repeat' split
  all_goals simp

@[simp] theorem lasting_gatherRead (d : List Nat) (idx : List Nat) : lasting (gatherRead d idx s).1 = lasting s := by
  induction idx generalizing s with
  | nil => rfl
  | cons i t ih =>
    unfold gatherRead
    dsimp only
    split
    · rfl
    · split <;> simp [ih]

@[simp] theorem lasting_burstRead (d : List Nat) (done : Nat) : lasting (burstRead d done s).1 = lasting s := by
  unfold burstRead
  dsimp only
  repeat' split
  all_goals simp

@[simp] theorem lasting_burstWrite (n : Nat) (d : List Nat) (l : List Byte) (k : Nat) (bad : Bool) :
    lasting (burstWrite n d l k bad s) = lasting s := by
  unfold burstWrite
  dsimp only
  split <;> simp

@[simp] theorem lasting_dmaBurst : lasting (dmaBurst s) = lasting s := by
  unfold dmaBurst
  dsimp only
  repeat' split
  all_goals simp

@[simp] theorem lasting_scanReads (alg n a len run : Nat) : lasting (scanReads alg n a len run s).1 = lasting s := by
  induction n generalizing a len run s with
  | zero => rfl
  | succ n ih =>
    unfold scanReads
    dsimp only
    split
    · rfl
    · split <;> simp [ih]

@[simp] theorem lasting_scanOf (u len : Nat) : lasting (scanOf u len s).1 = lasting s := by simp [scanOf]
@[simp] theorem lasting_scanBusErr (u run a : Nat) (e : Nat × Code) : lasting (scanBusErr u run a e s) = lasting s := by simp [scanBusErr]
@[simp] theorem lasting_sweepVerdict (u : Nat) (before : State) : lasting (sweepVerdict u before s) = lasting s := by simp [sweepVerdict]

@[simp] theorem lasting_scanEnd (u : Nat) : lasting (scanEnd u s) = lasting s := by
  unfold scanEnd
  extract_lets r
  have hr : lasting r.1 = lasting s := lasting_scanOf s u _
  clear_value r
  split <;> simp [hr]

@[simp] theorem lasting_stopEnd (u done : Nat) : lasting (stopEnd u done s) = lasting s := by
  unfold stopEnd
  dsimp only
  repeat' split
  all_goals simp

/-! ### The test port -/

@[simp] theorem lasting_jtagLoad (f : Jtag → Jtag) : lasting (jtagLoad f s) = lasting s := by rfl

end
end Sys2Proof.Machine
end

section
/-! SUPPORT. Every command completes and keeps what lasts, so a step takes one command from the queue and no fuse changes (R60). -/
namespace Sys2Proof.Machine
open Sys2Proof

/-- A command answers a next state, neither a fault nor a refusal, with the same queue and the same fuses. -/
theorem exec_next (c : Instr) (s : State) : ∃ t, exec c s = .next t ∧ (lasting t).1 = (lasting s).1 := by
  cases c with
  | halt m p on =>
    refine ⟨_, rfl, ?_⟩
    cases on <;> simp
  | macConfigWrite m n off v =>
    simp only [exec, execMacConfigWrite]
    split_ifs
    · exact ⟨_, rfl, by simp⟩
    · exact ⟨_, rfl, by simp⟩
    · exact ⟨s, rfl, rfl⟩
  | pairCfgWrite m off v =>
    refine ⟨_, rfl, congrArg Prod.fst (lasting_cmdC s m _ _ fun t => ?_)⟩
    split
    · cases h : pairRegWrite off.val v t with
      | none => rfl
      | some r => exact lasting_pairRegWrite t off.val v r h
    · rfl
  | flcFifoAccess m w =>
    refine ⟨_, rfl, ?_⟩
    cases w <;> simp
  | _ => exact ⟨_, rfl, by simp⟩

/-- Settles O57: an empty queue idles, and of a queue with a command in front `exec_next` keeps the rest and the fuses. -/
theorem stepTakesOneCommand : Obligations.StepTakesOneCommand := by
  intro s
  unfold step
  cases hqueue : s.pending with
  | nil => exact ⟨s, rfl, hqueue, rfl⟩
  | cons c q =>
    obtain ⟨t, hnext, hlasting⟩ := exec_next c { s with pending := q }
    exact ⟨t, hnext, congrArg Prod.fst hlasting, congrArg Prod.snd hlasting⟩

end Sys2Proof.Machine
end

section
/-! SUPPORT. Reset, the supplies and the clocks (R52 to R55, R410, R413, R495). -/
namespace Sys2Proof.Machine
open Sys2Proof

/-! ### The part in reset (R53, R54, R495) -/

theorem ticksRun_of_resetLow {s : State} (h : s.sys.resetN = false) : ticksRun s = false := by simp [ticksRun, h]
theorem ticksRun_of_suppliesBad {s : State} (h : s.sys.suppliesGood = false) : ticksRun s = false := by simp [ticksRun, h]

theorem exec_eventTick_standing {s : State} (h : ticksRun s = false) : exec .eventTick s = .next s :=
  congrArg Host.Outcome.next (eventTick_of_standing h)

theorem resetAssert_spec (s : State) :
    ∃ t, exec .resetNAssert s = .next t ∧ InReset s t ∧ t.sys.resetN = false ∧ t.sys.suppliesGood = s.sys.suppliesGood ∧
      t.sys.snuffCause = s.sys.snuffCause ∧ t.img.bootSrc = s.img.bootSrc ∧ exec .eventTick t = .next t := by
  have hstand : ticksRun (resetAssert s) = false := ticksRun_of_resetLow rfl
  exact ⟨resetAssert s, rfl, rfl, rfl, rfl, rfl, rfl, exec_eventTick_standing hstand⟩

theorem undervoltage_spec (s : State) (vddio : Bool) :
    ∃ t, exec (.supplyUndervoltage vddio) s = .next t ∧ InReset s t ∧ t.sys.suppliesGood = false ∧ t.sys.resetN = s.sys.resetN ∧
      t.sys.snuffCause = (if vddio then 0 else s.sys.snuffCause) ∧ exec .eventTick t = .next t := by
  have hstand : ticksRun (undervoltage vddio s) = false := ticksRun_of_suppliesBad rfl
  exact ⟨undervoltage vddio s, rfl, rfl, rfl, rfl, rfl, exec_eventTick_standing hstand⟩

theorem resetRelease_low {s : State} (h : s.sys.resetN = false) (b : Nat) :
    resetRelease b s = (inReset (s.updSys fun y => { y with resetN := true })).updImg fun i => { i with bootSrc := b } := by
  simp [resetRelease, h]

theorem supplyRestored_bad {s : State} (h : s.sys.suppliesGood = false) :
    supplyRestored s = inReset (s.updSys fun y => { y with suppliesGood := true }) := by
  simp [supplyRestored, h]

theorem resetRelease_spec {s : State} (h : s.sys.resetN = false) (b : Fin 4) :
    ∃ t, exec (.resetNRelease b) s = .next t ∧ (InReset s t ∧ t.sys.resetN = true ∧ t.img.bootSrc = b.val ∧ t.img.boot = .pllWait ∧
      t.sys.snuffCause = s.sys.snuffCause ∧ t.sys.suppliesGood = s.sys.suppliesGood) := by
  refine ⟨resetRelease b.val s, rfl, ?_⟩
  rw [resetRelease_low h]
  exact ⟨rfl, rfl, rfl, rfl, rfl, rfl⟩

theorem supplyRestored_spec {s : State} (h : s.sys.suppliesGood = false) :
    ∃ t, exec .supplyRestored s = .next t ∧ (InReset s t ∧ t.sys.suppliesGood = true ∧ t.img.boot = .pllWait ∧
      t.img.bootSrc = s.img.bootSrc ∧ t.sys.snuffCause = s.sys.snuffCause) := by
  refine ⟨supplyRestored s, rfl, ?_⟩
  rw [supplyRestored_bad h]
  exact ⟨rfl, rfl, rfl, rfl, rfl⟩

/-! ### A lost clock (R22, R410) -/

/-- A fault of SYS already noted stays noted while a modulator is switched off, and DRIVE_EN stays as it is. -/
theorem modOff_keeps (n : Nat) {s : State} {i : Nat} (hfault : s.faultBit .sys i = true) :
    (modOff n s).faultBit .sys i = true ∧ (modOff n s).pwr.driveEn = s.pwr.driveEn := by
  have hevt (j : Nat) (t : State) (h : t.faultBit .sys i = true) : (evt .pwr j t).faultBit .sys i = true := rbit_orReg _ _ h
  unfold modOff
  extract_lets was t u v
  have hu : u.faultBit .sys i = true ∧ u.pwr.driveEn = s.pwr.driveEn := ⟨hfault, rfl⟩
  have hv : v.faultBit .sys i = true ∧ v.pwr.driveEn = s.pwr.driveEn := by
    unfold v
    split
    · exact ⟨hevt 4 u hu.1, hu.2⟩
    · exact hu
  split
  · exact ⟨hevt 0 v hv.1, hv.2⟩
  · exact hv

theorem driveFall_keeps {s : State} {i : Nat} (hfault : s.faultBit .sys i = true) :
    (driveFall s).faultBit .sys i = true ∧ (driveFall s).pwr.driveEn = false := by
  unfold driveFall
  extract_lets pwr t
  have ht : t.faultBit .sys i = true ∧ t.pwr.driveEn = false := ⟨hfault, rfl⟩
  clear_value t
  refine (upto 32).foldlRecOn (motive := fun u => State.faultBit u .sys i = true ∧ u.pwr.driveEn = false) _ ht fun u hu n _ => ?_
  split
  · obtain ⟨hoff, hdrive⟩ := modOff_keeps n hu.1
    exact ⟨hoff, hdrive.trans hu.2⟩
  · exact hu

/-- The first cause since VALID was cleared stands, and nothing else of SYS changes (R413). -/
theorem snuffRecord_sys (c : SnuffBy) (s : State) :
    (snuffRecord c s).sys = { s.sys with snuffCause := if bit s.sys.snuffCause 31 then s.sys.snuffCause else c.cause } := by
  unfold snuffRecord State.updSys
  dsimp only
  split <;> rfl

/-- The monitor's own cause has VALID set. -/
theorem monitorCause_valid : bit (SnuffBy.fault .sys 2).cause 31 = true := by decide

/-- The step of the WICK driver to a state leaves SYS, PWR and every fault noted. -/
theorem setWick_keeps (w : WickSt) {s : State} {i : Nat} (hfault : s.faultBit .sys i = true) :
    (setWick w s).pair.wick = w ∧ (setWick w s).sys = s.sys ∧ (setWick w s).pwr = s.pwr ∧ (setWick w s).faultBit .sys i = true := by
  unfold setWick
  split
  next hwick => exact ⟨hwick, rfl, rfl, hfault⟩
  next => exact ⟨rfl, rfl, rfl, rbit_orReg _ _ (s := s.updPair _) hfault⟩

theorem monitorAct_eq (s : State) :
    monitorAct s = setWick .disarmed (driveFall (snuffRecord (.fault .sys 2) (s.orReg (Blk.sys.base + 0x80) (bm 2)))) := by
  unfold monitorAct
  extract_lets t u v
  change (if v.pair.wick == .disarmed then v else setWick .disarmed v) = setWick .disarmed v
  split
  next hwick => rw [setWick, if_pos (eq_of_beq hwick)]
  next => rfl

theorem monitorAct_spec (s : State) :
    (monitorAct s).faultBit .sys 2 = true ∧ bit (monitorAct s).sys.snuffCause 31 = true ∧ (monitorAct s).pwr.driveEn = false ∧
      (monitorAct s).pair.wick = .disarmed ∧ ∃ w, (monitorAct s).sys = { s.sys with snuffCause := w } := by
  have hnoted : (s.orReg (Blk.sys.base + 0x80) (bm 2)).faultBit .sys 2 = true := by
    rw [State.faultBit, State.rbit, reg_orReg, if_pos rfl, bit_or, bit_bm_self (by decide), Bool.or_true]
  have hrecorded := snuffRecord_sys (.fault .sys 2) (s.orReg (Blk.sys.base + 0x80) (bm 2))
  rw [monitorAct_eq]
  generalize hu : snuffRecord (.fault .sys 2) (s.orReg (Blk.sys.base + 0x80) (bm 2)) = u at *
  have hfault : u.faultBit .sys 2 = true := by
    rw [← hu]
    exact hnoted
  obtain ⟨hfall, hdrive⟩ := driveFall_keeps hfault
  obtain ⟨hwick, hsys, hpwr, hkept⟩ := setWick_keeps .disarmed hfall
  rw [sys_eq_of_modeView (modeView_driveFall u), hrecorded] at hsys
  refine ⟨hkept, ?_, by rw [hpwr, hdrive], hwick, _, hsys⟩
  rw [hsys]
  dsimp only
  split
  · assumption
  · exact monitorCause_valid

/-- SYS with a clock lost. -/
def noteLost (c : ClkSrc) (y : Sys) : Sys := { y with clockLost := if y.clockLost.contains c then y.clockLost else y.clockLost ++ [c] }

theorem mem_noteLost (c : ClkSrc) (y : Sys) : c ∈ (noteLost c y).clockLost := by
  unfold noteLost
  dsimp only
  split
  · exact List.contains_iff_mem.mp (by assumption)
  · simp

theorem ticksRun_of_lost {c : ClkSrc} {s : State} (hc : c = .refclk ∨ c = .sysPll ∨ c = .timePll) (h : c ∈ s.sys.clockLost) :
    ticksRun s = false := by
  have hany : (s.sys.clockLost.any fun c => c == .refclk || c == .sysPll || c == .timePll) = true :=
    List.any_eq_true.mpr ⟨c, h, by rcases hc with rfl | rfl | rfl <;> rfl⟩
  simp [ticksRun, hany]

theorem clkLost_spec {c : ClkSrc} {s : State} (hc : c = .refclk ∨ c = .sysPll ∨ c = .timePll) (hreset : s.sys.resetN = true)
    (hsupply : s.sys.suppliesGood = true) :
    ∃ t, exec (.clkLost c) s = .next t ∧ ticksRun t = false ∧ t.faultBit .sys 2 = true ∧ bit t.sys.snuffCause 31 = true ∧
      t.pwr.driveEn = false ∧ t.pair.wick = .disarmed ∧ t.sys.tick = s.sys.tick ∧ t.sys.run = s.sys.run := by
  refine ⟨clkLost c s, rfl, ?_⟩
  obtain ⟨hfault, hcause, hdrive, hwick, w, hsys⟩ := monitorAct_spec (s.updSys (noteLost c))
  have hclkLost : clkLost c s = (monitorAct (s.updSys (noteLost c))).updSys fun y =>
      { y with monitorDue := true, redetect := if y.redetect.contains (.sys, 2) then y.redetect else y.redetect ++ [(.sys, 2)] } := by
    unfold clkLost
    extract_lets t
    have ht : (!t.sys.resetN || !t.sys.suppliesGood) = false := by
      simp [t, State.updSys, hreset, hsupply]
    rw [ht]
    rfl
  rw [hclkLost]
  generalize monitorAct (s.updSys (noteLost c)) = u at *
  have htick : u.sys.tick = s.sys.tick := by rw [hsys]; rfl
  have hkeptRun : u.sys.run = s.sys.run := by rw [hsys]; rfl
  have hlost : c ∈ u.sys.clockLost := by
    rw [hsys]
    exact mem_noteLost c s.sys
  exact ⟨ticksRun_of_lost hc hlost, hfault, hcause, hdrive, hwick, htick, hkeptRun⟩

/-! ### A clock that returns (R266, R410) -/

theorem clockReturn_other {c : ClkSrc} {s : State} (h : c ∉ s.sys.clockLost) : clockReturn c s = s := by
  simp [clockReturn, h]

theorem lasting_aligned (s : State) : (lasting s).2.1 = s.sys.aligned := rfl
theorem lasting_tickLoss (s : State) : (lasting s).2.2 = s.sys.tickLoss := rfl

/-- What lasts of ALIGNED once it is 0 and the counter has stood still: it stays 0. -/
abbrev Unaligned (s : State) : Prop := (lasting s).2 = (false, true)

theorem unaligned_of_lasting {s t : State} (h : lasting t = lasting s ∨ lasting t = renumbered (lasting s)) (hs : Unaligned s) :
    Unaligned t := by
  rcases h with h | h
  · rw [Unaligned, h]
    exact hs
  · rw [Unaligned, h, renumbered, hs]
    rfl

theorem unaligned_rsuEvaluate (q : List Nat) {s : State} (h : Unaligned s) : Unaligned (rsuEvaluate realign q s) := by
  have hrefs : lasting (refList.foldl (fun s c => evalRef q c s) s) = lasting s := by simp
  have hselect := lasting_rsuSelect (refList.foldl (fun s c => evalRef q c s) s) (retime := realign) (by simp)
  rw [hrefs] at hselect
  exact unaligned_of_lasting hselect h

theorem unaligned_tickCount {s : State} (h : s.sys.tickLoss = true) : Unaligned (tickCount s) := by
  have haligned : (tickCount s).sys.aligned = (s.sys.aligned && !s.sys.tickLoss) := rfl
  rw [h, Bool.not_true, Bool.and_false] at haligned
  exact Prod.ext haligned h

/-- The first tick that runs after the counter stood still clears ALIGNED, and what follows in it does not set it again (R410). -/
theorem eventTick_unaligned {s : State} (hrun : ticksRun s = true) (hloss : s.sys.tickLoss = true) : (eventTick s).sys.aligned = false := by
  have hpins : (settlePins s).sys.tickLoss = true := by rw [← lasting_tickLoss, lasting_settlePins, lasting_tickLoss, hloss]
  have hcount := unaligned_tickCount hpins
  have hdetections : Unaligned (masterCopy (tickDetections s)) := by
    rw [Unaligned, lasting_masterCopy, tickDetections, lasting_finishRelease, lasting_detectDue, lasting_frameFaults]
    exact hcount
  have hrefs := unaligned_rsuEvaluate (qualifiedRefs s) hdetections
  have hrest : Unaligned (eventTick s) := by
    rw [Unaligned, eventTick_of_ticksRun hrun, tickRest, lasting_wickSettle, lasting_settle, lasting_partialStep, lasting_portSetups,
      lasting_pwrTick, lasting_stepOuts, lasting_macRxTick, lasting_boundaryOpen]
    exact hrefs
  rw [← lasting_aligned, hrest]

/-- The counter only moves on, whatever the free value. -/
theorem counter_le_counterRanOn (s : State) : s.ptu.counter ≤ (counterRanOn s).ptu.counter :=
  (Nat.le_add_right _ _).trans (Nat.le_add_right _ _)

theorem clockReturn_spec {c : ClkSrc} {s : State} (h : c ∈ s.sys.clockLost) :
    ∃ t, exec (.clockReturn c) s = .next t ∧
      t = { s with sys := t.sys, ptu := { s.ptu with counter := t.ptu.counter }, freeCount := t.freeCount } ∧
      t.sys.tick = s.sys.tick ∧ c ∉ t.sys.clockLost ∧ s.ptu.counter ≤ t.ptu.counter ∧ (c ≠ .sysPll → t.ptu.counter = s.ptu.counter) ∧
      (c = .refclk → s.sys.resetN = true → s.sys.suppliesGood = true → t.sys.aligned = s.sys.aligned ∧
        (ticksRun t = true → ∃ u, exec .eventTick t = .next u ∧ u.sys.aligned = false)) := by
  have hback : c ∉ s.sys.clockLost.filter (· != c) := by simp
  refine ⟨clockReturn c s, rfl, ?_⟩
  unfold clockReturn
  rw [if_neg (by simpa using h)]
  dsimp only
  split
  next hstood =>
    exact ⟨rfl, rfl, hback, Nat.le_refl _, fun _ => rfl, fun _ _ _ => ⟨rfl, fun hrun => ⟨_, rfl, eventTick_unaligned hrun rfl⟩⟩⟩
  next hran =>
    have hrefclk (hc : c = .refclk) (hreset : s.sys.resetN = true) (hsupply : s.sys.suppliesGood = true) : False :=
      hran (by simp [State.updSys, hc, hreset, hsupply])
    split
    next hpll =>
      refine ⟨rfl, rfl, hback, counter_le_counterRanOn _, fun hc => ?_, fun hc hreset hsupply => (hrefclk hc hreset hsupply).elim⟩
      simp [hc] at hpll
    next => exact ⟨rfl, rfl, hback, Nat.le_refl _, fun _ => rfl, fun hc hreset hsupply => (hrefclk hc hreset hsupply).elim⟩

/-! ### SNUFF_CAUSE (R413) -/

theorem snuffCauseClear_spec {m : Master} {s : State} (h : Reaches m s) :
    ∃ t, exec (.snuffCauseClear m) s = .next t ∧ t.resp m = ⟨.ok, []⟩ ∧
      t = { s with sys := { s.sys with snuffCause := 0 }, bus := t.bus } := by
  have hvalid : bit (bm 31) 31 = true := bit_bm_self (by decide)
  refine ⟨_, rfl, ?_⟩
  rw [cmd_ok h (.inl rfl), snuffCauseWrite, if_pos hvalid]
  exact ⟨resp_respond_same .., rfl⟩

/-- Settles O12: a reset is the reset state with what is not the reset's; the monitor's act is followed through the modulators; and `lasting`
follows ALIGNED through the tick after a clock's return. -/
theorem resetSuppliesAndClocks : Obligations.ResetSuppliesAndClocks := by
  refine ⟨fun s => ⟨resetAssert_spec s, undervoltage_spec s, fun h b => ?_, resetRelease_spec, fun h => ?_, supplyRestored_spec⟩,
    fun s => ⟨fun c => clkLost_spec, fun c => clockReturn_spec, fun c h => ?_, fun m => snuffCauseClear_spec⟩⟩
  · exact congrArg Host.Outcome.next (if_pos h)
  · exact congrArg Host.Outcome.next (if_pos h)
  · exact congrArg Host.Outcome.next (clockReturn_other h)

end Sys2Proof.Machine
end

section
/-! SUPPORT. The commands of IMG.CTRL (R58, R69, R74, R79, R81, R88): what a written command leaves to its command, which commands are
refused, and what an admitted one starts. -/
namespace Sys2Proof.Machine
open Sys2Proof

/-! ### The bytes of a memory are its only source -/

theorem bytes_congr {s t : State} (h : t.mem = s.mem) (a n : Nat) : t.bytes a n = s.bytes a n := by
  induction n generalizing a with
  | zero => rfl
  | succ n ih => rw [State.bytes, State.bytes, ih, State.byte, State.byte, h]

theorem headerAt_congr {s t : State} (h : t.mem = s.mem) (a : Nat) : headerAt t a = headerAt s a := by
  simp only [headerAt, State.le, State.byte, bytes_congr h, h]

/-! ### A write of IMG.CTRL -/

/-- IMG.CTRL holds the word of a command. -/
def commandWritten (c : Nat) (allow : Bool) (s : State) : State := s.setReg 0x40010000 (imgWord c allow &&& 0x107)

theorem imgWord_fields {c : Nat} (hc : c < 8) (allow : Bool) : bits (imgWord c allow) 0 3 = c ∧ bit (imgWord c allow) 8 = allow := by
  revert allow
  interval_cases c <;> decide

theorem imgCtrlWrite_command {c : Nat} (hc : c < 8) (allow : Bool) (s : State) :
    imgCtrlWrite (imgWord c allow) s = imgCommand c allow (commandWritten c allow s) := by
  obtain ⟨hcode, hallow⟩ := imgWord_fields hc allow
  rw [imgCtrlWrite, hcode, hallow]
  rfl

theorem reg_commandWritten {a : Nat} (ha : a ≠ 0x40010000) (c : Nat) (allow : Bool) (s : State) :
    (commandWritten c allow s).reg a = s.reg a := reg_setReg_ne s _ ha

section
variable (c : Nat) (allow : Bool) (s : State)

@[simp] theorem commandWritten_sys : (commandWritten c allow s).sys = s.sys := rfl
@[simp] theorem commandWritten_img : (commandWritten c allow s).img = s.img := rfl
@[simp] theorem imgBusy_commandWritten : imgBusy (commandWritten c allow s) = imgBusy s := rfl

@[simp] theorem imgSrc_commandWritten : imgSrc (commandWritten c allow s) = imgSrc s := by
  have hlow := reg_commandWritten (a := 0x40010004) (by decide) c allow s
  have hhigh := reg_commandWritten (a := 0x40010008) (by decide) c allow s
  simp only [imgSrc, State.fld, hlow, hhigh]

@[simp] theorem headerAt_commandWritten (a : Nat) : headerAt (commandWritten c allow s) a = headerAt s a := headerAt_congr rfl a

@[simp] theorem storeBarred_commandWritten : storeBarred (commandWritten c allow s) = storeBarred s := by
  have hfaults := reg_commandWritten (a := Blk.img.base + 0x80) (by decide) c allow s
  simp only [storeBarred, State.faultBit, State.rbit, hfaults]
  rfl

@[simp] theorem regionMigrates_commandWritten : regionMigrates (commandWritten c allow s) = regionMigrates s := by
  simp only [regionMigrates, imgSrc_commandWritten, headerAt_commandWritten]
  rfl

@[simp] theorem regionStarts_commandWritten : regionStarts (commandWritten c allow s) = regionStarts s := by
  simp only [regionStarts, imgSrc_commandWritten, headerAt_commandWritten]
  rfl

end

/-! ### Refusals -/

/-- A refused command records its code with record 0 and changes nothing else but IMG.CTRL and the answer. -/
def LoadRefused (s t : State) (e : LoadErr) : Prop :=
  t = { s with regs := t.regs, bus := t.bus, img := { s.img with errCode := e.code, errRecord := 0 } }

theorem loadRefused_imgRefuse (m : Master) (c : Nat) (allow : Bool) (e : LoadErr) (s : State) :
    LoadRefused s (respond m .ok [] (imgRefuse e (commandWritten c allow s))) e := rfl

/-! ### An admitted load or verify -/

/-- An admitted load or verify is in READING with the job as commanded, and nothing but IMG, SYS, the registers and the answer changes. -/
def LoadStarted (s t : State) (p v u : Bool) : Prop :=
  t.img.state = .reading ∧ t.img.progress = 0 ∧ t.img.abortMoot = false ∧
    t.img.job = some { partialImg := p, verify := v, allowUnb := u, src := imgSrc s, prev := s.img.state } ∧
    t = { s with regs := t.regs, bus := t.bus, sys := t.sys, img := t.img }

/-- IMG when a load or verify starts READING. -/
def startedImg (p v u : Bool) (src : Nat) (i : Img) : Img :=
  { i with
    job := some { partialImg := p, verify := v, allowUnb := u, src := src, prev := i.state }
    state := .reading, progress := 0, abortMoot := false, partialImg := if v then i.partialImg else p
    boot := if !p && !v && i.boot == .waitImage then .loader else i.boot }

theorem startJob_eq (p v u : Bool) (s : State) : startJob p v u s = settle (s.updImg (startedImg p v u (imgSrc s))) := rfl

theorem startJob_frame (p v u : Bool) (s : State) :
    startJob p v u s =
      { s with regs := (startJob p v u s).regs, sys := (startJob p v u s).sys, img := startedImg p v u (imgSrc s) s.img } := by
  rw [startJob_eq, settle_frame]
  rfl

theorem loadStarted_startJob (m : Master) (c : Nat) (p v u : Bool) (s : State) :
    LoadStarted s (respond m .ok [] (startJob p v u (commandWritten c u s))) p v u := by
  rw [startJob_frame, imgSrc_commandWritten]
  exact ⟨rfl, rfl, rfl, rfl, rfl⟩

/-! ### LOAD_FULL, LOAD_PARTIAL and VERIFY by what stands against them -/

theorem loadFull_commandWritten (c : Nat) (allow : Bool) (s : State) :
    loadFull allow (commandWritten c allow s) =
      if s.sys.snuffed then imgRefuse .snuffed (commandWritten c allow s)
      else if imgBusy s then imgRefuse .busy (commandWritten c allow s)
      else if s.img.memReady = false ∨ s.sys.run = true ∨ s.sys.phase ≠ .stopped ∨ s.sys.maint = true then
        imgRefuse .notAdmitted (commandWritten c allow s)
      else startJob false false allow (commandWritten c allow s) := by
  simp [loadFull, or_assoc]

theorem loadPartial_commandWritten (c : Nat) (allow : Bool) (s : State) :
    loadPartial allow (commandWritten c allow s) =
      if s.sys.snuffed then imgRefuse .snuffed (commandWritten c allow s)
      else if imgBusy s then imgRefuse .busy (commandWritten c allow s)
      else if s.img.accepted = false ∨ s.img.needFull = true then imgRefuse .noBase (commandWritten c allow s)
      else if s.sys.alarm = true ∨ storeBarred s = true ∨ regionMigrates s = true ∨ regionStarts s = true then
        imgRefuse .notAdmitted (commandWritten c allow s)
      else startJob true false allow (commandWritten c allow s) := by
  simp [loadPartial, noImage, or_assoc]

theorem verify_commandWritten (c : Nat) (allow : Bool) (s : State) :
    verify allow (commandWritten c allow s) =
      if imgBusy s then imgRefuse .busy (commandWritten c allow s)
      else if s.img.memReady = false then imgRefuse .notAdmitted (commandWritten c allow s)
      else startJob false true allow (commandWritten c allow s) := by
  simp [verify]

/-- A command of IMG.CTRL by a master that may write is its work, and the answer OK. -/
theorem imgCtrl_next {m : Master} {s : State} (h : MayWrite m s) {c : Nat} (hc : c < 8) (allow : Bool) :
    cmd m true (imgCtrlWrite (imgWord c allow)) s = respond m .ok [] (imgCommand c allow (commandWritten c allow s)) := by
  rw [mayWrite_cmd _ h, imgCtrlWrite_command hc]

theorem loadFull_spec {m : Master} {s : State} (h : MayWrite m s) (u : Bool) :
    ∃ t, exec (.loadFull m u) s = .next t ∧ t.resp m = ⟨.ok, []⟩ ∧
      (if s.sys.snuffed then LoadRefused s t .snuffed else if imgBusy s then LoadRefused s t .busy
       else if s.img.memReady = false ∨ s.sys.run = true ∨ s.sys.phase ≠ .stopped ∨ s.sys.maint = true then LoadRefused s t .notAdmitted
       else LoadStarted s t false false u) := by
  refine ⟨_, congrArg Host.Outcome.next (imgCtrl_next h (c := 1) (by decide) u), resp_respond_same .., ?_⟩
  rw [show imgCommand 1 u = loadFull u from rfl, loadFull_commandWritten]
  split_ifs
  · exact loadRefused_imgRefuse ..
  · exact loadRefused_imgRefuse ..
  · exact loadRefused_imgRefuse ..
  · exact loadStarted_startJob ..

theorem loadPartial_spec {m : Master} {s : State} (h : MayWrite m s) (u : Bool) :
    ∃ t, exec (.loadPartial m u) s = .next t ∧ t.resp m = ⟨.ok, []⟩ ∧
      (if s.sys.snuffed then LoadRefused s t .snuffed else if imgBusy s then LoadRefused s t .busy
       else if s.img.accepted = false ∨ s.img.needFull = true then LoadRefused s t .noBase
       else if s.sys.alarm = true ∨ storeBarred s = true ∨ regionMigrates s = true ∨ regionStarts s = true then LoadRefused s t .notAdmitted
       else LoadStarted s t true false u) := by
  refine ⟨_, congrArg Host.Outcome.next (imgCtrl_next h (c := 2) (by decide) u), resp_respond_same .., ?_⟩
  rw [show imgCommand 2 u = loadPartial u from rfl, loadPartial_commandWritten]
  split_ifs
  · exact loadRefused_imgRefuse ..
  · exact loadRefused_imgRefuse ..
  · exact loadRefused_imgRefuse ..
  · exact loadRefused_imgRefuse ..
  · exact loadStarted_startJob ..

theorem verify_spec {m : Master} {s : State} (h : MayWrite m s) (u : Bool) :
    ∃ t, exec (.verify m u) s = .next t ∧ t.resp m = ⟨.ok, []⟩ ∧
      (if imgBusy s then LoadRefused s t .busy else if s.img.memReady = false then LoadRefused s t .notAdmitted
       else LoadStarted s t false true u) := by
  refine ⟨_, congrArg Host.Outcome.next (imgCtrl_next h (c := 3) (by decide) u), resp_respond_same .., ?_⟩
  rw [show imgCommand 3 u = verify u from rfl, verify_commandWritten]
  split_ifs
  · exact loadRefused_imgRefuse ..
  · exact loadRefused_imgRefuse ..
  · exact loadStarted_startJob ..

/-! ### INIT_MEM (R58, R69) -/

/-- BOOT settings that are applied are registers of MEMC. -/
theorem memcConfigWrite_frame (off : Nat) (v : Word) (s : State) :
    (memcConfigWrite off v s).1 = { s with regs := (memcConfigWrite off v s).1.regs } := by
  unfold memcConfigWrite
  split
  · split <;> rfl
  · rfl

theorem bootSettings_frame (l : List (Nat × Word)) (s : State) :
    ∃ regs : Tab Word, l.foldl (fun s p => (memcConfigWrite p.1 p.2 s).1) s = { s with regs := regs } := by
  refine l.foldlRecOn (motive := fun t => ∃ regs : Tab Word, t = { s with regs := regs }) _ ⟨s.regs, rfl⟩ ?_
  rintro t ⟨regs, rfl⟩ p -
  exact ⟨_, memcConfigWrite_frame p.1 p.2 _⟩

/-- DRAM initialisation starts with a good BOOT record and fails without one; memory and cells stay (R58, R69). -/
theorem startMemInit_spec (r : Option (List Byte)) (s : State) :
    (startMemInit r s).mem = s.mem ∧ (startMemInit r s).cells = s.cells ∧
      match r with
      | some l => (startMemInit r s).img.boot = .memInit ∧ (startMemInit r s).img.initBusy = true ∧ (startMemInit r s).img.initRec = l ∧
          (startMemInit r s).img.memFail = false
      | none => (startMemInit r s).img.boot = .waitBoot ∧ (startMemInit r s).img.memFail = true ∧ (startMemInit r s).img.initBusy = false ∧
          (startMemInit r s).img.errCode = LoadErr.bootBad.code ∧ (startMemInit r s).img.errRecord = 0 ∧ (startMemInit r s).img.errPos = 0 := by
  cases r with
  | none => exact ⟨rfl, rfl, rfl, rfl, rfl, rfl, rfl, rfl⟩
  | some l =>
    obtain ⟨regs, hsettings⟩ := bootSettings_frame (bootPairs l) s
    unfold startMemInit
    dsimp only
    rw [hsettings]
    exact ⟨rfl, rfl, rfl, rfl, rfl, rfl⟩

theorem initFrom_eq {s t : State} (hmem : t.mem = s.mem) (hsrc : imgSrc t = imgSrc s) :
    initFrom t = startMemInit (bootRecord fun n => s.bytes (imgSrc s) n) t := by
  simp only [initFrom, hsrc, bytes_congr hmem]

theorem initMem_commandWritten (c : Nat) (allow : Bool) (s : State) :
    initMem (commandWritten c allow s) =
      if imgBusy s then imgRefuse .busy (commandWritten c allow s)
      else if s.img.memReady = true then imgRefuse .notAdmitted (commandWritten c allow s)
      else
        let t := (commandWritten c allow s).updImg fun i => { i with abortMoot := false }
        if s.img.boot = .pllWait ∨ s.img.boot = .fuse ∨ s.img.boot = .sramInit then t.updImg fun i => { i with initBusy := true }
        else startMemInit (bootRecord fun n => s.bytes (imgSrc s) n) t := by
  have hrecord := initFrom_eq (s := s) (t := (commandWritten c allow s).updImg fun i => { i with abortMoot := false }) rfl
    (imgSrc_commandWritten c allow s)
  unfold initMem
  simp only [hrecord]
  simp [beforeWaitBoot, State.updImg, or_assoc]

theorem initMem_spec {m : Master} {s : State} (h : MayWrite m s) :
    ∃ t, exec (.initMem m) s = .next t ∧ t.resp m = ⟨.ok, []⟩ ∧
      (if imgBusy s then LoadRefused s t .busy else if s.img.memReady = true then LoadRefused s t .notAdmitted
       else if s.img.boot = .pllWait ∨ s.img.boot = .fuse ∨ s.img.boot = .sramInit then
         t = { s with regs := t.regs, bus := t.bus, img := { s.img with abortMoot := false, initBusy := true } }
       else t.mem = s.mem ∧ t.cells = s.cells ∧ match bootRecord (fun n => s.bytes (imgSrc s) n) with
        | some r => t.img.boot = .memInit ∧ t.img.initBusy = true ∧ t.img.initRec = r ∧ t.img.memFail = false
        | none => t.img.boot = .waitBoot ∧ t.img.memFail = true ∧ t.img.initBusy = false ∧ t.img.errCode = LoadErr.bootBad.code ∧
            t.img.errRecord = 0 ∧ t.img.errPos = 0) := by
  refine ⟨_, congrArg Host.Outcome.next (imgCtrl_next h (c := 5) (by decide) false), resp_respond_same .., ?_⟩
  rw [show imgCommand 5 false = initMem from rfl, initMem_commandWritten]
  split_ifs
  · exact loadRefused_imgRefuse ..
  · exact loadRefused_imgRefuse ..
  · rfl
  · exact startMemInit_spec _ _

/-! ### ABORT, and the codes that are no command (R74, R88) -/

theorem imgAbort_frame (s : State) : imgAbort s = { s with img := (imgAbort s).img } := by
  unfold imgAbort
  split <;> split <;> rfl

theorem imgAbort_before {s : State} {j : LoadJob} (hjob : s.img.job = some j) (hstate : s.img.state ≠ .applying) :
    (imgAbort s).img = { s.img with job := some { j with aborting := true } } := by
  simp [imgAbort, hjob, hstate, State.updImg]

theorem imgAbort_applying {s : State} (hjob : s.img.job.isSome = true) (hstate : s.img.state = .applying) :
    (imgAbort s).img = { s.img with abortMoot := true } := by
  obtain ⟨j, hj⟩ := Option.isSome_iff_exists.mp hjob
  simp [imgAbort, hj, hstate, State.updImg]

theorem imgAbort_completing {s : State} (hjob : s.img.job = none) (hdone : s.img.doneAt = some s.sys.tick) :
    (imgAbort s).img = { s.img with abortMoot := true } := by
  simp [imgAbort, hjob, hdone, State.updImg]

theorem imgAbort_idle {s : State} (hjob : s.img.job = none) (hdone : s.img.doneAt ≠ some s.sys.tick) : (imgAbort s).img = s.img := by
  simp [imgAbort, hjob, hdone]

theorem imgAbort_spec {m : Master} {s : State} (h : MayWrite m s) :
    ∃ t, exec (.imgAbort m) s = .next t ∧ t.resp m = ⟨.ok, []⟩ ∧ t = { s with regs := t.regs, bus := t.bus, img := t.img } ∧
      (∀ j, s.img.job = some j → s.img.state ≠ .applying → t.img = { s.img with job := some { j with aborting := true } }) ∧
      (s.img.job.isSome = true → s.img.state = .applying → t.img = { s.img with abortMoot := true }) ∧
      (s.img.job = none → s.img.doneAt = some s.sys.tick → t.img = { s.img with abortMoot := true }) ∧
      (s.img.job = none → s.img.doneAt ≠ some s.sys.tick → t.img = s.img) := by
  refine ⟨_, congrArg Host.Outcome.next (imgCtrl_next h (c := 4) (by decide) false), resp_respond_same .., ?_, ?_⟩
  · rw [show imgCommand 4 false = imgAbort from rfl, imgAbort_frame]
    rfl
  · exact ⟨fun j => imgAbort_before (s := commandWritten 4 false s), imgAbort_applying (s := commandWritten 4 false s),
      imgAbort_completing (s := commandWritten 4 false s), imgAbort_idle (s := commandWritten 4 false s)⟩

theorem imgBadCmd_spec {m : Master} {s : State} (h : MayWrite m s) (c : Fin 2) :
    ∃ t, exec (.imgBadCmd m c) s = .next t ∧ t.resp m = ⟨.ok, []⟩ ∧ LoadRefused s t .badCmd := by
  have hcode : 6 + c.val < 8 := by omega
  refine ⟨_, congrArg Host.Outcome.next (imgCtrl_next h hcode false), resp_respond_same .., ?_⟩
  have hbad : imgCommand (6 + c.val) false = imgRefuse .badCmd := by fin_cases c <;> rfl
  rw [hbad]
  exact loadRefused_imgRefuse ..

/-! ### LAT_QUERY (R85) -/

/-- A read of LAT_RESULT by a master that reaches the registers is the entry of the path that LAT_QUERY holds. -/
theorem busRead_latResult {m : Master} {s : State} (h : Reaches m s) : (busRead m 0x40010034 s).2 = (latResult s, .ok) := by
  have htarget : busTarget 0x40010034 = some .regs := by decide
  have hwindow : regWindow 0x40010034 = some (.img, 0x34) := by decide
  have hreach : wordErr m .regs 0x40010034 s = none := by rw [wordErr, h]
  obtain ⟨r, hrow⟩ : ∃ r, findRow (blkRows .img) 0x34 = some r := Option.isSome_iff_exists.mp (by decide)
  simp only [busRead, htarget, hreach, targetRead, hwindow, regRead, hrow]
  rfl

theorem bits_wd_low {n k : Nat} (hk : k ≤ 32) (hn : n < 2 ^ k) : bits (wd n) 0 k = n := by
  have hword : n < 2 ^ 32 := hn.trans_le (Nat.pow_le_pow_right (by decide) hk)
  rw [bits, wd, BitVec.toNat_ofNat, Nat.mod_eq_of_lt hword, Nat.pow_zero, Nat.div_one, Nat.mod_eq_of_lt hn]

theorem latQuery_spec {m : Master} {s : State} (h : Reaches m s) (p : Fin 65536) :
    ∃ t, exec (.latQuery m p) s = .next t ∧ t.resp m = ⟨.ok, []⟩ ∧ t = { s with regs := t.regs, bus := t.bus } ∧
      (∀ a, a ≠ 0x40010030 → t.reg a = s.reg a) ∧
      (busRead m 0x40010034 t).2 = (match Tab.get (fun _ => none) s.img.latTab p.val with
        | some e => pack [(31, 1), (0, e.total % 2 ^ 31)]
        | none => 0, .ok) := by
  have hrun : cmd m false (fun s => s.setReg 0x40010030 (wd p.val)) s = respond m .ok [] (s.setReg 0x40010030 (wd p.val)) :=
    cmd_ok h (.inl rfl)
  refine ⟨_, congrArg Host.Outcome.next hrun, resp_respond_same .., rfl, fun a ha => reg_setReg_ne s _ ha, ?_⟩
  rw [busRead_latResult (s := respond m .ok [] (s.setReg 0x40010030 (wd p.val))) h]
  have hpath : (respond m .ok [] (s.setReg 0x40010030 (wd p.val))).fld 0x40010030 0 16 = p.val := by
    have hreg : (respond m .ok [] (s.setReg 0x40010030 (wd p.val))).reg 0x40010030 = wd p.val := reg_setReg_same s _ _
    rw [State.fld, hreg, bits_wd_low (by decide) p.isLt]
  rw [latResult, hpath]
  rfl

/-! ### A load that ends with an error (R75, R79, R88) -/

/-- Where the end of a load shows: IMG's state, the bytes of memory, and IMG's FAULT_STATUS and EVT. -/
def loadView (s : State) : Img × List Host.Cell × Word × Word := (s.img, s.mem, s.reg (Blk.img.base + 0x80), s.reg (Blk.img.base + 0x40))

theorem loadView_eq_iff {s t : State} :
    loadView t = loadView s ↔
      t.img = s.img ∧ t.mem = s.mem ∧ t.reg (Blk.img.base + 0x80) = s.reg (Blk.img.base + 0x80) ∧
        t.reg (Blk.img.base + 0x40) = s.reg (Blk.img.base + 0x40) := by
  simp only [loadView, Prod.mk.injEq]

section
variable (s : State)

@[simp] theorem loadView_updCell (p : Nat) (f : Cell → Cell) : loadView (s.updCell p f) = loadView s := rfl
@[simp] theorem loadView_updMig (p : Nat) (f : MigStat → MigStat) : loadView (updMig p f s) = loadView s := rfl
@[simp] theorem loadView_fabric (x : Fabric) : loadView { s with fabric := x } = loadView s := rfl
@[simp] theorem loadView_boundNext : loadView (boundNext s) = loadView s := rfl

variable {s} in
theorem loadView_orReg {a : Nat} {m : Word} (hfaults : Blk.img.base + 0x80 ≠ a) (hevents : Blk.img.base + 0x40 ≠ a) :
    loadView (s.orReg a m) = loadView s := by
  simp only [loadView, reg_orReg, if_neg hfaults, if_neg hevents]
  rfl

/-- The registers of a cell stand behind IMG's (Table 1.11). -/
@[simp] theorem loadView_migEvt (p i : Nat) : loadView (migEvt p i s) = loadView s :=
  loadView_orReg (by simp only [Blk.base]; omega) (by simp only [Blk.base]; omega)

@[simp] theorem loadView_startProactive (p : Nat) (ce : Bool) : loadView (startProactive p ce s) = loadView s := by
  unfold startProactive
  split
  · simp
  · exact (loadView_fabric _ _).trans (by simp)

theorem loadView_dequeueList (l : List (Nat × Bool)) : loadView (dequeueList l s).2 = loadView s := by
  induction l generalizing s with
  | nil => rfl
  | cons e l ih =>
    unfold dequeueList
    split_ifs <;> simp [ih]

@[simp] theorem loadView_dequeueMig : loadView (dequeueMig s) = loadView s :=
  (loadView_fabric _ _).trans (loadView_dequeueList s _)

@[simp] theorem loadView_setFlag (i : Nat) (v : Bool) (o : Option HostId) : loadView (setFlag i v o s) = loadView s := by
  unfold setFlag
  split
  · rfl
  · exact loadView_orReg (s := s.updSys _) (by decide) (by decide)

@[simp] theorem loadView_settle : loadView (settle s) = loadView s := by simp [settle]

variable {s} in
/-- Where no migration is queued, none starts. -/
theorem dequeueMig_cells (h : s.fabric.queue = []) : (dequeueMig s).cells = s.cells := by
  simp [dequeueMig, h, dequeueList]

end

/-- IMG after a load or verify that ended with an error (R79, Table 3.2). -/
def failedImg (f : Failure) (i : Img) : Img :=
  { i with
    errCode := f.err.code, errRecord := f.record, errPos := f.pos, job := none, partialJob := none
    boot := if i.boot = .loader then .waitImage else i.boot
    state := if i.state == .applying then .empty else (i.job.map (·.prev)).getD i.state
    needFull := i.needFull || i.state == .applying }

theorem loadFail_spec (f : Failure) (s : State) :
    (loadFail f s).img = failedImg f s.img ∧ (loadFail f s).mem = s.mem ∧ (loadFail f s).rbit (Blk.img.base + 0x40) 2 = true ∧
      (∀ i, (loadFail f s).faultBit .img i = s.faultBit .img i) ∧ (s.fabric.queue = [] → (loadFail f s).cells = s.cells) := by
  unfold loadFail
  extract_lets t applying u v
  have hview : loadView v = loadView u := by simp [v]
  have hcells : s.fabric.queue = [] → v.cells = s.cells := dequeueMig_cells (s := boundNext u)
  clear_value v
  obtain ⟨himg, hmem, hfaults, -⟩ := loadView_eq_iff.mp hview
  obtain ⟨himg', hmem', hfaults', hevents'⟩ := loadView_eq_iff.mp (loadView_settle (evt .img 2 v))
  refine ⟨himg'.trans himg, hmem'.trans hmem, ?_, fun i => ?_, fun h => ?_⟩
  · rw [State.rbit, hevents', evt_reg, if_pos rfl, bit_or, bit_bm_self (by decide), Bool.or_true]
  · rw [State.faultBit, State.rbit, hfaults', evt_reg, if_neg (by decide), hfaults]
    rfl
  · rw [settle_frame]
    exact hcells h

theorem loadAbortEnd_spec {s : State} {j : LoadJob} (hjob : s.img.job = some j) (habort : j.aborting = true)
    (hstate : s.img.state ≠ .applying) :
    ∃ t, exec .loadAbortEnd s = .next t ∧
      (t.img.job = none ∧ t.img.state = j.prev ∧ t.img.errCode = LoadErr.aborted.code ∧ t.img.activeId = s.img.activeId ∧ t.mem = s.mem ∧
        t.rbit (Blk.img.base + 0x40) 2 = true ∧ t.faultBit .img 0 = s.faultBit .img 0 ∧ (s.fabric.queue = [] → t.cells = s.cells)) := by
  have hend : loadAbortEnd s = loadFail ⟨.aborted, 0, 0⟩ s := by simp [loadAbortEnd, hjob, habort]
  obtain ⟨himg, hmem, hevent, hfault, hcells⟩ := loadFail_spec ⟨.aborted, 0, 0⟩ s
  have hprev : (failedImg ⟨.aborted, 0, 0⟩ s.img).state = j.prev := by simp [failedImg, hstate, hjob]
  refine ⟨_, congrArg Host.Outcome.next hend, ?_⟩
  rw [himg, hprev]
  exact ⟨rfl, rfl, rfl, rfl, hmem, hevent, hfault 0, hcells⟩

theorem loadAbortEnd_idle {s : State} (h : ∀ j, s.img.job = some j → j.aborting = false) : loadAbortEnd s = s := by
  have hnone : (s.img.job.any fun j => j.aborting) = false := by
    cases hjob : s.img.job with
    | none => rfl
    | some j => simpa using h j hjob
  simp [loadAbortEnd, hnone]

/-- Settles O14: each command is its work on the state that holds the written IMG.CTRL, by what stands against it; a load that ends with an
error is followed through the end of its migrations by `loadView`. -/
theorem loadCommandsAbortAndQueries : Obligations.LoadCommandsAbortAndQueries := by
  refine ⟨fun s m u h => ⟨loadFull_spec h u, loadPartial_spec h u, verify_spec h u, initMem_spec h⟩,
    fun s m => ⟨fun h => ⟨imgAbort_spec h, imgBadCmd_spec h⟩, fun h p => latQuery_spec h p, fun h => ?_, fun j => loadAbortEnd_spec⟩⟩
  exact congrArg Host.Outcome.next (loadAbortEnd_idle h)

end Sys2Proof.Machine
end

section
/-! SUPPORT. The stages of a load (R57, R71, R72, R75, R79, R81, R87): the image's bytes reach their target, a failing check ends the load,
and the application of a partial load leaves the job in progress. -/
namespace Sys2Proof.Machine
open Sys2Proof

/-! ### Bytes written read back -/

theorem memPut_get_in {l : List Byte} {i : Nat} (m : List Host.Cell) (a : Nat) (h : i < l.length) :
    Tab.get memDefault (memPut m a l) (a + i) = l[i] := by
  induction l generalizing m a i with
  | nil => exact absurd h (Nat.not_lt_zero i)
  | cons b l ih =>
    rw [memPut]
    cases i with
    | zero =>
      rw [memPut_get l _ (a + 1) (a + 0) (.inl (Nat.lt_succ_self a)), Nat.add_zero, tab_get_set, if_pos rfl, List.getElem_cons_zero]
    | succ i =>
      have hplace : a + (i + 1) = a + 1 + i := by omega
      rw [hplace, ih _ (a + 1) (Nat.lt_of_succ_lt_succ h), List.getElem_cons_succ]

theorem byte_setBytes_in {l : List Byte} {i : Nat} (s : State) (a : Nat) (h : i < l.length) : (s.setBytes a l).byte (a + i) = l[i] :=
  memPut_get_in s.mem a h

theorem bytes_length (s : State) (a n : Nat) : (s.bytes a n).length = n := by
  induction n generalizing a with
  | zero => rfl
  | succ n ih => rw [State.bytes, List.length_cons, ih]

theorem bytes_getElem {n i : Nat} (s : State) (a : Nat) (h : i < (s.bytes a n).length) : (s.bytes a n)[i] = s.byte (a + i) := by
  induction n generalizing a i with
  | zero => exact absurd h (Nat.not_lt_zero i)
  | succ n ih =>
    cases i with
    | zero => rfl
    | succ i =>
      simp only [State.bytes, List.getElem_cons_succ, ih]
      rw [Nat.add_assoc, Nat.add_comm 1]

/-- A copy puts every byte of its source in its place, and changes no byte outside (the source is read before the first write). -/
theorem copy_spec (s : State) (src dst n : Nat) :
    (∀ i < n, (s.setBytes dst (s.bytes src n)).byte (dst + i) = s.byte (src + i)) ∧
      ∀ a, a < dst ∨ dst + n ≤ a → (s.setBytes dst (s.bytes src n)).byte a = s.byte a := by
  refine ⟨fun i hi => ?_, fun a ha => byte_setBytes_out s dst a _ (by rwa [bytes_length])⟩
  have hlt : i < (s.bytes src n).length := by rwa [bytes_length]
  rw [byte_setBytes_in s dst hlt, bytes_getElem]

/-! ### A load whose check fails (R75, R79) -/

theorem stageJob_eq_some {st : LoadState} {s : State} {j : LoadJob} (h : stageJob st s = some j) : s.img.state = st ∧ s.img.job = some j := by
  unfold stageJob at h
  split at h
  next hstate => exact ⟨hstate, (Option.filter_eq_some_iff.mp h).1⟩
  next => exact nomatch h

/-- A failing check ends the load: its code, record and position, LOAD_FAIL and REJECTED, the previous state and image kept. -/
def LoadRejected (s t : State) (j : LoadJob) (f : Failure) : Prop :=
  t.img.job = none ∧ t.img.state = j.prev ∧ t.img.errCode = f.err.code ∧ t.img.errRecord = f.record ∧ t.img.errPos = f.pos ∧
    t.img.activeId = s.img.activeId ∧ t.faultBit .img 0 = true ∧ t.rbit (Blk.img.base + 0x40) 2 = true ∧ t.mem = s.mem ∧
    (s.fabric.queue = [] → t.cells = s.cells)

theorem loadRejected_loadReject {s : State} {j : LoadJob} (f : Failure) (hjob : s.img.job = some j) (hflash : j.flash = false)
    (hstate : s.img.state ≠ .applying) : LoadRejected s (loadReject f s) j f := by
  have hraise : loadReject f s = raise .img 0 (loadFail f s) := by simp [loadReject, hjob, hflash]
  obtain ⟨himg, hmem, hevent, -, hcells⟩ := loadFail_spec f s
  have hprev : (failedImg f s.img).state = j.prev := by simp [failedImg, hstate, hjob]
  have hevents : (raise .img 0 (loadFail f s)).rbit (Blk.img.base + 0x40) 2 = true := by
    rw [State.rbit, raise_reg _ _ _ _ (by decide) (by decide)]
    exact hevent
  rw [hraise, LoadRejected, raise_img, raise_mem, raise_cells, himg, hprev]
  exact ⟨rfl, rfl, rfl, rfl, rfl, rfl, raise_fault .img 0 _ (by decide), hevents, hmem, hcells⟩

/-- The same where the stage has done other work before, which leaves IMG, the memory, the cells and the fabric. -/
theorem loadRejected_after {s u : State} {j : LoadJob} (f : Failure) (hjob : s.img.job = some j) (hflash : j.flash = false)
    (hstate : s.img.state ≠ .applying) (himg : u.img = s.img) (hmem : u.mem = s.mem) (hcells : u.cells = s.cells)
    (hfabric : u.fabric = s.fabric) : LoadRejected s (loadReject f u) j f := by
  have hreject := loadRejected_loadReject (s := u) f (by rw [himg, hjob]) hflash (by rwa [himg])
  rwa [LoadRejected, himg, hmem, hcells, hfabric] at hreject

/-! ### READING (R71, R75) -/

/-- The image at a job's source is a partial one: as its header says for a verify, as the command said for a load. -/
def readingPart (s : State) (j : LoadJob) : Bool := if j.verify then (headerAt s j.src).kind == 1 else j.partialImg
/-- Where READING puts the image. -/
def readingTarget (s : State) (j : LoadJob) : Nat :=
  if j.verify then j.src else if readingPart s j then journalTail s else slotBase (if s.img.accepted then 1 - s.img.slot else 0)

theorem memUeRaise_frame (w : Nat) (s : State) :
    (memUeRaise w s).img = s.img ∧ (memUeRaise w s).mem = s.mem ∧ (memUeRaise w s).cells = s.cells ∧ (memUeRaise w s).fabric = s.fabric := by
  unfold memUeRaise
  split <;> simp

theorem readingEnd_fail {s : State} {j : LoadJob} {f : Failure} (hstage : stageJob .reading s = some j)
    (hfail : readingCheck s (imgReads s) j.src (readingPart s j) = some f) (hflash : j.flash = false) :
    LoadRejected s (readingEnd s) j f := by
  obtain ⟨hstate, hjob⟩ := stageJob_eq_some hstage
  have hbefore : s.img.state ≠ .applying := by rw [hstate]; decide
  unfold readingPart at hfail
  unfold readingEnd
  rw [hstage]
  dsimp only
  rw [hfail]
  dsimp only
  split
  next w _ =>
    obtain ⟨himg, hmem, hcells, hfabric⟩ := memUeRaise_frame w s
    exact loadRejected_after f hjob hflash hbefore himg hmem hcells hfabric
  next => exact loadRejected_after f hjob hflash hbefore rfl rfl rfl rfl

theorem readingEnd_pass {s : State} {j : LoadJob} (hstage : stageJob .reading s = some j)
    (hpass : readingCheck s (imgReads s) j.src (readingPart s j) = none) :
    readingEnd s =
      (if readingTarget s j = j.src then s else s.setBytes (readingTarget s j) (s.bytes j.src (headerAt s j.src).total)).updImg fun i =>
        { i with
          state := .auth, progress := (headerAt s j.src).total / 2 ^ 20
          job := some { j with partialImg := readingPart s j, src := readingTarget s j, len := (headerAt s j.src).total } } := by
  unfold readingPart at hpass
  unfold readingEnd
  rw [hstage]
  dsimp only
  rw [hpass]
  rfl

/-- An image that passes lies byte for byte in its target, no other byte changes, and AUTH starts. -/
theorem readingEnd_copied {s : State} {j : LoadJob} (hstage : stageJob .reading s = some j)
    (hpass : readingCheck s (imgReads s) j.src (readingPart s j) = none) :
    (∀ i < (headerAt s j.src).total, (readingEnd s).byte (readingTarget s j + i) = s.byte (j.src + i)) ∧
      ∀ a, a < readingTarget s j ∨ readingTarget s j + (headerAt s j.src).total ≤ a → (readingEnd s).byte a = s.byte a := by
  have hbyte (t : State) (g : Img → Img) (a : Nat) : (t.updImg g).byte a = t.byte a := rfl
  rw [readingEnd_pass hstage hpass]
  simp only [hbyte]
  split
  next hplace => exact ⟨fun i _ => by rw [hplace], fun a _ => rfl⟩
  next => exact copy_spec s j.src (readingTarget s j) _

theorem readingEnd_frame {s : State} {j : LoadJob} (hstage : stageJob .reading s = some j)
    (hpass : readingCheck s (imgReads s) j.src (readingPart s j) = none) :
    (readingEnd s).img.state = .auth ∧
      (readingEnd s).img.job = some { j with partialImg := readingPart s j, src := readingTarget s j, len := (headerAt s j.src).total } ∧
      readingEnd s = { s with mem := (readingEnd s).mem, img := (readingEnd s).img } := by
  rw [readingEnd_pass hstage hpass]
  split <;> exact ⟨rfl, rfl, rfl⟩

/-! ### AUTH (R71, R72) -/

theorem authEnd_pass {s : State} {j : LoadJob} {r : ImgRec} (hstage : stageJob .auth s = some j)
    (hlast : (imageRecords s j.src).getLast? = some r) (hgo : authCheck s j.src r = none ∨ s.img.fuses.secure = false) :
    (authEnd s).img.state = .checking ∧ (authEnd s).img.job = some { j with authentic := (authCheck s j.src r).isNone } := by
  have hno : (if s.img.fuses.secure then authCheck s j.src r else none) = none := by
    rcases hgo with h | h <;> simp [h]
  unfold authEnd
  rw [hstage]
  dsimp only
  rw [hlast]
  dsimp only
  rw [hno]
  exact ⟨rfl, rfl⟩

theorem authEnd_fail {s : State} {j : LoadJob} {r : ImgRec} {e : LoadErr} (hstage : stageJob .auth s = some j)
    (hlast : (imageRecords s j.src).getLast? = some r) (hcheck : authCheck s j.src r = some e) (hsecure : s.img.fuses.secure = true) :
    authEnd s = loadReject ⟨e, r.idx, r.off⟩ s := by
  unfold authEnd
  rw [hstage]
  dsimp only
  rw [hlast]
  dsimp only
  rw [hsecure, if_pos rfl, hcheck]

theorem authEnd_spec {s : State} {j : LoadJob} {r : ImgRec} (hstage : stageJob .auth s = some j)
    (hlast : (imageRecords s j.src).getLast? = some r) :
    ∃ t, exec .authEnd s = .next t ∧
      ((authCheck s j.src r = none → t.img.state = .checking ∧ t.img.job = some { j with authentic := true }) ∧
        (∀ e, authCheck s j.src r = some e → s.img.fuses.secure = false →
          t.img.state = .checking ∧ t.img.job = some { j with authentic := false }) ∧
        (∀ e, authCheck s j.src r = some e → s.img.fuses.secure = true → j.flash = false → LoadRejected s t j ⟨e, r.idx, r.off⟩)) := by
  obtain ⟨hstate, hjob⟩ := stageJob_eq_some hstage
  refine ⟨authEnd s, rfl, fun hcheck => ?_, fun e hcheck hopen => ?_, fun e hcheck hsecure hflash => ?_⟩
  · have hpass := authEnd_pass hstage hlast (.inl hcheck)
    rwa [hcheck] at hpass
  · have hpass := authEnd_pass hstage hlast (.inr hopen)
    rwa [hcheck] at hpass
  · rw [authEnd_fail hstage hlast hcheck hsecure]
    exact loadRejected_loadReject _ hjob hflash (by rw [hstate]; decide)

/-! ### The job ends well, and the completion of a partial load (R81, R82, R87) -/

theorem jobDone_spec (s : State) :
    (jobDone s).img = { s.img with job := none, doneAt := some s.sys.tick } ∧ (jobDone s).rbit (Blk.img.base + 0x40) 1 = true := by
  refine ⟨rfl, ?_⟩
  rw [State.rbit, jobDone, evt_reg, if_pos rfl, bit_or, bit_bm_self (by decide), Bool.or_true]

theorem acceptUnbounded_img (l : List Nat) (s : State) : (acceptUnbounded l s).img = { s.img with unbounded := l != [] } := by
  unfold acceptUnbounded
  extract_lets t
  have ht : t.img = { s.img with unbounded := l != [] } := rfl
  split
  · exact ht
  · rw [raise_img, ht]

/-- The published tables of a partial image leave the journal (R85). -/
theorem publishedTables_journal (rs : List ImgRec) (base : Nat) (s : State) :
    (rs.foldl (fun s r =>
      if r.typ = 0x80 then s.updImg fun i => { i with latTab := latEntries s (r.pay base) r.len i.latTab }
      else if r.typ = 0x81 then s.updImg fun i => { i with boundTab := boundEntries s (r.pay base) r.len i.boundTab }
      else s) s).img.journal = s.img.journal := by
  refine rs.foldlRecOn (motive := fun t : State => t.img.journal = s.img.journal) _ rfl fun t ht r _ => ?_
  split
  · exact ht
  · split <;> exact ht

theorem partialDone_spec (j : LoadJob) (s : State) :
    (partialDone j s).img.state = .ready ∧ (partialDone j s).img.job = none ∧
      (partialDone j s).img.journal = s.img.journal ++ [(j.src, j.len)] ∧ (partialDone j s).rbit (Blk.img.base + 0x40) 1 = true := by
  unfold partialDone
  extract_lets rs t u v
  have hjournal : t.img.journal = s.img.journal := publishedTables_journal rs j.src s
  have hu : u.img.state = .ready ∧ u.img.journal = s.img.journal ++ [(j.src, j.len)] :=
    ⟨rfl, congrArg (fun l => l ++ [(j.src, j.len)]) hjournal⟩
  have hv : v.img = u.img := by simp [v, apply_ite State.img]
  clear_value v u
  obtain ⟨hdone, hevent⟩ := jobDone_spec (acceptUnbounded j.unbounded v)
  have hview : loadView (settle (dequeueMig (jobDone (acceptUnbounded j.unbounded v)))) = loadView (jobDone (acceptUnbounded j.unbounded v)) := by
    rw [loadView_settle, loadView_dequeueMig]
  obtain ⟨himg, -, -, hevents⟩ := loadView_eq_iff.mp hview
  rw [himg, State.rbit, hevents, hdone, acceptUnbounded_img, hv]
  exact ⟨hu.1, rfl, hu.2, hevent⟩

/-! ### What the application of a partial load leaves of IMG (R81) -/

section
variable (s : State)

theorem img_foldl {α : Type} {f : State → α → State} (h : ∀ s a, (f s a).img = s.img) (l : List α) (s : State) : (l.foldl f s).img = s.img :=
  l.foldlRecOn (motive := fun t => t.img = s.img) f rfl fun t ht a _ => (h t a).trans ht

theorem aptIdle_img (n : Nat) (d : Dir) : (aptIdle n d s).img = s.img := by simp [aptIdle, aptLock, apply_ite State.img]

theorem aptClearEn_img (n : Nat) (d : Dir) : (aptClearEn n d s).img = s.img := by
  unfold aptClearEn setEn
  dsimp only
  split <;> simp [apply_ite State.img, aptIdle_img]

theorem modOff_img (n : Nat) : (modOff n s).img = s.img := by simp [modOff, lspBlocksOff, apply_ite State.img]

theorem driveCheck_img : (driveCheck s).img = s.img := by
  have hfall : (driveFall s).img = s.img :=
    (img_foldl (fun t n => by simp [apply_ite State.img, modOff_img]) _ _).trans rfl
  simp [driveCheck, apply_ite State.img, hfall]

theorem chStart1_img (n : Nat) : (chStart1 n s).img = s.img := by
  unfold chStart1
  split <;> simp [modRamp]

theorem chStop1_img (n : Nat) : (chStop1 n s).img = s.img := by
  unfold chStop1
  dsimp only
  split <;> simp [modRamp, lspBlocksOff, apply_ite State.img, driveCheck_img]

theorem modPut_img (off : Nat) (v : Word) : (modPut off v s).img = s.img := by
  have hstarts : (eachCh v chStart1 s).img = s.img := img_foldl (fun t n => by simp [apply_ite State.img, chStart1_img]) _ s
  simp [modPut, apply_ite State.img, hstarts]

theorem gainFull_img (n : Nat) : (gainFull n s).img = s.img := by simp [gainFull, apply_ite State.img]

theorem spkCfgWrite_img (n : Nat) (v : Word) : (spkCfgWrite n v s).img = s.img := by
  simp [spkCfgWrite, latchLim, lspBlocksOff, gainFull_img, apply_ite State.img]

theorem lspPut_img (off : Nat) (v : Word) : (lspPut off v s).img = s.img := by
  have hsns : (snsCfgWrite v s).img = s.img := rfl
  simp [lspPut, apply_ite State.img, hsns, spkCfgWrite_img]

theorem applyLspSetup_img (g : Nat) (ps : List (Nat × Word)) : (applyLspSetup g ps s).img = s.img := by
  unfold applyLspSetup lspGroupReset
  refine (img_foldl (fun t i => by simp [latchLim, gainFull_img]) _ _).trans ?_
  exact img_foldl (fun t (p : Nat × Word) => lspPut_img t p.1 p.2) ps s

/-- A port's setup puts the job in progress back when it has written its registers. -/
theorem portApply_job (i : Nat) (ps : List (Nat × Word)) : (portApply i ps s).img.job = s.img.job := by
  unfold portApply
  extract_lets d n pj j t u v
  split
  · rw [updDir_img, aptClearEn_img]
  · rfl

theorem applyS1Rec_job (base : Nat) (full : Bool) (r : ImgRec) : (applyS1Rec base full s r).img.job = s.img.job := by
  unfold applyS1Rec
  split
  · rw [applyBank, State.updMxe_img]
  · exact portApply_job s _ _
  · exact congrArg Img.job (img_foldl (fun t (p : Nat × Word) => modPut_img t p.1 p.2) _ s)
  · rw [applyLspSetup_img]
  · rfl

theorem applyS1_job (base : Nat) (rs : List ImgRec) : (rs.foldl (applyS1Rec base false) s).img.job = s.img.job :=
  rs.foldlRecOn (motive := fun t => t.img.job = s.img.job) _ rfl fun t ht r _ => (applyS1Rec_job t base false r).trans ht

/-- The application starts with the job in progress, in APPLYING, by the region's kind. -/
theorem startPartial_spec (j : LoadJob) :
    (startPartial j s).img.state = .applying ∧ (startPartial j s).img.job = s.img.job ∧ (startPartial j s).img.partialJob.isSome = true := by
  unfold startPartial
  extract_lets h b pj g mask t
  have ht : t.img = s.img := img_foldl (fun u i => by simp [apply_ite State.img, chStop1_img]) _ s
  have hpj (p : PartialPhase) (due : Nat) (u : State) :
      (pj p due u).img.state = .applying ∧ (pj p due u).img.job = u.img.job ∧ (pj p due u).img.partialJob.isSome = true := ⟨rfl, rfl, rfl⟩
  clear_value t pj
  split
  · obtain ⟨hstate, hjob, hpartial⟩ := hpj .rampOut (b + 4096) (rampCells h.regionSel (b / 64) false s)
    exact ⟨hstate, hjob, hpartial⟩
  · obtain ⟨hstate, hjob, hpartial⟩ := hpj .config 0 ((imageRecords s j.src).foldl (applyS1Rec j.src false) s)
    exact ⟨hstate, hjob.trans (applyS1_job s j.src _), hpartial⟩
  · obtain ⟨hstate, hjob, hpartial⟩ := hpj .config 0 (aptClearEn (h.regionSel / 2) (if h.regionSel % 2 = 0 then .rx else .tx) s)
    exact ⟨hstate, hjob.trans (congrArg Img.job (aptClearEn_img s _ _)), hpartial⟩
  · obtain ⟨hstate, hjob, hpartial⟩ := hpj .modOff 0 t
    exact ⟨hstate, hjob.trans (congrArg Img.job ht), Option.isSome_map.trans hpartial⟩

end

/-! ### CHECKING (R75, R79, R87) -/

theorem checkingEnd_fail {s : State} {j : LoadJob} {f : Failure} (hstage : stageJob .checking s = some j)
    (hfail : checkingFail (checkCtx s j.src) = some f ∨
      checkingFail (checkCtx s j.src) = none ∧ (loadBound (checkCtx s j.src) j.allowUnb).fail = some f)
    (hflash : j.flash = false) : LoadRejected s (checkingEnd s) j f := by
  obtain ⟨hstate, hjob⟩ := stageJob_eq_some hstage
  have hbefore : s.img.state ≠ .applying := by rw [hstate]; decide
  unfold checkingEnd
  rw [hstage]
  dsimp only
  rcases hfail with hcheck | ⟨hcheck, hbound⟩
  · rw [hcheck]
    exact loadRejected_after f hjob hflash hbefore rfl rfl rfl rfl
  · rw [hcheck]
    dsimp only
    rw [hbound]
    exact loadRejected_after f hjob hflash hbefore rfl rfl rfl rfl

/-- The state in which the checks and bounds have passed: the ledger shows the bounds' result. -/
def boundsShown (s : State) (j : LoadJob) : State :=
  boundResult false ((loadBound (checkCtx s j.src) j.allowUnb).accepted != []) (loadBound (checkCtx s j.src) j.allowUnb).report (boundNext s)

/-- The load that goes on in APPLYING, with the paths it accepts unbounded. -/
def applyingJob (s : State) (j : LoadJob) : LoadJob := { j with unbounded := (loadBound (checkCtx s j.src) j.allowUnb).accepted }

/-- The load enters APPLYING. -/
def enteringApplying (s : State) (j : LoadJob) : State :=
  (boundsShown s j).updImg fun i => { i with job := some (applyingJob s j), state := .applying }

theorem checkingEnd_pass {s : State} {j : LoadJob} (hstage : stageJob .checking s = some j)
    (hcheck : checkingFail (checkCtx s j.src) = none) (hbound : (loadBound (checkCtx s j.src) j.allowUnb).fail = none) :
    checkingEnd s =
      if j.verify then jobDone ((boundsShown s j).updImg fun i => { i with state := j.prev })
      else
        if !j.partialImg then enteringApplying s j
        else if s.sys.standby then
          partialDone (applyingJob s j) ((enteringApplying s j).updImg fun i => if i.cold then i else { i with stale := true })
        else startPartial (applyingJob s j) (enteringApplying s j) := by
  unfold checkingEnd
  rw [hstage]
  dsimp only
  rw [hcheck]
  dsimp only
  rw [hbound]
  rfl

theorem checkingEnd_spec {s : State} {j : LoadJob} (hstage : stageJob .checking s = some j)
    (hcheck : checkingFail (checkCtx s j.src) = none) (hbound : (loadBound (checkCtx s j.src) j.allowUnb).fail = none) :
    (j.verify = true → (checkingEnd s).img.job = none ∧ (checkingEnd s).img.state = j.prev ∧
      (checkingEnd s).img.doneAt = some s.sys.tick ∧ (checkingEnd s).rbit (Blk.img.base + 0x40) 1 = true) ∧
    (j.verify = false → (j.partialImg = false ∨ s.sys.standby = false) →
      (checkingEnd s).img.state = .applying ∧ (checkingEnd s).img.job = some (applyingJob s j) ∧
      ((checkingEnd s).img.partialJob.isSome = true ↔ j.partialImg = true ∨ s.img.partialJob.isSome = true)) ∧
    (j.verify = false → j.partialImg = true → s.sys.standby = true →
      (checkingEnd s).img.state = .ready ∧ (checkingEnd s).img.job = none ∧ (checkingEnd s).img.journal = s.img.journal ++ [(j.src, j.len)] ∧
      (checkingEnd s).rbit (Blk.img.base + 0x40) 1 = true) := by
  rw [checkingEnd_pass hstage hcheck hbound]
  refine ⟨fun hverify => ?_, fun hload hon => ?_, fun hload hpart hstandby => ?_⟩
  · rw [if_pos hverify]
    exact ⟨rfl, rfl, rfl, (jobDone_spec _).2⟩
  · rw [hload, if_neg Bool.false_ne_true]
    by_cases hpart : j.partialImg = false
    · have hkeep : (enteringApplying s j).img.partialJob = s.img.partialJob := rfl
      rw [if_pos (by rw [hpart, Bool.not_false]), hkeep]
      exact ⟨rfl, rfl, by simp [hpart]⟩
    · have hstandby : s.sys.standby = false := hon.resolve_left hpart
      obtain ⟨hstate, hjob, hpartial⟩ := startPartial_spec (enteringApplying s j) (applyingJob s j)
      rw [if_neg (by simpa using hpart), hstandby, if_neg Bool.false_ne_true]
      exact ⟨hstate, hjob, iff_of_true hpartial (.inl (Bool.eq_true_of_not_eq_false hpart))⟩
  · have hjournal : ((enteringApplying s j).updImg fun i => if i.cold then i else { i with stale := true }).img.journal = s.img.journal := by
      simp only [State.updImg]
      split <;> rfl
    obtain ⟨hstate, hjob, hpath, hevent⟩ :=
      partialDone_spec (applyingJob s j) ((enteringApplying s j).updImg fun i => if i.cold then i else { i with stale := true })
    have hentry : ((applyingJob s j).src, (applyingJob s j).len) = (j.src, j.len) := by simp only [applyingJob]
    rw [hjournal, hentry] at hpath
    rw [hload, if_neg Bool.false_ne_true, if_neg (by simp [hpart]), if_pos hstandby]
    exact ⟨hstate, hjob, hpath, hevent⟩

/-! ### The end of a flash copy (R57) -/

/-- The flash loader waits for its copy. -/
abbrev flashCopyDue (s : State) : Bool := flashActive s && s.img.boot == .waitImage && s.img.memReady && !imgBusy s && !s.sys.snuffed

theorem flashImageCopyEnd_not_due {s : State}
    (h : flashActive s = false ∨ s.img.boot ≠ .waitImage ∨ s.img.memReady = false ∨ imgBusy s = true ∨ s.sys.snuffed = true) :
    flashImageCopyEnd s = s := by
  have hdue : flashCopyDue s = false := by
    rcases h with h | h | h | h | h <;> simp [h]
  exact if_neg (Bool.eq_false_iff.mp hdue)

/-- The length of the copy's image, as its header says, and at most a slot. -/
def flashTotal (s : State) : Nat := min slotSize (leNat (flashBytes s.flc (flashCopy s + 40) 4))

/-- The copy's bytes lie in slot 0, and IMG.SRC shows it. -/
def flashCopied (s : State) : State :=
  ((s.setBytes (slotBase 0) (flashBytes s.flc (flashCopy s) (flashTotal s))).setReg 0x40010004 (wd (slotBase 0))).setReg 0x40010008
    (wd (slotBase 0 / 2 ^ 32))

theorem flashImageCopyEnd_due {s : State} (h : flashCopyDue s = true) :
    flashImageCopyEnd s = (startJob false false false (flashCopied s)).updImg fun i =>
      { i with flashTry := max 1 i.flashTry, job := i.job.map fun j => { j with flash := true } } := if_pos h

theorem imgSrc_flashCopied (s : State) : imgSrc (flashCopied s) = slotBase 0 := by
  have hlow : (flashCopied s).reg 0x40010004 = wd (slotBase 0) :=
    (reg_setReg_ne _ _ (by decide)).trans (reg_setReg_same _ _ _)
  have hhigh : (flashCopied s).reg 0x40010008 = wd (slotBase 0 / 2 ^ 32) := reg_setReg_same _ _ _
  rw [imgSrc, State.fld, hlow, hhigh]
  decide

theorem flashBytes_length (x : Flc) (a n : Nat) : (flashBytes x a n).length = n := by
  simp [flashBytes, upto]

theorem flashBytes_getElem {x : Flc} {a n i : Nat} (h : i < (flashBytes x a n).length) : (flashBytes x a n)[i] = flashByte x (a + i) := by
  simp [flashBytes, upto]

theorem flashCopied_byte (s : State) :
    (∀ i < flashTotal s, (flashCopied s).byte (slotBase 0 + i) = flashByte s.flc (flashCopy s + i)) ∧
      ∀ b, b < slotBase 0 ∨ slotBase 0 + flashTotal s ≤ b → (flashCopied s).byte b = s.byte b := by
  have hmem : (flashCopied s).mem = (s.setBytes (slotBase 0) (flashBytes s.flc (flashCopy s) (flashTotal s))).mem := by
    simp only [flashCopied, State.setReg_mem]
  have hbyte (b : Nat) : (flashCopied s).byte b = (s.setBytes (slotBase 0) (flashBytes s.flc (flashCopy s) (flashTotal s))).byte b :=
    congrArg (fun m => Tab.get memDefault m b) hmem
  refine ⟨fun i hi => ?_, fun b hb => ?_⟩
  · have hlt : i < (flashBytes s.flc (flashCopy s) (flashTotal s)).length := by rwa [flashBytes_length]
    rw [hbyte, byte_setBytes_in s _ hlt, flashBytes_getElem]
  · rw [hbyte]
    exact byte_setBytes_out s _ _ _ (by rwa [flashBytes_length])

/-- The flags' settling touches one register, that of their change bits. -/
theorem settle_reg {a : Nat} (ha : a ≠ modeChg) (s : State) : (settle s).reg a = s.reg a := by
  have hflag (i : Nat) (v : Bool) (t : State) : (setFlag i v none t).reg a = t.reg a := by
    unfold setFlag
    split
    · rfl
    · rw [reg_congr (logPush_regs _ _ _ _ _ _), reg_orReg, if_neg ha]
      rfl
  rw [settle, hflag, hflag]

theorem imgSrc_startJob (p v u : Bool) (s : State) : imgSrc (startJob p v u s) = imgSrc s := by
  rw [startJob_eq, imgSrc, imgSrc, State.fld, State.fld, settle_reg (by decide), settle_reg (by decide)]
  rfl

theorem flashImageCopyEnd_spec {s : State} (hactive : flashActive s = true) (hboot : s.img.boot = .waitImage) (hready : s.img.memReady = true)
    (hidle : imgBusy s = false) (hsnuff : s.sys.snuffed = false) :
    ∃ t, exec .flashImageCopyEnd s = .next t ∧
      ((∀ i < flashTotal s, t.byte (slotBase 0 + i) = flashByte s.flc (flashCopy s + i)) ∧
        (∀ b, b < slotBase 0 ∨ slotBase 0 + flashTotal s ≤ b → t.byte b = s.byte b) ∧
        t.img.state = .reading ∧ t.img.boot = .loader ∧
        t.img.job = some { partialImg := false, verify := false, allowUnb := false, src := slotBase 0, prev := s.img.state, flash := true } ∧
        imgSrc t = slotBase 0) := by
  have hdue : flashCopyDue s = true := by simp [hactive, hboot, hready, hidle, hsnuff]
  have himg : (startJob false false false (flashCopied s)).img = startedImg false false false (slotBase 0) s.img := by
    rw [startJob_frame, imgSrc_flashCopied]
    rfl
  have hmem : (startJob false false false (flashCopied s)).mem = (flashCopied s).mem := by rw [startJob_frame]
  have hsrc : imgSrc (startJob false false false (flashCopied s)) = slotBase 0 := by rw [imgSrc_startJob, imgSrc_flashCopied]
  refine ⟨_, congrArg Host.Outcome.next (flashImageCopyEnd_due hdue), ?_⟩
  generalize startJob false false false (flashCopied s) = r at *
  have hbyte (g : Img → Img) (b : Nat) : (r.updImg g).byte b = (flashCopied s).byte b := congrArg (fun m => Tab.get memDefault m b) hmem
  obtain ⟨hcopied, hother⟩ := flashCopied_byte s
  refine ⟨fun i hi => ?_, fun b hb => ?_, ?_, ?_, ?_, hsrc⟩
  · rw [hbyte, hcopied i hi]
  · rw [hbyte, hother b hb]
  · exact congrArg Img.state himg
  · have hloader : (startedImg false false false (slotBase 0) s.img).boot = .loader := by simp [startedImg, hboot]
    exact (congrArg Img.boot himg).trans hloader
  · exact congrArg (fun i => i.job.map fun j => { j with flash := true }) himg

/-! ### The obligation -/

theorem readingEnd_idle {s : State} (h : stageJob .reading s = none) : readingEnd s = s := by rw [readingEnd, h]
theorem authEnd_idle {s : State} (h : stageJob .auth s = none) : authEnd s = s := by rw [authEnd, h]
theorem checkingEnd_idle {s : State} (h : stageJob .checking s = none) : checkingEnd s = s := by rw [checkingEnd, h]

/-- Settles O15: each stage is its equation by the verdict of its checks; `loadRejected_loadReject` is the end with a failing check, and
`copy_spec` the copy of READING. -/
theorem loadStages : Obligations.LoadStages := by
  refine fun s => ⟨fun h => ?_, fun j hstage => ⟨readingEnd s, rfl, ?_, fun hpass => ?_⟩, fun h => ?_, fun j r => authEnd_spec, fun h => ?_,
    fun j hstage => ⟨checkingEnd s, rfl, ?_, ?_, checkingEnd_spec hstage⟩, fun h => ?_, flashImageCopyEnd_spec⟩
  · exact congrArg Host.Outcome.next (readingEnd_idle h)
  · exact fun f hfail hflash => readingEnd_fail hstage hfail hflash
  · obtain ⟨hin, hout⟩ := readingEnd_copied hstage hpass
    obtain ⟨hstate, hjob, hframe⟩ := readingEnd_frame hstage hpass
    exact ⟨hstate, hjob, hin, hout, hframe⟩
  · exact congrArg Host.Outcome.next (authEnd_idle h)
  · exact congrArg Host.Outcome.next (checkingEnd_idle h)
  · exact fun f hcheck hflash => checkingEnd_fail hstage (.inl hcheck) hflash
  · exact fun f hcheck hbound hflash => checkingEnd_fail hstage (.inr ⟨hcheck, hbound⟩) hflash
  · exact congrArg Host.Outcome.next (flashImageCopyEnd_not_due h)

end Sys2Proof.Machine
end

section
/-! SUPPORT. The ledger's captures, and the end of a safe-load's bound check (R33, R106 to R109, R113, R191). -/
namespace Sys2Proof.Machine
open Sys2Proof

/-! ### An event, and a frame boundary -/

/-- A posted event shows in EVT. -/
theorem evt_rbit (b : Blk) {i : Nat} (hi : i < 32) (s : State) : (evt b i s).rbit (b.base + 0x40) i = true := by
  rw [State.rbit, evt_reg, if_pos rfl, bit_or, bit_bm_self hi, Bool.or_true]

theorem nextBoundary_frame (t : Nat) : nextBoundary t / 64 = t / 64 + 1 := Nat.mul_div_cancel_left _ (by decide)

theorem raise_tick (b : Blk) (i : Nat) (s : State) : (raise b i s).sys.tick = s.sys.tick := rfl

/-! ### What the cell stages of a bound check read (R107, R109) -/

theorem State.le_congr {s t : State} (h : t.mem = s.mem) (a n : Nat) : t.le a n = s.le a n := congrArg leNat (bytes_congr h a n)

theorem State.byte_congr {s t : State} (h : t.mem = s.mem) (a : Nat) : t.byte a = s.byte a := by rw [State.byte, State.byte, h]

theorem recordsFrom_congr {s t : State} (h : t.mem = s.mem) (base total fuel idx off : Nat) :
    recordsFrom t base total fuel idx off = recordsFrom s base total fuel idx off := by
  induction fuel generalizing idx off with
  | zero => rfl
  | succ fuel ih =>
    have hrec : recAt t base idx off = recAt s base idx off := by simp only [recAt, State.le_congr h, State.byte_congr h]
    simp only [recordsFrom, hrec, ih]

theorem findRec_congr {s t : State} (h : t.mem = s.mem) (base typ inst : Nat) : findRec t base typ inst = findRec s base typ inst := by
  simp only [findRec, imageRecords, headerAt_congr h, recordsFrom_congr h]

theorem storeRec_congr {s t : State} (hmem : t.mem = s.mem) (himg : t.img = s.img) (typ inst : Nat) :
    storeRec t typ inst = storeRec s typ inst := by
  simp only [storeRec, storeImages, himg, findRec_congr hmem]

theorem cellStages_congr {s t : State} (h : t.mem = s.mem) (a : Nat) (word : Nat → Nat) : cellStages t a word = cellStages s a word := by
  simp only [cellStages, cellStage, State.le_congr h, State.byte_congr h]

theorem currentCellStages_congr {s t : State} (hmem : t.mem = s.mem) (himg : t.img = s.img) (hfabric : t.fabric = s.fabric)
    (hcells : t.cells = s.cells) : currentCellStages t = currentCellStages s := by
  simp only [currentCellStages, storeRec_congr hmem himg, physOf, hfabric, State.cell, hcells, cellStages_congr hmem]

/-! ### The ledger's captures (R33, R106, R113) -/

/-- A slot number has 12 bits, so REC_SEL holds the whole of it. -/
theorem and_slotMask (j : Fin 4096) : wd j.val &&& 0xFFF = wd j.val := by
  have hj : j.val < 4096 := j.isLt
  apply BitVec.eq_of_toNat_eq
  rw [BitVec.toNat_and, wd, BitVec.toNat_ofNat, Nat.mod_eq_of_lt (by omega)]
  exact (Nat.and_two_pow_sub_one_eq_mod j.val 12).trans (Nat.mod_eq_of_lt hj)

theorem recSel_caps (m : Master) (j : Fin 4096) (s : State) (k : Nat) :
    Tab.get (fun _ => ({} : RecCap)) (recSel m (wd j.val) s).ldg.caps k =
      if k = m.idx then { (Tab.get (fun _ => ({} : Closed)) s.ldg.closed j.val).words with sel := wd j.val } else Tab.get (fun _ => {}) s.ldg.caps k := by
  have hslot : bits (wd j.val) 0 12 = j.val := bits_wd_low (by decide) j.isLt
  rw [recSel, hslot, and_slotMask]
  exact tab_get_set _ _ _ _ _

/-! ### The end of a safe-load's bound check (R108, R109, R191) -/

/-- What the check of a pending safe-load finds: the failing paths over the inactive bank and the cells. -/
def swapFails (s : State) : List BoundFail :=
  boundFails s.img.boundTab (matrixStages s.mxe.bounds (s.mxe.bank s.mxe.inactive) ++ currentCellStages s)

/-- The state in which the verdict of the check is acted on: no check runs, the result registers are written, BOUND_DONE is posted. -/
def checkShown (s : State) : State :=
  let fails := swapFails s
  evt .ldg 1 (boundResult true (s.mxe.swapUnb && fails != []) fails
    { s with mxe := { s.mxe with checking := false }, ldg := { s.ldg with busy := s.img.state == .checking } })

theorem boundCheckDone_idle {s : State} (h : s.mxe.swapPending = false ∨ s.mxe.checking = false) : boundCheckDone s = s := by
  have hidle : ¬ (s.mxe.swapPending && s.mxe.checking) = true := by rcases h with h | h <;> simp [h]
  exact if_neg hidle

theorem boundCheckDone_eq {s : State} (hpending : s.mxe.swapPending = true) (hcheck : s.mxe.checking = true) :
    boundCheckDone s =
      if hasDuplicate (s.mxe.bank s.mxe.inactive) then endSwap .duplicate (checkShown s)
      else if swapFails s != [] && !s.mxe.swapUnb then endSwap .bound (raise .ldg 3 (checkShown s))
      else ((checkShown s).updLdg fun g => { g with unbNext := (swapFails s).map (·.path) }).updMxe fun m => { m with swapDue := true } := by
  have hdue : (s.mxe.swapPending && s.mxe.checking) = true := by rw [hpending, hcheck]; rfl
  unfold boundCheckDone
  rw [if_pos hdue]
  extract_lets bank a u fails w v
  have hcells : currentCellStages u = currentCellStages s := currentCellStages_congr rfl rfl rfl rfl
  have hfails : fails = swapFails s := congrArg (fun c => boundFails s.img.boundTab (matrixStages s.mxe.bounds bank ++ c)) hcells
  clear_value fails
  subst hfails
  rfl

/-- What every verdict of the check keeps and shows, whatever becomes of the swap. -/
def CheckReported (s t : State) : Prop :=
  t = { s with regs := t.regs, sys := t.sys, mxe := t.mxe, ldg := t.ldg } ∧
    t.mxe.checking = false ∧ t.ldg.busy = (s.img.state == .checking) ∧ t.ldg.unbPaths = s.ldg.unbPaths ∧
    t.rbit (Blk.ldg.base + 0x40) 1 = true ∧ t.mxe.bank0 = s.mxe.bank0 ∧ t.mxe.bank1 = s.mxe.bank1

theorem checkShown_done (s : State) : (checkShown s).rbit (Blk.ldg.base + 0x40) 1 = true := evt_rbit .ldg (by decide) _

theorem checkReported_checkShown (s : State) : CheckReported s (checkShown s) :=
  ⟨rfl, rfl, rfl, rfl, checkShown_done s, rfl, rfl⟩

/-- A detection of BOUND hides nothing of what the check shows. -/
theorem checkReported_raise {s w : State} (h : CheckReported s w) : CheckReported s (raise .ldg 3 w) := by
  obtain ⟨hframe, hkept⟩ := h
  rw [CheckReported, raise_mxe, raise_ldg, State.rbit, raise_reg .ldg 3 _ _ (by decide) (by decide)]
  refine ⟨?_, hkept⟩
  refine (raise_frame .ldg 3 w).trans ?_
  generalize (raise .ldg 3 w).regs = regs
  generalize (raise .ldg 3 w).sys = sys
  rw [hframe]

/-- Nor does the end of the swap with a result. -/
theorem checkReported_endSwap {s w : State} (r : SwapResult) (h : CheckReported s w) : CheckReported s (endSwap r w) := by
  obtain ⟨hframe, -, -, hpaths, hevent, hbank0, hbank1⟩ := h
  have himg : w.img = s.img := (congrArg State.img hframe :)
  refine ⟨?_, rfl, congrArg (fun i : Img => i.state == .checking) himg, hpaths, hevent, hbank0, hbank1⟩
  rw [hframe]
  rfl

theorem boundCheckDone_duplicate {s : State} (hpending : s.mxe.swapPending = true) (hcheck : s.mxe.checking = true)
    (hdup : hasDuplicate (s.mxe.bank s.mxe.inactive) = true) : boundCheckDone s = endSwap .duplicate (checkShown s) := by
  rw [boundCheckDone_eq hpending hcheck, if_pos hdup]

theorem boundCheckDone_bound {s : State} {f : BoundFail} {r : List BoundFail} (hpending : s.mxe.swapPending = true)
    (hcheck : s.mxe.checking = true) (hdup : hasDuplicate (s.mxe.bank s.mxe.inactive) = false) (hfails : swapFails s = f :: r)
    (hunb : s.mxe.swapUnb = false) : boundCheckDone s = endSwap .bound (raise .ldg 3 (checkShown s)) := by
  have hfail : (swapFails s != [] && !s.mxe.swapUnb) = true := by rw [hfails, hunb]; rfl
  rw [boundCheckDone_eq hpending hcheck, hdup, if_neg Bool.false_ne_true, if_pos hfail]

theorem boundCheckDone_due {s : State} (hpending : s.mxe.swapPending = true) (hcheck : s.mxe.checking = true)
    (hdup : hasDuplicate (s.mxe.bank s.mxe.inactive) = false) (hpass : swapFails s = [] ∨ s.mxe.swapUnb = true) :
    boundCheckDone s =
      ((checkShown s).updLdg fun g => { g with unbNext := (swapFails s).map (·.path) }).updMxe fun m => { m with swapDue := true } := by
  have hfail : ¬ (swapFails s != [] && !s.mxe.swapUnb) = true := by rcases hpass with h | h <;> simp [h]
  rw [boundCheckDone_eq hpending hcheck, hdup, if_neg Bool.false_ne_true, if_neg hfail]

/-- The result registers name the first failing path and its H (Table 4.12). -/
theorem checkShown_first {s : State} {f : BoundFail} {r : List BoundFail} (h : swapFails s = f :: r) :
    (checkShown s).ldg.resFail = true ∧ (checkShown s).ldg.resPath = f.path ∧ (checkShown s).ldg.boundSum = f.h := by
  rw [checkShown, h]
  exact ⟨rfl, rfl, rfl⟩

theorem checkReported_boundCheckDone {s : State} (hpending : s.mxe.swapPending = true) (hcheck : s.mxe.checking = true) :
    CheckReported s (boundCheckDone s) := by
  rw [boundCheckDone_eq hpending hcheck]
  have hshown := checkReported_checkShown s
  split
  · exact checkReported_endSwap .duplicate hshown
  · split
    · exact checkReported_endSwap .bound (checkReported_raise hshown)
    · exact ⟨rfl, rfl, rfl, rfl, checkShown_done s, rfl, rfl⟩

/-- Settles O33: the two captures are each a write of one table entry; of a check `checkReported_boundCheckDone` is what every verdict
shows, and one equation for each verdict says what becomes of the swap. -/
theorem ledgerAndBoundCheck : Obligations.LedgerAndBoundCheck := by
  refine fun s => ⟨fun m hreach => ⟨fun j => ⟨_, rfl, ?_⟩, ⟨_, rfl, ?_⟩⟩, fun h => ?_, fun hpending hcheck => ⟨boundCheckDone s, rfl, ?_⟩⟩
  · rw [cmd_ok hreach (.inl rfl)]
    exact ⟨resp_respond_same .., rfl, recSel_caps m j s⟩
  · rw [rdCmd_ok hreach]
    exact ⟨resp_respond_same .., rfl, fun k => tab_get_set (fun _ => 0) s.ldg.winHi m.idx k _⟩
  · exact congrArg Host.Outcome.next (boundCheckDone_idle h)
  · obtain ⟨hframe, hdone, hbusy, hpaths, hevent, hbank0, hbank1⟩ := checkReported_boundCheckDone hpending hcheck
    refine ⟨hframe, hdone, hbusy, hpaths, hevent, hbank0, hbank1, fun hdup => ?_, fun f r hdup hfails hunb => ?_, fun hdup hpass => ?_⟩
    · rw [boundCheckDone_duplicate hpending hcheck hdup]
      exact ⟨rfl, rfl⟩
    · rw [boundCheckDone_bound hpending hcheck hdup hfails hunb]
      obtain ⟨hfail, hpath, hsum⟩ := checkShown_first hfails
      exact ⟨rfl, rfl, hfail, hpath, hsum, raise_fault .ldg 3 _ (by decide)⟩
    · rw [boundCheckDone_due hpending hcheck hdup hpass]
      exact ⟨hpending, rfl, rfl⟩

end Sys2Proof.Machine
end

section
/-! SUPPORT. The loss of a sense input, and the calibration of a sense channel (R110, R350, R351). -/
namespace Sys2Proof.Machine
open Sys2Proof

/-! ### A field written into a word -/

theorem bits_testBit (w : Word) (lo n i : Nat) : (bits w lo n).testBit i = (decide (i < n) && w.toNat.testBit (lo + i)) := by
  rw [bits, Nat.testBit_mod_two_pow, Nat.testBit_div_two_pow, Nat.add_comm]

theorem setBits_testBit (w : Word) (lo n v i : Nat) (hi : i < 32) :
    (setBits w lo n v).toNat.testBit i = if lo ≤ i ∧ i < lo + n then v.testBit (i - lo) else w.toNat.testBit i := by
  have hmask : ((2 ^ n - 1) * 2 ^ lo).testBit i = decide (lo ≤ i ∧ i < lo + n) := by
    rw [Nat.testBit_mul_two_pow, Nat.testBit_two_pow_sub_one]
    by_cases h : lo ≤ i
    · simp [h]; omega
    · simp [h]
  have hfield : ((v % 2 ^ n) * 2 ^ lo).testBit i = (decide (lo ≤ i ∧ i < lo + n) && v.testBit (i - lo)) := by
    rw [Nat.testBit_mul_two_pow, Nat.testBit_mod_two_pow]
    by_cases h : lo ≤ i
    · have : i - lo < n ↔ i < lo + n := by omega
      simp [h, this]
    · simp [h]
  rw [BitVec.testBit_toNat, BitVec.testBit_toNat]
  simp only [setBits, wd, BitVec.getLsbD_or, BitVec.getLsbD_and, BitVec.getLsbD_not, BitVec.getLsbD_ofNat, hi, hmask, hfield]
  by_cases hin : lo ≤ i ∧ i < lo + n
  · rw [if_pos hin, decide_eq_true hin]
    simp
  · rw [if_neg hin, decide_eq_false hin]
    simp

/-- A field outside the written one keeps its value. -/
theorem bits_setBits_above {w : Word} {lo n v lo' n' : Nat} (habove : lo + n ≤ lo') (hword : lo' + n' ≤ 32) :
    bits (setBits w lo n v) lo' n' = bits w lo' n' := by
  refine Nat.eq_of_testBit_eq fun i => ?_
  rw [bits_testBit, bits_testBit]
  by_cases hi : i < n'
  · rw [setBits_testBit w lo n v _ (by omega), if_neg (by omega)]
  · simp [hi]

/-- The written field reads back. -/
theorem bits_setBits_same {w : Word} {lo n v : Nat} (hword : lo + n ≤ 32) (hv : v < 2 ^ n) : bits (setBits w lo n v) lo n = v := by
  refine Nat.eq_of_testBit_eq fun i => ?_
  rw [bits_testBit]
  by_cases hi : i < n
  · rw [setBits_testBit w lo n v _ (by omega), if_pos (by omega), Nat.add_sub_cancel_left]
    simp [hi]
  · rw [Nat.testBit_lt_two_pow (hv.trans_le (Nat.pow_le_pow_right (by decide) (by omega)))]
    simp [hi]

/-! ### The calibration (R351) -/

/-- The calibration alone changes. -/
def updCal (f : Cal → Cal) (s : State) : State := updLsp (fun l => { l with cal := f l.cal }) s

/-- KIND and INDEX that name no sense channel (Table 14.1). -/
abbrev Unnamed (kind idx : Nat) : Prop := 3 ≤ kind ∨ (kind = 2 ∧ 4 ≤ idx)

/-- ZERO_DONE after a command for a sense channel: it lasts for the same one only. -/
def Cal.commanded (c : Cal) (kind idx : Nat) : Cal := { c with zeroDone := c.zeroDone && (c.kind == kind && c.index == idx) }

/-- The sum that starts at frame f, of a reference or of zero. -/
def Cal.summing (c : Cal) (isRef : Bool) (f : Nat) : Cal :=
  { c with busy := true, isRef := isRef, from_ := f, count := 0, s0 := if isRef then c.s0 else 0, s1 := if isRef then 0 else c.s1 }

section
variable {isRef : Bool} {kind idx : Nat} {s : State}

theorem calStart_unnamed (h : Unnamed kind idx) : calStart isRef kind idx s = updCal id s := if_pos h

theorem calStart_busy (hname : ¬ Unnamed kind idx) (hbusy : s.lsp.cal.busy = true) :
    calStart isRef kind idx s = updCal (fun c => { c.commanded kind idx with result := 2 }) s :=
  (if_neg hname).trans (if_pos hbusy)

theorem calStart_noZero (hname : ¬ Unnamed kind idx) (hbusy : s.lsp.cal.busy = false)
    (hzero : (s.lsp.cal.commanded kind idx).zeroDone = false) :
    calStart true kind idx s = updCal (fun c => { c.commanded kind idx with kind := kind, index := idx, result := 3 }) s := by
  refine (if_neg hname).trans ((if_neg (Bool.eq_false_iff.mp hbusy)).trans (if_pos ?_))
  exact congrArg (fun z => true && !z) hzero

/-- The condition under which a command that is not BUSY is not NO_ZERO. -/
abbrev ZeroReady (isRef : Bool) (kind idx : Nat) (s : State) : Prop := isRef = true → (s.lsp.cal.commanded kind idx).zeroDone = true

/-- ZERO needs no sum before it. -/
theorem zeroReady_zero : ZeroReady false kind idx s := fun h => absurd h Bool.false_ne_true

theorem not_noZero (h : ZeroReady isRef kind idx s) : ¬ (isRef && !(s.lsp.cal.commanded kind idx).zeroDone) = true := by
  cases isRef with
  | false => exact Bool.false_ne_true
  | true => rw [h rfl]; exact Bool.false_ne_true

theorem calStart_notOff (hname : ¬ Unnamed kind idx) (hbusy : s.lsp.cal.busy = false) (hzero : ZeroReady isRef kind idx s)
    (hoff : calOff s kind idx = false) :
    calStart isRef kind idx s = updCal (fun c => { c.commanded kind idx with kind := kind, index := idx, result := 4 }) s := by
  refine (if_neg hname).trans ((if_neg (Bool.eq_false_iff.mp hbusy)).trans ((if_neg (not_noZero hzero)).trans (if_pos ?_)))
  exact congrArg not hoff

theorem calStart_sums (hname : ¬ Unnamed kind idx) (hbusy : s.lsp.cal.busy = false) (hzero : ZeroReady isRef kind idx s)
    (hoff : calOff s kind idx = true) :
    calStart isRef kind idx s =
      updCal (fun c => Cal.summing { c.commanded kind idx with kind := kind, index := idx } isRef (s.sys.tick / 64 + 1)) s := by
  have hnot : ¬ (!calOff s kind idx) = true := by rw [hoff]; exact Bool.false_ne_true
  rw [← nextBoundary_frame]
  exact (if_neg hname).trans ((if_neg (Bool.eq_false_iff.mp hbusy)).trans ((if_neg (not_noZero hzero)).trans (if_neg hnot)))

/-- A calibration command changes the calibration alone, or nothing. -/
theorem calStart_updCal : ∃ f, calStart isRef kind idx s = updCal f s := by
  by_cases hname : Unnamed kind idx
  · exact ⟨_, calStart_unnamed hname⟩
  cases hbusy : s.lsp.cal.busy with
  | true => exact ⟨_, calStart_busy hname hbusy⟩
  | false =>
    by_cases hzero : ZeroReady isRef kind idx s
    · cases hoff : calOff s kind idx with
      | false => exact ⟨_, calStart_notOff hname hbusy hzero hoff⟩
      | true => exact ⟨_, calStart_sums hname hbusy hzero hoff⟩
    · obtain ⟨rfl, hnone⟩ := Classical.not_imp.mp hzero
      exact ⟨_, calStart_noZero hname hbusy (Bool.eq_false_iff.mpr hnone)⟩

theorem calCancelOp_busy (h : s.lsp.cal.busy = true) :
    calCancelOp kind idx s = updCal (fun c => { c with busy := false, result := 5, zeroDone := false }) s := if_pos h

theorem calCancelOp_idle (h : s.lsp.cal.busy = false) :
    calCancelOp kind idx s = updCal (fun c => { c.commanded kind idx with result := 8 }) s := if_neg (Bool.eq_false_iff.mp h)

end

theorem calOff_iff {s : State} {kind idx : Nat} :
    calOff s kind idx = true ↔ kind = 2 ∨ ((s.mod idx).st = .off ∧ (s.mod idx).en = false) := by
  simp [calOff]

theorem calOff_eq_false {s : State} {kind idx : Nat} (h : ¬ (kind = 2 ∨ ((s.mod idx).st = .off ∧ (s.mod idx).en = false))) :
    calOff s kind idx = false := Bool.eq_false_iff.mpr (calOff_iff.not.mpr h)

/-! ### A write of CAL_CTRL -/

/-- CAL_CTRL (Table 14.1). -/
abbrev calCtrl : Nat := Blk.lsp.base + 0x20

/-- CAL_CTRL holds the KIND and INDEX of a command. -/
def calCommanded (v : Word) (s : State) : State := s.setReg calCtrl (v &&& 0x1F30)

/-- What every command of CAL_CTRL keeps. -/
def CalWrote (m : Master) (s t : State) : Prop :=
  t.resp m = ⟨.ok, []⟩ ∧ t = { s with bus := t.bus, regs := t.regs, lsp := { s.lsp with cal := t.lsp.cal } } ∧
    ∀ a, a ≠ calCtrl → t.reg a = s.reg a

theorem calWrote_updCal (m : Master) (f : Cal → Cal) (v : Word) (s : State) :
    CalWrote m s (respond m .ok [] (updCal f (calCommanded v s))) :=
  ⟨resp_respond_same .., rfl, fun _ ha => reg_setReg_ne s _ ha⟩

/-- The operation that the CMD field of CAL_CTRL names (Table 14.1). -/
def calOp (c kind idx : Nat) (s : State) : State :=
  match c with
  | 1 => calStart false kind idx s
  | 2 => calStart true kind idx s
  | 3 => calCancelOp kind idx s
  | _ => s

theorem calWrite_eq (v : Word) {c : Nat} (hc : c < 4) (s : State) :
    calWrite (setBits v 0 2 c) s = calOp c (bits v 4 2) (bits v 8 5) (calCommanded (setBits v 0 2 c) s) := by
  unfold calWrite
  rw [bits_setBits_same (by decide) hc, bits_setBits_above (by decide) (by decide), bits_setBits_above (by decide) (by decide)]
  rfl

/-- An admitted write of command c to CAL_CTRL is the operation of c and the answer OK. -/
theorem cmd_calWrite {m : Master} {s : State} (hmay : MayWrite m s) (v : Word) {c : Nat} (hc : c < 4) :
    cmd m true (calWrite (setBits v 0 2 c)) s =
      respond m .ok [] (calOp c (bits v 4 2) (bits v 8 5) (calCommanded (setBits v 0 2 c) s)) :=
  (mayWrite_cmd _ hmay).trans (congrArg (respond m .ok []) (calWrite_eq v hc s))

theorem exec_calZero {m : Master} {s : State} (hmay : MayWrite m s) (v : Word) : exec (.calZero m v) s =
    .next (respond m .ok [] (calStart false (bits v 4 2) (bits v 8 5) (calCommanded (setBits v 0 2 1) s))) :=
  congrArg Host.Outcome.next (cmd_calWrite hmay v (c := 1) (by decide))

theorem exec_calRef {m : Master} {s : State} (hmay : MayWrite m s) (v : Word) : exec (.calRef m v) s =
    .next (respond m .ok [] (calStart true (bits v 4 2) (bits v 8 5) (calCommanded (setBits v 0 2 2) s))) :=
  congrArg Host.Outcome.next (cmd_calWrite hmay v (c := 2) (by decide))

/-- CANCEL is written with the KIND and INDEX that CAL_CTRL holds. -/
theorem exec_calCancel {m : Master} {s : State} (hmay : MayWrite m s) : exec (.calCancel m) s =
    .next (respond m .ok [] (calCancelOp (bits (s.reg calCtrl) 4 2) (bits (s.reg calCtrl) 8 5)
      (calCommanded (setBits (s.reg calCtrl) 0 2 3) s))) :=
  congrArg Host.Outcome.next ((mayWrite_cmd _ hmay).trans (congrArg (respond m .ok []) (calWrite_eq (s.reg calCtrl) (c := 3) (by decide) s)))

/-! ### The end of a sum (R110, R351) -/

/-- The offset register of a sense channel; its gain register is the next one. -/
def trimReg (kind idx : Nat) : Nat :=
  match kind with
  | 0 => spkReg idx 0x08
  | 1 => spkReg idx 0x10
  | _ => Blk.pwr.base + 0x104 + 0x10 * idx

/-- The trim registers are none of the registers that the end of a sum changes besides them: EVT, FAULT_STATUS, the counter of CAL_RANGE. -/
theorem trimReg_ne {kind idx b : Nat} (hb : b = Blk.lsp.base + 0x40 ∨ b = Blk.lsp.base + 0x80 ∨ b = Blk.lsp.base + 0x90 + 4 * 0) :
    trimReg kind idx ≠ b ∧ trimReg kind idx + 4 ≠ b := by
  unfold trimReg
  split <;> simp only [spkReg, Blk.base] at * <;> omega

/-- REF of the kind that is calibrated (R110). -/
def calReference (s : State) : Int := sInt 20 (s.fld (Blk.lsp.base + 0x28 + 4 * s.lsp.cal.kind) 0 20)

/-- The gain of R110 from the two sums and REF. -/
def calGain (s : State) : Int := rneDiv (calReference s * 2 ^ 34) (s.lsp.cal.s1 - s.lsp.cal.s0)

/-- The trims are in the ranges of R110. -/
abbrev TrimsOk (s : State) : Prop := 0 < s.lsp.cal.s1 - s.lsp.cal.s0 ∧ 2 ^ 21 ≤ calGain s ∧ calGain s < 2 ^ 23

/-- The sum has ended and its event is posted. -/
def refSummed (s : State) : State := evt .lsp 1 (updCal (fun c => { c with busy := false }) s)

theorem refSummed_event (s : State) : (refSummed s).rbit (Blk.lsp.base + 0x40) 1 = true := evt_rbit .lsp (by decide) _

theorem refSummed_reg {a : Nat} (h : a ≠ Blk.lsp.base + 0x40) (s : State) : (refSummed s).reg a = s.reg a := by
  rw [refSummed, evt_reg, if_neg h]
  rfl

/-- The second sum is complete. -/
abbrev RefDue (s : State) : Prop := s.lsp.cal.busy = true ∧ s.lsp.cal.isRef = true ∧ s.lsp.cal.count = 4096

theorem refDue_iff (s : State) : (s.lsp.cal.busy && s.lsp.cal.isRef && s.lsp.cal.count == 4096) = true ↔ RefDue s := by
  simp [RefDue, and_assoc]

theorem calRefDone_not_due {s : State} (h : ¬ RefDue s) : calRefDone s = s := if_neg ((refDue_iff s).not.mpr h)

theorem calRefDone_due {s : State} (h : RefDue s) :
    calRefDone s = (match calTrims s.lsp.cal.s0 s.lsp.cal.s1 (calReference s) with
      | some (off, gain) => calResult 1 (writeTrims s.lsp.cal.kind s.lsp.cal.index off gain (refSummed s))
      | none => raise .lsp 0 (calResult 7 (refSummed s))) := if_pos ((refDue_iff s).mpr h)

theorem calTrims_ok {s : State} (h : TrimsOk s) :
    calTrims s.lsp.cal.s0 s.lsp.cal.s1 (calReference s) = some (rneDiv s.lsp.cal.s0 256, (calGain s).toNat) := by
  obtain ⟨hsum, hlow, hhigh⟩ := h
  rw [calTrims, if_neg (by omega)]
  exact if_neg (not_or.mpr ⟨not_lt.mpr hlow, not_le.mpr hhigh⟩)

theorem calTrims_range {s : State} (h : ¬ TrimsOk s) :
    calTrims s.lsp.cal.s0 s.lsp.cal.s1 (calReference s) = none := by
  unfold calTrims
  split
  next => rfl
  next hsum =>
    refine if_pos ?_
    by_contra hgain
    obtain ⟨hlow, hhigh⟩ := not_or.mp hgain
    exact h ⟨by omega, not_lt.mp hlow, not_le.mp hhigh⟩

theorem calRefDone_ok {s : State} (hdue : RefDue s) (hok : TrimsOk s) :
    calRefDone s = calResult 1 (writeTrims s.lsp.cal.kind s.lsp.cal.index (rneDiv s.lsp.cal.s0 256) (calGain s).toNat (refSummed s)) := by
  rw [calRefDone_due hdue, calTrims_ok hok]

theorem calRefDone_range {s : State} (hdue : RefDue s) (hrange : ¬ TrimsOk s) :
    calRefDone s = raise .lsp 0 (calResult 7 (refSummed s)) := by
  rw [calRefDone_due hdue, calTrims_range hrange]

theorem writeTrims_reg (kind idx : Nat) (off : Int) (gain : Nat) (s : State) (b : Nat) :
    (writeTrims kind idx off gain s).reg b =
      if b = trimReg kind idx + 4 then wd gain else if b = trimReg kind idx then wd (uInt 24 off) else s.reg b := by
  show ((s.setReg (trimReg kind idx) _).setReg (trimReg kind idx + 4) _).reg b = _
  rw [reg_setReg, reg_setReg]

/-- In range, the trims are written to the registers of the sense channel, and besides them only EVT changes. -/
theorem calRefDone_ok_spec {s : State} (hdue : RefDue s) (hok : TrimsOk s) :
    let t := calRefDone s
    let a := trimReg s.lsp.cal.kind s.lsp.cal.index
    t.rbit (Blk.lsp.base + 0x40) 1 = true ∧
      t = { s with regs := t.regs, lsp := { s.lsp with cal := { s.lsp.cal with busy := false, result := 1 } } } ∧
      t.reg a = wd (uInt 24 (rneDiv s.lsp.cal.s0 256)) ∧ t.reg (a + 4) = wd (calGain s).toNat ∧
      ∀ b, b ≠ a → b ≠ a + 4 → b ≠ Blk.lsp.base + 0x40 → t.reg b = s.reg b := by
  intro t a
  have hreg (b : Nat) : t.reg b = if b = a + 4 then wd (calGain s).toNat else
      if b = a then wd (uInt 24 (rneDiv s.lsp.cal.s0 256)) else (refSummed s).reg b := by
    show (calRefDone s).reg b = _
    rw [calRefDone_ok hdue hok]
    exact writeTrims_reg ..
  obtain ⟨hevt, hevt4⟩ : a ≠ Blk.lsp.base + 0x40 ∧ a + 4 ≠ Blk.lsp.base + 0x40 := trimReg_ne (.inl rfl)
  refine ⟨?_, ?_, ?_, ?_, fun b hb hb4 hbevt => ?_⟩
  · rw [State.rbit, hreg, if_neg hevt4.symm, if_neg hevt.symm]
    exact refSummed_event s
  · show calRefDone s = { s with regs := (calRefDone s).regs, lsp := _ }
    rw [calRefDone_ok hdue hok]
    rfl
  · rw [hreg, if_neg (by omega), if_pos rfl]
  · rw [hreg, if_pos rfl]
  · rw [hreg, if_neg hb4, if_neg hb, refSummed_reg hbevt]

/-- Out of range, CAL_RANGE is detected and the trims stay. -/
theorem calRefDone_range_spec {s : State} (hdue : RefDue s) (hrange : ¬ TrimsOk s) :
    let t := calRefDone s
    let a := trimReg s.lsp.cal.kind s.lsp.cal.index
    t.rbit (Blk.lsp.base + 0x40) 1 = true ∧
      t = { s with regs := t.regs, sys := t.sys, lsp := { s.lsp with cal := { s.lsp.cal with busy := false, result := 7 } } } ∧
      t.faultBit .lsp 0 = true ∧ t.reg a = s.reg a ∧ t.reg (a + 4) = s.reg (a + 4) := by
  dsimp only
  have hkeep (b : Nat) (hevt : b ≠ Blk.lsp.base + 0x40) (hstatus : b ≠ Blk.lsp.base + 0x80) (hcount : b ≠ Blk.lsp.base + 0x90 + 4 * 0) :
      (raise .lsp 0 (calResult 7 (refSummed s))).reg b = s.reg b :=
    (raise_reg .lsp 0 b _ hstatus hcount).trans (refSummed_reg hevt s)
  obtain ⟨hevt, hevt4⟩ := trimReg_ne (kind := s.lsp.cal.kind) (idx := s.lsp.cal.index) (.inl rfl)
  obtain ⟨hstatus, hstatus4⟩ := trimReg_ne (kind := s.lsp.cal.kind) (idx := s.lsp.cal.index) (.inr (.inl rfl))
  obtain ⟨hcount, hcount4⟩ := trimReg_ne (kind := s.lsp.cal.kind) (idx := s.lsp.cal.index) (.inr (.inr rfl))
  rw [calRefDone_range hdue hrange]
  refine ⟨?_, raise_frame .lsp 0 _, raise_fault .lsp 0 _ (by decide), hkeep _ hevt hstatus hcount, hkeep _ hevt4 hstatus4 hcount4⟩
  rw [State.rbit, raise_reg .lsp 0 _ _ (by decide) (by decide)]
  exact refSummed_event s

/-- The first sum is complete. -/
abbrev ZeroDue (s : State) : Prop := s.lsp.cal.busy = true ∧ s.lsp.cal.isRef = false ∧ s.lsp.cal.count = 4096

theorem zeroDue_iff (s : State) : (s.lsp.cal.busy && !s.lsp.cal.isRef && s.lsp.cal.count == 4096) = true ↔ ZeroDue s := by
  simp [ZeroDue, and_assoc]

theorem calZeroDone_not_due {s : State} (h : ¬ ZeroDue s) : calZeroDone s = s := if_neg ((zeroDue_iff s).not.mpr h)

theorem calZeroDone_due {s : State} (h : ZeroDue s) :
    calZeroDone s = evt .lsp 0 (updCal (fun c => { c with busy := false, zeroDone := true, result := 1 }) s) := if_pos ((zeroDue_iff s).mpr h)

/-! ### The loss of a sense input (R350) -/

theorem sns_updSns (s : State) (i j : Nat) (f : Sense → Sense) : (updSns i f s).sns j = if j = i then f (s.sns i) else s.sns j :=
  tab_get_set _ s.lsp.sns i j _

/-- An input in use that has given 4 × D identical bits. -/
abbrev SenseDead (i : Nat) (s : State) : Prop :=
  i < 68 ∧ snsL s (snsGroup i) ≠ 0 ∧ (s.sns i).lost = false ∧ 4 * 2 ^ snsL s (snsGroup i) ≤ (s.sns i).run

/-- The input is lost and its reading is 0. -/
def senseDropped (i : Nat) (s : State) : State := updSns i (fun x => { x with lost := true, r := 0 }) (raise .lsp 1 s)

/-- The channel of ISNS or VSNS i drops its blocks in progress; a rail input has no channel. -/
def blocksDropped (i : Nat) (s : State) : State := if i < 64 then lspBlocksOff (i % 32) s else s

/-- A calibration sum of the input ends with DISTURBED. -/
def calDisturbed (i : Nat) (s : State) : State := if s.lsp.cal.busy && calInput s.lsp.cal == i then calEnd 6 s else s

theorem loseSense_eq (i : Nat) (s : State) : loseSense i s = calDisturbed i (blocksDropped i (senseDropped i s)) := rfl

section
variable (i : Nat) (s : State)

theorem senseDropped_frame :
    senseDropped i s = { s with regs := (raise .lsp 1 s).regs, sys := (raise .lsp 1 s).sys, lsp := (senseDropped i s).lsp } := by
  rw [senseDropped, raise_frame]
  rfl

theorem senseDropped_cal : (senseDropped i s).lsp.cal = s.lsp.cal := by simp [senseDropped, updSns, updLsp]

theorem senseDropped_spk (k : Nat) : (senseDropped i s).spk k = s.spk k := by simp [State.spk, senseDropped, updSns, updLsp]

theorem senseDropped_sns (j : Nat) : (senseDropped i s).sns j = if j = i then { s.sns i with lost := true, r := 0 } else s.sns j := by
  have hraise (k : Nat) : (raise .lsp 1 s).sns k = s.sns k := by simp [State.sns]
  rw [senseDropped, sns_updSns, hraise, hraise]

theorem blocksDropped_frame : blocksDropped i s = { s with lsp := { s.lsp with chs := (blocksDropped i s).lsp.chs } } := by
  unfold blocksDropped
  split <;> rfl

theorem blocksDropped_spk (k : Nat) :
    (blocksDropped i s).spk k = if i < 64 ∧ k = i % 32 then { s.spk k with estOk := false, supOk := false } else s.spk k := by
  unfold blocksDropped
  by_cases hi : i < 64
  · rw [if_pos hi, lspBlocksOff, spk_updSpk]
    by_cases hk : k = i % 32
    · rw [if_pos hk, if_pos ⟨hi, hk⟩, hk]
    · rw [if_neg hk, if_neg fun h => hk h.2]
  · rw [if_neg hi, if_neg fun h => hi h.1]

theorem calDisturbed_frame : calDisturbed i s = { s with lsp := { s.lsp with cal := (calDisturbed i s).lsp.cal } } := by
  unfold calDisturbed
  split <;> rfl

variable {i s}

theorem calDisturbed_same (hbusy : s.lsp.cal.busy = true) (hinput : calInput s.lsp.cal = i) :
    (calDisturbed i s).lsp.cal = { s.lsp.cal with busy := false, result := 6 } := by
  have h : (s.lsp.cal.busy && calInput s.lsp.cal == i) = true := by simp [hbusy, hinput]
  rw [calDisturbed, if_pos h]
  rfl

theorem calDisturbed_other (hother : s.lsp.cal.busy = false ∨ calInput s.lsp.cal ≠ i) : (calDisturbed i s).lsp.cal = s.lsp.cal := by
  have h : ¬ (s.lsp.cal.busy && calInput s.lsp.cal == i) = true := by rcases hother with h | h <;> simp [h]
  rw [calDisturbed, if_neg h]

end

theorem senseLost_not_due {i : Nat} {s : State} (h : ¬ SenseDead i s) : senseLost i s = s := if_neg h

/-- What the loss of an input does: its detection, its reading, its channel's blocks, its calibration sum. -/
theorem senseLost_spec {i : Nat} {s : State} (h : SenseDead i s) :
    let t := senseLost i s
    t = { s with regs := t.regs, sys := t.sys, lsp := t.lsp } ∧ t.sys.tick = s.sys.tick ∧ t.faultBit .lsp 1 = true ∧
      t.sns i = { s.sns i with lost := true, r := 0 } ∧ (∀ j, j ≠ i → t.sns j = s.sns j) ∧
      (∀ k, t.spk k = if i < 64 ∧ k = i % 32 then { s.spk k with estOk := false, supOk := false } else s.spk k) ∧
      (s.lsp.cal.busy = true → 32 * s.lsp.cal.kind + s.lsp.cal.index = i → t.lsp.cal = { s.lsp.cal with busy := false, result := 6 }) ∧
      (s.lsp.cal.busy = false ∨ 32 * s.lsp.cal.kind + s.lsp.cal.index ≠ i → t.lsp.cal = s.lsp.cal) := by
  have hlost : senseLost i s = calDisturbed i (blocksDropped i (senseDropped i s)) := (if_pos h).trans (loseSense_eq i s)
  have hdrop := senseDropped_frame i s
  have hblocks := blocksDropped_frame i (senseDropped i s)
  have hframe := calDisturbed_frame i (blocksDropped i (senseDropped i s))
  have hcal : (blocksDropped i (senseDropped i s)).lsp.cal = s.lsp.cal := by rw [hblocks, senseDropped_cal]
  have hsns (j : Nat) : (senseLost i s).sns j = (senseDropped i s).sns j := by rw [hlost, hframe, hblocks]; rfl
  have hspk (k : Nat) : (senseLost i s).spk k = (blocksDropped i (senseDropped i s)).spk k := by rw [hlost, hframe]; rfl
  have hregs : (senseLost i s).regs = (raise .lsp 1 s).regs := by rw [hlost, hframe, hblocks, hdrop]
  have hsys : (senseLost i s).sys = (raise .lsp 1 s).sys := by rw [hlost, hframe, hblocks, hdrop]
  refine ⟨?_, ?_, ?_, ?_, fun j hj => ?_, fun k => ?_, fun hbusy hinput => ?_, fun hother => ?_⟩
  · rw [hlost, hframe, hblocks, hdrop]
  · exact (congrArg Sys.tick hsys).trans (raise_tick .lsp 1 s)
  · exact (rbit_congr hregs _ _).trans (raise_fault .lsp 1 s (by decide))
  · rw [hsns, senseDropped_sns, if_pos rfl]
  · rw [hsns, senseDropped_sns, if_neg hj]
  · rw [hspk, blocksDropped_spk, senseDropped_spk]
  · rw [hlost, calDisturbed_same (by rw [hcal, hbusy]) (by rw [hcal]; exact hinput), hcal]
  · rw [hlost, calDisturbed_other (by rw [hcal]; exact hother), hcal]

/-- A toggle ends the loss of an input and its run of bits; one that is not lost stays as it is. -/
theorem sense_toggled (x : Sense) :
    { x with lost := false, bit := if x.lost then !x.bit else x.bit, run := if x.lost then 1 else x.run } =
      if x.lost = true then { x with lost := false, bit := !x.bit, run := 1 } else x := by
  cases x with
  | mk _ _ _ _ _ _ _ _ lost => cases lost <;> rfl

theorem senseInputRestored_sns (i : Nat) (s : State) :
    ∃ t, exec (.senseInputRestored i) s = .next t ∧ t = { s with lsp := { s.lsp with sns := t.lsp.sns } } ∧
      t.sns i = (if (s.sns i).lost = true then { s.sns i with lost := false, bit := !(s.sns i).bit, run := 1 } else s.sns i) ∧
      ∀ j, j ≠ i → t.sns j = s.sns j := by
  refine ⟨_, rfl, rfl, ?_, fun j hj => ?_⟩
  · rw [sns_updSns, if_pos rfl]
    exact sense_toggled (s.sns i)
  · rw [sns_updSns, if_neg hj]

/-! ### The obligation -/

theorem named_iff {kind idx : Nat} : (kind < 2 ∨ (kind = 2 ∧ idx < 4)) ↔ ¬ Unnamed kind idx := by
  unfold Unnamed
  omega

/-- Every command for a sense channel leaves all but the calibration and CAL_CTRL. -/
theorem calWrote_calStart (m : Master) (isRef : Bool) (kind idx : Nat) (v : Word) (s : State) :
    CalWrote m s (respond m .ok [] (calStart isRef kind idx (calCommanded v s))) := by
  obtain ⟨f, hf⟩ := calStart_updCal (isRef := isRef) (kind := kind) (idx := idx) (s := calCommanded v s)
  rw [hf]
  exact calWrote_updCal m f v s

theorem calWrote_calCancelOp (m : Master) (kind idx : Nat) (v : Word) (s : State) :
    CalWrote m s (respond m .ok [] (calCancelOp kind idx (calCommanded v s))) := by
  cases hbusy : (calCommanded v s).lsp.cal.busy with
  | true => rw [calCancelOp_busy hbusy]; exact calWrote_updCal m _ v s
  | false => rw [calCancelOp_idle hbusy]; exact calWrote_updCal m _ v s

/-- The calibration that an operation of CAL_CTRL leaves. -/
theorem calAfter_of_eq {m : Master} {s t : State} {v : Word} {f : Cal → Cal} (h : t = updCal f (calCommanded v s)) :
    (respond m .ok [] t).lsp.cal = f s.lsp.cal := by
  rw [h]
  rfl

/-- Settles O47: of the commands each answer of `calStart` and `calCancelOp` is an equation on the calibration; the ends of the sums and the
loss of an input are `calZeroDone_due`, `calRefDone_ok_spec`, `calRefDone_range_spec` and `senseLost_spec`. -/
theorem sensingAndCalibration : Obligations.SensingAndCalibration := by
  intro s m i v
  refine ⟨⟨fun h => ?_, fun h => ⟨_, rfl, senseLost_spec h⟩⟩, senseInputRestored_sns i s, fun hmay => ⟨?_, ?_, ?_⟩,
    ⟨fun h => ?_, fun h => ⟨_, rfl, ?_⟩⟩, ⟨fun h => ?_, fun h => ⟨_, rfl, ?_⟩⟩⟩
  · exact congrArg Host.Outcome.next (senseLost_not_due h)
  · refine ⟨_, exec_calZero hmay v, calWrote_calStart .., fun h => ?_, fun h hbusy => ?_, fun h hbusy hoff => ?_, fun h hbusy hoff => ?_⟩
    · exact (calAfter_of_eq (calStart_unnamed (not_not.mp (named_iff.not.mp h))) :)
    · exact (calAfter_of_eq (calStart_busy (named_iff.mp h) hbusy) :)
    · exact (calAfter_of_eq (calStart_notOff (named_iff.mp h) hbusy zeroReady_zero (calOff_eq_false hoff)) :)
    · exact (calAfter_of_eq (calStart_sums (named_iff.mp h) hbusy zeroReady_zero (calOff_iff.mpr hoff)) :)
  · refine ⟨_, exec_calRef hmay v, calWrote_calStart .., fun h => ?_, fun h hbusy => ?_, fun h hbusy hzero => ?_, fun h hbusy hzero hoff => ?_,
      fun h hbusy hzero hoff => ?_⟩
    · exact (calAfter_of_eq (calStart_unnamed (not_not.mp (named_iff.not.mp h))) :)
    · exact (calAfter_of_eq (calStart_busy (named_iff.mp h) hbusy) :)
    · exact (calAfter_of_eq (calStart_noZero (named_iff.mp h) hbusy hzero) :)
    · exact (calAfter_of_eq (calStart_notOff (named_iff.mp h) hbusy (fun _ => hzero) (calOff_eq_false hoff)) :)
    · exact (calAfter_of_eq (calStart_sums (named_iff.mp h) hbusy (fun _ => hzero) (calOff_iff.mpr hoff)) :)
  · refine ⟨_, exec_calCancel hmay, ?_, fun hbusy => ?_, fun hbusy => ?_⟩
    · exact calWrote_calCancelOp ..
    · exact (calAfter_of_eq (calCancelOp_busy hbusy) :)
    · exact (calAfter_of_eq (calCancelOp_idle hbusy) :)
  · exact congrArg Host.Outcome.next (calZeroDone_not_due h)
  · show calZeroDone s = { s with regs := (calZeroDone s).regs, lsp := _ } ∧ (calZeroDone s).rbit (Blk.lsp.base + 0x40) 0 = true
    rw [calZeroDone_due h]
    exact ⟨rfl, evt_rbit .lsp (by decide) _⟩
  · exact congrArg Host.Outcome.next (calRefDone_not_due h)
  · refine ⟨?_, fun hok => (calRefDone_ok_spec h hok).2, fun hrange => (calRefDone_range_spec h hrange).2⟩
    by_cases hok : TrimsOk s
    · exact (calRefDone_ok_spec h hok).1
    · exact (calRefDone_range_spec h hok).1

end Sys2Proof.Machine
end

section
/-! SUPPORT. The frame sync of a slave direction of an audio port: its edges, its loss, acquisition and relock (R112, R311 to R322). -/
namespace Sys2Proof.Machine
open Sys2Proof

/-! ### A direction, and the operations on it -/

theorem dirNum_inj {n m : Nat} {d e : Dir} : dirNum m e = dirNum n d ↔ m = n ∧ e = d := by
  cases d <;> cases e <;> simp [dirNum, Dir.idx] <;> omega

theorem aptDir_updDir (s : State) (n m : Nat) (d e : Dir) (f : AptDir → AptDir) :
    (updDir n d f s).aptDir m e = if m = n ∧ e = d then f (s.aptDir n d) else s.aptDir m e := by
  have h := tab_get_set (fun _ => ({} : AptDir)) s.apt (dirNum n d) (dirNum m e) (f (s.aptDir n d))
  simp only [dirNum_inj] at h
  exact h

@[simp] theorem aptDir_updDir_same (s : State) (n : Nat) (d : Dir) (f : AptDir → AptDir) :
    (updDir n d f s).aptDir n d = f (s.aptDir n d) := by simp [aptDir_updDir]
@[simp] theorem aptDir_raise (b : Blk) (i : Nat) (s : State) (m : Nat) (e : Dir) : (raise b i s).aptDir m e = s.aptDir m e := by
  simp [State.aptDir]
@[simp] theorem aptDir_evt (b : Blk) (i : Nat) (s : State) (m : Nat) (e : Dir) : (evt b i s).aptDir m e = s.aptDir m e := rfl

/-- A detection sets its bit of FAULT_STATUS and clears none. -/
theorem raise_status (b : Blk) (i : Nat) (s : State) : (raise b i s).reg (b.base + 0x80) = s.reg (b.base + 0x80) ||| bm i := by
  simp only [raise]
  rw [reg_congr (logPush_regs ..), reg_congr (State.updSys_regs ..), reg_setReg_ne _ _ (by omega), reg_orReg, if_pos rfl]

/-- What the operations on a direction of a port leave as it is: all but the register file, SYS and the ports, the tick number, every
other direction, a fault once detected, and the configuration registers of the port. -/
structure PortStep (n : Nat) (d : Dir) (s t : State) : Prop where
  frame : t = { s with regs := t.regs, sys := t.sys, apt := t.apt }
  tick : t.sys.tick = s.sys.tick
  others : ∀ j e, (j ≠ n ∨ e ≠ d) → t.aptDir j e = s.aptDir j e
  faults : ∀ i, s.faultBit (.apt n) i = true → t.faultBit (.apt n) i = true
  config : ∀ off, off < 0x40 → t.reg (aptReg n off) = s.reg (aptReg n off)

section
variable {n : Nat} {d : Dir}

theorem PortStep.refl (s : State) : PortStep n d s s := ⟨rfl, rfl, fun _ _ _ => rfl, fun _ h => h, fun _ _ => rfl⟩

theorem PortStep.trans {s t u : State} (hst : PortStep n d s t) (htu : PortStep n d t u) : PortStep n d s u where
  frame := by rw [htu.frame, hst.frame]
  tick := htu.tick.trans hst.tick
  others j e h := (htu.others j e h).trans (hst.others j e h)
  faults i h := htu.faults i (hst.faults i h)
  config off h := (htu.config off h).trans (hst.config off h)

variable (s : State)

theorem portStep_updDir (f : AptDir → AptDir) : PortStep n d s (updDir n d f s) where
  frame := rfl
  tick := rfl
  others j e h := by rw [aptDir_updDir, if_neg (not_and_or.mpr h)]
  faults _ h := h
  config _ _ := rfl

theorem portStep_raise (i : Nat) : PortStep n d s (raise (.apt n) i s) where
  frame := by rw [raise_apt]; exact raise_frame _ _ s
  tick := raise_tick _ _ s
  others _ _ _ := aptDir_raise ..
  faults j h := by
    rw [State.faultBit, State.rbit, raise_status, bit_or]
    exact Bool.or_eq_true_iff.mpr (.inl h)
  config off h := raise_reg _ _ _ s (by simp only [aptReg]; omega) (by simp only [aptReg]; omega)

theorem portStep_evt (i : Nat) : PortStep n d s (evt (.apt n) i s) where
  frame := rfl
  tick := rfl
  others _ _ _ := rfl
  faults j h := rbit_orReg _ _ h
  config off h := by rw [evt_reg, if_neg (by simp only [aptReg]; omega)]

theorem portStep_aptLock (v : Bool) : PortStep n d s (aptLock n d v s) := by
  unfold aptLock
  split
  · exact .refl s
  · exact (portStep_updDir s _).trans (portStep_evt _ _)

theorem portStep_aptIdle : PortStep n d s (aptIdle n d s) :=
  ((portStep_aptLock s false).trans (portStep_updDir _ _)).trans (portStep_evt _ _)

theorem aptDir_aptLock (v : Bool) : (aptLock n d v s).aptDir n d = { s.aptDir n d with locked := v } := by
  unfold aptLock
  split
  next h => rw [← h]
  next => rw [aptDir_evt, aptDir_updDir_same]

/-! ### The loss of a direction (R319, Table 12.4) -/

/-- A direction that has become IDLE (R318). -/
def AptDir.idled (x : AptDir) : AptDir :=
  { x with locked := false, st := .idle, clocks := false, acquired := false, relock := false, muteAt := none, unmuteAt := none, sent := [] }

theorem aptDir_aptIdle : (aptIdle n d s).aptDir n d = (s.aptDir n d).idled := by
  rw [aptIdle, aptDir_evt, aptDir_updDir_same, aptDir_aptLock]
  rfl

theorem aptIdle_event : (aptIdle n d s).rbit (aptReg n 0x40) (2 + d.idx) = true :=
  evt_rbit (.apt n) (by cases d <;> decide) _

/-- A direction muted from frame b on by a loss (R319, R320). -/
def AptDir.mute (d : Dir) (cause b : Nat) (x : AptDir) : AptDir :=
  { x with
    st := .muted, acquired := false, relock := true, unmuteAt := none, muteAt := some b, held := x.delivered, glitches := [], periods := []
    acqT0 := none, acqM := 0, edge := if cause = 1 then none else x.edge, sent := [], hist := match d with | .rx => x.hist | .tx => [] }

/-- The loss is detected and its cause recorded. -/
def lossNoted (n : Nat) (d : Dir) (cause : Nat) (s : State) : State := updDir n d (fun x => { x with loss := cause }) (raise (.apt n) d.idx s)

theorem aptDir_lossNoted (cause : Nat) : (lossNoted n d cause s).aptDir n d = { s.aptDir n d with loss := cause } := by
  rw [lossNoted, aptDir_updDir_same, aptDir_raise]

theorem portStep_lossNoted (cause : Nat) : PortStep n d s (lossNoted n d cause s) := (portStep_raise s _).trans (portStep_updDir _ _)

theorem lossNoted_fault (cause : Nat) : (lossNoted n d cause s).faultBit (.apt n) d.idx = true :=
  (rbit_congr (updDir_regs ..) _ _).trans (raise_fault (.apt n) d.idx s (by cases d <;> decide))

variable {s}

theorem aptLose_stopping (cause : Nat) (h : (s.aptDir n d).st = .stopping) : aptLose n d cause s = aptIdle n d (lossNoted n d cause s) := by
  have hst : ((lossNoted n d cause s).aptDir n d).st = .stopping := by rw [aptDir_lossNoted]; exact h
  exact if_pos hst

theorem aptLose_other (cause : Nat) (h : (s.aptDir n d).st ≠ .stopping) :
    aptLose n d cause s = updDir n d (AptDir.mute d cause (s.sys.tick / 64 + 1)) (aptLock n d false (lossNoted n d cause s)) := by
  have hst : ((lossNoted n d cause s).aptDir n d).st ≠ .stopping := by rw [aptDir_lossNoted]; exact h
  rw [← nextBoundary_frame]
  exact if_neg hst

/-- What a loss leaves of its direction. -/
def LossShown (n : Nat) (d : Dir) (cause : Nat) (x : AptDir) (now : Nat) (t : State) : Prop :=
  t.faultBit (.apt n) d.idx = true ∧ (t.aptDir n d).loss = cause ∧ (t.aptDir n d).locked = false ∧
    (x.st = .stopping → (t.aptDir n d).st = .idle ∧ t.rbit (aptReg n 0x40) (2 + d.idx) = true) ∧
    (x.st ≠ .stopping → (t.aptDir n d).st = .muted ∧ (t.aptDir n d).muteAt = some (now / 64 + 1) ∧ (t.aptDir n d).held = x.delivered ∧
      (t.aptDir n d).unmuteAt = none ∧ (t.aptDir n d).acquired = false)

theorem portStep_aptLose (cause : Nat) : PortStep n d s (aptLose n d cause s) := by
  by_cases h : (s.aptDir n d).st = .stopping
  · rw [aptLose_stopping cause h]
    exact (portStep_lossNoted s cause).trans (portStep_aptIdle _)
  · rw [aptLose_other cause h]
    exact ((portStep_lossNoted s cause).trans (portStep_aptLock _ false)).trans (portStep_updDir _ _)

theorem aptDir_aptLose_stopping (cause : Nat) (h : (s.aptDir n d).st = .stopping) :
    (aptLose n d cause s).aptDir n d = AptDir.idled { s.aptDir n d with loss := cause } := by
  rw [aptLose_stopping cause h, aptDir_aptIdle, aptDir_lossNoted]

theorem aptDir_aptLose_other (cause : Nat) (h : (s.aptDir n d).st ≠ .stopping) :
    (aptLose n d cause s).aptDir n d = AptDir.mute d cause (s.sys.tick / 64 + 1) { s.aptDir n d with loss := cause, locked := false } := by
  rw [aptLose_other cause h, aptDir_updDir_same, aptDir_aptLock, aptDir_lossNoted]

theorem aptLose_fault (cause : Nat) : (aptLose n d cause s).faultBit (.apt n) d.idx = true := by
  by_cases h : (s.aptDir n d).st = .stopping
  · rw [aptLose_stopping cause h]
    exact (portStep_aptIdle (n := n) (d := d) _).faults _ (lossNoted_fault s cause)
  · rw [aptLose_other cause h]
    exact ((portStep_aptLock (n := n) (d := d) _ false).trans (portStep_updDir _ _)).faults _ (lossNoted_fault s cause)

theorem lossShown_aptLose (cause : Nat) : LossShown n d cause (s.aptDir n d) s.sys.tick (aptLose n d cause s) := by
  refine ⟨aptLose_fault cause, ?_⟩
  by_cases h : (s.aptDir n d).st = .stopping
  · rw [aptDir_aptLose_stopping cause h, aptLose_stopping cause h]
    exact ⟨rfl, rfl, fun _ => ⟨rfl, aptIdle_event _⟩, fun hst => absurd h hst⟩
  · rw [aptDir_aptLose_other cause h]
    exact ⟨rfl, rfl, fun hst => absurd hst h, fun _ => ⟨rfl, rfl, rfl, rfl, rfl⟩⟩

/-! ### What the samples of a frame leave of a direction (R314, R321) -/

/-- What supervision knows of a direction: its state, its lock and loss, the edges and their counts, the acquisition. -/
def AptDir.supervision (x : AptDir) : (AptSt × Bool × Nat × Option Nat × Nat) × (Option Nat × Nat) × Word × Nat × Nat :=
  ((x.st, x.locked, x.loss, x.edge, x.stopLeft), (x.acqT0, x.acqM), x.maskUse, x.glitchCnt, x.phase)

/-- The samples of a frame have moved: supervision stays as it is, and so does a slip once noted. -/
structure SampleStep (n : Nat) (d : Dir) (s t : State) : Prop where
  port : PortStep n d s t
  supervision : (t.aptDir n d).supervision = (s.aptDir n d).supervision
  slip : (s.aptDir n d).slip = true → (t.aptDir n d).slip = true

theorem SampleStep.refl (s : State) : SampleStep n d s s := ⟨.refl s, rfl, fun h => h⟩

theorem SampleStep.trans {s t u : State} (hst : SampleStep n d s t) (htu : SampleStep n d t u) : SampleStep n d s u :=
  ⟨hst.port.trans htu.port, htu.supervision.trans hst.supervision, fun h => htu.slip (hst.slip h)⟩

theorem sampleStep_updDir {f : AptDir → AptDir} (s : State) (hf : ∀ x, (f x).supervision = x.supervision)
    (hslip : ∀ x, x.slip = true → (f x).slip = true) : SampleStep n d s (updDir n d f s) where
  port := portStep_updDir s f
  supervision := by rw [aptDir_updDir_same, hf]
  slip h := by rw [aptDir_updDir_same]; exact hslip _ h

theorem sampleStep_raise (i : Nat) (s : State) : SampleStep n d s (raise (.apt n) i s) where
  port := portStep_raise s i
  supervision := by rw [aptDir_raise]
  slip h := by rw [aptDir_raise]; exact h

theorem sampleStep_aptXrun (s : State) : SampleStep n d s (aptXrun n d s) := by
  refine .trans ?_ (sampleStep_raise 6 _)
  exact sampleStep_updDir s (fun _ => rfl) fun _ h => h

theorem bulkFrames_supervision (c : Word) (stamp f : Nat) (x : AptDir) :
    (bulkFrames c stamp f x).supervision = x.supervision ∧ (bulkFrames c stamp f x).slip = x.slip := by
  induction f generalizing x with
  | zero => exact ⟨rfl, rfl⟩
  | succ f ih =>
    unfold bulkFrames
    dsimp only
    split
    · exact ⟨rfl, rfl⟩
    · exact ih _

theorem sampleStep_slaveSend (n stamp : Nat) (s : State) : SampleStep n .tx s (slaveSend n stamp s) := by
  unfold slaveSend
  extract_lets x c under w
  have hunder : SampleStep n .tx s w := by
    show SampleStep n .tx s (if under = true then aptXrun n .tx s else s)
    split
    · exact sampleStep_aptXrun s
    · exact .refl s
  exact hunder.trans (sampleStep_updDir w (fun _ => rfl) fun _ h => h)

theorem sampleStep_safetyReceive (n stamp : Nat) (glitch : Bool) (slots : List Nat) (s : State) :
    SampleStep n .rx s (safetyReceive n stamp glitch slots s) := by
  unfold safetyReceive
  dsimp only
  split
  · exact sampleStep_aptXrun s
  · exact sampleStep_updDir s (fun _ => rfl) fun _ h => h

theorem sampleStep_bulkReceive (n start stamp : Nat) (slots : List Nat) (s : State) :
    SampleStep n .rx s (bulkReceive n start stamp slots s) := by
  unfold bulkReceive
  extract_lets x c lost w v
  have hlost : SampleStep n .rx s w := by
    show SampleStep n .rx s (if lost ≠ 0 then aptXrun n .rx s else s)
    split
    · exact sampleStep_aptXrun s
    · exact .refl s
  have hslip : SampleStep n .rx w v := by
    show SampleStep n .rx w (if lost % cfgSlots c ≠ 0 then raise (.apt n) 2 (updDir n .rx (fun x => { x with slip := true }) w) else w)
    split
    · refine .trans ?_ (sampleStep_raise 2 _)
      exact sampleStep_updDir w (fun _ => rfl) fun _ _ => rfl
    · exact .refl w
  refine (hlost.trans hslip).trans (sampleStep_updDir v (fun x => ?_) fun x hx => ?_)
  · exact (bulkFrames_supervision c stamp 64 _).1
  · exact (bulkFrames_supervision c stamp 64 _).2.trans hx

end

/-! ### The edge of a slave direction: its frames, their glitches and its slip (R311, R319, R322) -/

section
variable (n : Nat) (d : Dir) (stamp nbits : Nat) (s : State)

/-- The periods of the frames that end with the edge. -/
def edgePeriods : List Nat :=
  match (s.aptDir n d).edge with
  | some t => framePeriods (dirCfg s n d) (s.aptDir n d).phase (stamp - t) nbits
  | none => []

/-- Which of those frames are glitches. -/
def edgeFlags : List Bool :=
  (edgePeriods n d stamp nbits s).map fun p =>
    isGlitch (expected s n d) p || (!cfgBulk (dirCfg s n d) && nbits != cfgSlots (dirCfg s n d) * cfgW (dirCfg s n d))

/-- How far the counted frames of BULK are shifted against the edges. -/
def edgePhase : Nat :=
  if cfgBulk (dirCfg s n d) && (s.aptDir n d).edge.isSome then
    ((s.aptDir n d).phase + nbits) % (cfgSlots (dirCfg s n d) * cfgW (dirCfg s n d))
  else (s.aptDir n d).phase

/-- SLOT_SLIP is detected and noted. -/
def slipNoted : State := raise (.apt n) (2 + d.idx) (updDir n d (fun x => { x with slip := true }) s)

/-- GLITCH is detected where the edge ends a frame that is one. -/
def glitchNoted (n : Nat) (glitch : Bool) (s : State) : State := if glitch then raise (.apt n) 5 s else s

/-- An edge at which one of the frames it ends is a glitch. -/
abbrev edgeGlitch : Bool := (edgeFlags n d stamp nbits s).any id

/-- The detections of an edge. -/
def edgeDetected : State :=
  if edgePhase n d nbits s ≠ (s.aptDir n d).phase then slipNoted n d (glitchNoted n (edgeGlitch n d stamp nbits s) s)
  else glitchNoted n (edgeGlitch n d stamp nbits s) s

/-- The direction takes the mask into use and the edge into its counts. -/
def AptDir.counted (mask : Word) (stamp phase : Nat) (pers : List Nat) (flags : List Bool) (x : AptDir) : AptDir :=
  { x with
    maskUse := mask, edge := some stamp, phase := phase, glitchCnt := (x.glitchCnt + (flags.filter id).length) % 2 ^ 32
    periods := (pers ++ x.periods).take 64, glitches := (flags ++ x.glitches).take 64
    stopLeft := if x.st = .stopping then x.stopLeft - 1 else x.stopLeft }

/-- The edge is detected and counted, and not yet judged. -/
def edgeCounted : State :=
  updDir n d (AptDir.counted (s.reg (aptReg n (0x18 + 4 * d.idx))) stamp (edgePhase n d nbits s) (edgePeriods n d stamp nbits s)
    (edgeFlags n d stamp nbits s)) (edgeDetected n d stamp nbits s)

/-- The acquisition begins at the edge. -/
def AptDir.begun (stamp : Nat) (x : AptDir) : AptDir := { x with st := .acquiring, acqT0 := some stamp, acqM := 0, nin := 0, hist := [] }

/-- An acquisition counts the frames that end with the edge. -/
def AptDir.countedOn (stamp frames : Nat) (x : AptDir) : AptDir :=
  if x.acqT0.isNone then { x with acqT0 := some stamp, acqM := 0 } else { x with acqM := if x.acquired then x.acqM else x.acqM + frames }

/-- The acquisition of a direction at an edge: a MUTED one begins it, at an edge that is no glitch; one that acquires counts on. -/
def edgeAcquire (pers : List Nat) (glitch : Bool) (w : State) : State :=
  match (w.aptDir n d).st with
  | .muted => if !(w.aptDir n d).locked && pers != [] && !glitch then updDir n d (AptDir.begun stamp) w else w
  | .acquiring | .armed => updDir n d (AptDir.countedOn stamp pers.length) w
  | _ => w

/-- The samples that the edge moves. -/
def edgeMove (c : Word) (edge : Option Nat) (acquired glitch : Bool) (slots : List Nat) (w : State) : State :=
  match d, edge with
  | .rx, some t => if cfgBulk c then bulkReceive n t stamp slots w else safetyReceive n stamp glitch slots w
  | .rx, none => w
  | .tx, _ => if acquired then slaveSend n stamp w else w

/-- A direction that an edge does not concern: a master's, or one that is IDLE. -/
abbrev Deaf : Prop := cfgMaster (dirCfg s n d) = true ∨ (s.aptDir n d).st = .idle

variable {n d s}

theorem frameSyncEdge_deaf (slots : List Nat) (h : Deaf n d s) : frameSyncEdge n d stamp nbits slots s = s := by
  have hdeaf : (cfgMaster (dirCfg s n d) || (s.aptDir n d).st == .idle) = true := by rcases h with h | h <;> simp [h]
  exact if_pos hdeaf

theorem frameSyncEdge_heard (slots : List Nat) (h : ¬ Deaf n d s) :
    frameSyncEdge n d stamp nbits slots s =
      let w := edgeCounted n d stamp nbits s
      let y := w.aptDir n d
      let glitch := edgeGlitch n d stamp nbits s
      if watched y && decide (3 ≤ (y.glitches.filter id).length) then aptLose n d 2 w
      else if watched y && rateLost w n d then aptLose n d 3 w
      else edgeMove n d stamp (dirCfg s n d) (s.aptDir n d).edge y.acquired glitch slots (edgeAcquire n d stamp (edgePeriods n d stamp nbits s) glitch w) := by
  have hdeaf : ¬ (cfgMaster (dirCfg s n d) || (s.aptDir n d).st == .idle) = true := by
    simpa using h
  exact if_neg hdeaf

/-- What every edge that is heard leaves, whatever its verdict: the mask in use, the glitches counted, a slip noted. -/
structure EdgeStep (n : Nat) (d : Dir) (stamp nbits : Nat) (s t : State) : Prop where
  port : PortStep n d s t
  mask : (t.aptDir n d).maskUse = s.reg (aptReg n (0x18 + 4 * d.idx))
  glitch : true ∈ edgeFlags n d stamp nbits s → t.faultBit (.apt n) 5 = true
  count : (t.aptDir n d).glitchCnt = ((s.aptDir n d).glitchCnt + ((edgeFlags n d stamp nbits s).filter id).length) % 2 ^ 32
  slip : edgePhase n d nbits s ≠ (s.aptDir n d).phase → (t.aptDir n d).slip = true ∧ t.faultBit (.apt n) (2 + d.idx) = true
  phase : (t.aptDir n d).phase = edgePhase n d nbits s

/-- What an edge has counted lasts through what is done about it. -/
theorem EdgeStep.after {s w t : State} (h : EdgeStep n d stamp nbits s w) (hport : PortStep n d w t)
    (hmask : (t.aptDir n d).maskUse = (w.aptDir n d).maskUse) (hcount : (t.aptDir n d).glitchCnt = (w.aptDir n d).glitchCnt)
    (hphase : (t.aptDir n d).phase = (w.aptDir n d).phase) (hslip : (w.aptDir n d).slip = true → (t.aptDir n d).slip = true) :
    EdgeStep n d stamp nbits s t where
  port := h.port.trans hport
  mask := hmask.trans h.mask
  glitch hg := hport.faults 5 (h.glitch hg)
  count := hcount.trans h.count
  slip hp := ⟨hslip (h.slip hp).1, hport.faults _ (h.slip hp).2⟩
  phase := hphase.trans h.phase

theorem portStep_slipNoted (s : State) : PortStep n d s (slipNoted n d s) := (portStep_updDir s _).trans (portStep_raise _ _)

theorem slipNoted_fault (s : State) : (slipNoted n d s).faultBit (.apt n) (2 + d.idx) = true :=
  raise_fault (.apt n) (2 + d.idx) _ (by cases d <;> decide)

theorem aptDir_slipNoted (s : State) : (slipNoted n d s).aptDir n d = { s.aptDir n d with slip := true } := by
  rw [slipNoted, aptDir_raise, aptDir_updDir_same]

theorem glitchNoted_spec (g : Bool) (s : State) :
    PortStep n d s (glitchNoted n g s) ∧ (glitchNoted n g s).aptDir n d = s.aptDir n d ∧
      (g = true → (glitchNoted n g s).faultBit (.apt n) 5 = true) := by
  cases g with
  | false => exact ⟨.refl s, rfl, fun h => absurd h Bool.false_ne_true⟩
  | true => exact ⟨portStep_raise s 5, aptDir_raise .., fun _ => raise_fault (.apt n) 5 s (by decide)⟩

theorem edgeDetected_spec (s : State) :
    PortStep n d s (edgeDetected n d stamp nbits s) ∧
      (edgeGlitch n d stamp nbits s = true → (edgeDetected n d stamp nbits s).faultBit (.apt n) 5 = true) ∧
      (∃ b, (edgeDetected n d stamp nbits s).aptDir n d = { s.aptDir n d with slip := b } ∧
        (edgePhase n d nbits s ≠ (s.aptDir n d).phase → b = true)) ∧
      (edgePhase n d nbits s ≠ (s.aptDir n d).phase → (edgeDetected n d stamp nbits s).faultBit (.apt n) (2 + d.idx) = true) := by
  obtain ⟨hport, hdir, hglitch⟩ := glitchNoted_spec (n := n) (d := d) (edgeGlitch n d stamp nbits s) s
  unfold edgeDetected
  by_cases hslip : edgePhase n d nbits s ≠ (s.aptDir n d).phase
  · have hnoted := portStep_slipNoted (n := n) (d := d) (glitchNoted n (edgeGlitch n d stamp nbits s) s)
    rw [if_pos hslip]
    refine ⟨hport.trans hnoted, fun h => hnoted.faults 5 (hglitch h), ⟨true, ?_, fun _ => rfl⟩, fun _ => slipNoted_fault _⟩
    rw [aptDir_slipNoted, hdir]
  · rw [if_neg hslip]
    exact ⟨hport, hglitch, ⟨(s.aptDir n d).slip, hdir, fun h => absurd h hslip⟩, fun h => absurd h hslip⟩

theorem aptDir_edgeCounted (s : State) :
    ∃ b, (edgeCounted n d stamp nbits s).aptDir n d =
        AptDir.counted (s.reg (aptReg n (0x18 + 4 * d.idx))) stamp (edgePhase n d nbits s) (edgePeriods n d stamp nbits s)
          (edgeFlags n d stamp nbits s) { s.aptDir n d with slip := b } ∧
      (edgePhase n d nbits s ≠ (s.aptDir n d).phase → b = true) := by
  obtain ⟨-, -, ⟨b, hdir, hslip⟩, -⟩ := edgeDetected_spec (n := n) (d := d) stamp nbits s
  refine ⟨b, ?_, hslip⟩
  rw [edgeCounted, aptDir_updDir_same, hdir]

theorem edgeStep_edgeCounted (s : State) : EdgeStep n d stamp nbits s (edgeCounted n d stamp nbits s) := by
  obtain ⟨hport, hglitch, -, hfault⟩ := edgeDetected_spec (n := n) (d := d) stamp nbits s
  obtain ⟨b, hdir, hslip⟩ := aptDir_edgeCounted (n := n) (d := d) stamp nbits s
  have hcounted : PortStep n d (edgeDetected n d stamp nbits s) (edgeCounted n d stamp nbits s) := portStep_updDir ..
  exact
    { port := hport.trans hcounted
      mask := by rw [hdir]; rfl
      glitch := fun h => hcounted.faults 5 (hglitch (List.any_eq_true.mpr ⟨true, h, rfl⟩))
      count := by rw [hdir]; rfl
      slip := fun h => ⟨by rw [hdir]; exact hslip h, hcounted.faults _ (hfault h)⟩
      phase := by rw [hdir]; rfl }

/-! ### The verdict on an edge (R319, R320) -/

/-- The last 64 periods and the glitches among the last 64 frames, this edge's included. -/
abbrev lastPeriods (n : Nat) (d : Dir) (stamp nbits : Nat) (s : State) : List Nat :=
  (edgePeriods n d stamp nbits s ++ (s.aptDir n d).periods).take 64
abbrev lastGlitches (n : Nat) (d : Dir) (stamp nbits : Nat) (s : State) : List Bool :=
  (edgeFlags n d stamp nbits s ++ (s.aptDir n d).glitches).take 64

/-- Three glitches in 64 periods. -/
abbrev ThreeGlitches (n : Nat) (d : Dir) (stamp nbits : Nat) (s : State) : Prop :=
  watched (s.aptDir n d) = true ∧ 3 ≤ ((lastGlitches n d stamp nbits s).filter id).length

/-- The mean of the last 64 periods has moved by more than LOCK_WIN. -/
abbrev RateMoved (n : Nat) (d : Dir) (stamp nbits : Nat) (s : State) : Prop :=
  let ps := lastPeriods n d stamp nbits s
  let mean := (s.aptDir n d).lockMean
  watched (s.aptDir n d) = true ∧ (s.aptDir n d).locked = true ∧ ps.length = 64 ∧
    ps.length * mean.1 * lockWin s n d < absDiff (ps.sum * mean.2) (ps.length * mean.1) * 1000000

theorem PortStep.lockWin {s t : State} (h : PortStep n d s t) : lockWin t n d = lockWin s n d := by
  have hreg : t.reg (aptReg n (0x28 + 4 * d.idx)) = s.reg (aptReg n (0x28 + 4 * d.idx)) := h.config _ (by cases d <;> decide)
  rw [Machine.lockWin, Machine.lockWin, State.fld, State.fld, hreg]

theorem threeGlitches_iff (s : State) :
    (watched ((edgeCounted n d stamp nbits s).aptDir n d) && decide (3 ≤ (((edgeCounted n d stamp nbits s).aptDir n d).glitches.filter id).length)) =
      true ↔ ThreeGlitches n d stamp nbits s := by
  obtain ⟨b, hdir, -⟩ := aptDir_edgeCounted (n := n) (d := d) stamp nbits s
  rw [hdir, Bool.and_eq_true, decide_eq_true_iff]
  exact Iff.rfl

theorem rateMoved_iff (s : State) :
    (watched ((edgeCounted n d stamp nbits s).aptDir n d) && rateLost (edgeCounted n d stamp nbits s) n d) = true ↔
      RateMoved n d stamp nbits s := by
  obtain ⟨b, hdir, -⟩ := aptDir_edgeCounted (n := n) (d := d) stamp nbits s
  rw [rateLost, (edgeStep_edgeCounted stamp nbits s).port.lockWin, hdir]
  simp only [Bool.and_eq_true, decide_eq_true_iff, beq_iff_eq, and_assoc]
  exact Iff.rfl

section
variable {s : State} (slots : List Nat) (hheard : ¬ Deaf n d s)
include hheard

theorem frameSyncEdge_three (h : ThreeGlitches n d stamp nbits s) :
    frameSyncEdge n d stamp nbits slots s = aptLose n d 2 (edgeCounted n d stamp nbits s) :=
  (frameSyncEdge_heard stamp nbits slots hheard).trans (if_pos ((threeGlitches_iff stamp nbits s).mpr h))

theorem frameSyncEdge_rate (hthree : ¬ ThreeGlitches n d stamp nbits s) (h : RateMoved n d stamp nbits s) :
    frameSyncEdge n d stamp nbits slots s = aptLose n d 3 (edgeCounted n d stamp nbits s) :=
  (frameSyncEdge_heard stamp nbits slots hheard).trans
    ((if_neg ((threeGlitches_iff stamp nbits s).not.mpr hthree)).trans (if_pos ((rateMoved_iff stamp nbits s).mpr h)))

theorem frameSyncEdge_good (hthree : ¬ ThreeGlitches n d stamp nbits s) (hrate : ¬ RateMoved n d stamp nbits s) :
    ∃ acquired, frameSyncEdge n d stamp nbits slots s =
      edgeMove n d stamp (dirCfg s n d) (s.aptDir n d).edge acquired (edgeGlitch n d stamp nbits s) slots
        (edgeAcquire n d stamp (edgePeriods n d stamp nbits s) (edgeGlitch n d stamp nbits s) (edgeCounted n d stamp nbits s)) :=
  ⟨_, (frameSyncEdge_heard stamp nbits slots hheard).trans
    ((if_neg ((threeGlitches_iff stamp nbits s).not.mpr hthree)).trans (if_neg ((rateMoved_iff stamp nbits s).not.mpr hrate)))⟩
end

theorem aptLose_keeps (cause : Nat) (w : State) :
    ((aptLose n d cause w).aptDir n d).maskUse = (w.aptDir n d).maskUse ∧ ((aptLose n d cause w).aptDir n d).glitchCnt = (w.aptDir n d).glitchCnt ∧
      ((aptLose n d cause w).aptDir n d).phase = (w.aptDir n d).phase ∧ ((aptLose n d cause w).aptDir n d).slip = (w.aptDir n d).slip := by
  by_cases h : (w.aptDir n d).st = .stopping
  · rw [aptDir_aptLose_stopping cause h]
    exact ⟨rfl, rfl, rfl, rfl⟩
  · rw [aptDir_aptLose_other cause h]
    exact ⟨rfl, rfl, rfl, rfl⟩

/-- An edge at which the direction is lost: the loss, and what the edge has counted. -/
theorem edge_lost (cause : Nat) (s : State) :
    EdgeStep n d stamp nbits s (aptLose n d cause (edgeCounted n d stamp nbits s)) ∧
      LossShown n d cause (s.aptDir n d) s.sys.tick (aptLose n d cause (edgeCounted n d stamp nbits s)) := by
  have hcounted := edgeStep_edgeCounted (n := n) (d := d) stamp nbits s
  obtain ⟨hmask, hcount, hphase, hslip⟩ := aptLose_keeps (n := n) (d := d) cause (edgeCounted n d stamp nbits s)
  refine ⟨hcounted.after stamp nbits (portStep_aptLose cause) hmask hcount hphase hslip.trans, ?_⟩
  obtain ⟨b, hdir, -⟩ := aptDir_edgeCounted (n := n) (d := d) stamp nbits s
  have hloss := lossShown_aptLose (n := n) (d := d) (s := edgeCounted n d stamp nbits s) cause
  rw [hcounted.port.tick, hdir] at hloss
  exact hloss

/-! ### An edge that is the direction's latest (R317, R320) -/

/-- What the acquisition leaves of a direction. -/
def AptDir.linked (x : AptDir) : (Word × Nat × Nat × Bool) × Option Nat × Nat × Bool × Nat :=
  ((x.maskUse, x.glitchCnt, x.phase, x.slip), x.edge, x.loss, x.locked, x.stopLeft)

/-- The edge begins the acquisition of a muted direction. -/
abbrev Begins (x : AptDir) (pers : List Nat) (glitch : Bool) : Prop := x.st = .muted ∧ x.locked = false ∧ pers ≠ [] ∧ glitch = false

section
variable (pers : List Nat) (glitch : Bool) (w : State)

theorem portStep_edgeAcquire : PortStep n d w (edgeAcquire n d stamp pers glitch w) := by
  unfold edgeAcquire
  split
  · split
    · exact portStep_updDir w _
    · exact .refl w
  · exact portStep_updDir w _
  · exact portStep_updDir w _
  · exact .refl w

variable {pers glitch w}

theorem aptDir_edgeAcquire_begins (h : Begins (w.aptDir n d) pers glitch) :
    (edgeAcquire n d stamp pers glitch w).aptDir n d = (w.aptDir n d).begun stamp := by
  obtain ⟨hst, hlocked, hpers, hglitch⟩ := h
  have hbegins : (!(w.aptDir n d).locked && pers != [] && !glitch) = true := by simp [hlocked, hpers, hglitch]
  rw [edgeAcquire, hst]
  dsimp only
  rw [if_pos hbegins, aptDir_updDir_same]

theorem countedOn_eq (frames : Nat) (x : AptDir) : ∃ t m, x.countedOn stamp frames = { x with acqT0 := t, acqM := m } := by
  unfold AptDir.countedOn
  split <;> exact ⟨_, _, rfl⟩

/-- An edge that begins no acquisition at most counts on in one. -/
theorem aptDir_edgeAcquire_other (h : ¬ Begins (w.aptDir n d) pers glitch) :
    ∃ t m, (edgeAcquire n d stamp pers glitch w).aptDir n d = { w.aptDir n d with acqT0 := t, acqM := m } := by
  unfold edgeAcquire
  split
  next hst =>
    have hnot : ¬ (!(w.aptDir n d).locked && pers != [] && !glitch) = true := by simpa [Begins, hst] using h
    rw [if_neg hnot]
    exact ⟨_, _, rfl⟩
  next => rw [aptDir_updDir_same]; exact countedOn_eq stamp _ _
  next => rw [aptDir_updDir_same]; exact countedOn_eq stamp _ _
  next => exact ⟨_, _, rfl⟩

/-- The acquisition moves neither the edge, nor the lock, nor what the edge has counted. -/
theorem linked_edgeAcquire : ((edgeAcquire n d stamp pers glitch w).aptDir n d).linked = (w.aptDir n d).linked := by
  by_cases h : Begins (w.aptDir n d) pers glitch
  · rw [aptDir_edgeAcquire_begins stamp h]
    rfl
  · obtain ⟨t, m, hdir⟩ := aptDir_edgeAcquire_other stamp h
    rw [hdir]
    rfl
end

theorem sampleStep_edgeMove (c : Word) (edge : Option Nat) (acquired glitch : Bool) (slots : List Nat) (w : State) :
    SampleStep n d w (edgeMove n d stamp c edge acquired glitch slots w) := by
  unfold edgeMove
  split
  next t =>
    split
    · exact sampleStep_bulkReceive n t stamp slots w
    · exact sampleStep_safetyReceive n stamp glitch slots w
  next => exact .refl w
  next =>
    split
    · exact sampleStep_slaveSend n stamp w
    · exact .refl w

/-- A good edge: it is the direction's latest, and loss and lock stay; a muted direction begins its acquisition. -/
theorem edge_good (edge : Option Nat) (acquired : Bool) (slots : List Nat) (s : State) :
    let x := s.aptDir n d
    let pers := edgePeriods n d stamp nbits s
    let glitch := edgeGlitch n d stamp nbits s
    let t := edgeMove n d stamp (dirCfg s n d) edge acquired glitch slots (edgeAcquire n d stamp pers glitch (edgeCounted n d stamp nbits s))
    let y := t.aptDir n d
    EdgeStep n d stamp nbits s t ∧ y.edge = some stamp ∧ y.loss = x.loss ∧ y.locked = x.locked ∧
      (Begins x pers glitch → y.st = .acquiring ∧ y.acqT0 = some stamp ∧ y.acqM = 0) ∧ (¬ Begins x pers glitch → y.st = x.st) ∧
      (x.st = .stopping → y.stopLeft = x.stopLeft - 1) := by
  intro x pers glitch t y
  obtain ⟨b, hdir, -⟩ := aptDir_edgeCounted (n := n) (d := d) stamp nbits s
  have hcounted := edgeStep_edgeCounted (n := n) (d := d) stamp nbits s
  have hlinked := linked_edgeAcquire (n := n) (d := d) stamp (pers := pers) (glitch := glitch) (w := edgeCounted n d stamp nbits s)
  have hacquire := portStep_edgeAcquire (n := n) (d := d) stamp pers glitch (edgeCounted n d stamp nbits s)
  have hmove : SampleStep n d (edgeAcquire n d stamp pers glitch (edgeCounted n d stamp nbits s)) t :=
    sampleStep_edgeMove stamp (dirCfg s n d) edge acquired glitch slots _
  have hsupervision := hmove.supervision
  simp only [AptDir.supervision, AptDir.linked, Prod.mk.injEq] at hsupervision hlinked
  obtain ⟨⟨hst, hlocked, hloss, hedge, hleft⟩, ⟨hfirst, hframes⟩, hmask, hcount, hphase⟩ := hsupervision
  obtain ⟨⟨hmask', hcount', hphase', hslip'⟩, hedge', hloss', hlocked', hleft'⟩ := hlinked
  refine ⟨hcounted.after stamp nbits (hacquire.trans hmove.port) (hmask.trans hmask') (hcount.trans hcount') (hphase.trans hphase')
    fun h => hmove.slip (hslip'.trans h), ?_, ?_, ?_, fun hbegins => ?_, fun hbegins => ?_, fun hstop => ?_⟩
  · exact (hedge.trans hedge').trans (by rw [hdir]; rfl)
  · exact (hloss.trans hloss').trans (by rw [hdir]; rfl)
  · exact (hlocked.trans hlocked').trans (by rw [hdir]; rfl)
  · have hnew := aptDir_edgeAcquire_begins (n := n) (d := d) stamp (pers := pers) (glitch := glitch) (w := edgeCounted n d stamp nbits s)
      (by rw [hdir]; exact hbegins)
    rw [hnew] at hst hfirst hframes
    exact ⟨hst, hfirst, hframes⟩
  · obtain ⟨first, frames, hnew⟩ := aptDir_edgeAcquire_other (n := n) (d := d) stamp (pers := pers) (glitch := glitch)
      (w := edgeCounted n d stamp nbits s) (by rw [hdir]; exact hbegins)
    rw [hnew, hdir] at hst
    exact hst
  · refine (hleft.trans hleft').trans ?_
    rw [hdir]
    exact if_pos hstop

end

/-! ### The loss of the clock, the end of the acquisition, the relock (R112, R314, R319, R320) -/

theorem watched_iff (x : AptDir) : watched x = true ↔
    (x.st = .armed ∨ x.st = .acquiring ∨ x.st = .running ∨ x.st = .stopping ∨ (x.st = .muted ∧ x.locked = true)) := by
  simp [watched, or_assoc]

/-- No frame-sync edge for 4 × E since the last (R319). -/
abbrev ClockDue (n : Nat) (d : Dir) (s : State) : Prop :=
  cfgMaster (dirCfg s n d) = false ∧ watched (s.aptDir n d) = true ∧
    ∃ a, (s.aptDir n d).edge = some a ∧ a * (expected s n d).2 + 4 * (expected s n d).1 ≤ s.ptu.counter * (expected s n d).2

section
variable {n : Nat} {d : Dir} {s : State}

theorem aptClockLost_due (h : ClockDue n d s) : aptClockLost n d s = aptLose n d 1 s := by
  obtain ⟨hslave, hwatched, a, hedge, htime⟩ := h
  simp [aptClockLost, hslave, hwatched, hedge, htime]

theorem aptClockLost_not_due (h : ¬ ClockDue n d s) : aptClockLost n d s = s := by
  unfold aptClockLost
  dsimp only
  split
  next a hedge =>
    refine if_neg fun hdue => h ?_
    simp only [Bool.and_eq_true, Bool.not_eq_true', decide_eq_true_iff] at hdue
    obtain ⟨⟨hslave, hwatched⟩, htime⟩ := hdue
    exact ⟨hslave, hwatched, a, hedge, htime⟩
  next => rfl

/-- The acquisition of a direction is complete, with its first edge a and its last z (R314). -/
abbrev AcquiredDue (n : Nat) (d : Dir) (s : State) (a z : Nat) : Prop :=
  (s.aptDir n d).acqT0 = some a ∧ (s.aptDir n d).edge = some z ∧ ((s.aptDir n d).st = .acquiring ∨ (s.aptDir n d).st = .armed) ∧
    (s.aptDir n d).acquired = false ∧ 256 ≤ (s.aptDir n d).acqM ∧ 4096 * pfs s ≤ z - a

theorem asrcAcquired_not_due (h : ∀ a z, ¬ AcquiredDue n d s a z) : asrcAcquired n d s = s := by
  unfold asrcAcquired
  extract_lets x
  split
  next a z hfirst hlast => exact if_neg fun hdue => h a z ⟨hfirst, hlast, hdue⟩
  next => rfl

/-- The ratio of R112 from the frames between edges a and z. -/
def ratioOf (n : Nat) (d : Dir) (s : State) (a z : Nat) : Int :=
  match d with
  | .rx => rneDiv ((2 ^ 32 * pfs s * (s.aptDir n d).acqM : Nat) : Int) ((z - a : Nat) : Int)
  | .tx => rneDiv ((2 ^ 32 * (z - a) : Nat) : Int) (((s.aptDir n d).acqM * pfs s : Nat) : Int)

theorem asrcAcquired_due {a z : Nat} (h : AcquiredDue n d s a z) : asrcAcquired n d s =
    updDir n d (fun x => { x with acquired := true, rho := (ratioOf n d s a z % (2 ^ 40 : Int)).toNat, p := ((2 ^ 32 * x.nin : Nat) : Int) }) s := by
  obtain ⟨hfirst, hlast, hdue⟩ := h
  unfold asrcAcquired
  dsimp only
  rw [hfirst, hlast]
  dsimp only
  rw [if_pos hdue]
  cases d <;> rfl

/-- A direction that has acquired again after a loss, at a frame boundary (R320). -/
abbrev RelockDue (n : Nat) (d : Dir) (s : State) : Prop :=
  (s.aptDir n d).st = .acquiring ∧ (s.aptDir n d).acquired = true ∧ (s.aptDir n d).relock = true ∧ (s.aptDir n d).locked = false ∧ s.sys.tick % 64 = 0

/-- A relocked direction that unmutes at once: by AUTO_RELOCK, or as CLK_LOST is clear. -/
def relockGo (n : Nat) (d : Dir) (s : State) : Bool := cfgAuto (dirCfg s n d) || !s.faultBit (.apt n) d.idx

/-- The relocked direction of frame k. -/
def AptDir.relocked (go : Bool) (k : Nat) (x : AptDir) : AptDir :=
  { x with lockMean := periodMean x, st := if go then .acquiring else .muted, unmuteAt := if go then some (max k (x.dataAt / 64)) else none, muteAt := if go then none else x.muteAt }

theorem aptRelock_not_due (h : ¬ RelockDue n d s) : aptRelock n d s = s := by
  refine if_neg fun hdue => h ?_
  simpa [RelockDue, State.atFrame, and_assoc] using hdue

theorem aptLock_event {v : Bool} (h : (s.aptDir n d).locked ≠ v) : (aptLock n d v s).rbit (aptReg n 0x40) (4 + d.idx) = true := by
  rw [aptLock, if_neg h]
  exact evt_rbit (.apt n) (by cases d <;> decide) _

/-- A relock: the direction is locked, with the mean of the periods then, and unmutes at once or stays muted. -/
theorem aptRelock_spec (h : RelockDue n d s) :
    PortStep n d s (aptRelock n d s) ∧ (aptRelock n d s).rbit (aptReg n 0x40) (4 + d.idx) = true ∧
      (aptRelock n d s).aptDir n d = AptDir.relocked (relockGo n d s) s.frame { s.aptDir n d with locked := true } := by
  obtain ⟨hst, hacquired, hrelock, hlocked, htick⟩ := h
  have hdue : ((s.aptDir n d).st == .acquiring && (s.aptDir n d).acquired && (s.aptDir n d).relock && !(s.aptDir n d).locked && s.atFrame) = true := by
    simp [hst, hacquired, hrelock, hlocked, State.atFrame, htick]
  have hevent : (aptLock n d true s).rbit (aptReg n 0x40) (4 + d.idx) = true := aptLock_event (by rw [hlocked]; exact Bool.false_ne_true)
  rw [show aptRelock n d s = _ from if_pos hdue]
  refine ⟨(portStep_aptLock s true).trans (portStep_updDir _ _), hevent, ?_⟩
  rw [aptDir_updDir_same, aptDir_aptLock]
  rfl

theorem relockGo_iff : relockGo n d s = true ↔ cfgAuto (dirCfg s n d) = true ∨ s.faultBit (.apt n) d.idx = false := by
  rw [relockGo, Bool.or_eq_true, Bool.not_eq_true']

end

/-! ### The obligation -/

theorem edgeStep_frameSyncEdge {n : Nat} {d : Dir} {s : State} (stamp nbits : Nat) (slots : List Nat) (h : ¬ Deaf n d s) :
    EdgeStep n d stamp nbits s (frameSyncEdge n d stamp nbits slots s) := by
  by_cases hthree : ThreeGlitches n d stamp nbits s
  · rw [frameSyncEdge_three stamp nbits slots h hthree]
    exact (edge_lost stamp nbits 2 s).1
  by_cases hrate : RateMoved n d stamp nbits s
  · rw [frameSyncEdge_rate stamp nbits slots h hthree hrate]
    exact (edge_lost stamp nbits 3 s).1
  obtain ⟨acquired, hgood⟩ := frameSyncEdge_good stamp nbits slots h hthree hrate
  rw [hgood]
  exact (edge_good stamp nbits _ acquired slots s).1

theorem begins_iff {x : AptDir} {pers : List Nat} {flags : List Bool} :
    Begins x pers (flags.any id) ↔ x.st = .muted ∧ x.locked = false ∧ pers ≠ [] ∧ true ∉ flags := by
  simp [Begins]

theorem edgePeriods_eq (n : Nat) (d : Dir) (stamp nbits : Nat) (s : State) :
    (match (s.aptDir n d).edge with
      | none => []
      | some a =>
        if cfgBulk (dirCfg s n d) = true then
          List.replicate (min 64 (((s.aptDir n d).phase + nbits) / (cfgSlots (dirCfg s n d) * cfgW (dirCfg s n d))))
            ((stamp - a) * (cfgSlots (dirCfg s n d) * cfgW (dirCfg s n d)) / max 1 nbits)
        else [stamp - a]) = edgePeriods n d stamp nbits s := by
  unfold edgePeriods
  cases (s.aptDir n d).edge <;> rfl

theorem edgeFlags_eq (n : Nat) (d : Dir) (stamp nbits : Nat) (s : State) :
    ((edgePeriods n d stamp nbits s).map fun p => decide ((expected s n d).1 < 8 * absDiff (p * (expected s n d).2) (expected s n d).1 ∨
      (cfgBulk (dirCfg s n d) = false ∧ nbits ≠ cfgSlots (dirCfg s n d) * cfgW (dirCfg s n d)))) = edgeFlags n d stamp nbits s := by
  refine List.map_congr_left fun p _ => ?_
  rw [Bool.eq_iff_iff]
  simp [isGlitch]

theorem edgePhase_eq (n : Nat) (d : Dir) (nbits : Nat) (s : State) :
    (if cfgBulk (dirCfg s n d) = true ∧ (s.aptDir n d).edge.isSome = true then
      ((s.aptDir n d).phase + nbits) % (cfgSlots (dirCfg s n d) * cfgW (dirCfg s n d)) else (s.aptDir n d).phase) = edgePhase n d nbits s := by
  simp only [edgePhase, Bool.and_eq_true]

/-- Settles O44: of an edge that is heard, `edgeStep_edgeCounted` is what it counts, `edge_lost` a loss and `edge_good` an edge that is the
direction's latest; the loss of the clock is `lossShown_aptLose`, and acquisition and relock are equations of their own. -/
theorem portClockSupervision : Obligations.PortClockSupervision := by
  intro s n d k b l x cfg now only lost
  have honly {t : State} (h : PortStep n d s t) : only t := ⟨h.frame, h.tick, h.others⟩
  refine ⟨?_, ⟨fun h => ?_, fun h => ?_⟩, ⟨fun h => ?_, fun a z h => ?_⟩, ⟨fun h => ?_, fun h => ?_⟩⟩
  · intro deaf want new flags glitch gs ps phase live three rate
    have hnew : new = edgePeriods n d k b s := edgePeriods_eq n d k b s
    have hflags : flags = edgeFlags n d k b s := by rw [← edgeFlags_eq, ← hnew]
    have hphase : phase = edgePhase n d b s := edgePhase_eq n d b s
    clear_value phase flags new
    subst hnew hflags hphase
    refine ⟨fun h => congrArg Host.Outcome.next (frameSyncEdge_deaf k b l h), fun hheard => ⟨_, rfl, ?_⟩⟩
    have hedge : EdgeStep n d k b s (frameSyncEdge n d k b l s) := edgeStep_frameSyncEdge k b l hheard
    refine ⟨honly hedge.port, hedge.mask, hedge.glitch, hedge.count, hedge.slip, hedge.phase, fun h => ?_, fun hthree h => ?_,
      fun hthree hrate => ?_⟩
    · rw [frameSyncEdge_three k b l hheard h]
      exact (edge_lost k b 2 s).2
    · rw [frameSyncEdge_rate k b l hheard hthree h]
      exact (edge_lost k b 3 s).2
    · obtain ⟨acquired, hgood⟩ := frameSyncEdge_good k b l hheard hthree hrate
      obtain ⟨-, hlatest, hloss, hlocked, hbegins, hstays, hstop⟩ := edge_good k b (s.aptDir n d).edge acquired l s
      rw [hgood]
      exact ⟨hlatest, hloss, hlocked, fun hst hfree hframes hclean => hbegins (begins_iff.mpr ⟨hst, hfree, hframes, hclean⟩),
        fun hnot => hstays (begins_iff.not.mpr hnot), hstop⟩
  · exact congrArg Host.Outcome.next (aptClockLost_not_due (by simpa only [ClockDue, watched_iff] using h))
  · have hdue : ClockDue n d s := by simpa only [ClockDue, watched_iff] using h
    refine ⟨aptClockLost n d s, rfl, ?_⟩
    rw [aptClockLost_due hdue]
    exact ⟨honly (portStep_aptLose 1), lossShown_aptLose 1⟩
  · exact congrArg Host.Outcome.next (asrcAcquired_not_due h)
  · refine ⟨asrcAcquired n d s, rfl, ?_⟩
    rw [asrcAcquired_due h]
    refine ⟨honly (portStep_updDir s _), ?_⟩
    rw [aptDir_updDir_same]
    cases d <;> rfl
  · exact congrArg Host.Outcome.next (aptRelock_not_due h)
  · obtain ⟨hport, hevent, hdir⟩ := aptRelock_spec h
    refine ⟨aptRelock n d s, rfl, honly hport, hevent, ?_⟩
    rw [hdir]
    refine ⟨rfl, rfl, fun hgo => ?_, fun hgo => ?_⟩
    · rw [relockGo_iff.mpr hgo]
      exact ⟨rfl, rfl, rfl⟩
    · rw [Bool.eq_false_iff.mpr (relockGo_iff.not.mpr hgo)]
      exact ⟨rfl, rfl, rfl⟩

end Sys2Proof.Machine
end

section
/-! SUPPORT. What a hard fault of a cell and a request for a migration leave as it is (R120, R147, R170 to R174): both touch the register
file, the cells and the fabric only, and of the registers no FAULT_STATUS of a cell. One projection of the state, `fabricView`, holds it. -/
namespace Sys2Proof.Machine
open Sys2Proof

/-- The state but for the registers, the cells and the fabric; and of the registers FAULT_STATUS of physical cell p. -/
def fabricView (p : Nat) (s : State) : State × Word :=
  ({ s with regs := [], cells := [], fabric := {} }, s.reg ((Blk.cell p).base + 0x80))

theorem mem_eq_of_fabricView {p : Nat} {s t : State} (h : fabricView p t = fabricView p s) : t.mem = s.mem :=
  congrArg (fun v : State × Word => v.1.mem) h

theorem faultBit_eq_of_fabricView {p : Nat} {s t : State} (h : fabricView p t = fabricView p s) (i : Nat) :
    t.faultBit (.cell p) i = s.faultBit (.cell p) i :=
  congrArg (fun v : State × Word => bit v.2 i) h

section
variable (p : Nat) (s : State)

/-! ### The cells, the mapping and the events of a cell -/

@[simp] theorem fabricView_setCell (q : Nat) (c : Cell) : fabricView p (s.setCell q c) = fabricView p s := rfl
@[simp] theorem fabricView_updCell (q : Nat) (f : Cell → Cell) : fabricView p (s.updCell q f) = fabricView p s := rfl
@[simp] theorem fabricView_updMig (q : Nat) (f : MigStat → MigStat) : fabricView p (updMig q f s) = fabricView p s := rfl
@[simp] theorem fabricView_fabric (x : Fabric) : fabricView p { s with fabric := x } = fabricView p s := rfl
@[simp] theorem fabricView_setMap (l : Nat) (q : Option Nat) : fabricView p (setMap l q s) = fabricView p s := rfl
@[simp] theorem fabricView_noteSpare (q : Nat) : fabricView p (noteSpare q s) = fabricView p s := rfl

variable {s} in
/-- A register window of a cell is 4 KiB, so a register at another offset is no cell's FAULT_STATUS (Table 1.11). -/
theorem fabricView_orReg {q off : Nat} (m : Word) (hoff : off < 0x80) :
    fabricView p (s.orReg ((Blk.cell q).base + off) m) = fabricView p s := by
  have hne : (Blk.cell p).base + 0x80 ≠ (Blk.cell q).base + off := by simp only [Blk.base]; omega
  exact congrArg (Prod.mk _) ((reg_orReg s _ _ m).trans (if_neg hne))

@[simp] theorem fabricView_migEvt (q i : Nat) : fabricView p (migEvt q i s) = fabricView p s := fabricView_orReg p _ (by decide)

@[simp] theorem fabricView_takeOverCell (q : Nat) : fabricView p (takeOverCell q s) = fabricView p s := fabricView_orReg p _ (by decide)

@[simp] theorem fabricView_stopSched (q : Nat) : fabricView p (stopSched q s) = fabricView p s := by
  unfold stopSched
  split
  · exact fabricView_takeOverCell p s q
  · rfl

@[simp] theorem fabricView_fenceCell (q : Nat) : fabricView p (fenceCell q s) = fabricView p s :=
  (fabricView_fabric p _ _).trans (by simp)

/-! ### Proactive migrations -/

@[simp] theorem fabricView_startProactive (q : Nat) (ce : Bool) : fabricView p (startProactive q ce s) = fabricView p s := by
  unfold startProactive
  split
  · simp
  · exact (fabricView_fabric p _ _).trans (by simp)

theorem fabricView_dequeueList (l : List (Nat × Bool)) : fabricView p (dequeueList l s).2 = fabricView p s := by
  induction l generalizing s with
  | nil => rfl
  | cons e l ih =>
    unfold dequeueList
    split_ifs <;> simp [ih]

@[simp] theorem fabricView_dequeueMig : fabricView p (dequeueMig s) = fabricView p s := fabricView_dequeueList p s _

theorem fabricView_requestMig (q : Nat) (ce : Bool) : fabricView p (requestMig q ce s) = fabricView p s := by
  simp [requestMig, apply_ite (fabricView p)]

@[simp] theorem fabricView_endMig (r : MigResult) (role : Role) : fabricView p (endMig r role s) = fabricView p s := by
  unfold endMig
  split <;> simp

/-! ### A hard fault -/

@[simp] theorem fabricView_restoreOn (l src q : Nat) (r : Role) : fabricView p (restoreOn l src q r s) = fabricView p s := by
  simp [restoreOn]

@[simp] theorem fabricView_startRestore (l src : Nat) (r : Role) : fabricView p (startRestore l src r s) = fabricView p s := by
  unfold startRestore
  split
  · rfl
  · split
    · simp
    · split <;> simp

@[simp] theorem fabricView_promote (m : Mig) (l : Option Nat) : fabricView p (promote m l s) = fabricView p s := by
  unfold promote
  split <;> simp

@[simp] theorem fabricView_failFence (q : Nat) : fabricView p (failFence q s) = fabricView p s := by
  unfold failFence
  dsimp only
  repeat' split
  all_goals simp

@[simp] theorem fabricView_failTaken (q : Nat) : fabricView p (failTaken q s) = fabricView p s := by
  unfold failTaken
  split <;> simp

theorem fabricView_hardFail (q : Nat) : fabricView p (hardFail q s) = fabricView p s := by
  unfold hardFail
  extract_lets c taken t u
  have ht : fabricView p t = fabricView p s := fabricView_failFence p s q
  have hu : fabricView p u = fabricView p t := by
    unfold u
    split <;> simp [apply_ite (fabricView p)]
  rw [fabricView_dequeueMig, hu, ht]

end

theorem settle_faultBit (p i : Nat) (s : State) : (settle s).faultBit (.cell p) i = s.faultBit (.cell p) i :=
  congrArg (bit · i) (settle_reg (modeChg_ne_cell p _).symm s)

/-- An uncorrectable word is detected, whatever its local action does then (R147). -/
theorem cellUe_fault {src : Nat} (p : Nat) (s : State) (h : src < 32) : (settle (cellUe src p s)).faultBit (.cell p) src = true := by
  rw [settle_faultBit, cellUe, faultBit_eq_of_fabricView (fabricView_hardFail p _ p), raise_fault _ _ _ h]

end Sys2Proof.Machine
end

section
/-! SUPPORT. The memory windows of a cell (R144 to R146): what a read and a write of a word do in each case, and what the access leaves. -/
namespace Sys2Proof.Machine
open Sys2Proof

/-! ### An access that reaches its target -/

theorem cmdAt_ok {t : BusTarget} {m : Master} {k : State → State × Code} {s : State} (h : pathErr m t s = none) :
    cmdAt t m k s = respond m (k s).2 [] (k s).1 := by
  rw [cmdAt, h]

theorem rdAt_ok {t : BusTarget} {m : Master} {k : State → State × Word × Code} {s : State} (h : pathErr m t s = none) :
    rdAt t m k s = respond m (k s).2.2 [(k s).2.1] (k s).1 := by
  rw [rdAt, h]

theorem cell_setCell_ne {p q : Nat} (c : Cell) (s : State) (h : q ≠ p) : (s.setCell p c).cell q = s.cell q := by
  rw [cell_setCell, if_neg h]

/-- An access of master m with the answer a has left physical cell p as c, and the rest of the state as it was. -/
structure CellAnswered (m : Master) (a : BusResp) (p : Nat) (c : Cell) (s t : State) : Prop where
  resp : t.resp m = a
  frame : t = { s with bus := t.bus, cells := t.cells }
  cell : t.cell p = c
  others : ∀ q, q ≠ p → t.cell q = s.cell q

theorem cellAnswered_setCell (m : Master) (code : Code) (ws : List Word) (p : Nat) (c : Cell) (s : State) :
    CellAnswered m ⟨code, ws⟩ p c s (respond m code ws (s.setCell p c)) where
  resp := resp_respond_same ..
  frame := rfl
  cell := cell_setCell_same s p c
  others _ hq := cell_setCell_ne c s hq

/-! ### The words of a cell -/

theorem word_setWord (c : Cell) (w k : Fin 16384) (v : Nat) : (c.setWord w v).word k = if k = w then v % 2 ^ 40 else c.word k := by
  simp only [Cell.setWord, Cell.word, Nat.mod_eq_of_lt w.isLt, Nat.mod_eq_of_lt k.isLt, tab_get_set, Fin.val_inj]

theorem ins_setIns (c : Cell) (i k : Fin 4096) (v : Nat) : (c.setIns i v).ins k = if k = i then v % 2 ^ 64 else c.ins k := by
  simp only [Cell.setIns, Cell.ins, Nat.mod_eq_of_lt i.isLt, Nat.mod_eq_of_lt k.isLt, tab_get_set, Fin.val_inj]

@[simp] theorem ins_setWord (c : Cell) (w v i : Nat) : (c.setWord w v).ins i = c.ins i := rfl
@[simp] theorem word_setIns (c : Cell) (i v w : Nat) : (c.setIns i v).word w = c.word w := rfl

/-- The two halves of an instruction make up 64 bits (R145). -/
theorem instr_halves_mod (hi lo : Word) : (hi.toNat * 2 ^ 32 + lo.toNat) % 2 ^ 64 = hi.toNat * 2 ^ 32 + lo.toNat :=
  Nat.mod_eq_of_lt (by omega)

section
variable (m : Master) (v : Word) {s : State} {p : Nat}

/-! ### Data words (R144, R146) -/

/-- A cell whose MEM_HI of a master holds what its read of a word captured. -/
def Cell.captureData (c : Cell) (m : Master) (w : Nat) : Cell := { c with memHi := Tab.set (fun _ => 0) c.memHi m.idx (c.word w / 2 ^ 32) }

theorem dataRead_good {w : Nat} (h : (s.cell p).dataState w = .good) :
    dataRead m p w s = (s.setCell p ((s.cell p).captureData m w), wd ((s.cell p).word w), .ok) := by
  simp [dataRead, h, Cell.captureData]

theorem dataRead_ue {w : Nat} (h : (s.cell p).dataState w = .ue) : dataRead m p w s = (settle (cellUe 3 p s), 0, .accessErr) := by
  simp [dataRead, h]

theorem dataWrite_fenced (w : Nat) (h : (s.cell p).role = .fenced) : dataWrite m p w v s = (s, .accessErr) := if_pos h

/-- The word a master's write of a data word stores. -/
def Cell.dataWritten (c : Cell) (m : Master) (w : Nat) (v : Word) : Cell := c.setWord w (Tab.get (fun _ => 0) c.memHi m.idx * 2 ^ 32 + v.toNat)

theorem dataWrite_unmirrored (w : Nat) (h : (s.cell p).role ≠ .fenced) (hmig : s.fabric.mig = none) :
    dataWrite m p w v s = (s.setCell p ((s.cell p).dataWritten m w v), .ok) := by
  simp [dataWrite, h, hmig, Cell.dataWritten]

theorem dataWrite_frame (w : Nat) : ∃ x, (dataWrite m p w v s).1 = { s with cells := x } := by
  unfold dataWrite
  extract_lets c x t u
  have hu : ∃ y, u = { s with cells := y } := by
    unfold u
    split
    · split <;> exact ⟨_, rfl⟩
    · exact ⟨_, rfl⟩
  split
  · exact ⟨_, rfl⟩
  · exact hu

/-! ### Instructions (R145, R146) -/

theorem instrHiWrite_refused (h : (s.cell p).role = .fenced ∨ (s.cell p).sched = true) : instrHiWrite m p v s = (s, .accessErr) := if_pos h

/-- A cell whose master has staged the upper half of an instruction. -/
def Cell.staged (c : Cell) (m : Master) (v : Word) : Cell := { c with stagedHi := Tab.set (fun _ => 0) c.stagedHi m.idx v }

theorem instrHiWrite_admitted (hrole : (s.cell p).role ≠ .fenced) (hsched : (s.cell p).sched = false) :
    instrHiWrite m p v s = (s.setCell p ((s.cell p).staged m v), .ok) := if_neg (by simp [hrole, hsched])

theorem instrLoWrite_refused (i : Nat) (h : (s.cell p).role = .fenced ∨ (s.cell p).sched = true) :
    instrLoWrite m p i v s = (s, .accessErr) := if_pos h

/-- A cell whose instruction i is the staged half above the written one. -/
def Cell.insWritten (c : Cell) (m : Master) (i : Nat) (v : Word) : Cell :=
  c.setIns i ((Tab.get (fun _ => (0 : Word)) c.stagedHi m.idx).toNat * 2 ^ 32 + v.toNat)

theorem instrLoWrite_admitted (i : Nat) (hrole : (s.cell p).role ≠ .fenced) (hsched : (s.cell p).sched = false) :
    instrLoWrite m p i v s = (s.setCell p ((s.cell p).insWritten m i v), .ok) := if_neg (by simp [hrole, hsched])

/-- A cell whose capture of a master holds the upper half of an instruction. -/
def Cell.captureIns (c : Cell) (m : Master) (i : Nat) : Cell :=
  { c with readHi := Tab.set (fun _ => 0) c.readHi m.idx (wd (c.ins i / 2 ^ 32)) }

theorem instrLoRead_good {i : Nat} (h : (s.cell p).progState i = .good) :
    instrLoRead m p i s = (s.setCell p ((s.cell p).captureIns m i), wd ((s.cell p).ins i), .ok) := by
  simp [instrLoRead, h, Cell.captureIns]

theorem instrLoRead_ue {i : Nat} (h : (s.cell p).progState i = .ue) : instrLoRead m p i s = (settle (cellUe 4 p s), 0, .accessErr) := by
  simp [instrLoRead, h]

/-! ### The commands -/

variable (hpath : pathErr m .cellMem s = none)
include hpath

theorem cellDataRead_spec (p : Fin 72) (w : Fin 16384) :
    ∃ t, exec (.cellDataRead m p w) s = .next t ∧
      ((s.cell p).dataState w = .good → t.resp m = ⟨.ok, [wd ((s.cell p).word w)]⟩ ∧
        Tab.get (fun _ => 0) (t.cell p).memHi m.idx = (s.cell p).word w / 2 ^ 32 ∧ t = { s with bus := t.bus, cells := t.cells } ∧
        t.cell p = { s.cell p with memHi := (t.cell p).memHi } ∧ ∀ q, q ≠ p.val → t.cell q = s.cell q) ∧
      ((s.cell p).dataState w = .ue → t.resp m = ⟨.accessErr, [0]⟩ ∧ t.faultBit (.cell p) 3 = true) := by
  refine ⟨_, congrArg Host.Outcome.next (rdAt_ok hpath), fun hgood => ?_, fun hue => ?_⟩
  · rw [dataRead_good m hgood]
    obtain ⟨hresp, hframe, hcell, hothers⟩ := cellAnswered_setCell m .ok [wd ((s.cell p).word w)] p ((s.cell p).captureData m w) s
    refine ⟨hresp, ?_, hframe, ?_, hothers⟩
    · rw [hcell]
      exact tab_get_set_same ..
    · rw [hcell]
      rfl
  · rw [dataRead_ue m hue]
    exact ⟨resp_respond_same .., cellUe_fault p s (by decide)⟩

theorem cellDataWrite_spec (p : Fin 72) (w : Fin 16384) :
    ∃ t, exec (.cellDataWrite m p w v) s = .next t ∧ t = { s with bus := t.bus, cells := t.cells } ∧
      ((s.cell p).role = .fenced → t.resp m = ⟨.accessErr, []⟩ ∧ t.cells = s.cells) ∧
      ((s.cell p).role ≠ .fenced → s.fabric.mig = none → t.resp m = ⟨.ok, []⟩ ∧
        (t.cell p).word w = (Tab.get (fun _ => 0) (s.cell p).memHi m.idx * 2 ^ 32 + v.toNat) % 2 ^ 40 ∧
        (∀ k : Fin 16384, k ≠ w → (t.cell p).word k = (s.cell p).word k) ∧ (∀ k, (t.cell p).ins k = (s.cell p).ins k) ∧
        ∀ q, q ≠ p.val → t.cell q = s.cell q) := by
  refine ⟨_, congrArg Host.Outcome.next (cmdAt_ok hpath), ?_, fun hfenced => ?_, fun hrole hmig => ?_⟩
  · obtain ⟨x, hx⟩ := dataWrite_frame m v (s := s) (p := p) w
    rw [hx]
    rfl
  · rw [dataWrite_fenced m v w hfenced]
    exact ⟨resp_respond_same .., rfl⟩
  · rw [dataWrite_unmirrored m v w hrole hmig]
    obtain ⟨hresp, -, hcell, hothers⟩ := cellAnswered_setCell m .ok [] p ((s.cell p).dataWritten m w v) s
    rw [hcell]
    refine ⟨hresp, ?_, fun k hk => ?_, fun _ => ins_setWord .., hothers⟩
    · rw [Cell.dataWritten, word_setWord, if_pos rfl]
    · rw [Cell.dataWritten, word_setWord, if_neg hk]

theorem cellInstrHiWrite_spec (p : Fin 72) (i : Fin 4096) :
    ∃ t, exec (.cellInstrHiWrite m p i v) s = .next t ∧ t = { s with bus := t.bus, cells := t.cells } ∧
      ((s.cell p).role = .fenced ∨ (s.cell p).sched = true → t.resp m = ⟨.accessErr, []⟩ ∧ t.cells = s.cells) ∧
      ((s.cell p).role ≠ .fenced → (s.cell p).sched = false → t.resp m = ⟨.ok, []⟩ ∧
        t.cell p = { s.cell p with stagedHi := (t.cell p).stagedHi } ∧ Tab.get (fun _ => 0) (t.cell p).stagedHi m.idx = v ∧
        ∀ q, q ≠ p.val → t.cell q = s.cell q) := by
  refine ⟨_, congrArg Host.Outcome.next (cmdAt_ok hpath), ?_, fun hbarred => ?_, fun hrole hsched => ?_⟩
  · unfold instrHiWrite
    split <;> rfl
  · rw [instrHiWrite_refused m v hbarred]
    exact ⟨resp_respond_same .., rfl⟩
  · rw [instrHiWrite_admitted m v hrole hsched]
    obtain ⟨hresp, -, hcell, hothers⟩ := cellAnswered_setCell m .ok [] p ((s.cell p).staged m v) s
    rw [hcell]
    exact ⟨hresp, rfl, tab_get_set_same .., hothers⟩

theorem cellInstrLoWrite_spec (p : Fin 72) (i : Fin 4096) :
    ∃ t, exec (.cellInstrLoWrite m p i v) s = .next t ∧ t = { s with bus := t.bus, cells := t.cells } ∧
      ((s.cell p).role = .fenced ∨ (s.cell p).sched = true → t.resp m = ⟨.accessErr, []⟩ ∧ t.cells = s.cells) ∧
      ((s.cell p).role ≠ .fenced → (s.cell p).sched = false → t.resp m = ⟨.ok, []⟩ ∧
        (t.cell p).ins i = (Tab.get (fun _ => (0 : Word)) (s.cell p).stagedHi m.idx).toNat * 2 ^ 32 + v.toNat ∧
        (∀ k : Fin 4096, k ≠ i → (t.cell p).ins k = (s.cell p).ins k) ∧ (∀ w, (t.cell p).word w = (s.cell p).word w) ∧
        ∀ q, q ≠ p.val → t.cell q = s.cell q) := by
  refine ⟨_, congrArg Host.Outcome.next (cmdAt_ok hpath), ?_, fun hbarred => ?_, fun hrole hsched => ?_⟩
  · unfold instrLoWrite
    dsimp only
    split <;> rfl
  · rw [instrLoWrite_refused m v i hbarred]
    exact ⟨resp_respond_same .., rfl⟩
  · rw [instrLoWrite_admitted m v i hrole hsched]
    obtain ⟨hresp, -, hcell, hothers⟩ := cellAnswered_setCell m .ok [] p ((s.cell p).insWritten m i v) s
    rw [hcell]
    refine ⟨hresp, ?_, fun k hk => ?_, fun _ => word_setIns .., hothers⟩
    · rw [Cell.insWritten, ins_setIns, if_pos rfl, instr_halves_mod]
    · rw [Cell.insWritten, ins_setIns, if_neg hk]

theorem cellInstrLoRead_spec (p : Fin 72) (i : Fin 4096) :
    ∃ t, exec (.cellInstrLoRead m p i) s = .next t ∧
      ((s.cell p).progState i = .good → t.resp m = ⟨.ok, [wd ((s.cell p).ins i)]⟩ ∧
        Tab.get (fun _ => 0) (t.cell p).readHi m.idx = wd ((s.cell p).ins i / 2 ^ 32) ∧ t = { s with bus := t.bus, cells := t.cells } ∧
        ∀ q, q ≠ p.val → t.cell q = s.cell q) ∧
      ((s.cell p).progState i = .ue → t.resp m = ⟨.accessErr, [0]⟩ ∧ t.faultBit (.cell p) 4 = true) := by
  refine ⟨_, congrArg Host.Outcome.next (rdAt_ok hpath), fun hgood => ?_, fun hue => ?_⟩
  · rw [instrLoRead_good m hgood]
    obtain ⟨hresp, hframe, hcell, hothers⟩ := cellAnswered_setCell m .ok [wd ((s.cell p).ins i)] p ((s.cell p).captureIns m i) s
    refine ⟨hresp, ?_, hframe, hothers⟩
    rw [hcell]
    exact tab_get_set_same ..
  · rw [instrLoRead_ue m hue]
    exact ⟨resp_respond_same .., cellUe_fault p s (by decide)⟩

end

/-- Settles O29, window by window: with a path each access is its window's operation and the answer, and the operation is its equation by
the state of the word or of the cell; `cellUe_fault` is the detection of an uncorrectable word. -/
theorem cellMemoryWindows : Obligations.CellMemoryWindows := fun _ m p hpath =>
  ⟨cellDataRead_spec m hpath p, fun w v => cellDataWrite_spec m v hpath p w, fun i v => cellInstrHiWrite_spec m v hpath p i,
    fun i v => cellInstrLoWrite_spec m v hpath p i, cellInstrLoRead_spec m hpath p⟩

end Sys2Proof.Machine
end

section
/-! SUPPORT. HALT, RETIRE and FENCE_CLR of a cell (R122, R150, R170, R173). -/
namespace Sys2Proof.Machine
open Sys2Proof

/-! ### Tables, flags and answers -/

/-- What holds of a table's value at one key, and not of what the key reads as when unlisted, holds of one of its entries. -/
theorem tab_any_of_get {α : Type} {d : Nat → α} {f : α → Bool} {t : Tab α} {k : Nat} (hd : f (d k) = false)
    (h : f (Tab.get d t k) = true) : t.any (fun e => f e.2) = true := by
  induction t with
  | nil => exact absurd h (by simp [Tab.get, hd])
  | cons e t ih =>
    rw [Tab.get] at h
    rw [List.any_cons, Bool.or_eq_true]
    split at h
    · exact .inl h
    · exact .inr (ih h)

theorem cell_congr {s t : State} (h : t.cells = s.cells) (p : Nat) : t.cell p = s.cell p := by rw [State.cell, State.cell, h]

theorem cell_fabric (x : Fabric) (s : State) (p : Nat) : ({ s with fabric := x } : State).cell p = s.cell p := cell_congr rfl p

@[simp] theorem respond_cell (m : Master) (code : Code) (ws : List Word) (s : State) (p : Nat) :
    (respond m code ws s).cell p = s.cell p := cell_congr (respond_cells ..) p

theorem settle_fabric (s : State) : (settle s).fabric = s.fabric := by
  rw [settle_frame]

@[simp] theorem settle_cell (s : State) (p : Nat) : (settle s).cell p = s.cell p := by
  rw [settle_frame]
  exact cell_congr rfl p

/-- A foreground test makes MAINT 1 (R44). -/
theorem settle_maint {s : State} (h : maintTest s = true) : (settle s).sys.maint = true := by
  unfold settle
  extract_lets t
  have ht : maintTest t = true := by
    unfold t
    rwa [setFlag_frame]
  obtain ⟨_, hsys⟩ := setFlag_sys t 5 (maintPartial t || maintMigrate t || maintTest t) none
  rw [hsys, ht, Bool.or_true]
  rfl

/-- A command on a cell that touches the register file, SYS and the cells keeps the rest, and so does its answer. -/
theorem respond_frame (m : Master) (code : Code) (ws : List Word) {s t : State} (h : ∃ r y x, t = { s with regs := r, sys := y, cells := x }) :
    respond m code ws t = { s with
      bus := (respond m code ws t).bus, regs := (respond m code ws t).regs
      sys := (respond m code ws t).sys, cells := (respond m code ws t).cells } := by
  obtain ⟨r, y, x, rfl⟩ := h
  rfl

theorem settle_updCell_frame (p : Nat) (f : Cell → Cell) (s : State) :
    ∃ r y x, settle (s.updCell p f) = { s with regs := r, sys := y, cells := x } := ⟨_, _, _, settle_frame (s.updCell p f)⟩

/-! ### HALT -/

section
variable {s : State} {p : Nat}

theorem testRefused_iff : testRefused s p = true ↔ s.sys.alarm = true ∨ s.sys.run = false ∨ (s.cell p).role ≠ .active := by
  simp [testRefused, or_assoc]

theorem haltSet_refused (h : testRefused s p = true) : haltSet p s = evt (.cell p) 4 s := if_pos h

theorem haltSet_admitted (h : testRefused s p = false) : haltSet p s = settle (s.updCell p fun c => { c with halt := true }) :=
  if_neg (Bool.eq_false_iff.mp h)

theorem haltSet_frame : ∃ r y x, haltSet p s = { s with regs := r, sys := y, cells := x } := by
  unfold haltSet
  split
  · exact ⟨_, _, _, rfl⟩
  · exact settle_updCell_frame ..

theorem maintTest_of_halt (h : (s.cell p).halt = true) : maintTest s = true := tab_any_of_get (f := Cell.halt) rfl h

end

section
variable {m : Master} {s : State} (hwrite : MayWrite m s) (p : Fin 72)
include hwrite

theorem exec_halt_set :
    exec (.halt m p true) s = .next (respond m .ok [] (if (s.cell p).halt then s else haltSet p s)) :=
  congrArg Host.Outcome.next (cmd_ok hwrite.1 (.inr hwrite.2))

theorem exec_halt_clear : exec (.halt m p false) s = .next (respond m .ok [] (haltClear p s)) :=
  congrArg Host.Outcome.next (cmd_ok hwrite.1 (.inr hwrite.2))

theorem halt_set_spec :
    ∃ t, exec (.halt m p true) s = .next t ∧ t.resp m = ⟨.ok, []⟩ ∧ t = { s with bus := t.bus, regs := t.regs, sys := t.sys, cells := t.cells } ∧
      ((s.cell p).halt = false → (s.sys.alarm = true ∨ s.sys.run = false ∨ (s.cell p).role ≠ .active) →
        t.rbit ((Blk.cell p).base + 0x40) 4 = true ∧ t.cells = s.cells) ∧
      ((s.cell p).halt = false → ¬ (s.sys.alarm = true ∨ s.sys.run = false ∨ (s.cell p).role ≠ .active) →
        t.cell p = { s.cell p with halt := true } ∧ t.sys.maint = true) ∧
      ((s.cell p).halt = true → t = { s with bus := t.bus }) := by
  refine ⟨_, exec_halt_set hwrite p, resp_respond_same .., respond_frame _ _ _ ?_, fun hrun hbarred => ?_, fun hrun hfree => ?_,
    fun hhalt => ?_⟩
  · split
    · exact ⟨_, _, _, rfl⟩
    · exact haltSet_frame
  · rw [if_neg (by simp [hrun]), haltSet_refused (testRefused_iff.mpr hbarred)]
    exact ⟨(rbit_congr (respond_regs ..) _ _).trans (evt_rbit (.cell p) (by decide) s), rfl⟩
  · rw [if_neg (by simp [hrun]), haltSet_admitted (Bool.eq_false_iff.mpr (testRefused_iff.not.mpr hfree))]
    have hcell : (s.updCell p fun c => { c with halt := true }).cell p = { s.cell p with halt := true } := cell_updCell_same ..
    rw [respond_cell, settle_cell]
    exact ⟨hcell, settle_maint (maintTest_of_halt (p := p) (by rw [hcell]))⟩
  · rw [if_pos hhalt]
    rfl

theorem halt_clear_spec :
    ∃ t, exec (.halt m p false) s = .next t ∧ t.resp m = ⟨.ok, []⟩ ∧ t = { s with bus := t.bus, regs := t.regs, sys := t.sys, cells := t.cells } ∧
      t.cell p = { s.cell p with halt := false } ∧ ∀ q, q ≠ p.val → t.cell q = s.cell q := by
  refine ⟨_, exec_halt_clear hwrite p, resp_respond_same .., respond_frame _ _ _ (settle_updCell_frame ..), ?_, fun q hq => ?_⟩
  · rw [respond_cell, haltClear, settle_cell, cell_updCell_same]
  · rw [respond_cell, haltClear, settle_cell, State.updCell, cell_setCell_ne _ _ hq]

/-! ### FENCE_CLR -/

theorem fenceClr_spec :
    ∃ t, exec (.fenceClr m p) s = .next t ∧ t.resp m = ⟨.ok, []⟩ ∧ t = { s with bus := t.bus, regs := t.regs, sys := t.sys, cells := t.cells } ∧
      ((s.cell p).role = .fenced → t.cell p = { s.cell p with role := .test, configured := false, logical := none }) ∧
      ((s.cell p).role ≠ .fenced → t = { s with bus := t.bus }) := by
  refine ⟨_, congrArg Host.Outcome.next (cmd_ok hwrite.1 (.inr hwrite.2)), resp_respond_same .., respond_frame _ _ _ ?_, fun hfenced => ?_,
    fun hother => ?_⟩
  · unfold fenceClr
    split
    · exact settle_updCell_frame ..
    · exact ⟨_, _, _, rfl⟩
  · rw [fenceClr, if_pos hfenced]
    rw [respond_cell, settle_cell, cell_updCell_same]
  · rw [fenceClr, if_neg hother]
    rfl

end

/-! ### RETIRE -/

section
variable {s : State} {p q : Nat}

theorem takeSpare_role (h : takeSpare s = some q) : (s.cell q).role = .spare ∨ (s.cell q).role = .test := by
  simpa using List.find?_some h

theorem takeSpare_congr {t : State} (horder : t.fabric.spareOrder = s.fabric.spareOrder) (hrole : ∀ r, (t.cell r).role = (s.cell r).role) :
    takeSpare t = takeSpare s := by
  simp only [takeSpare, horder, hrole]

theorem underPartial_congr {t : State} (hmem : t.mem = s.mem) (himg : t.img = s.img) (hlogical : (t.cell p).logical = (s.cell p).logical) :
    underPartial t p = underPartial s p := by
  simp only [underPartial, partialCells, hlogical, himg, headerAt_congr hmem]

theorem updMig_cell (r : Nat) (f : MigStat → MigStat) :
    (updMig p f s).cell r = { s.cell r with mig := if r = p then f (s.cell r).mig else (s.cell r).mig } := by
  rw [updMig, cell_updCell]
  split
  next h => rw [h]
  next => rfl

/-- A proactive migration onto the first spare: it loads, the spare is the source's shadow, and both show it (Table 6.12). -/
theorem startProactive_spec (ce : Bool) (hspare : takeSpare s = some q) (hapart : q ≠ p) :
    (startProactive p ce s).fabric = { s.fabric with mig := some ⟨p, q, .loading, ce, 0⟩ } ∧
      ((startProactive p ce s).cell q).role = .shadow ∧ ((startProactive p ce s).cell q).logical = (s.cell p).logical ∧
      ((startProactive p ce s).cell p).mig.phase = .loading ∧ ((startProactive p ce s).cell p).role = (s.cell p).role := by
  rw [startProactive, hspare]
  dsimp only
  simp only [cell_fabric, updMig_cell, cell_updCell, if_neg hapart, if_neg hapart.symm, if_pos]
  exact ⟨rfl, trivial, trivial, trivial, trivial⟩

/-- The only request of the queue, of a cell that can migrate, starts. -/
theorem dequeueList_starts (ce : Bool) (hmig : s.fabric.mig = none) (hrun : s.sys.run = true) (hrole : (s.cell p).role = .active)
    (hpartial : underPartial s p = false) (hrestoring : restoring s p = false) :
    dequeueList [(p, ce)] s = ([], startProactive p ce s) := by
  simp [dequeueList, hmig, hrun, hrole, hpartial, hrestoring]

theorem dequeueMig_eq {t : State} (h : dequeueList s.fabric.queue s = ([], t)) :
    (dequeueMig s).fabric = { t.fabric with queue := [] } ∧ (dequeueMig s).cells = t.cells := by
  simp only [dequeueMig, h, and_self]

/-- What a cell shows of a request that waits (Table 6.17). -/
def MigStat.queued (x : MigStat) : MigStat := { x with phase := .queued, restorative := false, partner := none }

/-- The state with a first request queued. -/
def firstQueued (p : Nat) (ce : Bool) (s : State) : State :=
  { updMig p MigStat.queued s with fabric := { s.fabric with queue := [(p, ce)] } }

theorem firstQueued_cell (ce : Bool) (r : Nat) :
    (firstQueued p ce s).cell r = { s.cell r with mig := if r = p then (s.cell r).mig.queued else (s.cell r).mig } := updMig_cell r _

theorem requestMig_first (ce : Bool) (hmig : s.fabric.mig = none) (hqueue : s.fabric.queue = []) (hrestoring : restoring s p = false) :
    requestMig p ce s = dequeueMig (firstQueued p ce s) := by
  have hqueued : (updMig p MigStat.queued s).fabric.queue = [] := hqueue
  simp only [requestMig, hmig, hqueue, hrestoring, Option.any_none, List.any_nil, Bool.or_false, Bool.false_eq_true, if_false]
  exact congrArg (fun l => dequeueMig { updMig p MigStat.queued s with fabric := { s.fabric with queue := l ++ [(p, ce)] } }) hqueued

theorem firstQueued_starts (ce : Bool) (hmig : s.fabric.mig = none) (hrun : s.sys.run = true) (hrole : (s.cell p).role = .active)
    (hpartial : underPartial s p = false) :
    dequeueList (firstQueued p ce s).fabric.queue (firstQueued p ce s) = ([], startProactive p ce (firstQueued p ce s)) := by
  refine dequeueList_starts ce hmig hrun ?_ ?_ ?_
  · rw [firstQueued_cell]
    exact hrole
  · exact (underPartial_congr (s := s) (t := firstQueued p ce s) rfl rfl (by rw [firstQueued_cell])).trans hpartial
  · rw [restoring, firstQueued_cell, if_pos rfl]
    rfl

/-- A first request, of a cell that can migrate, starts a migration onto the first spare at once (R170). -/
theorem requestMig_first_spec (ce : Bool) (hspare : takeSpare s = some q) (hmig : s.fabric.mig = none) (hqueue : s.fabric.queue = [])
    (hrestoring : restoring s p = false) (hrun : s.sys.run = true) (hrole : (s.cell p).role = .active) (hpartial : underPartial s p = false) :
    (requestMig p ce s).fabric = { s.fabric with mig := some ⟨p, q, .loading, ce, 0⟩ } ∧
      ((requestMig p ce s).cell q).role = .shadow ∧ ((requestMig p ce s).cell q).logical = (s.cell p).logical ∧
      ((requestMig p ce s).cell p).mig.phase = .loading ∧ ((requestMig p ce s).cell p).role = .active := by
  have hapart : q ≠ p := by
    rintro rfl
    simpa [hrole] using takeSpare_role hspare
  have hspare' : takeSpare (firstQueued p ce s) = some q := 
    (takeSpare_congr (s := s) (t := firstQueued p ce s) rfl fun r => by rw [firstQueued_cell]).trans hspare
  obtain ⟨hfabric, hshadow, hlogical, hphase, hsource⟩ := startProactive_spec ce hspare' hapart
  obtain ⟨hended, hcells⟩ := dequeueMig_eq (firstQueued_starts ce hmig hrun hrole hpartial)
  have hcell (r : Nat) : (dequeueMig (firstQueued p ce s)).cell r = (startProactive p ce (firstQueued p ce s)).cell r :=
    cell_congr hcells r
  rw [firstQueued_cell] at hlogical hsource
  rw [requestMig_first ce hmig hqueue hrestoring, hended, hcell, hcell, hfabric]
  refine ⟨?_, hshadow, hlogical, hphase, hsource.trans hrole⟩
  rw [← hqueue]
  rfl

theorem retire_refused (h : testRefused s p = true ∨ takeSpare s = none ∨ underPartial s p = true) : retire p s = evt (.cell p) 4 s := by
  refine if_pos ?_
  simpa [or_assoc] using h

theorem retire_admitted (hbarred : testRefused s p = false) (hspare : takeSpare s = some q) (hpartial : underPartial s p = false) :
    retire p s = settle (requestMig p false s) := by
  refine if_neg ?_
  simp [hbarred, hspare, hpartial]

theorem retire_mem : (retire p s).mem = s.mem := by
  unfold retire
  split
  · rfl
  · rw [settle_frame]
    exact mem_eq_of_fabricView (t := requestMig p false s) (fabricView_requestMig p s p false)

end

theorem retire_spec {m : Master} {s : State} (hwrite : MayWrite m s) (p : Fin 72) :
    ∃ t, exec (.retire m p) s = .next t ∧ t.resp m = ⟨.ok, []⟩ ∧ t.mem = s.mem ∧
      ((s.sys.alarm = true ∨ s.sys.run = false ∨ (s.cell p).role ≠ .active) ∨ takeSpare s = none ∨ underPartial s p = true →
        t.rbit ((Blk.cell p).base + 0x40) 4 = true ∧ t.cells = s.cells ∧ t.fabric = s.fabric) ∧
      (∀ q, ¬ (s.sys.alarm = true ∨ s.sys.run = false ∨ (s.cell p).role ≠ .active) → takeSpare s = some q → underPartial s p = false →
        restoring s p = false → s.fabric.mig = none → s.fabric.queue = [] →
        t.fabric = { s.fabric with mig := some ⟨p, q, .loading, false, 0⟩ } ∧ (t.cell q).role = .shadow ∧
          (t.cell q).logical = (s.cell p).logical ∧ (t.cell p).mig.phase = .loading ∧ (t.cell p).role = .active) := by
  refine ⟨_, congrArg Host.Outcome.next (cmd_ok hwrite.1 (.inr hwrite.2)), resp_respond_same .., retire_mem, fun h => ?_,
    fun q hfree hspare hpartial hrestoring hmig hqueue => ?_⟩
  · rw [retire_refused (h.imp_left testRefused_iff.mpr)]
    exact ⟨(rbit_congr (respond_regs ..) _ _).trans (evt_rbit (.cell p) (by decide) s), rfl, rfl⟩
  · have hadmitted : testRefused s p = false := Bool.eq_false_iff.mpr (testRefused_iff.not.mpr hfree)
    have hrun : s.sys.run = true := by simpa using fun h => hfree (.inr (.inl h))
    have hrole : (s.cell p).role = .active := by simpa using fun h => hfree (.inr (.inr h))
    rw [retire_admitted hadmitted hspare hpartial]
    obtain ⟨hfabric, hcells⟩ := requestMig_first_spec false hspare hmig hqueue hrestoring hrun hrole hpartial
    rw [respond_cell, respond_cell, settle_cell, settle_cell]
    exact ⟨(settle_fabric _).trans hfabric, hcells⟩

end Sys2Proof.Machine
end

section
/-! SUPPORT. The address generators, the state registers and the scrubbers of a cell (R128, R138, R139, R149). -/
namespace Sys2Proof.Machine
open Sys2Proof

/-! ### The takeover of a generator's pending writes (R139) -/

namespace AddrGen

/-- The takeover of a pending write of pointer j. -/
def takePtr (x : AddrGen) (j : Nat) : AddrGen :=
  match Tab.get (fun _ => none) x.pendP j with
  | none => x
  | some v => x.setPtr j (v : Int)

/-- The takeover of BASE, LEN and STEP; the pointers are then taken modulo the new length. -/
def takeShape (x : AddrGen) : AddrGen :=
  (upto 4).foldl (fun y j => y.setPtr j (y.ptr j))
    { x with base := x.pendBase.getD x.base, len := x.pendLen.getD x.len, step := x.pendStep.getD x.step }

/-- A generator with no write pending. -/
def nonePending (x : AddrGen) : AddrGen := { x with pendBase := none, pendLen := none, pendStep := none, pendP := [] }

theorem takeOver_eq (x : AddrGen) : x.takeOver.1 = ((upto 4).foldl takePtr x.takeShape).nonePending := rfl

theorem ptr_nonePending (x : AddrGen) (j : Nat) : x.nonePending.ptr j = x.ptr j := rfl
theorem len_nonePending (x : AddrGen) : x.nonePending.len = x.len := rfl

/-- What a pointer's change leaves as it is: BASE, LEN, STEP and the pending pointers. -/
def shape (x : AddrGen) : Nat × Nat × Nat × Tab (Option Nat) := (x.base, x.len, x.step, x.pendP)

theorem shape_eq_iff {x y : AddrGen} : y.shape = x.shape ↔ y.base = x.base ∧ y.len = x.len ∧ y.step = x.step ∧ y.pendP = x.pendP := by
  simp only [shape, Prod.mk.injEq]

theorem shape_takePtr (x : AddrGen) (j : Nat) : (x.takePtr j).shape = x.shape := by
  unfold takePtr
  split <;> rfl

theorem shape_takePtrs (l : List Nat) (x : AddrGen) : (l.foldl takePtr x).shape = x.shape := by
  induction l generalizing x with
  | nil => rfl
  | cons j l ih => rw [List.foldl_cons, ih, shape_takePtr]

theorem shape_takeShape (x : AddrGen) :
    x.takeShape.base = x.pendBase.getD x.base ∧ x.takeShape.len = x.pendLen.getD x.len ∧ x.takeShape.step = x.pendStep.getD x.step ∧
      x.takeShape.pendP = x.pendP := ⟨rfl, rfl, rfl, rfl⟩

theorem ptr_setPtr (x : AddrGen) (i j : Nat) (v : Int) : (x.setPtr i v).ptr j = if j = i then modN v x.length else x.ptr j :=
  tab_get_set _ x.p i j _

theorem modN_natCast (v n : Nat) : modN (v : Int) n = v % n := by
  rw [modN, ← Int.natCast_mod, Int.toNat_natCast]

theorem ptr_takePtr_same {x : AddrGen} {j v : Nat} (h : Tab.get (fun _ => none) x.pendP j = some v) :
    (x.takePtr j).ptr j = v % (x.len + 1) := by
  rw [takePtr, h]
  exact (ptr_setPtr x j j v).trans ((if_pos rfl).trans (modN_natCast v _))

theorem ptr_takePtr_ne (x : AddrGen) {i j : Nat} (h : j ≠ i) : (x.takePtr i).ptr j = x.ptr j := by
  unfold takePtr
  split
  · rfl
  · rw [ptr_setPtr, if_neg h]

/-- A pointer with a pending write takes it modulo the buffer length, and no other pointer's write touches it (R138). -/
theorem ptr_takePtrs {l : List Nat} {x : AddrGen} {j v : Nat} (hpend : Tab.get (fun _ => none) x.pendP j = some v) (hj : j ∈ l) :
    (l.foldl takePtr x).ptr j = v % (x.len + 1) := by
  induction l using List.reverseRecOn with
  | nil => exact absurd hj List.not_mem_nil
  | append_singleton l i ih =>
    obtain ⟨-, hlen, -, hpendP⟩ := shape_eq_iff.mp (shape_takePtrs l x)
    rw [List.foldl_append, List.foldl_cons, List.foldl_nil]
    by_cases h : j = i
    · subst h
      rw [ptr_takePtr_same (by rw [hpendP, hpend]), hlen]
    · rw [ptr_takePtr_ne _ h]
      exact ih (by simpa [h] using hj)

/-- The takeover, by its result. -/
theorem takeOver_spec (x : AddrGen) :
    (x.takeOver.1.base = x.pendBase.getD x.base ∧ x.takeOver.1.len = x.pendLen.getD x.len ∧ x.takeOver.1.step = x.pendStep.getD x.step) ∧
      (x.takeOver.1.pendBase = none ∧ x.takeOver.1.pendLen = none ∧ x.takeOver.1.pendStep = none ∧ x.takeOver.1.pendP = []) ∧
      ∀ j v, j < 4 → Tab.get (fun _ => none) x.pendP j = some v → x.takeOver.1.ptr j = v % (x.takeOver.1.len + 1) := by
  obtain ⟨hbase, hlen, hstep, -⟩ := shape_eq_iff.mp (shape_takePtrs (upto 4) x.takeShape)
  obtain ⟨hbase', hlen', hstep', hpendP⟩ := shape_takeShape x
  have hptr (j v : Nat) (hj : j < 4) (hpend : Tab.get (fun _ => none) x.pendP j = some v) :
      ((upto 4).foldl takePtr x.takeShape).ptr j = v % (x.takeShape.len + 1) :=
    ptr_takePtrs (by rw [hpendP, hpend]) (List.mem_range.mpr hj)
  rw [takeOver_eq]
  generalize (upto 4).foldl takePtr x.takeShape = y at *
  refine ⟨⟨hbase.trans hbase', hlen.trans hlen', hstep.trans hstep'⟩, ⟨rfl, rfl, rfl, rfl⟩, fun j v hj hpend => ?_⟩
  rw [ptr_nonePending, len_nonePending, hptr j v hj hpend, hlen]

end AddrGen

/-! ### The generators of a cell -/

theorem ag_setAg (c : Cell) (g k : Nat) (x : AddrGen) : (c.setAg g x).ag k = if k = g then x else c.ag k := tab_get_set _ c.ags g k x

/-- A takeover on a cell takes over each of its four generators. -/
theorem takeOverAgs_ag (c : Cell) (g : Fin 4) : c.takeOverAgs.1.ag g = (c.ag g).takeOver.1 := by
  have hupto : upto 4 = [0, 1, 2, 3] := rfl
  fin_cases g <;> simp [Cell.takeOverAgs, hupto, ag_setAg]

/-- A generator with a write of its register r pending (Table 5.15). -/
def AddrGen.pend (a : AddrGen) (r x : Nat) : AddrGen :=
  match r with
  | 0 => { a with pendBase := some x }
  | 1 => { a with pendLen := some x }
  | 6 => { a with pendStep := some x }
  | _ => { a with pendP := Tab.set (fun _ => none) a.pendP (r - 2) (some x) }

theorem AddrGen.pend_spec (a : AddrGen) (r : Fin 7) (x : Nat) :
    ((a.pend r x).base = a.base ∧ (a.pend r x).len = a.len ∧ (a.pend r x).p = a.p) ∧
      (r.val = 0 → (a.pend r x).pendBase = some x) ∧ (r.val = 1 → (a.pend r x).pendLen = some x) ∧ (r.val = 6 → (a.pend r x).pendStep = some x) ∧
      (2 ≤ r.val → r.val ≤ 5 → Tab.get (fun _ => none) (a.pend r x).pendP (r.val - 2) = some x) := by
  fin_cases r <;> simp [AddrGen.pend]

section
variable {s : State} {p : Nat}

/-- The cell with a generator write pending. -/
def Cell.agPending (c : Cell) (g r : Nat) (v : Word) : Cell := c.setAg g ((c.ag g).pend r (v.toNat % 16384))

theorem agWrite_running (g r : Nat) (v : Word) (h : (s.cell p).sched = true) :
    agWrite p g r v s = s.setCell p ((s.cell p).agPending g r v) := by
  have hsched : ((s.setCell p ((s.cell p).agPending g r v)).cell p).sched = true := by
    rw [cell_setCell_same]
    exact h
  exact if_pos hsched

theorem agWrite_idle (g r : Nat) (v : Word) (h : (s.cell p).sched = false) :
    agWrite p g r v s = takeOverCell p (s.setCell p ((s.cell p).agPending g r v)) := by
  have hsched : ((s.setCell p ((s.cell p).agPending g r v)).cell p).sched ≠ true := by
    rw [cell_setCell_same]
    exact Bool.eq_false_iff.mp h
  exact if_neg hsched

theorem takeOverCell_cell (q : Nat) : (takeOverCell p s).cell q = if q = p then (s.cell p).takeOverAgs.1 else s.cell q :=
  cell_setCell s p q _

theorem takeOverCell_frame (p : Nat) (s : State) : ∃ x y, takeOverCell p s = { s with regs := x, cells := y } := ⟨_, _, rfl⟩

theorem agWrite_frame (g r : Nat) (v : Word) : ∃ x y, agWrite p g r v s = { s with regs := x, cells := y } := by
  cases h : (s.cell p).sched with
  | true =>
    rw [agWrite_running g r v h]
    generalize (s.cell p).agPending g r v = c
    exact ⟨s.regs, _, rfl⟩
  | false =>
    rw [agWrite_idle g r v h]
    exact takeOverCell_frame p (s.setCell p ((s.cell p).agPending g r v))

theorem agWrite_others {q : Nat} (g r : Nat) (v : Word) (hq : q ≠ p) : (agWrite p g r v s).cell q = s.cell q := by
  cases h : (s.cell p).sched with
  | true => rw [agWrite_running g r v h, cell_setCell_ne _ _ hq]
  | false => rw [agWrite_idle g r v h, takeOverCell_cell, if_neg hq, cell_setCell_ne _ _ hq]

theorem agPending_ag (c : Cell) (g r : Nat) (v : Word) : (c.agPending g r v).ag g = (c.ag g).pend r (v.toNat % 16384) :=
  (ag_setAg ..).trans (if_pos rfl)

theorem agWrite_running_ag (g r : Nat) (v : Word) (h : (s.cell p).sched = true) :
    ((agWrite p g r v s).cell p).ag g = ((s.cell p).ag g).pend r (v.toNat % 16384) := by
  rw [agWrite_running g r v h, cell_setCell_same, agPending_ag]

theorem agWrite_idle_ag (g : Fin 4) (r : Nat) (v : Word) (h : (s.cell p).sched = false) :
    ((agWrite p g r v s).cell p).ag g = (((s.cell p).ag g).pend r (v.toNat % 16384)).takeOver.1 := by
  rw [agWrite_idle g r v h, takeOverCell_cell, if_pos rfl, takeOverAgs_ag, cell_setCell_same, agPending_ag]

end

theorem agRegisterWrite_spec {m : Master} {s : State} (hreach : Reaches m s) (p : Fin 72) (g : Fin 4) (r : Fin 7) (v : Word) :
    ∃ t, exec (.agRegisterWrite m p g r v) s = .next t ∧ t.resp m = ⟨.ok, []⟩ ∧
      t = { s with bus := t.bus, regs := t.regs, cells := t.cells } ∧ (∀ q, q ≠ p.val → t.cell q = s.cell q) ∧
      let x := v.toNat % 16384
      let a := (t.cell p).ag g
      ((s.cell p).sched = true → a.base = ((s.cell p).ag g).base ∧ a.len = ((s.cell p).ag g).len ∧ a.p = ((s.cell p).ag g).p ∧
        (r.val = 0 → a.pendBase = some x) ∧ (r.val = 1 → a.pendLen = some x) ∧ (r.val = 6 → a.pendStep = some x)) ∧
      ((s.cell p).sched = false → a.pendBase = none ∧ a.pendLen = none ∧ a.pendStep = none ∧ a.pendP = [] ∧
        (r.val = 0 → a.base = x) ∧ (r.val = 1 → a.len = x) ∧ (r.val = 6 → a.step = x) ∧
        (2 ≤ r.val → r.val ≤ 5 → a.ptr (r.val - 2) = x % (a.len + 1))) := by
  refine ⟨_, congrArg Host.Outcome.next (cmd_ok hreach (.inl rfl)), resp_respond_same .., ?_, fun q hq => ?_, ?_⟩
  · obtain ⟨y, z, h⟩ := agWrite_frame (s := s) (p := p) g r v
    rw [h]
    rfl
  · rw [respond_cell, agWrite_others g r v hq]
  · rw [respond_cell]
    intro x a
    obtain ⟨⟨hbase, hlen, hptrs⟩, hpendBase, hpendLen, hpendStep, hpendP⟩ := ((s.cell p).ag g).pend_spec r x
    refine ⟨fun hrun => ?_, fun hidle => ?_⟩
    · have ha : a = ((s.cell p).ag g).pend r x := agWrite_running_ag g r v hrun
      rw [ha]
      exact ⟨hbase, hlen, hptrs, hpendBase, hpendLen, hpendStep⟩
    · have ha : a = (((s.cell p).ag g).pend r x).takeOver.1 := agWrite_idle_ag g r v hidle
      obtain ⟨⟨hbase', hlen', hstep'⟩, ⟨hnoBase, hnoLen, hnoStep, hnoP⟩, hptr⟩ := (((s.cell p).ag g).pend r x).takeOver_spec
      rw [ha]
      refine ⟨hnoBase, hnoLen, hnoStep, hnoP, fun h => ?_, fun h => ?_, fun h => ?_, fun hlow hhigh => ?_⟩
      · rw [hbase', hpendBase h, Option.getD_some]
      · rw [hlen', hpendLen h, Option.getD_some]
      · rw [hstep', hpendStep h, Option.getD_some]
      · exact hptr _ _ (by omega) (hpendP hlow hhigh)

/-! ### The state registers (R149) -/

/-- An n-bit code survives its two's complement reading. -/
theorem uInt_sInt {n x : Nat} (h : x < 2 ^ n) : uInt n (sInt n x) = x := by
  rw [uInt, sInt, Nat.mod_eq_of_lt h]
  split
  · rw [← Int.natCast_mod, Int.toNat_natCast, Nat.mod_eq_of_lt h]
  · rw [Int.sub_emod_right, ← Int.natCast_mod, Int.toNat_natCast, Nat.mod_eq_of_lt h]

theorem uInt_lt (n : Nat) (v : Int) : uInt n v < 2 ^ n := by
  have hpos : (0 : Int) < ((2 ^ n : Nat) : Int) := by positivity
  have h := Int.emod_lt_of_pos v hpos
  have h' := Int.emod_nonneg v hpos.ne'
  rw [uInt]
  omega

/-- A cell with a state register written. -/
def Cell.regWritten (c : Cell) (r : CellReg) (v : Word) : Cell :=
  match r with
  | .accLo a => c.setAcc a.val { c.acc a.val with val := sInt 56 (uInt 56 (c.acc a.val).val / 2 ^ 32 * 2 ^ 32 + v.toNat) }
  | .accHi a => c.setAcc a.val ⟨sInt 56 ((v.toNat % 2 ^ 24) * 2 ^ 32 + uInt 56 (c.acc a.val).val % 2 ^ 32), bit v 31⟩
  | .lfsrA => { c with lfsrA := v.toNat }
  | .lfsrB => { c with lfsrB := v.toNat }
  | .efb r => { c with efb := Tab.set (fun _ => 0) c.efb r.val (v.toNat % 2 ^ 29) }

theorem acc_setAcc_same (c : Cell) (a : Nat) (x : Acc56) : (c.setAcc a x).acc a = x := tab_get_set_same ..

/-- By `by rfl`: as a definitional equation it would have the kernel evaluate the accumulator's value. -/
theorem setAcc_data (c : Cell) (a : Nat) (x : Acc56) : (c.setAcc a x).data = c.data := by rfl

theorem regWritten_data (c : Cell) (r : CellReg) (v : Word) : (c.regWritten r v).data = c.data := by
  cases r <;> simp only [Cell.regWritten, setAcc_data]

theorem regWritten_accLo (c : Cell) (a : Fin 4) (v : Word) :
    (c.regWritten (.accLo a) v).acc a = { c.acc a with val := sInt 56 (uInt 56 (c.acc a).val / 2 ^ 32 * 2 ^ 32 + v.toNat) } := by
  rw [Cell.regWritten, acc_setAcc_same]

theorem regWritten_accHi (c : Cell) (a : Fin 4) (v : Word) :
    (c.regWritten (.accHi a) v).acc a = ⟨sInt 56 (v.toNat % 2 ^ 24 * 2 ^ 32 + uInt 56 (c.acc a).val % 2 ^ 32), bit v 31⟩ := by
  rw [Cell.regWritten, acc_setAcc_same]

/-- An accumulator's code with its lower word replaced has 56 bits. -/
theorem lowReplaced_lt {u : Nat} (h : u < 2 ^ 56) (v : Word) : u / 2 ^ 32 * 2 ^ 32 + v.toNat < 2 ^ 56 := by omega

/-- And so it has with its upper 24 bits replaced. -/
theorem highReplaced_lt (u : Nat) (v : Word) : v.toNat % 2 ^ 24 * 2 ^ 32 + u % 2 ^ 32 < 2 ^ 56 := by omega

theorem cellStateWrite_running {s : State} {p : Nat} (r : CellReg) (v : Word) (h : (s.cell p).sched = true) :
    cellStateWrite p r v s = (s, .accessErr) := if_pos h

theorem cellStateWrite_idle {s : State} {p : Nat} (r : CellReg) (v : Word) (h : (s.cell p).sched = false) :
    cellStateWrite p r v s = (s.setCell p ((s.cell p).regWritten r v), .ok) := by
  rw [cellStateWrite, if_neg (Bool.eq_false_iff.mp h)]
  cases r <;> rfl

theorem cellStateRegWrite_spec {m : Master} {s : State} (hreach : Reaches m s) (p : Fin 72) (r : CellReg) (v : Word) :
    ∃ t, exec (.cellStateRegWrite m p r v) s = .next t ∧ t = { s with bus := t.bus, cells := t.cells } ∧
      (∀ q, q ≠ p.val → t.cell q = s.cell q) ∧
      ((s.cell p).sched = true → t.resp m = ⟨.accessErr, []⟩ ∧ t.cells = s.cells) ∧
      ((s.cell p).sched = false → t.resp m = ⟨.ok, []⟩ ∧ t.cell p = (s.cell p).regWritten r v) := by
  refine ⟨_, congrArg Host.Outcome.next (cmdC_ok hreach (.inl rfl)), ?_⟩
  cases h : (s.cell p).sched with
  | true =>
    rw [cellStateWrite_running r v h]
    exact ⟨rfl, fun _ _ => rfl, fun _ => ⟨resp_respond_same .., rfl⟩, fun h => absurd h (by decide)⟩
  | false =>
    rw [cellStateWrite_idle r v h]
    obtain ⟨hresp, hframe, hcell, hothers⟩ := cellAnswered_setCell m .ok [] p ((s.cell p).regWritten r v) s
    exact ⟨hframe, hothers, fun h => absurd h (by decide), fun _ => ⟨hresp, hcell⟩⟩

/-! ### The scrubbers (R128) -/

/-- A cell whose data scrubber has moved on. -/
def Cell.dataScrubbed (c : Cell) : Cell :=
  { c with
    dataScrub := (c.dataScrub + 1) % 16384, dataPass := if (c.dataScrub + 1) % 16384 = 0 then (c.dataPass + 1) % 65536 else c.dataPass }

/-- A cell whose program scrubber has moved on. -/
def Cell.progScrubbed (c : Cell) : Cell :=
  { c with
    progScrub := (c.progScrub + 1) % 4096, progPass := if (c.progScrub + 1) % 4096 = 0 then (c.progPass + 1) % 65536 else c.progPass }

section
variable {s : State} {p : Nat}

theorem scrubData_good (h : (s.cell p).dataState (s.cell p).dataScrub = .good) :
    scrubData p s = s.setCell p (s.cell p).dataScrubbed := by
  simp only [scrubData, h]
  rfl

theorem scrubProg_good (h : (s.cell p).progState (s.cell p).progScrub = .good) :
    scrubProg p s = s.setCell p (s.cell p).progScrubbed := by
  simp only [scrubProg, h]
  rfl

theorem drained_of_idle (h : (s.cell p).sched = false) : drained s p = true := by
  simp [drained, h]

theorem settle_setCell_spec (c : Cell) :
    (settle (s.setCell p c)).mem = s.mem ∧ (settle (s.setCell p c)).cell p = c ∧
      ∀ q, q ≠ p → (settle (s.setCell p c)).cell q = s.cell q := by
  refine ⟨?_, ?_, fun q hq => ?_⟩
  · rw [settle_frame]
    rfl
  · rw [settle_cell, cell_setCell_same]
  · rw [settle_cell, cell_setCell_ne _ _ hq]

end

theorem cellScrub_data_spec {s : State} {p : Fin 72} (h : (s.cell p).dataState (s.cell p).dataScrub = .good) :
    ∃ t, exec (.cellScrub p .data) s = .next t ∧ t.mem = s.mem ∧
      (t.cell p = (s.cell p).dataScrubbed ∧ ∀ q, q ≠ p.val → t.cell q = s.cell q) :=
  ⟨_, congrArg (fun t => Host.Outcome.next (settle t)) (scrubData_good h), settle_setCell_spec _⟩

theorem cellScrub_prog_spec {s : State} {p : Fin 72} (hidle : (s.cell p).sched = false)
    (h : (s.cell p).progState (s.cell p).progScrub = .good) :
    ∃ t, exec (.cellScrub p .prog) s = .next t ∧ t.mem = s.mem ∧
      (t.cell p = (s.cell p).progScrubbed ∧ ∀ q, q ≠ p.val → t.cell q = s.cell q) := by
  have hscrub : cellScrub p .prog s = settle (s.setCell p (s.cell p).progScrubbed) :=
    (if_pos (drained_of_idle hidle)).trans (congrArg settle (scrubProg_good h))
  exact ⟨_, congrArg Host.Outcome.next hscrub, settle_setCell_spec _⟩

/-- Settles O30, command by command. A generator write is `agWrite_running_ag` while a schedule runs and `agWrite_idle_ag` otherwise, with
`AddrGen.takeOver_spec` for what the takeover makes of it; `requestMig_first_spec` is the migration that a RETIRE starts. -/
theorem cellControl : Obligations.CellControl := by
  intro s m p c barred
  refine ⟨fun hwrite => ⟨halt_set_spec hwrite p, halt_clear_spec hwrite p, retire_spec hwrite p, fenceClr_spec hwrite p⟩,
    fun hreach g r v => agRegisterWrite_spec hreach p g r v, fun hreach r v => ?_, cellScrub_data_spec, cellScrub_prog_spec⟩
  obtain ⟨t, hexec, hframe, hothers, hrunning, hidle⟩ := cellStateRegWrite_spec hreach p r v
  refine ⟨t, hexec, hframe, hothers, hrunning, fun h => ?_⟩
  obtain ⟨hresp, hcell⟩ := hidle h
  rw [hcell]
  refine ⟨hresp, regWritten_data c r v, ?_, ?_, ?_, ?_, ?_⟩
  · rintro rfl
    rfl
  · rintro rfl
    rfl
  · rintro k rfl
    exact tab_get_set_same ..
  · rintro k rfl
    rw [regWritten_accLo]
    exact ⟨uInt_sInt (lowReplaced_lt (uInt_lt ..) v), rfl⟩
  · rintro k rfl
    rw [regWritten_accHi]
    exact ⟨uInt_sInt (highReplaced_lt _ v), rfl⟩

end Sys2Proof.Machine
end

section
/-! SUPPORT. What every command keeps of the memory and of a migration (R120, R170, R471): one lemma for each operation of the model that
more than one of them calls, and its proof is the order of the operation's parts. `hs.put.settle` reads: from s, a record update that leaves
the memory and the migration, then settle. -/
namespace Sys2Proof.Machine
open Sys2Proof

-- Some five hundred short lemmas elaborated at once would start more threads than the check's memory limit admits.
set_option Elab.async false

/-- The state t holds each of the two invariants that s holds: a memory in canonical form, a running migration with a spare other than its
source. -/
structure Keeps (s t : State) : Prop where
  memOk : s.memOk → t.memOk
  migApart : s.migApart → t.migApart

theorem Keeps.refl (s : State) : Keeps s s := ⟨id, id⟩

/-! ### Operations with an optional answer -/

section
variable {β : Type} {p : β → Prop}

theorem noneMem : ∀ r ∈ (none : Option β), p r := nofun

theorem someMem {x : β} (hx : p x) : ∀ r ∈ some x, p r := by
  rintro _ ⟨⟩
  exact hx

theorem diteMem {c : Prop} {_ : Decidable c} {a : c → Option β} {b : ¬c → Option β} (ha : ∀ h, ∀ r ∈ a h, p r) (hb : ∀ h, ∀ r ∈ b h, p r) :
    ∀ r ∈ (if h : c then a h else b h), p r := by
  split
  · exact ha _
  · exact hb _

theorem iteMem {c : Prop} {_ : Decidable c} {a b : Option β} (ha : ∀ r ∈ a, p r) (hb : ∀ r ∈ b, p r) : ∀ r ∈ (if c then a else b), p r :=
  diteMem (fun _ => ha) fun _ => hb

end

/-- The spare a migration takes is not its source, which is ACTIVE (R120, R170). -/
theorem active_ne_takeSpare {s : State} {p q : Nat} (hactive : (s.cell p).role = .active) (hq : takeSpare s = some q) : p ≠ q := by
  rintro rfl
  simpa [hactive] using takeSpare_role hq

section
variable {s₀ s : State} (hs : Keeps s₀ s)
include hs

/-! ### Record updates -/

/-- A record update that leaves the memory and the fabric. -/
protected theorem Keeps.put {q regs n bus sys hpa hpb sems bmx img ldg rails cells ckpt mxe dly netRx portIn memUe poisoned macs ste ptu rsu apt
    aptRnd pwr lsp dma chk memc twc flc jtag pair} :
    Keeps s₀ ⟨q, regs, s.mem, n, bus, sys, hpa, hpb, sems, bmx, img, ldg, rails, cells, s.fabric, ckpt, mxe, dly, netRx, portIn, memUe, poisoned,
      macs, ste, ptu, rsu, apt, aptRnd, pwr, lsp, dma, chk, memc, twc, flc, jtag, pair⟩ :=
  ⟨hs.memOk, hs.migApart⟩

/-- A record update of the fabric that leaves the running migration. -/
protected theorem Keeps.putFabric {q regs n bus sys hpa hpb sems bmx img ldg rails cells map spareOrder queue ramps usedSpares tested ckpt mxe dly netRx
    portIn memUe poisoned macs ste ptu rsu apt aptRnd pwr lsp dma chk memc twc flc jtag pair} :
    Keeps s₀ ⟨q, regs, s.mem, n, bus, sys, hpa, hpb, sems, bmx, img, ldg, rails, cells, ⟨map, spareOrder, s.fabric.mig, queue, ramps, usedSpares,
    tested⟩,
      ckpt, mxe, dly, netRx, portIn, memUe, poisoned, macs, ste, ptu, rsu, apt, aptRnd, pwr, lsp, dma, chk, memc, twc, flc, jtag, pair⟩ :=
  ⟨hs.memOk, hs.migApart⟩

/-- The running migration ends. -/
protected theorem Keeps.dropMig {q regs n bus sys hpa hpb sems bmx img ldg rails cells map spareOrder queue ramps usedSpares tested ckpt mxe dly netRx
    portIn memUe poisoned macs ste ptu rsu apt aptRnd pwr lsp dma chk memc twc flc jtag pair} :
    Keeps s₀ ⟨q, regs, s.mem, n, bus, sys, hpa, hpb, sems, bmx, img, ldg, rails, cells, ⟨map, spareOrder, none, queue, ramps, usedSpares, tested⟩,
      ckpt, mxe, dly, netRx, portIn, memUe, poisoned, macs, ste, ptu, rsu, apt, aptRnd, pwr, lsp, dma, chk, memc, twc, flc, jtag, pair⟩ :=
  ⟨hs.memOk, fun _ => nofun⟩

/-- The memory is written. -/
protected theorem Keeps.withMem {q regs mem n bus sys hpa hpb sems bmx img ldg rails cells ckpt mxe dly netRx portIn memUe poisoned macs ste ptu rsu apt
    aptRnd pwr lsp dma chk memc twc flc jtag pair} (hmem : s.memOk → Memory.wf mem = true) :
    Keeps s₀ ⟨q, regs, mem, n, bus, sys, hpa, hpb, sems, bmx, img, ldg, rails, cells, s.fabric, ckpt, mxe, dly, netRx, portIn, memUe, poisoned,
      macs, ste, ptu, rsu, apt, aptRnd, pwr, lsp, dma, chk, memc, twc, flc, jtag, pair⟩ :=
  ⟨fun h => hmem (hs.memOk h), hs.migApart⟩

/-- A migration g runs from here on. -/
protected theorem Keeps.setMig {g : Mig} {q regs n bus sys hpa hpb sems bmx img ldg rails cells map spareOrder queue ramps usedSpares tested ckpt
    mxe dly
    netRx portIn memUe poisoned macs ste ptu rsu apt aptRnd pwr lsp dma chk memc twc flc jtag pair} (hapart : s.migApart → g.src ≠ g.spare) :
    Keeps s₀ ⟨q, regs, s.mem, n, bus, sys, hpa, hpb, sems, bmx, img, ldg, rails, cells, ⟨map, spareOrder, some g, queue, ramps, usedSpares, tested⟩,
      ckpt, mxe, dly, netRx, portIn, memUe, poisoned, macs, ste, ptu, rsu, apt, aptRnd, pwr, lsp, dma, chk, memc, twc, flc, jtag, pair⟩ :=
  ⟨hs.memOk, fun h _ hg => Option.some.inj hg ▸ hapart (hs.migApart h)⟩

/-! ### Branches and loops -/

protected theorem Keeps.ite {c : Prop} {_ : Decidable c} {a b : State} (ha : Keeps s₀ s → Keeps s₀ a) (hb : Keeps s₀ s → Keeps s₀ b) :
    Keeps s₀ (if c then a else b) := by
  split
  · exact ha hs
  · exact hb hs

protected theorem Keeps.when {c : Prop} {_ : Decidable c} {a : State} (ha : Keeps s₀ s → Keeps s₀ a) : Keeps s₀ (if c then a else s) :=
  hs.ite ha id

protected theorem Keeps.unless {c : Prop} {_ : Decidable c} {a : State} (ha : Keeps s₀ s → Keeps s₀ a) : Keeps s₀ (if c then s else a) :=
  hs.ite id ha

protected theorem Keeps.foldl {α : Type} {f : State → α → State} {l : List α} (hf : ∀ {t a}, Keeps s₀ t → Keeps s₀ (f t a)) :
    Keeps s₀ (l.foldl f s) :=
  l.foldlRecOn (motive := Keeps s₀) f hs fun _ ht _ _ => hf ht

protected theorem Keeps.iteFst {α : Type} {c : Prop} {_ : Decidable c} {a b : State × α} (ha : Keeps s₀ s → Keeps s₀ a.1)
    (hb : Keeps s₀ s → Keeps s₀ b.1) :
    Keeps s₀ (if c then a else b).1 := by
  split
  · exact ha hs
  · exact hb hs

protected theorem Keeps.whenFst {α : Type} {c : Prop} {_ : Decidable c} {a : State × α} {x : α} (ha : Keeps s₀ s → Keeps s₀ a.1) :
    Keeps s₀ (if c then a else (s, x)).1 := hs.iteFst ha id

protected theorem Keeps.unlessFst {α : Type} {c : Prop} {_ : Decidable c} {a : State × α} {x : α} (ha : Keeps s₀ s → Keeps s₀ a.1) :
    Keeps s₀ (if c then (s, x) else a).1 := hs.iteFst id ha

protected theorem Keeps.foldlFst {α β : Type} {x : β} {f : State × β → α → State × β} {l : List α}
    (hf : ∀ {r a}, Keeps s₀ r.1 → Keeps s₀ (f r a).1) : Keeps s₀ (l.foldl f (s, x)).1 :=
  l.foldlRecOn (motive := fun r : State × β => Keeps s₀ r.1) f hs fun _ ht _ _ => hf ht

protected theorem Keeps.orElse {β : Type} {f : β → State} {c : Prop} {_ : Decidable c} {x : β} {o : Option β} (hx : Keeps s₀ s → Keeps s₀ (f x))
    (ho : ∀ r ∈ o, Keeps s₀ (f r)) : ∀ r ∈ (if c then some x else o), Keeps s₀ (f r) :=
  iteMem (someMem (hx hs)) ho

protected theorem Keeps.getDFst {α : Type} {o : Option (State × α)} {x : α} (ho : ∀ r ∈ o, Keeps s₀ r.1) : Keeps s₀ (o.getD (s, x)).1 := by
  cases o with
  | none => exact hs
  | some r => exact ho r rfl

/-! ### The shared operations -/

protected theorem Keeps.setBytes {a : Nat} {l : List Byte} : Keeps s₀ (s.setBytes a l) := hs.withMem (memPut_wf l a)

protected theorem Keeps.drawBytes {n : Nat} : Keeps s₀ (drawBytes n s).2 := by
  rw [drawBytes_frame]
  exact hs.put

protected theorem Keeps.setPort {h : HostId} {p : HPort} : Keeps s₀ (s.setPort h p) := by
  cases h <;> exact hs.put

protected theorem Keeps.raise {b i} : Keeps s₀ (raise b i s) := hs.put.put.put.put

protected theorem Keeps.cmdAt {b : BusTarget} {m : Master} {k : State → State × Code} (hk : ∀ {t}, Keeps s₀ t → Keeps s₀ (k t).1) :
    Keeps s₀ (cmdAt b m k s) := by
  unfold cmdAt
  split
  · exact hs.put
  · exact (hk hs).put

protected theorem Keeps.rdAt {b : BusTarget} {m : Master} {k : State → State × Word × Code} (hk : ∀ {t}, Keeps s₀ t → Keeps s₀ (k t).1) :
    Keeps s₀ (rdAt b m k s) := by
  unfold rdAt
  split
  · exact hs.put
  · exact (hk hs).put

protected theorem Keeps.cmdC {m : Master} {rws : Bool} {k : State → State × Code} (hk : ∀ {t}, Keeps s₀ t → Keeps s₀ (k t).1) :
    Keeps s₀ (cmdC m rws k s) := by
  unfold cmdC
  split
  · exact hs.put
  · exact hs.ite (·.put) (hk · |>.put)

protected theorem Keeps.cmd {m : Master} {rws : Bool} {k : State → State} (hk : ∀ {t}, Keeps s₀ t → Keeps s₀ (k t)) : Keeps s₀ (cmd m rws k s) :=
  hs.cmdC hk

protected theorem Keeps.rdCmd {m : Master} {k : State → State × Word} (hk : ∀ {t}, Keeps s₀ t → Keeps s₀ (k t).1) : Keeps s₀ (rdCmd m k s) := by
  unfold rdCmd
  split
  · exact hs.put
  · exact (hk hs).put

protected theorem Keeps.setFlag {i v by_} : Keeps s₀ (setFlag i v by_ s) := hs.unless (·.put.put.put)
protected theorem Keeps.settle : Keeps s₀ (settle s) := hs.setFlag.setFlag

protected theorem Keeps.setPin {h : HostId} {p : IntPin} : Keeps s₀ (s.setPin h p) := by
  cases h <;> exact hs.put

protected theorem Keeps.settlePin {h : HostId} : Keeps s₀ (settlePin h s) := by
  unfold settlePin
  exact hs.ite (·.setPin) (·.unless (·.ite (·.setPin) (·.unless (·.setPin))))

/-! ### The cell fabric -/

protected theorem Keeps.takeOverCell {p} : Keeps s₀ (takeOverCell p s) := hs.put.put
protected theorem Keeps.stopSched {p} : Keeps s₀ (stopSched p s) := hs.when (·.takeOverCell.put)
protected theorem Keeps.fenceCell {p} : Keeps s₀ (fenceCell p s) := hs.stopSched.put.putFabric

protected theorem Keeps.placeCell {l : Nat} : Keeps s₀ (placeCell s l) := by
  unfold placeCell
  split
  next => exact hs
  next =>
    refine hs.when fun _ => ?_
    split
    · exact hs.put.putFabric.putFabric
    · split
      · exact hs.putFabric.put
      · exact hs.putFabric

protected theorem Keeps.configCell {l} : Keeps s₀ (configCell s l) := by
  unfold configCell
  dsimp only
  split
  · exact hs
  · exact hs.ite (·.put) (·.put)

protected theorem Keeps.placeLost : Keeps s₀ (placeLost s) := hs.foldl (·.when (·.placeCell.configCell))

/-- The source is ACTIVE and the spare it takes is not, so they differ (R120, R170). -/
protected theorem Keeps.startProactive {p : Nat} {ce : Bool} (hactive : (s.cell p).role = .active) : Keeps s₀ (startProactive p ce s) := by
  unfold startProactive
  split
  next => exact hs.put.put
  next q hq => exact hs.put.put.put.setMig fun _ => active_ne_takeSpare hactive hq

protected theorem Keeps.dequeueList {l : List (Nat × Bool)} : Keeps s₀ (dequeueList l s).2 := by
  induction l generalizing s with
  | nil => exact hs
  | cons e l ih =>
    unfold dequeueList
    split_ifs with hbusy hgone hwaits
    · exact hs
    · exact ih hs.put
    · exact ih hs
    · have hactive : (s.cell e.1).role = .active := by simp_all
      exact ih (hs.startProactive hactive)

protected theorem Keeps.dequeueMig : Keeps s₀ (dequeueMig s) := hs.dequeueList.putFabric
protected theorem Keeps.requestMig {p ce} : Keeps s₀ (requestMig p ce s) := hs.unless (·.unless (·.put) |>.putFabric |>.dequeueMig)
protected theorem Keeps.ceMigrate {p} : Keeps s₀ (ceMigrate s p) := hs.when (·.requestMig)

protected theorem Keeps.endMig {r spareRole} : Keeps s₀ (endMig r spareRole s) := by
  unfold endMig
  dsimp only
  split
  · exact hs
  · exact hs.dropMig.put.put.stopSched.put.put

protected theorem Keeps.restoreOn {l src q r} : Keeps s₀ (restoreOn l src q r s) := hs.put.put.putFabric.putFabric

protected theorem Keeps.startRestore {l src r} : Keeps s₀ (startRestore l src r s) := by
  unfold startRestore
  split
  · exact hs
  · split
    · exact hs.restoreOn
    · split
      · exact hs.endMig.restoreOn
      · exact hs.putFabric.put.put

protected theorem Keeps.promote {m l} : Keeps s₀ (promote m l s) := by
  unfold promote
  dsimp only
  refine .putFabric ?_
  split
  · exact hs.dropMig.put.put.fenceCell.put.putFabric
  · exact hs.dropMig.put.put.fenceCell.put

protected theorem Keeps.failFence {p} : Keeps s₀ (failFence p s) := by
  unfold failFence
  dsimp only
  split
  · exact hs.fenceCell
  · split
    · split
      · exact hs.promote
      · split
        · exact hs.endMig.fenceCell.when (·.restoreOn)
        · exact hs.endMig.fenceCell
    · exact hs.ite (·.endMig.fenceCell) (·.fenceCell)

protected theorem Keeps.failTaken {p} : Keeps s₀ (failTaken p s) := by
  unfold failTaken
  dsimp only
  split
  · exact hs.put.put.put
  · exact hs.put

protected theorem Keeps.hardFail {p} : Keeps s₀ (hardFail p s) := by
  unfold hardFail
  dsimp only
  refine .dequeueMig ?_
  split
  · exact hs.failFence
  · exact hs.failFence.when (·.when (·.failTaken) |>.startRestore)

protected theorem Keeps.cellUe {src p} : Keeps s₀ (cellUe src p s) := hs.raise.hardFail

protected theorem Keeps.abortMigs {r inShadow} : Keeps s₀ (abortMigs r inShadow s) := by
  unfold abortMigs
  dsimp only
  split
  · exact hs.foldl (·.put.put) |>.putFabric
  · exact hs.foldl (·.put.put) |>.putFabric |>.unless (·.endMig)

protected theorem Keeps.abortRestores : Keeps s₀ (abortRestores s) := hs.foldl (·.when (·.put.when (·.put) |>.when (·.put)))

protected theorem Keeps.scrubProg {p} : Keeps s₀ (scrubProg p s) := by
  unfold scrubProg
  dsimp only
  split
  · exact hs.put
  · exact hs.put
  · exact hs.put.cellUe

protected theorem Keeps.scrubData {p} : Keeps s₀ (scrubData p s) := by
  unfold scrubData
  dsimp only
  split
  · exact hs.put
  · exact hs.put
  · exact hs.put.cellUe

protected theorem Keeps.mirrorData {p} : Keeps s₀ (mirrorData p s) := by
  unfold mirrorData
  split
  · exact hs.when (·.put)
  · exact hs

protected theorem Keeps.runBlock {p} : Keeps s₀ (runBlock p s) := by
  unfold runBlock
  exact hs.when (·.raise) |>.takeOverCell |>.put |>.scrubProg |>.unless (·.put.mirrorData.ite (·.cellUe) (·.when (·.cellUe)))

protected theorem Keeps.cellBlockStart {p} : Keeps s₀ (cellBlockStart p s) := hs.ite (·.runBlock.settle) (·.when (·.stopSched))
protected theorem Keeps.cellFrameFaults : Keeps s₀ (cellFrameFaults s) := hs.foldl (·.when (·.raise) |>.when (·.raise) |>.when (·.put))

protected theorem Keeps.cellScrub {p k} : Keeps s₀ (cellScrub p k s) := by
  unfold cellScrub
  split
  · exact hs.scrubData.settle
  · exact hs.when (·.scrubProg.settle)

protected theorem Keeps.dataRead {m p w} : Keeps s₀ (dataRead m p w s).1 := by
  unfold dataRead
  dsimp only
  split
  · exact hs.cellUe.settle
  · exact hs.put

protected theorem Keeps.dataWrite {m p w v} : Keeps s₀ (dataWrite m p w v s).1 := by
  unfold dataWrite
  dsimp only
  split
  · exact hs
  · split
    · exact hs.put.when (·.put)
    · exact hs.put

protected theorem Keeps.instrHiWrite {m p v} : Keeps s₀ (instrHiWrite m p v s).1 := hs.unlessFst (·.put)
protected theorem Keeps.instrLoWrite {m p i v} : Keeps s₀ (instrLoWrite m p i v s).1 := hs.unlessFst (·.put)

protected theorem Keeps.instrLoRead {m p i} : Keeps s₀ (instrLoRead m p i s).1 := by
  unfold instrLoRead
  dsimp only
  split
  · exact hs.cellUe.settle
  · exact hs.put

protected theorem Keeps.cellMemRead {m p off} : Keeps s₀ (cellMemRead m p off s).1 := hs.iteFst (·.dataRead) (·.whenFst (·.whenFst (·.instrLoRead)))

protected theorem Keeps.cellMemWrite {m p off v} : Keeps s₀ (cellMemWrite m p off v s).1 :=
  hs.iteFst (·.dataWrite) (·.whenFst (·.iteFst (·.instrLoWrite) (·.instrHiWrite)))

protected theorem Keeps.haltSet {p} : Keeps s₀ (haltSet p s) := hs.ite (·.put) (·.put.settle)
protected theorem Keeps.haltClear {p} : Keeps s₀ (haltClear p s) := hs.put.settle
protected theorem Keeps.retire {p} : Keeps s₀ (retire p s) := hs.ite (·.put) (·.requestMig.settle)
protected theorem Keeps.fenceClr {p} : Keeps s₀ (fenceClr p s) := hs.when (·.put.settle)

protected theorem Keeps.cellCtrlWrite {p v} : Keeps s₀ (cellCtrlWrite p v s) :=
  hs.when (·.fenceClr) |>.when (·.retire) |>.ite (·.unless (·.haltSet)) (·.when (·.haltClear))

protected theorem Keeps.agWrite {p g r v} : Keeps s₀ (agWrite p g r v s) := hs.put.unless (·.takeOverCell)
protected theorem Keeps.cellStateWrite {p r v} : Keeps s₀ (cellStateWrite p r v s).1 := hs.unlessFst (·.put)

protected theorem Keeps.cellRegWrite {m : Master} {p off : Nat} {v : Word} : ∀ r ∈ cellRegWrite m p off v s, Keeps s₀ r.1 := by
  have hstate {k : CellReg} {w : Word} : ∀ r ∈ some (cellStateWrite p k w s), Keeps s₀ r.1 := someMem hs.cellStateWrite
  exact hs.orElse (·.cellCtrlWrite) <| hs.orElse (·.put) <| hs.orElse (·.put) <| hs.orElse (·.agWrite) <|
    diteMem (fun _ => hstate) fun _ => iteMem hstate <| iteMem hstate <| diteMem (fun _ => hstate) fun _ => noneMem

protected theorem Keeps.withMig {ph : MigPhase} {k : Mig → State → State} (hk : ∀ {g}, s.fabric.mig = some g → Keeps s₀ s → Keeps s₀ (k g s)) :
    Keeps s₀ (withMig ph k s) := by
  unfold withMig
  split
  next g hg => exact hs.when (hk hg)
  next => exact hs

protected theorem Keeps.enterMig {g : Mig} {ph : MigPhase} {bs : Nat} (hg : s.fabric.mig = some g) : Keeps s₀ (enterMig g ph bs s) :=
  (hs.setMig (g := { g with phase := ph, bs := bs }) (· g hg)).put.put

protected theorem Keeps.migrationLoaded : Keeps s₀ (migrationLoaded s) := hs.withMig fun _ => (·.put)
protected theorem Keeps.migrationCopyStart : Keeps s₀ (migrationCopyStart s) := hs.withMig fun hg => (·.when (·.enterMig hg))

protected theorem Keeps.migrationCopyEnd : Keeps s₀ (migrationCopyEnd s) := by
  refine hs.withMig fun {g} hg => (·.unless fun ht => ?_)
  dsimp only
  split
  · exact ht.put.cellUe.settle
  · exact (ht.put.setMig (g := { g with bs := 1 }) (· g hg)).put

protected theorem Keeps.migrationShadowStart : Keeps s₀ (migrationShadowStart s) := hs.withMig fun hg => (·.when (·.put.enterMig hg))

protected theorem Keeps.migrationSwitch : Keeps s₀ (migrationSwitch s) := by
  refine hs.withMig fun _ ht => ht.when fun ht => ?_
  dsimp only
  refine .settle (.dequeueMig (.put (.putFabric (.fenceCell ?_))))
  split
  · exact ht.dropMig.put.put.put.putFabric
  · exact ht.dropMig.put.put.put

protected theorem Keeps.shadowCompare : Keeps s₀ (shadowCompare s) := hs.withMig fun _ => (·.ite (·.put.put) (·.raise.endMig.dequeueMig))

protected theorem Keeps.restoreCellStart {p} : Keeps s₀ (restoreCellStart p s) := by
  unfold restoreCellStart
  dsimp only
  split
  · refine .putFabric ?_
    split
    · exact hs.put.put
    · exact hs.put
  · exact hs

protected theorem Keeps.restoreRampEnd {p} : Keeps s₀ (restoreRampEnd p s) := by
  unfold restoreRampEnd
  dsimp only
  split
  · exact hs
  · split
    · split
      · exact hs.put.putFabric.put.put.dequeueMig.settle
      · exact hs.put.putFabric.put.dequeueMig.settle
    · exact hs

protected theorem Keeps.closeCeWindow : Keeps s₀ (closeCeWindow s).1 := hs.foldlFst (·.put.iteFst (·.raise) id)

/-! ### The ledger -/

protected theorem Keeps.ldgRegRead {m : Master} {off : Nat} : ∀ r ∈ ldgRegRead m off s, Keeps s₀ r.1 := by
  have hwin : Keeps s₀ (winLoRead m s).1 := hs.put
  unfold ldgRegRead
  dsimp only
  split <;> simp [hs, hwin]

/-! ### The matrix engine -/

protected theorem Keeps.editCmd {m c} : Keeps s₀ (editCmd m c s) := hs.unless (·.ite (·.put) (·.ite (·.put.raise) (·.put)))
protected theorem Keeps.endSwap {r} : Keeps s₀ (endSwap r s) := hs.put.put.put
protected theorem Keeps.boundNext : Keeps s₀ (boundNext s) := hs.put.put
protected theorem Keeps.swapReq {unb} : Keeps s₀ (swapReq unb s) := hs.ite (·.put) (·.ite (·.put) (·.ite (·.put) (·.put.put)))
protected theorem Keeps.swapCancel : Keeps s₀ (swapCancel s) := hs.ite (·.endSwap) (·.put)

protected theorem Keeps.boundCheckDone : Keeps s₀ (boundCheckDone s) :=
  hs.when (·.put.put.put.put.ite (·.endSwap) (·.ite (·.raise.endSwap) (·.put.put)))

protected theorem Keeps.swapStep : Keeps s₀ (swapStep s) := hs.when (·.ite (·.put.put.put.unless (·.raise) |>.endSwap |>.put) (·.put.when (·.put)))

protected theorem Keeps.writeAlarmSet {bank} : Keeps s₀ (writeAlarmSet bank s) := by
  unfold writeAlarmSet
  dsimp only
  split
  · exact hs
  · exact hs.put

protected theorem Keeps.alarmExchange {toAlarm} : Keeps s₀ (alarmExchange toAlarm s) := hs.put.when (·.raise)
protected theorem Keeps.alarmStep : Keeps s₀ (alarmStep s) := hs.when (·.put.alarmExchange) |>.when (·.when (·.endSwap) |>.writeAlarmSet |>.put)
protected theorem Keeps.mxeOpen : Keeps s₀ (mxeOpen s) := hs.unless (·.put)
protected theorem Keeps.alarmSwap : Keeps s₀ (alarmSwap s) := hs.when (·.mxeOpen.put.alarmExchange)

protected theorem Keeps.matrixWrite {bank off v} : Keeps s₀ (matrixWrite bank off v s).1 :=
  hs.unlessFst (·.unlessFst (·.unlessFst (·.iteFst (·.put) (·.put))))

protected theorem Keeps.matrixConfigured : Keeps s₀ (matrixConfigured s) := hs.put.when (·.writeAlarmSet.put)
protected theorem Keeps.playStart {i v} : Keeps s₀ (playStart i v s) := hs.ite (·.put) (·.ite (·.put) (·.ite (·.put) (·.ite (·.put.raise) (·.put))))

protected theorem Keeps.playStop {i} : Keeps s₀ (playStop i s) := by
  unfold playStop
  split <;> exact hs.put

protected theorem Keeps.playFinish {i} : Keeps s₀ (playFinish i s) := by
  unfold playFinish
  split
  · exact hs.put
  · exact hs
  · exact hs.put

protected theorem Keeps.playCtrl {i v} : Keeps s₀ (playCtrl i v s) := by
  unfold playCtrl
  dsimp only
  split
  · exact hs.put.playStart
  · exact hs.put.playStop
  · exact hs.put.playFinish
  · exact hs.put

protected theorem Keeps.mxeTakeovers : Keeps s₀ (mxeTakeovers s) := hs.mxeOpen.unless (·.alarmSwap.alarmStep.swapStep.put.when (·.put))
protected theorem Keeps.mxeFrame : Keeps s₀ (mxeFrame s) := hs.put.ite (·.put.when (·.put) |>.put |>.put |>.foldl (·.raise)) (·.put.put)

protected theorem Keeps.feedCells {outOf : Nat → Int} : Keeps s₀ (feedCells outOf s) := hs.foldl fun ht => by
  split
  · exact ht
  · exact ht.when (·.put)

protected theorem Keeps.mxeRegWrite {m : Master} {off : Nat} {v : Word} : ∀ r ∈ mxeRegWrite m off v s, Keeps s₀ r :=
  hs.orElse (·.put.when (·.swapCancel) |>.when (·.swapReq)) <| hs.orElse (·.put) <| hs.orElse (·.put) <| hs.orElse (·.put) <|
    hs.orElse (·.editCmd) <| hs.orElse (·.put) <| hs.orElse (·.playCtrl) noneMem

/-! ### The delay engine -/

protected theorem Keeps.lineDelayWrite {i v} : Keeps s₀ (lineDelayWrite i v s) := hs.ite (·.put) (·.raise)
protected theorem Keeps.dlyFrame : Keeps s₀ (dlyFrame s) := hs.put.ite (·.foldl (·.when (·.setBytes.when (·.raise) |>.put |>.put))) (·.put)

/-! ### The Ethernet MACs -/

protected theorem Keeps.macSelect {n} : Keeps s₀ (macSelect n s) := by
  unfold macSelect
  dsimp only
  split
  · exact hs
  · split
    · exact hs
    · exact hs.put.when (·.put)

protected theorem Keeps.macEnqueue {n q f} : Keeps s₀ (macEnqueue n q f s).1 :=
  hs.unlessFst (·.unlessFst (·.iteFst (·.put.raise) (·.iteFst (·.put) (·.put.macSelect))))

protected theorem Keeps.frameTransmitEnd {n} : Keeps s₀ (frameTransmitEnd n s) := by
  unfold frameTransmitEnd
  dsimp only
  split
  · exact hs
  · exact hs.put.put.put.macSelect

protected theorem Keeps.flushQueues {n qs} : Keeps s₀ (flushQueues n qs s) := hs.put.unless (·.put)
protected theorem Keeps.flushAudio : Keeps s₀ (flushAudio s) := hs.foldl (·.flushQueues)
protected theorem Keeps.macLinkLost {n} : Keeps s₀ (macLinkLost n s) := hs.raise.put.flushQueues.settle

protected theorem Keeps.macLinkTimeout {n} : Keeps s₀ (macLinkTimeout n s) := by
  unfold macLinkTimeout
  dsimp only
  split
  · exact hs.when (·.macLinkLost)
  · exact hs

protected theorem Keeps.macLine {n old} : Keeps s₀ (macLine n old s) := hs.unless (·.put.when (·.put))
protected theorem Keeps.macClearLinkLost {n} : Keeps s₀ (macClearLinkLost n s) := hs.unless (·.when (·.put.put.macSelect.settle))
protected theorem Keeps.pauseReceive {n quanta} : Keeps s₀ (pauseReceive n quanta s) := hs.unless (·.put.ite (·.put) (·.when (·.put.macSelect)))
protected theorem Keeps.pauseBreak {n} : Keeps s₀ (pauseBreak n s) := hs.raise.put.put.macSelect

protected theorem Keeps.holdoffEnd {n} : Keeps s₀ (holdoffEnd n s) := by
  unfold holdoffEnd
  split
  · exact hs.when (·.put)
  · exact hs

protected theorem Keeps.macDeliver {n f c} : Keeps s₀ (macDeliver n f c s) := hs.unless (·.ite (·.put.raise) (·.put.put.put))

protected theorem Keeps.macChecks {n f codeErr on c} : Keeps s₀ (macChecks n f codeErr on c s) :=
  hs.ite (·.when (·.put)) (·.ite (·.when (·.put)) (·.ite (·.when (·.put))
    (·.ite (·.when (·.put)) (·.ite (·.ite (·.ite (·.pauseReceive) (·.when (·.put))) (·.ite (·.when (·.put)) (·.when (·.put))))
    (·.unless (·.ite (·.put) (·.macDeliver)))))))

protected theorem Keeps.macCtrlWrite {n v busy} : Keeps s₀ (macCtrlWrite n v busy s) :=
  hs.put.ite (·.put) (·.when (·.put)) |>.unless (·.put) |>.unless (·.put.macSelect) |>.unless (·.put.macSelect) |>.when
    (·.ite (·.flushQueues) (·.put))

protected theorem Keeps.macCtrlBus {n v} : Keeps s₀ (macCtrlBus n v s) := hs.ite (·.put.macCtrlWrite) (·.macCtrlWrite)
protected theorem Keeps.macGuardedWrite {n off v} : Keeps s₀ (macGuardedWrite n off v s).1 := hs.unlessFst (·.put.macLine.settle)

protected theorem Keeps.macRegWrite {n off : Nat} {v : Word} : ∀ r ∈ macRegWrite n off v s, Keeps s₀ r.1 :=
  hs.orElse (·.macCtrlBus) <| hs.orElse (·.macGuardedWrite) noneMem

protected theorem Keeps.macRegRead {m : Master} {n off : Nat} : ∀ r ∈ macRegRead m n off s, Keeps s₀ r.1 := by
  have hcount {c : Nat} : Keeps s₀ (macCntRead m n c s).1 := hs.put
  unfold macRegRead
  split_ifs <;> simp [hs, hcount]

protected theorem Keeps.macReset {n} : Keeps s₀ (macReset s n) := hs.macCtrlBus.flushQueues.put.foldl (·.put)
protected theorem Keeps.macSetup {n ps} : Keeps s₀ (macSetup n ps s) := hs.foldl (·.ite (·.macCtrlWrite) (·.put))

protected theorem Keeps.macsReload {f : State → State} (hf : ∀ {t}, Keeps s₀ t → Keeps s₀ (f t)) : Keeps s₀ (macsReload f s) :=
  (hf (hs.foldl (·.macReset))) |>.foldl (·.macLine) |>.settle

/-! ### The stream engine -/

protected theorem Keeps.classDrop {c} : Keeps s₀ (classDrop c s) := hs.put.raise.when (·.raise)
protected theorem Keeps.doStage {f fe} : Keeps s₀ (doStage f fe s) := hs.put.put

protected theorem Keeps.ftEffect {m c f} : Keeps s₀ (ftEffect m c f s).1 := by
  unfold ftEffect
  dsimp only
  split
  · exact hs.unlessFst (·.whenFst (·.doStage))
  · exact hs.whenFst (·.put)
  · exact hs.whenFst (·.put)
  · exact hs.whenFst (·.put)
  · exact hs.put

protected theorem Keeps.ftCmd {m c f} : Keeps s₀ (ftCmd m c f s) := hs.unless (·.ftEffect.put.put)
protected theorem Keeps.pathDelivery {f n} : Keeps s₀ (pathDelivery f n s) := hs.ite (·.put.when (·.put)) (·.put.when (·.put))

protected theorem Keeps.audioPacket {f n pay} : Keeps s₀ (audioPacket f n pay s) := by
  unfold audioPacket
  dsimp only
  split
  · exact hs.put
  · split
    · exact hs.put
    · split
      · exact hs.put
      · split
        · exact hs.put
        · split
          · exact hs.put.pathDelivery
          · split
            · exact hs.put.classDrop
            · exact hs.put.put.pathDelivery

protected theorem Keeps.storeHost {c : Nat} {f : List Byte} : Keeps s₀ (storeHost c f s) := by
  refine hs.ite (·.put) fun _ => ?_
  dsimp only
  split
  · exact hs.classDrop
  · exact hs.put

protected theorem Keeps.ptpArrive {n msg c} : Keeps s₀ (ptpArrive n msg c s) :=
  hs.ite (·.raise) (·.ite (·.put) (·.when (·.put) |>.when (·.put)) |>.put)

protected theorem Keeps.steFrame {n f c} : Keeps s₀ (steFrame n f c s) := by
  unfold steFrame
  dsimp only
  split
  · exact hs.ptpArrive
  · split
    · exact hs.put
    · split
      · exact hs.put
      · split
        · exact hs.ptpArrive
        · split
          · exact hs
          · split
            · exact hs.audioPacket
            · exact hs.ite (·.storeHost) (·.ite (·.storeHost) (·.put))

protected theorem Keeps.steClassify {n} : Keeps s₀ (steClassify n s) := by
  unfold steClassify
  split
  · exact hs
  · exact hs.put.steFrame

protected theorem Keeps.pathDown {f} : Keeps s₀ (pathDown f s) := hs.unless (·.ite (·.put.put) (·.when (·.put.put)))

protected theorem Keeps.playSample {fe ch x} : Keeps s₀ (playSample fe ch x s).1 := by
  unfold playSample
  dsimp only
  split
  · exact hs
  · exact hs.put.when (·.raise)
  · exact hs

protected theorem Keeps.flowFrame {f} : Keeps s₀ (flowFrame f s) := by
  unfold flowFrame
  dsimp only
  split
  · exact hs.put.put.foldl (·.playSample.put)
  · exact hs.put.put.when (·.put.raise)

protected theorem Keeps.steFrameStart : Keeps s₀ (steFrameStart s) := hs.put.foldl (·.ite (·.when (·.put)) (·.when (·.flowFrame))) |>.when (·.put.put)

protected theorem Keeps.hrxPop : Keeps s₀ (hrxPop s) := by
  unfold hrxPop
  dsimp only
  split
  · exact hs
  · exact hs.put

protected theorem Keeps.htxCmd {m v} : Keeps s₀ (htxCmd m v s).1 := hs.unlessFst (·.iteFst (·.put.put) (·.macEnqueue.put))

protected theorem Keeps.steCtrlWrite {v} : Keeps s₀ (steCtrlWrite v s) :=
  hs.put.ite (·.put) (·.put) |>.ite (·.put) (·.when (·.put)) |>.when (·.ite (·.put) (·.put))

protected theorem Keeps.steRegRead {m : Master} {off : Nat} : ∀ r ∈ steRegRead m off s, Keeps s₀ r.1 := by
  have hlow : Keeps s₀ (poolLowRead s).1 := hs.put
  have hdraw : Keeps s₀ s.draw.2 := hs.put
  refine hs.orElse id <| hs.orElse id <| hs.orElse id <| hs.orElse id <| hs.orElse id <| hs.orElse id <| hs.orElse id <|
    hs.orElse (fun _ => hlow) <| hs.orElse id <| hs.orElse id <| hs.orElse id <| hs.orElse id <| hs.orElse id <| hs.orElse id <| hs.orElse id <|
    hs.orElse id <| iteMem ?_ <| hs.orElse id noneMem
  dsimp only
  split
  · exact hs.orElse id (someMem hdraw)
  · exact someMem hdraw

protected theorem Keeps.steRegWrite {m : Master} {off : Nat} {v : Word} : ∀ r ∈ steRegWrite m off v s, Keeps s₀ r.1 :=
  hs.orElse (·.steCtrlWrite) <| hs.orElse (·.ftCmd) <| hs.orElse (·.put) <| hs.orElse (·.when (·.hrxPop)) <| hs.orElse (·.htxCmd) <|
    iteMem (hs.orElse (·.put) <| someMem hs) noneMem

protected theorem Keeps.stageAll {l : List (Nat × List Word)} : Keeps s₀ (stageAll l s).1 := by
  induction l generalizing s with
  | nil => exact hs
  | cons e l ih => exact hs.unlessFst (·.unlessFst (ih ·.put.put))

protected theorem Keeps.applyFlowDefaults {a} : Keeps s₀ (applyFlowDefaults a s) := hs.foldl (·.ite (·.steCtrlWrite) (·.put)) |>.stageAll

/-! ### The precision time unit -/

protected theorem Keeps.ptpSend {d event o} : Keeps s₀ (ptpSend d event o s).1 := hs.put.macEnqueue
protected theorem Keeps.setLocked {d v} : Keeps s₀ (setLocked d v s) := hs.unless (·.put.put)

protected theorem Keeps.withMsg {d : Dom} {x : PtpMsg} {slave : Bool} {k : PtpMsg → State → State} (hk : ∀ {y t}, Keeps s₀ t → Keeps s₀ (k y t)) :
    Keeps s₀ (withMsg d x slave k s) := by
  unfold withMsg
  dsimp only
  split
  · exact hs
  · exact hs.put.unless (·.ite (hk ·) (·.put))

protected theorem Keeps.chooseMaster {d} : Keeps s₀ (chooseMaster d s) := hs.unless (·.setLocked.put.put)
protected theorem Keeps.announceReceive {d x} : Keeps s₀ (announceReceive d x s) := hs.withMsg (·.unless (·.put.chooseMaster))

protected theorem Keeps.syncLoss {d} : Keeps s₀ (syncLoss d s) := by
  unfold syncLoss
  dsimp only
  split
  · exact hs.when (·.raise.put.setLocked)
  · exact hs

protected theorem Keeps.servo {d ms mpd} : Keeps s₀ (servo d ms mpd s) :=
  hs.put.unless (·.ite (·.put.setLocked) (·.when (·.raise) |>.put |>.setLocked))

protected theorem Keeps.syncAccepted {d t1 t2} : Keeps s₀ (syncAccepted d t1 t2 s) := by
  unfold syncAccepted
  dsimp only
  split
  · exact hs.put.servo
  · exact hs.put

protected theorem Keeps.syncReceive {d x} : Keeps s₀ (syncReceive d x s) := hs.withMsg (·.unless (·.put.ite (·.put) (·.syncAccepted)))

protected theorem Keeps.followUpReceive {d : Dom} {x : PtpMsg} : Keeps s₀ (followUpReceive d x s) := hs.withMsg fun ht => by
  dsimp only
  split
  · exact ht.when (·.syncAccepted)
  · exact ht

protected theorem Keeps.delayRespReceive {d : Dom} {x : PtpMsg} : Keeps s₀ (delayRespReceive d x s) := hs.withMsg fun ht => by
  dsimp only
  split
  · exact ht.when (·.put)
  · exact ht

protected theorem Keeps.domainUpdate {d} : Keeps s₀ (domainUpdate d s) := by
  unfold domainUpdate
  dsimp only
  split
  · exact hs.when (·.put.put.when (·.put))
  · exact hs

protected theorem Keeps.ptuUpd {d} : Keeps s₀ (ptuUpd d s) := hs.ite (·.put) (·.put.put)
protected theorem Keeps.portEnable {d} : Keeps s₀ (portEnable d s) := hs.unless (·.when (·.put) |>.put)
protected theorem Keeps.portDisable {d} : Keeps s₀ (portDisable d s) := hs.unless (·.setLocked.put)

protected theorem Keeps.ptuCtrlWrite {v} : Keeps s₀ (ptuCtrlWrite v s) :=
  hs.put.ite (·.portEnable) (·.portDisable) |>.ite (·.portEnable) (·.portDisable)

protected theorem Keeps.ptuRegRead {m : Master} {off : Nat} : ∀ r ∈ ptuRegRead m off s, Keeps s₀ r.1 := by
  have hcount : Keeps s₀ (ptuCntRead m s).1 := hs.put
  refine hs.orElse id <| hs.orElse (fun _ => hcount) <| hs.orElse id <| hs.orElse id <| hs.orElse id <| hs.orElse id <| hs.orElse id <|
    hs.orElse id <| iteMem ?_ noneMem
  dsimp only
  split
  case h_14 => exact noneMem
  all_goals exact someMem hs

protected theorem Keeps.ptuRegWrite {m : Master} {off : Nat} {v : Word} : ∀ r ∈ ptuRegWrite m off v s, Keeps s₀ r.1 :=
  hs.orElse (·.ptuCtrlWrite) <| hs.orElse (·.when (·.put)) <| iteMem (hs.orElse (·.when (·.ptuUpd)) <| hs.orElse id noneMem) noneMem

protected theorem Keeps.applyTimeSetup {ps} : Keeps s₀ (applyTimeSetup ps s) := hs.foldl (·.ite (·.ptuCtrlWrite) (·.unless (·.put)))

/-! ### The reference selection unit -/

protected theorem Keeps.referenceEdge {pin c} : Keeps s₀ (referenceEdge pin c s) := by
  unfold referenceEdge
  dsimp only
  split <;> exact hs.put

protected theorem Keeps.updSel {f} : Keeps s₀ (updSel f s) := hs.put.when (·.put) |>.when (·.put)
protected theorem Keeps.setSelRate {rate} : Keeps s₀ (setSelRate rate s) := hs.updSel

protected theorem Keeps.selUpdate : Keeps s₀ (selUpdate s) := by
  unfold selUpdate
  dsimp only
  split
  · exact hs
  · split
    · exact hs
    · exact hs.setSelRate.put.when (·.put) |>.put

protected theorem Keeps.selectNone : Keeps s₀ (selectNone s) := hs.when (·.put.raise) |>.put |>.when (·.put) |>.put |>.setSelRate |>.setFlag
protected theorem Keeps.selectRef {c} : Keeps s₀ (selectRef c s) := hs.ite (·.put.raise) (·.put) |>.put |>.put |>.setFlag |>.selUpdate

protected theorem Keeps.endStartup {retime : (Nat → Nat) → State → State} {c : Option Nat} (hretime : ∀ {x t}, Keeps s₀ t → Keeps s₀ (retime x t)) :
    Keeps s₀ (endStartup retime c s) := by
  unfold endStartup
  dsimp only
  split
  · split
    · exact hs.put.selectRef
    · exact hs.put
  · split
    · refine .selectRef ?_
      refine .put ?_
      refine hretime ?_
      split
      · exact hs.put.updSel
      · exact hs.put
    · refine .put ?_
      refine hretime ?_
      split
      · exact hs.put.updSel
      · exact hs.put

protected theorem Keeps.noteBackup : Keeps s₀ (noteBackup s) := hs.unless (·.put.settle)

protected theorem Keeps.rsuSelect {retime : (Nat → Nat) → State → State} (hretime : ∀ {f t}, Keeps s₀ t → Keeps s₀ (retime f t)) :
    Keeps s₀ (rsuSelect retime s) := by
  unfold rsuSelect
  extract_lets tick t
  have ht : Keeps s₀ t := by
    unfold t
    split
    · exact hs.when (·.put)
    · exact hs
  clear_value t
  refine hs.unless fun _ => .noteBackup (ht.ite (·.when (·.selectNone)) (·.ite (·.when (·.endStartup hretime)) fun ht => ?_))
  split
  · exact ht.unless (·.selectRef)
  · exact ht.when (·.selectNone)

protected theorem Keeps.enterRef {c st} : Keeps s₀ (enterRef c st s) := hs.unless (·.put.when (·.raise) |>.put)

protected theorem Keeps.evalRef {q c} : Keeps s₀ (evalRef q c s) :=
  hs.unless (·.ite (·.enterRef) (·.ite (·.enterRef) (·.ite (·.enterRef) (·.when (·.enterRef)))))

protected theorem Keeps.rsuEvaluate {retime : (Nat → Nat) → State → State} {q : List Nat} (hretime : ∀ {x t}, Keeps s₀ t → Keeps s₀ (retime x t)) :
    Keeps s₀ (rsuEvaluate retime q s) :=
  hs.foldl (·.evalRef) |>.rsuSelect hretime

protected theorem Keeps.refQualified {retime : (Nat → Nat) → State → State} {c : Nat} (hretime : ∀ {x t}, Keeps s₀ t → Keeps s₀ (retime x t)) :
    Keeps s₀ (refQualified retime c s) :=
  hs.when (·.enterRef.put.rsuSelect hretime)

protected theorem Keeps.firstWaitEnd {retime : (Nat → Nat) → State → State} (hretime : ∀ {x t}, Keeps s₀ t → Keeps s₀ (retime x t)) :
    Keeps s₀ (firstWaitEnd retime s) := by
  unfold firstWaitEnd
  split
  · split
    · split
      · exact hs.endStartup hretime |>.noteBackup
      · exact hs.put
    · exact hs
  · exact hs

protected theorem Keeps.startWaitEnd {retime : (Nat → Nat) → State → State} (hretime : ∀ {x t}, Keeps s₀ t → Keeps s₀ (retime x t)) :
    Keeps s₀ (startWaitEnd retime s) := by
  unfold startWaitEnd
  split
  · exact hs.when (·.endStartup hretime)
  · exact hs

protected theorem Keeps.windowEnd : Keeps s₀ (windowEnd s) := by
  refine hs.unless fun _ => ?_
  extract_lets s₁ bp twice s₂ s₃ tick s₄ s₅
  have hs₄ : Keeps s₀ s₄ := hs.foldl (·.put) |>.foldl (·.raise) |>.foldl (·.put) |>.foldl (·.when (·.put))
  clear_value s₄
  have hs₅ : Keeps s₀ s₅ := by
    unfold s₅
    split
    · exact hs₄.when (·.enterRef.raise)
    · exact hs₄
  exact hs₅.put

protected theorem Keeps.restartRefs : Keeps s₀ (restartRefs s) := hs.foldl (·.enterRef)

protected theorem Keeps.applyRefSetup {ps} : Keeps s₀ (applyRefSetup ps s) :=
  hs.foldl (·.put) |>.restartRefs |>.foldl (·.put) |>.when (·.selectNone) |>.put

/-! ### The TDM audio ports -/

protected theorem Keeps.aptLock {n d v} : Keeps s₀ (aptLock n d v s) := hs.unless (·.put.put)
protected theorem Keeps.aptIdle {n d} : Keeps s₀ (aptIdle n d s) := hs.aptLock.put.put

protected theorem Keeps.aptSetEn {n d arm} : Keeps s₀ (aptSetEn n d arm s) := by
  unfold aptSetEn
  split <;> exact hs.put.put

protected theorem Keeps.aptClearEn {n d} : Keeps s₀ (aptClearEn n d s) := by
  unfold aptClearEn
  dsimp only
  split
  · exact hs.put
  · exact hs.put
  · exact hs.put.put
  · exact hs.put.ite (·.put) (·.aptIdle)
  · exact hs.put.put

protected theorem Keeps.aptCtrlWrite {n v} : Keeps s₀ (aptCtrlWrite n v s) :=
  hs.put.ite (·.aptSetEn) (·.when (·.aptClearEn)) |>.ite (·.aptSetEn) (·.when (·.aptClearEn)) |>.when (·.ite (·.when (·.put) |>.when (·.put)) (·.put))

protected theorem Keeps.aptDataStart {n d} : Keeps s₀ (aptDataStart n d s) := hs.when (·.when (·.aptLock) |>.put |>.put)
protected theorem Keeps.aptCfg {n d v} : Keeps s₀ (aptCfg n d v s).1 := hs.unlessFst (·.put)
protected theorem Keeps.aptLose {n d cause} : Keeps s₀ (aptLose n d cause s) := hs.raise.put.ite (·.aptIdle) (·.aptLock.put)

protected theorem Keeps.aptClockLost {n d} : Keeps s₀ (aptClockLost n d s) := by
  unfold aptClockLost
  dsimp only
  split
  · exact hs.when (·.aptLose)
  · exact hs

protected theorem Keeps.aptXrun {n d} : Keeps s₀ (aptXrun n d s) := hs.put.raise

protected theorem Keeps.asrcAcquired {n d} : Keeps s₀ (asrcAcquired n d s) := by
  unfold asrcAcquired
  dsimp only
  split
  · exact hs.when (·.put)
  · exact hs

protected theorem Keeps.slaveSend {n tob} : Keeps s₀ (slaveSend n tob s) := hs.when (·.aptXrun) |>.put
protected theorem Keeps.safetyReceive {n stamp glitch slots} : Keeps s₀ (safetyReceive n stamp glitch slots s) := hs.ite (·.aptXrun) (·.put)

protected theorem Keeps.bulkReceive {n from_ stamp slots} : Keeps s₀ (bulkReceive n from_ stamp slots s) :=
  hs.when (·.aptXrun) |>.when (·.put.raise) |>.put

protected theorem Keeps.frameSyncEdge {n : Nat} {d : Dir} {stamp nbits : Nat} {slots : List Nat} :
    Keeps s₀ (frameSyncEdge n d stamp nbits slots s) := by
  unfold frameSyncEdge
  extract_lets x c want pers flags glitch phase mask s₁ s₂ s₃ y s₄
  have hs₃ : Keeps s₀ s₃ := hs.when (·.raise) |>.when (·.put.raise) |>.put
  clear_value s₃
  have hs₄ : Keeps s₀ s₄ := by
    unfold s₄
    split
    · exact hs₃.when (·.put)
    · exact hs₃.put
    · exact hs₃.put
    · exact hs₃
  clear_value s₄
  refine hs.unless fun _ => hs₃.ite (·.aptLose) (·.ite (·.aptLose) fun _ => ?_)
  split
  · exact hs₄.ite (·.bulkReceive) (·.safetyReceive)
  · exact hs₄
  · exact hs₄.when (·.slaveSend)

protected theorem Keeps.rxFrame {n slots} : Keeps s₀ (rxFrame n slots s) :=
  hs.when (·.aptXrun) |>.foldl (·.unlessFst (·.unlessFst (·.put.when (·.put.raise))) |>.put |>.put) |>.when (·.put)

protected theorem Keeps.txFrameStart {n} : Keeps s₀ (txFrameStart n s) := hs.ite (·.put) (·.ite (·.aptXrun) (·.put))
protected theorem Keeps.firstFlow {n d} : Keeps s₀ (firstFlow n d s) := hs.when (·.put.put)

protected theorem Keeps.aptFrame {inp : List (Nat × List Nat)} : Keeps s₀ (aptFrame inp s) := by
  refine hs.put.foldl fun ht => ht.when (·.put) |>.unless (·.firstFlow.put.unless fun ht => ?_)
  split
  · exact ht.rxFrame
  · exact ht.txFrameStart

protected theorem Keeps.aptRegWrite {n off : Nat} {v : Word} : ∀ r ∈ aptRegWrite n off v s, Keeps s₀ r.1 :=
  hs.orElse (·.aptCtrlWrite) <| hs.orElse (·.aptCfg) <| hs.orElse (·.aptCfg) noneMem

protected theorem Keeps.applyPortSetup {n d ps} : Keeps s₀ (applyPortSetup n d ps s) := hs.foldl (·.ite (·.aptCtrlWrite) (·.put))

protected theorem Keeps.forgetAptRnd {n d} : Keeps s₀ (forgetAptRnd n d s) := by
  unfold forgetAptRnd
  split
  · exact hs.put
  · exact hs

protected theorem Keeps.portApply {i ps} : Keeps s₀ (portApply i ps s) := hs.aptClearEn.ite (·.put) (·.put.forgetAptRnd.applyPortSetup.put)
protected theorem Keeps.portSetups : Keeps s₀ (portSetups s) := hs.foldl (·.when (·.put.foldl (·.portApply)))

/-! ### The boot-flash port -/

protected theorem Keeps.flcPump : Keeps s₀ (flcPump s) := by
  refine hs.when fun ht => ?_
  dsimp only
  split
  · exact ht.put
  · exact ht.put
  · exact ht.drawBytes.put
  · exact ht.drawBytes.put
  · exact ht

protected theorem Keeps.flcEnd {r} : Keeps s₀ (flcEnd r s) := hs.put.put

protected theorem Keeps.flcCmd {c} : Keeps s₀ (flcCmd c s) :=
  hs.ite (·.put) (·.unless (·.ite (·.put) (·.ite (·.put) (·.put.ite (·.put) (·.flcPump)))))

protected theorem Keeps.flcCommandEnd : Keeps s₀ (flcCommandEnd s) := by
  unfold flcCommandEnd
  dsimp only
  split
  · exact hs.flcEnd
  · exact hs.when (·.flcEnd)
  · exact hs

protected theorem Keeps.flcCtrl {v} : Keeps s₀ (flcCtrl v s) := hs.when (·.ite (·.flcEnd) (·.put)) |>.put |>.when (·.put)
protected theorem Keeps.flcPush {v} : Keeps s₀ (flcPush v s) := hs.put.flcPump
protected theorem Keeps.flcPop : Keeps s₀ (flcPop s).1 := hs.put.flcPump
protected theorem Keeps.flcRegRead {off : Nat} : ∀ r ∈ flcRegRead off s, Keeps s₀ r.1 := hs.orElse id <| hs.orElse id <| hs.orElse (·.flcPop) noneMem

protected theorem Keeps.flcRegWrite {off : Nat} {v : Word} : ∀ r ∈ flcRegWrite off v s, Keeps s₀ r.1 :=
  hs.orElse (·.flcCtrl) <| hs.orElse (·.flcCmd) <| hs.orElse (·.whenFst (·.put)) <| hs.orElse (·.flcPush) noneMem

/-! ### The two-wire controllers -/

protected theorem Keeps.twEnd {k r} : Keeps s₀ (twEnd k r s) := hs.put.put

protected theorem Keeps.xferWrite {k : Nat} {v : Word} {resp : List Byte} : Keeps s₀ (xferWrite k v resp s) :=
  hs.unless (·.ite (·.put) (·.ite (·.put) (·.ite (·.put) (·.drawBytes.put))))

protected theorem Keeps.twCtrl {k v} : Keeps s₀ (twCtrl k v s) := by
  unfold twCtrl
  dsimp only
  split
  · exact hs.when (·.ite (·.twEnd) (·.put)) |>.put |>.put
  · split
    · split
      · exact hs.when (·.ite (·.twEnd) (·.put)) |>.put |>.put
      · exact hs.when (·.ite (·.twEnd) (·.put)) |>.put |>.put
      · exact hs.when (·.ite (·.twEnd) (·.put)) |>.put
    · exact hs.when (·.ite (·.twEnd) (·.put)) |>.put

protected theorem Keeps.transferEnd {k o} : Keeps s₀ (transferEnd k o s) := by
  unfold transferEnd
  dsimp only
  split
  · exact hs.twEnd
  · split
    · split
      · exact hs.when (·.twEnd)
      · exact hs.when (·.raise.twEnd)
    · exact hs

protected theorem Keeps.arbLost {k byte bit} : Keeps s₀ (arbLost k byte bit s) := hs.when (·.raise.put)
protected theorem Keeps.arbRetry {k} : Keeps s₀ (arbRetry k s) := hs.when (·.ite (·.twEnd) (·.ite (·.twEnd) (·.put)))
protected theorem Keeps.sclStuck {k} : Keeps s₀ (sclStuck k s) := hs.when (·.unless (·.raise.twEnd.put))
protected theorem Keeps.twCfg {k v} : Keeps s₀ (twCfg k v s).1 := hs.whenFst (·.put)

protected theorem Keeps.twcRegRead {off : Nat} : ∀ r ∈ twcRegRead off s, Keeps s₀ r.1 := by
  have hpop {k : Nat} : Keeps s₀ (twPop k s).1 := hs.put
  unfold twcRegRead
  split <;> simp [hs, hpop]

protected theorem Keeps.twcRegWrite {off : Nat} {v : Word} : ∀ r ∈ twcRegWrite off v s, Keeps s₀ r.1 := by
  unfold twcRegWrite
  split
  · exact someMem hs.twCtrl
  · exact someMem hs.twCfg
  · exact someMem hs.xferWrite
  · exact someMem hs.put
  · exact noneMem

/-! ### The DMA engine's channels -/

protected theorem Keeps.dmaSelect : Keeps s₀ (dmaSelect s) := by
  unfold dmaSelect
  dsimp only
  split
  · exact hs.ite (·.put) (·.put) |>.when (·.put) |>.foldl (·.ite (·.put) (·.when (·.put))) |>.put |>.put
  · exact hs.ite (·.put) (·.put) |>.when (·.put) |>.foldl (·.ite (·.put) (·.when (·.put))) |>.put

protected theorem Keeps.dmaLeave {n st} : Keeps s₀ (dmaLeave n st s) := hs.put.put.dmaSelect
protected theorem Keeps.dmaHalt {n cause src} : Keeps s₀ (dmaHalt n cause src s) := hs.raise.put.dmaLeave
protected theorem Keeps.dmaIdle {n} : Keeps s₀ (dmaIdle n s) := hs.dmaLeave.put
protected theorem Keeps.dmaBusErr {n addr c} : Keeps s₀ (dmaBusErr n addr c s) := hs.put.dmaHalt
protected theorem Keeps.dmaBufUe {n} : Keeps s₀ (dmaBufUe n s) := hs.ite (·.raise) (·.dmaHalt)

protected theorem Keeps.dmaStop {n} : Keeps s₀ (dmaStop n s) := by
  unfold dmaStop
  split
  · exact hs.dmaIdle
  · exact hs.dmaIdle
  · exact hs.put
  · exact hs

protected theorem Keeps.dmaForce {n en} : Keeps s₀ (dmaForce n en s) := hs.ite (·.unless (·.put.dmaIdle)) (·.put)
protected theorem Keeps.dmaCtrl {n v} : Keeps s₀ (dmaCtrl n v s) := hs.when (·.dmaForce) |>.ite (·.when (·.put.put.when (·.dmaSelect))) (·.dmaStop)
protected theorem Keeps.dmaCompatWrite {v} : Keeps s₀ (dmaCompatWrite v s).1 := hs.whenFst (·.put)
protected theorem Keeps.dmaConfig {n off v} : Keeps s₀ (dmaConfig n off v s).1 := hs.whenFst (·.whenFst (·.put))

protected theorem Keeps.descriptorComplete : Keeps s₀ (descriptorComplete s) := by
  unfold descriptorComplete
  dsimp only
  split
  · exact hs
  · split
    · exact hs
    · exact hs.unless (·.when (·.put) |>.put |>.ite (·.put.dmaLeave) (·.ite (·.dmaIdle) (·.ite (·.dmaHalt) (·.put.dmaSelect))))

protected theorem Keeps.dmaRegWrite {off : Nat} {v : Word} : ∀ r ∈ dmaRegWrite off v s, Keeps s₀ r.1 := by
  refine hs.orElse (·.dmaCompatWrite) <| iteMem ?_ noneMem
  dsimp only
  split
  case h_1 => exact someMem hs.dmaCtrl
  case h_6 => exact noneMem
  all_goals exact someMem hs.dmaConfig

/-! ### The check-value units -/

protected theorem Keeps.chkIdle {u r} : Keeps s₀ (chkIdle u r s) := hs.put.put

protected theorem Keeps.chkStop {u} : Keeps s₀ (chkStop u s) := by
  unfold chkStop
  split
  · exact hs.put
  · exact hs.put
  · exact hs

protected theorem Keeps.chkCtrl {u v} : Keeps s₀ (chkCtrl u v s) :=
  hs.when (·.ite (·.unless (·.put)) (·.put)) |>.ite (·.unless (·.ite (·.put) (·.put))) (·.chkStop)

protected theorem Keeps.chkGuard {u : Nat} {m : Master} {k : State → State × Code} (hk : ∀ {t}, Keeps s₀ t → Keeps s₀ (k t).1) :
    Keeps s₀ (chkGuard u m k s).1 :=
  hs.unlessFst (hk ·)

protected theorem Keeps.chkConfig {u off v} : Keeps s₀ (chkConfig u off v s).1 := hs.whenFst (·.unlessFst (·.when (·.put) |>.put))
protected theorem Keeps.chkLeave {u a l run} : Keeps s₀ (chkLeave u a l run s) := hs.put.put.put.put

protected theorem Keeps.chkVerdict {u run} : Keeps s₀ (chkVerdict u run s) :=
  hs.chkLeave.put.ite (·.ite (·.raise.put.chkIdle) (·.raise.chkIdle)) (·.ite (·.chkIdle) (·.ite (·.raise.chkIdle) (·.ite (·.chkIdle) (·.put))))

protected theorem Keeps.chkRegRead {off : Nat} : ∀ r ∈ chkRegRead off s, Keeps s₀ r.1 := by
  have hdraw : Keeps s₀ s.draw.2 := hs.put
  have hprogress {u k : Nat} : Keeps s₀ (chkProgress u k s).1 := hs.put
  refine iteMem ?_ noneMem
  dsimp only
  split
  case h_2 | h_3 | h_4 => exact iteMem noneMem (someMem hprogress)
  case h_5 => exact hs.orElse id (someMem hdraw)
  case h_11 => exact noneMem
  all_goals exact someMem hs

protected theorem Keeps.chkRegWrite {m : Master} {off : Nat} {v : Word} : ∀ r ∈ chkRegWrite m off v s, Keeps s₀ r.1 :=
  iteMem (hs.orElse (·.chkGuard (·.chkCtrl)) <| someMem (hs.chkGuard (·.chkConfig))) noneMem

/-! ### DRAM and carafe -/

protected theorem Keeps.replaceRow {r} : Keeps s₀ (replaceRow r s) := hs.ite (·.put.put.raise.settle) (·.raise)

protected theorem Keeps.findErrors {ce ue} : Keeps s₀ (findErrors ce ue s) :=
  hs.foldl (·.ite (·.put) (·.put.when (·.replaceRow))) |>.foldl (·.unless (·.put.unless (·.replaceRow)))

protected theorem Keeps.memUeRaise {w} : Keeps s₀ (memUeRaise w s) := hs.ite (·.put.put.raise) (·.raise)
protected theorem Keeps.touchPages {a len} : Keeps s₀ (touchPages a len s) := hs.when (·.put)

protected theorem Keeps.memRead {a len} : Keeps s₀ (memRead a len s).1 := by
  unfold memRead
  dsimp only
  split
  · exact hs.touchPages
  · exact hs.touchPages.memUeRaise

protected theorem Keeps.memWriteWord {a l w} : Keeps s₀ (memWriteWord a l w s) := hs.ite (·.memUeRaise) (·.when (·.put) |>.setBytes)
protected theorem Keeps.memWrite {a l} : Keeps s₀ (memWrite a l s).1 := hs.touchPages.foldl (·.memWriteWord)
protected theorem Keeps.carafeRead {a len} : Keeps s₀ (carafeRead a len s).1 := hs.unlessFst (·.unlessFst (·.memRead))
protected theorem Keeps.carafeWrite {a l} : Keeps s₀ (carafeWrite a l s).1 := hs.unlessFst (·.unlessFst (·.memWrite))
protected theorem Keeps.dramRead {a len} : Keeps s₀ (dramRead a len s).1 := hs.unlessFst (·.memRead)
protected theorem Keeps.dramWrite {a l} : Keeps s₀ (dramWrite a l s).1 := hs.unlessFst (·.memWrite)

protected theorem Keeps.memAccess {t : BusTarget} {m : Master} {lo : Nat} {lim : State → Bool → Nat} {acc : MemAccess} {ce : List Nat}
    {ue : List Nat} {rd : Nat → Nat → State → State × List Byte × Code} {wr : Nat → List Byte → State → State × Code}
    (hrd : ∀ {y a1 t}, Keeps s₀ t → Keeps s₀ (rd y a1 t).1) (hwr : ∀ {y a1 t}, Keeps s₀ t → Keeps s₀ (wr y a1 t).1) :
    Keeps s₀ (memAccess t m lo lim acc ce ue rd wr s) := by
  unfold memAccess
  dsimp only
  split
  · exact hs.put
  · split
    · exact hs.ite (·.put) (·.iteFst (hrd ·) (hrd ·.findErrors) |>.put)
    · exact hs.ite (·.put) (·.iteFst (hwr ·) (hwr ·.findErrors) |>.put)

protected theorem Keeps.memcInit : Keeps s₀ (memcInit s) := (hs.withMem (filter_wf _)).put
protected theorem Keeps.scrub {ce ue} : Keeps s₀ (scrub ce ue s) := hs.findErrors.foldl (·.memUeRaise)
protected theorem Keeps.memcWindow : Keeps s₀ (memcWindow s) := hs.put.put.when (·.raise)
protected theorem Keeps.memcConfigWrite {off v} : Keeps s₀ (memcConfigWrite off v s).1 := hs.whenFst (·.unlessFst (·.put))
protected theorem Keeps.memcRegWrite {off : Nat} {v : Word} : ∀ r ∈ memcRegWrite off v s, Keeps s₀ r.1 := hs.orElse (·.memcConfigWrite) noneMem

/-! ### Sensing and line supervision -/

protected theorem Keeps.estValues {n : Nat} {sxy syy : Int} : Keeps s₀ (estValues n sxy syy s).2.2 := by
  unfold estValues
  dsimp only
  split <;> split
  · exact hs.put.put
  · exact hs.put
  · exact hs.put
  · exact hs

protected theorem Keeps.estEnd {n : Nat} : Keeps s₀ (estEnd n s) := hs.when (·.ite (·.estValues.put.put) (·.put))

protected theorem Keeps.lineZ {n : Nat} : Keeps s₀ (lineZ s n).2 := by
  unfold lineZ
  dsimp only
  split
  · exact hs
  · split
    · exact hs.put
    · exact hs

protected theorem Keeps.setLine {n v} : Keeps s₀ (setLine n v s) := by
  unfold setLine
  dsimp only
  split
  · exact hs
  · refine .put ?_
    split
    · exact hs.put.raise
    · exact hs.put.raise
    · exact hs.put.raise
    · exact hs.put.raise
    · exact hs.put

protected theorem Keeps.supEnd {n : Nat} : Keeps s₀ (supEnd n s) := hs.when (·.lineZ.put.when (·.setLine))
protected theorem Keeps.loseSense {i} : Keeps s₀ (loseSense i s) := hs.raise.put.when (·.put) |>.when (·.put)

protected theorem Keeps.calStart {isRef kind idx} : Keeps s₀ (calStart isRef kind idx s) :=
  hs.unless (·.put.ite (·.put) (·.put.ite (·.put) (·.ite (·.put) (·.put))))

protected theorem Keeps.calWrite {v} : Keeps s₀ (calWrite v s) := by
  unfold calWrite
  dsimp only
  split
  · exact hs.put.calStart
  · exact hs.put.calStart
  · exact hs.put.ite (·.put.put) (·.put.put)
  · exact hs.put

protected theorem Keeps.calRefDone : Keeps s₀ (calRefDone s) := by
  unfold calRefDone
  dsimp only
  split
  · split
    · exact hs.put.put.put.put.put
    · exact hs.put.put.put.raise
  · exact hs

protected theorem Keeps.railFrame {g} : Keeps s₀ (railFrame g s) := hs.ite (·.put) (·.ite (·.put) (·.when (·.raise) |>.put))

protected theorem Keeps.lspFrame {inp} : Keeps s₀ (lspFrame inp s) :=
  hs.foldl (·.unless (·.put)) |>.foldl (·.railFrame) |>.foldl (·.unless (·.put)) |>.foldl (·.when (·.put.when (·.put))) |>.when (·.put)

protected theorem Keeps.lspSnuff : Keeps s₀ (lspSnuff s) := by
  unfold lspSnuff
  exact hs.foldl (·.when (·.put)) |>.when (·.put)

protected theorem Keeps.gainFull {n} : Keeps s₀ (gainFull n s) := hs.put.when (·.put)
protected theorem Keeps.spkCfgWrite {n v} : Keeps s₀ (spkCfgWrite n v s) := hs.put.ite (·.unless (·.put.put) |>.unless (·.put)) (·.gainFull.put)
protected theorem Keeps.lspPut {off v} : Keeps s₀ (lspPut off v s) := hs.ite (·.put.put.put) (·.ite (·.spkCfgWrite) (·.put))

protected theorem Keeps.lspRegWrite {off : Nat} {v : Word} : ∀ r ∈ lspRegWrite off v s, Keeps s₀ r :=
  hs.orElse (·.calWrite) <| hs.orElse (·.lspPut) noneMem

/-! ### The power-stage modulators -/

protected theorem Keeps.modOff {n} : Keeps s₀ (modOff n s) := hs.put.put.when (·.put) |>.when (·.put)
protected theorem Keeps.driveFall : Keeps s₀ (driveFall s) := hs.put.foldl (·.when (·.modOff))
protected theorem Keeps.driveCheck : Keeps s₀ (driveCheck s) := hs.when (·.driveFall)
protected theorem Keeps.drvAllow {v} : Keeps s₀ (drvAllow v s) := hs.put.driveCheck
protected theorem Keeps.modStart {n k} : Keeps s₀ (modStart n k s) := hs.put.put.when (·.put)

protected theorem Keeps.chStart1 {n} : Keeps s₀ (chStart1 n s) := by
  unfold chStart1
  split
  · exact hs
  · exact hs
  · exact hs
  · exact hs.put.put
  · exact hs.put

protected theorem Keeps.chStop1 {n} : Keeps s₀ (chStop1 n s) := by
  unfold chStop1
  dsimp only
  split
  · exact hs.put.when (·.put) |>.put |>.put |>.put
  · exact hs.put.when (·.put) |>.put |>.put |>.put
  · exact hs.put.when (·.put) |>.put |>.put |>.put
  · exact hs.put.when (·.put)
  · exact hs.put.put.put.driveCheck
  · exact hs.put.put.put.driveCheck
  · exact hs.put.driveCheck

protected theorem Keeps.chForce1 {n} : Keeps s₀ (chForce1 n s) := hs.ite (·.put) (·.put)

protected theorem Keeps.eachCh {v : Word} {f : Nat → State → State} (hf : ∀ {x t}, Keeps s₀ t → Keeps s₀ (f x t)) : Keeps s₀ (eachCh v f s) :=
  hs.foldl (·.when (hf ·))

protected theorem Keeps.chStartRampEnd {n} : Keeps s₀ (chStartRampEnd n s) := by
  unfold chStartRampEnd
  split
  · exact hs.when (·.put.put)
  · exact hs

protected theorem Keeps.chStopRampEnd {n} : Keeps s₀ (chStopRampEnd n s) := by
  unfold chStopRampEnd
  split
  · exact hs.when (·.modOff.driveCheck)
  · exact hs

protected theorem Keeps.pwrRunRamp {up} : Keeps s₀ (pwrRunRamp up s) := hs.foldl (·.when (·.put.when (·.put)))
protected theorem Keeps.pwrTick : Keeps s₀ (pwrTick s) := hs.when (·.foldl (·.when (·.modOff)) |>.driveCheck)

protected theorem Keeps.ocInAssert {n level q len} : Keeps s₀ (ocInAssert n level q len s) := by
  unfold ocInAssert
  dsimp only
  split
  · split
    · exact hs.put.put
    · exact hs
  · exact hs

protected theorem Keeps.ocLimit {n} : Keeps s₀ (ocLimit n s) := by
  unfold ocLimit
  dsimp only
  split
  · exact hs.when (·.put.unless (·.put.when (·.put) |>.unless (·.raise)))
  · exact hs

protected theorem Keeps.ocLatch {n} : Keeps s₀ (ocLatch n s) := hs.put.put.raise

protected theorem Keeps.shutDown {n} : Keeps s₀ (shutDown n s) :=
  hs.raise.put.put.put.put.when (·.setLine) |>.when (·.raise) |>.ite (·.put.put.driveCheck) (·.ite (·.ocLatch) (·.put))

protected theorem Keeps.ocDetect {i n} : Keeps s₀ (ocDetect i n s) := hs.ite (·.ite (·.shutDown) (·.raise)) (·.ite (·.raise) (·.put.ocLatch))
protected theorem Keeps.ocRelease1 {n} : Keeps s₀ (ocRelease1 n s) := hs.when (·.put.put)

protected theorem Keeps.pwrAlarm : Keeps s₀ (pwrAlarm s) := hs.foldl fun ht => by
  split
  · exact ht.when (·.put)
  · exact ht.put.put
  · exact ht

protected theorem Keeps.modFrame {n : Nat} : Keeps s₀ (modFrame n s) := by
  unfold modFrame
  extract_lets
  split
  exact hs.put.when (·.raise) |>.unless (·.raise)

protected theorem Keeps.modBoundary {n} : Keeps s₀ (modBoundary n s) :=
  hs.ite (·.put.put.put) (·.ite (·.put.when (·.put) |>.put) (·.ite (·.modStart) (·.when (·.put)))) |>.when (·.put)

protected theorem Keeps.pwrConfigWrite {off v} : Keeps s₀ (pwrConfigWrite off v s).1 := by
  unfold pwrConfigWrite
  dsimp only
  split
  · exact hs.unlessFst (·.put)
  · split
    · split
      · exact hs.whenFst (·.put)
      · exact hs.whenFst (·.put)
      · exact hs.whenFst (·.put)
      · exact hs.put
      · exact hs.put
      · exact hs
    · exact hs

protected theorem Keeps.pwrRegWrite {off : Nat} {v : Word} : ∀ r ∈ pwrRegWrite off v s, Keeps s₀ r.1 :=
  hs.orElse (·.drvAllow) <| hs.orElse (·.eachCh (·.chStart1)) <| hs.orElse (·.eachCh (·.chStop1)) <| hs.orElse (·.eachCh (·.chForce1)) <|
    hs.orElse (·.eachCh (·.ocRelease1)) <| hs.orElse (·.pwrConfigWrite) noneMem

/-! ### The snuffed state and the mode flags -/

protected theorem Keeps.unconfigure : Keeps s₀ (unconfigure s) := hs.when (·.put.put)
protected theorem Keeps.coldCheck : Keeps s₀ (coldCheck s) := hs.when (·.unconfigure)
protected theorem Keeps.loadFail {f} : Keeps s₀ (loadFail f s) := hs.put.put.boundNext.dequeueMig.put.settle
protected theorem Keeps.loadCut {e} : Keeps s₀ (loadCut e s) := hs.when (·.loadFail)

protected theorem Keeps.runCleared {by_} : Keeps s₀ (runCleared by_ s) := by
  unfold runCleared
  dsimp only
  split
  · exact hs
  · split
    · exact hs.setFlag.foldl (·.when (·.put)) |>.abortMigs |>.put |>.flushAudio
    · exact hs.setFlag.foldl (·.when (·.put)) |>.abortMigs |>.put |>.flushAudio |>.put |>.put |>.unless (·.unconfigure) |>.driveCheck
    · exact hs.setFlag.foldl (·.when (·.put)) |>.abortMigs |>.put |>.flushAudio |>.put |>.pwrRunRamp |>.driveCheck

protected theorem Keeps.alarmApplied {v by_} : Keeps s₀ (alarmApplied v by_ s) := hs.put.setFlag.ite (·.abortMigs.put.when (·.put)) (·.put)

protected theorem Keeps.log {a} : Keeps s₀ (SnuffBy.log a s) := by
  unfold SnuffBy.log
  split <;> exact hs.put

protected theorem Keeps.enterSnuff {c} : Keeps s₀ (enterSnuff c s) :=
  hs.put.log.unless (·.put.runCleared.setFlag.driveFall.foldl (·.flushQueues) |>.lspSnuff |>.loadCut |>.abortRestores |>.unless (·.put) |>.put |>.put
    |>.coldCheck |>.settle)

protected theorem Keeps.snuffCtrlWrite {m v} : Keeps s₀ (snuffCtrlWrite m v s) := hs.when (·.enterSnuff)
protected theorem Keeps.snuffCauseWrite {v} : Keeps s₀ (snuffCauseWrite v s) := hs.when (·.put)
protected theorem Keeps.wickLoss : Keeps s₀ (wickLoss s) := hs.setFlag.flushAudio.driveCheck.when (·.runCleared) |>.coldCheck |>.settle
protected theorem Keeps.rampUp : Keeps s₀ (rampUp s) := hs.put.pwrRunRamp
protected theorem Keeps.startRamp : Keeps s₀ (startRamp s) := hs.put.rampUp
protected theorem Keeps.dropStale : Keeps s₀ (dropStale s) := hs.when (·.unconfigure.put)
protected theorem Keeps.runApplied {by_} : Keeps s₀ (runApplied by_ s) := hs.setFlag.dropStale.ite (·.put.when (·.put)) (·.put.placeLost.startRamp)

protected theorem Keeps.runRequest {v by_} : Keeps s₀ (runRequest v by_ s) := by
  unfold runRequest
  split
  · exact hs
  · split
    · split
      · exact hs.put
      · exact hs.runApplied.put
    · exact hs.ite (·.put) (·.ite (·.put) (·.runCleared.coldCheck.settle.put))

protected theorem Keeps.alarmRequest {v by_} : Keeps s₀ (alarmRequest v by_ s) := hs.unless (·.ite (·.put) (·.alarmApplied.put.settle.put))
protected theorem Keeps.modeReqWrite {m v} : Keeps s₀ (modeReqWrite m v s) := hs.put.alarmRequest.runRequest

protected theorem Keeps.outputRampEnd : Keeps s₀ (outputRampEnd s) := by
  unfold outputRampEnd
  dsimp only
  split
  · split
    · exact hs.put
    · exact hs.unless (·.put.foldl (·.stopSched) |>.put |>.put |>.driveCheck |>.coldCheck |>.settle)
    · exact hs
  · exact hs

/-! ### The wick logic -/

protected theorem Keeps.clashEdge {before} : Keeps s₀ (clashEdge before s) := hs.when (·.raise)
protected theorem Keeps.setWick {w} : Keeps s₀ (setWick w s) := hs.unless (·.put.put)
protected theorem Keeps.startCold : Keeps s₀ (startCold s) := hs.when (·.put.put.when (·.put))
protected theorem Keeps.dropCold : Keeps s₀ (dropCold s) := hs.unless (·.put.when (·.put) |>.unconfigure)
protected theorem Keeps.withdraw {w} : Keeps s₀ (withdraw w s) := hs.dropCold.setWick

protected theorem Keeps.wickSettle : Keeps s₀ (wickSettle s) := by
  unfold wickSettle
  dsimp only
  split
  · exact hs
  · split
    · exact hs.put.when (·.setWick)
    · exact hs.put.unless (·.withdraw)
    · exact hs.put.unless (·.withdraw)
    · exact hs.put.unless (·.withdraw)
    · exact hs.put

protected theorem Keeps.cutRestore : Keeps s₀ (cutRestore s) := hs.put.when (·.put.ite (·.ite (·.startRamp) (·.put.coldCheck)) (·.coldCheck))
protected theorem Keeps.releaseWick : Keeps s₀ (releaseWick s) := hs.wickLoss.cutRestore.put.put.setWick
protected theorem Keeps.hoResult {c} : Keeps s₀ (hoResult c s) := hs.put.when (·.put)

protected theorem Keeps.handoverReq : Keeps s₀ (handoverReq s) := by
  unfold handoverReq
  dsimp only
  split
  · exact hs.hoResult
  · exact hs.setWick.put.when (·.put.pwrRunRamp)

protected theorem Keeps.pairCtrlWrite {v} : Keeps s₀ (pairCtrlWrite v s) := hs.when (·.handoverReq) |>.put |>.when (·.put) |>.wickSettle
protected theorem Keeps.pairCfgPut {v} : Keeps s₀ (pairCfgPut v s).1 := hs.unlessFst (·.put.when (·.put) |>.clashEdge |>.wickSettle)

protected theorem Keeps.pairRegWrite {off : Nat} {v : Word} : ∀ r ∈ pairRegWrite off v s, Keeps s₀ r.1 :=
  hs.orElse (·.pairCtrlWrite) <| hs.orElse (·.pairCfgPut) <| hs.orElse (·.put) noneMem

protected theorem Keeps.applyPairSetup {ps : List (Nat × Word)} : Keeps s₀ (applyPairSetup ps s) := hs.foldl fun ht => by
  split
  next r hr => exact ht.pairRegWrite r hr
  next => exact ht

/-! ### The checks of a load -/

protected theorem Keeps.applyS0Rec {base r} : Keeps s₀ (applyS0Rec base s r) := by
  unfold applyS0Rec
  dsimp only
  split
  · exact hs.put.setBytes
  · exact hs.macSetup
  · exact hs.applyFlowDefaults
  · exact hs.applyTimeSetup
  · exact hs.applyRefSetup
  · exact hs.applyPairSetup
  · exact hs.put
  · exact hs.put
  · exact hs.put
  · exact hs.put
  · exact hs

protected theorem Keeps.applyS0 {base rs} : Keeps s₀ (applyS0 base rs s) := by
  unfold applyS0
  dsimp only
  refine .macsReload ?_ (·.foldl (·.applyS0Rec))
  split
  · exact hs.put.put
  · exact hs.put

/-! ### The ticks numbered again -/

protected theorem Keeps.retime {f : Nat → Nat} : Keeps s₀ (retime f s) where
  memOk h := hs.memOk h
  migApart h g hg := by
    have hfabric : (retime f s).fabric = reFabric f s.fabric := rfl
    rw [hfabric] at hg
    obtain ⟨g', hg', rfl⟩ := Option.map_eq_some_iff.mp hg
    exact hs.migApart h g' hg'

/-! ### Boot and loading -/

protected theorem Keeps.loadTrims : Keeps s₀ (loadTrims s) := hs.foldl (·.put) |>.foldl (·.put.put) |>.put
protected theorem Keeps.flashFail : Keeps s₀ (flashFail s) := hs.ite (·.put) (·.ite (·.put) (·.put))

protected theorem Keeps.startMemInit {r} : Keeps s₀ (startMemInit r s) := by
  unfold startMemInit
  dsimp only
  split
  · exact hs.put.put
  · exact hs.foldl (·.memcConfigWrite) |>.put

protected theorem Keeps.flashBootRecordRead {dev} : Keeps s₀ (flashBootRecordRead dev s) := by
  unfold flashBootRecordRead
  dsimp only
  split
  · split
    · exact hs.put.put.startMemInit.flashFail
    · exact hs.put.put.startMemInit
  · exact hs

protected theorem Keeps.memInitEnd {trainErr gib} : Keeps s₀ (memInitEnd trainErr gib s) :=
  hs.when (·.put.put.ite (·.put.when (·.flashFail)) (·.put.memcInit.put))

protected theorem Keeps.startJob {partialImg verify allow} : Keeps s₀ (startJob partialImg verify allow s) := hs.put.settle
protected theorem Keeps.initFrom : Keeps s₀ (initFrom s) := hs.startMemInit
protected theorem Keeps.sramCleared : Keeps s₀ (sramCleared s) := (hs.withMem (filter_wf _)).put.put.put.put
protected theorem Keeps.sramInitEnd : Keeps s₀ (sramInitEnd s) := hs.when (·.sramCleared.when (·.initFrom))
protected theorem Keeps.initMem : Keeps s₀ (initMem s) := hs.ite (·.put) (·.ite (·.put) (·.put.ite (·.put) (·.initFrom)))
protected theorem Keeps.loadFull {allow} : Keeps s₀ (loadFull allow s) := hs.ite (·.put) (·.ite (·.put) (·.ite (·.put) (·.startJob)))

protected theorem Keeps.loadPartial {allow} : Keeps s₀ (loadPartial allow s) :=
  hs.ite (·.put) (·.ite (·.put) (·.ite (·.put) (·.ite (·.put) (·.startJob))))

protected theorem Keeps.verify {allow} : Keeps s₀ (verify allow s) := hs.ite (·.put) (·.ite (·.put) (·.startJob))

protected theorem Keeps.imgAbort : Keeps s₀ (imgAbort s) := by
  unfold imgAbort
  split
  · exact hs.ite (·.put) (·.put)
  · exact hs.when (·.put)

protected theorem Keeps.imgCommand {c allow} : Keeps s₀ (imgCommand c allow s) := by
  unfold imgCommand
  split
  · exact hs.loadFull
  · exact hs.loadPartial
  · exact hs.verify
  · exact hs.imgAbort
  · exact hs.initMem
  · exact hs.put
  · exact hs.put
  · exact hs

protected theorem Keeps.imgCtrlWrite {v} : Keeps s₀ (imgCtrlWrite v s) := hs.put.imgCommand
protected theorem Keeps.flashImageCopyEnd : Keeps s₀ (flashImageCopyEnd s) := hs.when (·.setBytes.put.put.startJob.put)
protected theorem Keeps.loadReject {f} : Keeps s₀ (loadReject f s) := hs.loadFail.raise.when (·.flashFail)

protected theorem Keeps.readingEnd : Keeps s₀ (readingEnd s) := by
  unfold readingEnd
  dsimp only
  split
  · exact hs
  · split
    · refine .loadReject ?_
      split
      · exact hs.memUeRaise
      · exact hs
    · exact hs.unless (·.setBytes) |>.put

protected theorem Keeps.authEnd : Keeps s₀ (authEnd s) := by
  unfold authEnd
  dsimp only
  split
  · exact hs
  · split
    · exact hs
    · split
      · exact hs.loadReject
      · exact hs.put.put

protected theorem Keeps.applyMap : Keeps s₀ (applyMap s) := by
  unfold applyMap
  split
  · exact hs
  · refine hs.dropMig.foldl fun ht => ?_
    split <;> exact ht.put

protected theorem Keeps.applyS1Rec {base full r} : Keeps s₀ (applyS1Rec base full s r) := by
  unfold applyS1Rec
  split
  · exact hs.put
  · exact hs.portApply
  · exact hs.foldl (·.ite (·.eachCh (·.chStart1)) (·.put))
  · exact hs.foldl (·.lspPut) |>.foldl (·.gainFull.put.put)
  · exact hs

protected theorem Keeps.applyS1 : Keeps s₀ (applyS1 s) := by
  unfold applyS1
  extract_lets s₁ s₂ s₃ s₄ _ s₅
  have hs₃ : Keeps s₀ s₃ := hs.foldl (·.placeCell) |>.foldl (·.configCell) |>.foldl (·.foldl (·.applyS1Rec))
  have hs₄ : Keeps s₀ s₄ := hs₃.matrixConfigured
  clear_value s₄
  have hs₅ : Keeps s₀ s₅ := by
    unfold s₅
    split <;> exact hs₄.put
  exact hs₅.put.put.settle

protected theorem Keeps.jobDone : Keeps s₀ (jobDone s) := hs.put.put
protected theorem Keeps.acceptUnbounded {l} : Keeps s₀ (acceptUnbounded l s) := hs.put.put.unless (·.raise)

protected theorem Keeps.partialDone {j} : Keeps s₀ (partialDone j s) :=
  hs.foldl (·.ite (·.put) (·.when (·.put))) |>.put |>.unless (·.raise) |>.acceptUnbounded |>.jobDone |>.dequeueMig |>.settle

protected theorem Keeps.startPartial {j} : Keeps s₀ (startPartial j s) := by
  unfold startPartial
  dsimp only
  split
  · exact hs.putFabric.put
  · exact hs.foldl (·.applyS1Rec) |>.put
  · exact hs.aptClearEn.put
  · exact hs.foldl (·.when (·.chStop1)) |>.put |>.put

protected theorem Keeps.checkingEnd : Keeps s₀ (checkingEnd s) := by
  unfold checkingEnd
  dsimp only
  split
  · exact hs
  · split
    · exact hs.boundNext.loadReject
    · split
      · exact hs.boundNext.put.loadReject
      · exact hs.boundNext.put.ite (·.put.jobDone) (·.put.unless (·.ite (·.put.partialDone) (·.startPartial)))

protected theorem Keeps.loadAccept : Keeps s₀ (loadAccept s) := by
  unfold loadAccept
  dsimp only
  split
  · exact hs
  · exact hs.unless (·.unless (·.raise) |>.unless (·.put.retime.put.put) |>.put |>.put |>.put |>.applyS0 |>.applyMap |>.put |>.when (·.put) |>.ite
      (·.unconfigure) (·.applyS1) |>.acceptUnbounded |>.jobDone |>.settle |>.wickSettle)

protected theorem Keeps.partialCell {p : PartialJob} {l : Nat} : Keeps s₀ (partialCell p s l) := by
  unfold partialCell
  split
  · exact hs
  · exact hs.unless (·.put)

protected theorem Keeps.partialCellsHalt : Keeps s₀ (partialCellsHalt s) := by
  unfold partialCellsHalt
  dsimp only
  split
  · exact hs.when (·.foldl (·.stopSched) |>.foldl (·.partialCell) |>.put)
  · exact hs

protected theorem Keeps.partialCellsRestart : Keeps s₀ (partialCellsRestart s) := by
  unfold partialCellsRestart
  dsimp only
  split
  · exact hs.when (·.foldl (·.put) |>.putFabric |>.put)
  · exact hs

protected theorem Keeps.partialStep : Keeps s₀ (partialStep s) := by
  unfold partialStep
  dsimp only
  split
  · exact hs.ite (·.when (·.foldl (·.portApply) |>.put)) (·.when (·.when (·.foldl (·.applyS1Rec) |>.foldl (·.when (·.chStart1)) |>.put)))
  · exact hs

protected theorem Keeps.partialLoadDone : Keeps s₀ (partialLoadDone s) := by
  unfold partialLoadDone
  dsimp only
  split
  · exact hs.when (·.when (·.putFabric) |>.partialDone)
  · exact hs

/-! ### The pair link and checkpoints -/

protected theorem Keeps.ckptSlice {k its} : Keeps s₀ (ckptSlice k its s) := hs.ite (·.put) (·.unless (·.put.unless (·.put.unless (·.put.put))))
protected theorem Keeps.ckptLoss : Keeps s₀ (ckptLoss s) := hs.put.raise
protected theorem Keeps.closeDelta : Keeps s₀ (closeDelta s) := hs.put.put
protected theorem Keeps.putFlow {f st seq fe} : Keeps s₀ (putFlow f st seq fe s) := hs.ite (·.put) (·.unless (·.put) |>.unless (·.doStage.put))

protected theorem Keeps.putLive {it} : Keeps s₀ (putLive it s) := by
  unfold putLive
  dsimp only
  split
  · exact hs.put
  · exact hs.put
  · exact hs.put
  · exact hs.put
  · exact hs.put
  · exact hs.putFlow
  · exact hs.when (·.put)
  · exact hs.put
  · exact hs

protected theorem Keeps.putPwr {it} : Keeps s₀ (putPwr it s) := by
  unfold putPwr
  dsimp only
  split
  · exact hs.put.put
  · exact hs

protected theorem Keeps.putCell {its l} : Keeps s₀ (putCell its s l) := by
  unfold putCell
  split
  · exact hs
  · exact hs.when (·.put)

protected theorem Keeps.restoreFull {its} : Keeps s₀ (restoreFull its s) :=
  hs.foldl (·.putCell) |>.put |>.foldl (·.when (·.put)) |>.foldl (·.putLive) |>.put |>.put |>.foldl (·.put) |>.foldl (·.putPwr)

protected theorem Keeps.restoreImage : Keeps s₀ (restoreImage s) := by
  unfold restoreImage
  dsimp only
  refine .raise ?_
  refine .put ?_
  refine .foldl ?_ (·.put.put)
  refine .foldl ?_ (·.when (·.put.put.put))
  refine .put ?_
  split
  · exact hs.foldl (·.put) |>.stageAll
  · exact hs.foldl (·.put)

protected theorem Keeps.setPhealth {h} : Keeps s₀ (setPhealth h s) := hs.unless (·.put.put)
protected theorem Keeps.statusReceive {f} : Keeps s₀ (statusReceive f s) := hs.unless (·.ite (·.put) (·.put.setPhealth.clashEdge.wickSettle))
protected theorem Keeps.handoverAbort : Keeps s₀ (handoverAbort s) := hs.when (·.put.setWick.hoResult.when (·.rampUp))

protected theorem Keeps.pairLinkDown : Keeps s₀ (pairLinkDown s) :=
  hs.unless (·.put.raise.put.settle.when (·.ckptLoss) |>.when (·.dropCold) |>.handoverAbort |>.wickSettle)

protected theorem Keeps.itemLive {it} : Keeps s₀ (itemLive it s) := by
  unfold itemLive
  split
  · exact hs.when (·.alarmApplied.put.settle)
  · exact hs.setPhealth
  · exact hs.when (·.putLive)

protected theorem Keeps.deltaReceive {d} : Keeps s₀ (deltaReceive d s) := by
  unfold deltaReceive
  dsimp only
  split
  · exact hs
  · split
    · exact hs.put.ckptLoss
    · split
      · exact hs.when (·.put.ckptLoss) |>.put |>.foldl (·.itemLive) |>.put
      · exact hs.when (·.put.ckptLoss) |>.put |>.foldl (·.itemLive) |>.put
      · exact hs.when (·.put.ckptLoss) |>.put |>.foldl (·.itemLive) |>.put
      · exact hs.when (·.put.ckptLoss) |>.put |>.foldl (·.itemLive)

protected theorem Keeps.sliceReceive {x : Slice} : Keeps s₀ (sliceReceive x s) := by
  refine hs.unless (·.ite (·.put.ckptLoss) fun ht => (ht.when (·.put.ckptLoss)).ckptSlice.foldl fun ht => ?_)
  split
  · exact ht
  · exact ht.itemLive

protected theorem Keeps.detailReceive {ws : List Word} : Keeps s₀ (detailReceive ws s) := by
  refine hs.when (·.ite (·.put) (·.foldl fun ht => ?_))
  split
  · exact ht.put
  · exact ht

protected theorem Keeps.lightFail : Keeps s₀ (lightFail s) := hs.raise.put.withdraw.wickSettle
protected theorem Keeps.enterLighting {lineHigh} : Keeps s₀ (enterLighting lineHigh s) := hs.put.setWick.unless (·.lightFail)
protected theorem Keeps.pilotSend {ok} : Keeps s₀ (pilotSend ok s) := hs.unless (·.put.unless (·.ite (·.raise.enterSnuff) (·.lightFail)))

protected theorem Keeps.foreignPulse : Keeps s₀ (foreignPulse s) := by
  unfold foreignPulse
  dsimp only
  split
  · exact hs.put.withdraw.wickSettle
  · exact hs.raise.when (·.put.releaseWick)
  · exact hs.raise.when (·.put.releaseWick)
  · exact hs

protected theorem Keeps.pilotRead : Keeps s₀ (pilotRead s) := by
  unfold pilotRead
  dsimp only
  split
  · exact hs.foreignPulse.when (·.put)
  · exact hs.foreignPulse.when (·.put)
  · exact hs.foreignPulse.when (·.put)
  · exact hs.when (·.put) |>.withdraw |>.wickSettle
  · exact hs.when (·.put)

protected theorem Keeps.pilotGap : Keeps s₀ (pilotGap s) := hs.when (·.put.put.ite (·.raise.releaseWick.wickSettle) (·.driveFall.put.setWick))
protected theorem Keeps.finishRelease : Keeps s₀ (finishRelease s) := hs.when (·.put.raise.wickLoss.cutRestore.put)

protected theorem Keeps.takeoverAlarm : Keeps s₀ (takeoverAlarm s) := by
  unfold takeoverAlarm
  split
  · exact hs
  · split
    · exact hs.unless (·.alarmApplied)
    · exact hs

protected theorem Keeps.beginConfig : Keeps s₀ (beginConfig s) := hs.unconfigure.put.put

protected theorem Keeps.takeoverStart {hot run} : Keeps s₀ (takeoverStart hot run s) := by
  unfold takeoverStart
  dsimp only
  split
  · exact hs.put.put
  · split
    · split
      · refine .startRamp ?_
        refine .put ?_
        split
        · exact hs.dropStale.put.beginConfig
        · exact hs.dropStale.put
        · exact hs.dropStale
      · refine .put ?_
        split
        · exact hs.dropStale.put.beginConfig
        · exact hs.dropStale.put
        · exact hs.dropStale
    · split
      · refine .put ?_
        split
        · exact hs.dropStale.put.beginConfig
        · exact hs.dropStale.put
        · exact hs.dropStale
      · split
        · exact hs.dropStale.put.beginConfig
        · exact hs.dropStale.put
        · exact hs.dropStale

protected theorem Keeps.takeover : Keeps s₀ (takeover s) :=
  hs.when (·.loadCut.setWick.put.put.setFlag.put.ite (·.setFlag) (·.runCleared) |>.takeoverAlarm |>.put |>.takeoverStart |>.settle)

protected theorem Keeps.coldConfigEnd : Keeps s₀ (coldConfigEnd s) := hs.when (·.applyS1.ite (·.put.startRamp) (·.put.put))

protected theorem Keeps.restoreStart {src} : Keeps s₀ (restoreStart src s) := by
  unfold restoreStart
  split
  · exact hs.put.rampUp.put
  · exact hs.put.startRamp

protected theorem Keeps.restoreEnd : Keeps s₀ (restoreEnd s) := by
  refine hs.when fun _ => ?_
  extract_lets src t
  have ht : Keeps s₀ t := by
    unfold t src
    split
    · exact hs.restoreImage
    · exact hs.restoreFull.put
    · exact hs.foldl (·.putPwr) |>.put
  clear_value t
  exact ht.ite (·.put.ite (·.restoreStart) (·.put) |>.settle) (·.put.put)

protected theorem Keeps.handoverStop : Keeps s₀ (handoverStop s) := hs.when (·.ite (·.put) (·.put.foldl (·.stopSched) |>.put |>.put))

protected theorem Keeps.handoverRampEnd : Keeps s₀ (handoverRampEnd s) := by
  unfold handoverRampEnd
  dsimp only
  split
  · exact hs.when (·.closeDelta.put.handoverStop.releaseWick.wickSettle)
  · exact hs

protected theorem Keeps.handoverTimeout : Keeps s₀ (handoverTimeout s) := by
  unfold handoverTimeout
  split
  · exact hs.when (·.put.hoResult)
  · exact hs

protected theorem Keeps.sweepStart : Keeps s₀ (sweepStart s) := by
  unfold sweepStart
  dsimp only
  split
  · exact hs.when (·.put.ite (·.put.raise) (·.putFabric))
  · exact hs

protected theorem Keeps.storeCorruptFault : Keeps s₀ (storeCorruptFault s) := hs.raise.put.settle.wickSettle
protected theorem Keeps.sweepCells {failed} : Keeps s₀ (sweepCells failed s) := hs.foldl (·.unless (·.ite (·.cellUe) (·.when (·.put))))

protected theorem Keeps.sweepEnd {failed macs} : Keeps s₀ (sweepEnd failed macs s) :=
  hs.unless (·.sweepCells.when (·.unless (·.storeCorruptFault)) |>.put |>.foldl (·.raise) |>.foldl (·.put) |>.put |>.putFabric |>.settle |>.put
    |>.when (·.putFabric))

/-! ### Semaphores -/

protected theorem Keeps.semOwner {i o} : Keeps s₀ (semOwner i o s) := hs.put.when (·.put)

protected theorem Keeps.semRead {m i} : Keeps s₀ (semRead m i s).1 := by
  unfold semRead
  split
  · exact hs
  · split
    · exact hs
    · split
      · exact hs
      · exact hs.semOwner

protected theorem Keeps.semWrite {m i} : Keeps s₀ (semWrite m i s).1 := hs.whenFst (·.semOwner)
protected theorem Keeps.semReleaseAll {p} : Keeps s₀ (semReleaseAll p s) := hs.foldl (·.when (·.semOwner))

/-! ### Fault detections and the log -/

protected theorem Keeps.chipFault {b i} : Keeps s₀ (chipFault b i s) := hs.raise.enterSnuff

protected theorem Keeps.dmaFault {i d} : Keeps s₀ (dmaFault i d s) := by
  unfold dmaFault
  dsimp only
  split
  · exact hs.raise.put
  · split
    · exact hs.raise
    · split
      · exact hs.put.dmaHalt
      · exact hs.put.dmaHalt
      · exact hs.dmaHalt
      · exact hs.dmaBufUe

protected theorem Keeps.chkFault {i} : Keeps s₀ (chkFault i s) := hs.raise.ite (·.put.when (·.chkIdle)) (·.when (·.chkIdle))

protected theorem Keeps.twcFault {i} : Keeps s₀ (twcFault i s) := by
  unfold twcFault
  dsimp only
  split
  · exact hs.ite (·.arbLost) (·.raise)
  · exact hs.ite (·.sclStuck) (·.raise)
  · exact hs.raise

protected theorem Keeps.flcFault {i} : Keeps s₀ (flcFault i s) := hs.raise.ite (·.unless (·.flcEnd)) (·.when (·.flashFail))
protected theorem Keeps.lineErr {i l} : Keeps s₀ (lineErr i l s) := hs.raise.put

protected theorem Keeps.shadowMismatch {p} : Keeps s₀ (shadowMismatch p s) := by
  unfold shadowMismatch
  dsimp only
  split
  · exact hs.raise.when (·.endMig.dequeueMig)
  · exact hs.raise

protected theorem Keeps.memFault {i d} : Keeps s₀ (memFault i d s) := hs.ite (·.findErrors.memUeRaise) (·.raise)

protected theorem Keeps.pairFault {i} : Keeps s₀ (pairFault i s) := by
  unfold pairFault
  dsimp only
  split
  · exact hs.chipFault
  · exact hs.raise.put.when (·.put.releaseWick.wickSettle)
  · exact hs.lightFail
  · exact hs.ite (·.pairLinkDown) (·.raise.put.settle)
  · exact hs.ckptLoss
  · exact hs.raise

protected theorem Keeps.faultAct {b i d} : Keeps s₀ (faultAct b i d s) := by
  unfold faultAct
  split
  · exact hs.raise.enterSnuff
  · exact hs.raise.put
  · exact hs.chipFault
  · exact hs.storeCorruptFault
  · exact hs.unless (·.raise)
  · exact hs.raise.when (·.semOwner)
  · exact hs.raise.semReleaseAll
  · exact hs.raise.put
  · exact hs.dmaFault
  · exact hs.chkFault
  · exact hs.twcFault
  · exact hs.flcFault
  · exact hs.macLinkLost
  · exact hs.raise.when (·.put) |>.put
  · exact hs.pauseBreak
  · exact hs.put.raise
  · exact hs.raise.put
  · exact hs.chipFault
  · exact hs.raise.put.setLocked
  · exact hs.raise.selectNone.put.settle
  · exact hs.raise.put
  · exact hs.raise.put
  · exact hs.raise.put
  · exact hs.aptLose
  · exact hs.aptLose
  · exact hs.raise.ite (·.put) (·.put)
  · exact hs.ocDetect
  · exact hs.ocDetect
  · exact hs.raise.when (·.modOff.driveCheck)
  · exact hs.put.chipFault
  · exact hs.ite (·.loseSense) (·.raise)
  · exact hs.raise.put
  · exact hs.pairFault
  · exact hs.memFault
  · exact hs.memFault
  · exact hs.ite (·.replaceRow) (·.raise)
  · exact hs.put.raise
  · exact hs.lineErr
  · exact hs.lineErr
  · exact hs.raise.ceMigrate
  · exact hs.cellUe
  · exact hs.cellUe
  · exact hs.raise.put
  · exact hs.ite (·.cellUe) (·.raise)
  · exact hs.shadowMismatch
  · exact hs.raise

protected theorem Keeps.clearAct {b i} : Keeps s₀ (clearAct b i s) := by
  unfold clearAct
  split
  · exact hs.macClearLinkLost
  · exact hs.when (·.put.restartRefs.settle)
  · exact hs.put
  · exact hs.put
  · exact hs.when (·.put.settle)
  · exact hs.put
  · exact hs.put
  · exact hs

protected theorem Keeps.faultClear {m b v} : Keeps s₀ (faultClear m b v s) := hs.foldl (·.unless (·.put.put.clearAct.when (·.put))) |>.wickSettle

protected theorem Keeps.detectAgain {e} : Keeps s₀ (detectAgain s e) := by
  unfold detectAgain
  split
  · exact hs
  · split
    · exact hs.put.chipFault
    · exact hs.storeCorruptFault
    · exact hs.chipFault
    · exact hs.macLinkLost
    · exact hs.raise

protected theorem Keeps.logStore : Keeps s₀ (logStore s) := by
  unfold logStore
  dsimp only
  split
  · exact hs
  · split
    · exact hs
    · exact hs.setBytes.put.put

protected theorem Keeps.monitorAct : Keeps s₀ (monitorAct s) := by
  unfold monitorAct
  exact hs.put.put.driveFall.unless (·.setWick)

/-! ### Time, reset and clocks -/

protected theorem Keeps.realign {f} : Keeps s₀ (realign f s) := hs.retime.put
protected theorem Keeps.frameFaults : Keeps s₀ (frameFaults s) := hs.when (·.cellFrameFaults.when (·.raise.put))
protected theorem Keeps.alarmBoundary : Keeps s₀ (alarmBoundary s) := hs.unless (·.put.when (·.put.when (·.put) |>.foldl (·.put) |>.pwrAlarm))
protected theorem Keeps.startBoundary : Keeps s₀ (startBoundary s) := hs.when (·.unless (·.put) |>.put |>.put |>.put |>.put |>.put)
protected theorem Keeps.boundaryOpen : Keeps s₀ (boundaryOpen s) := hs.when (·.selUpdate.alarmBoundary.startBoundary)

protected theorem Keeps.eventTick : Keeps s₀ (eventTick s) :=
  hs.unless (·.settlePin.settlePin.put.put.frameFaults.put.foldl (·.detectAgain) |>.finishRelease |>.when (·.put) |>.when (·.put) |>.rsuEvaluate
    (·.realign) |>.boundaryOpen |>.foldl (·.when (·.put)) |>.put |>.pwrTick |>.portSetups |>.partialStep |>.settle |>.wickSettle)

protected theorem Keeps.frameBody {inp} : Keeps s₀ (frameBody inp s) :=
  hs.foldl (·.modBoundary) |>.lspFrame |>.steFrameStart |>.aptFrame |>.mxeTakeovers |>.mxeFrame |>.dlyFrame |>.feedCells |>.put |>.foldl
    (·.when (·.modFrame)) |>.shadowCompare

protected theorem Keeps.frameBoundary {inp} : Keeps s₀ (frameBoundary inp s) := hs.when (·.put.frameBody.settle.wickSettle)

protected theorem Keeps.closeWindows : Keeps s₀ (closeWindows s) :=
  hs.put.put.put.when (·.raise) |>.closeCeWindow |>.foldl (·.ceMigrate) |>.memcWindow

protected theorem Keeps.windowBoundary : Keeps s₀ (windowBoundary s) := hs.when (·.put.closeWindows.settle.wickSettle)
protected theorem Keeps.inReset : Keeps s₀ (inReset s) := hs.dropMig.put.put.put.put
protected theorem Keeps.clockReturn {c} : Keeps s₀ (clockReturn c s) := hs.unless (·.put.ite (·.put) (·.when (·.put.put.put)))

/-! ### The internal bus -/

protected theorem Keeps.lowRead {a} : Keeps s₀ (lowRead a s).1 := by
  unfold lowRead
  split <;> exact hs

protected theorem Keeps.lowWrite {m a v} : Keeps s₀ (lowWrite m a v s).1 := by
  unfold lowWrite
  split
  · exact hs
  · exact hs.unlessFst (·.setBytes)
  · exact hs

protected theorem Keeps.sysRegRead {m : Master} {off : Nat} : ∀ r ∈ sysRegRead m off s, Keeps s₀ r.1 := by
  have htick : Keeps s₀ (tickLoRead m s).1 := hs.put
  unfold sysRegRead
  split <;> simp [hs, htick]

protected theorem Keeps.sysRegWrite {m : Master} {off : Nat} {v : Word} : ∀ r ∈ sysRegWrite m off v s, Keeps s₀ r :=
  hs.orElse (·.modeReqWrite) <| hs.orElse (·.when (·.put)) <| hs.orElse (·.snuffCtrlWrite) <| hs.orElse (·.snuffCauseWrite) <|
    hs.orElse (·.when (·.put)) noneMem

protected theorem Keeps.hpRegRead {m : Master} {off : Nat} : ∀ r ∈ hpRegRead m off s, Keeps s₀ r.1 :=
  hs.orElse id <| hs.orElse id <| hs.orElse id <| hs.orElse id <| hs.orElse id <| hs.orElse id <| hs.orElse (·.semRead) <|
    hs.orElse id noneMem

protected theorem Keeps.waitMaxRead {t} : Keeps s₀ (waitMaxRead t s).1 := hs.unlessFst (·.put.put)

protected theorem Keeps.bmxRegRead {off : Nat} : ∀ r ∈ bmxRegRead off s, Keeps s₀ r.1 := by
  unfold bmxRegRead
  split_ifs <;> simp [hs, hs.waitMaxRead]

protected theorem Keeps.still {o : Option Word} : ∀ r ∈ still s o, Keeps s₀ r.1 := by simp [still, hs]

protected theorem Keeps.blkLiveRead {m : Master} {b : Blk} {off : Nat} : ∀ r ∈ blkLiveRead m b off s, Keeps s₀ r.1 := by
  cases b with
  | sys => exact hs.sysRegRead
  | hp => exact hs.hpRegRead
  | bmx => exact hs.bmxRegRead
  | chk => exact hs.chkRegRead
  | twc => exact hs.twcRegRead
  | flc => exact hs.flcRegRead
  | mac => exact hs.macRegRead
  | ste => exact hs.steRegRead
  | ptu => exact hs.ptuRegRead
  | ldg => exact hs.ldgRegRead
  | _ => exact hs.still

protected theorem Keeps.blkLiveWrite {m : Master} {b : Blk} {off : Nat} {v : Word} : ∀ r ∈ blkLiveWrite m b off v s, Keeps s₀ r.1 := by
  have hok {o : Option State} (ho : ∀ t ∈ o, Keeps s₀ t) : ∀ r ∈ o.map fun t => (t, Code.ok), Keeps s₀ r.1 := by simpa using ho
  refine hs.orElse (·.faultClear) ?_
  cases b with
  | sys => exact hok hs.sysRegWrite
  | img => exact hs.orElse (·.imgCtrlWrite) noneMem
  | hp => exact hs.orElse (·.semWrite) noneMem
  | dma => exact hs.dmaRegWrite
  | chk => exact hs.chkRegWrite
  | twc => exact hs.twcRegWrite
  | flc => exact hs.flcRegWrite
  | mac => exact hs.macRegWrite
  | ste => exact hs.steRegWrite
  | ptu => exact hs.ptuRegWrite
  | rsu => exact hs.orElse (·.put) noneMem
  | mxe => exact hok hs.mxeRegWrite
  | ldg => exact hs.orElse (·.put) noneMem
  | apt => exact hs.aptRegWrite
  | pwr => exact hs.pwrRegWrite
  | lsp => exact hok hs.lspRegWrite
  | pair => exact hs.pairRegWrite
  | memc => exact hs.memcRegWrite
  | dly => exact hs.orElse (·.lineDelayWrite) noneMem
  | cell => exact hs.cellRegWrite
  | bmx => exact noneMem

protected theorem Keeps.regRead {m : Master} {b : Blk} {off : Nat} : Keeps s₀ (regRead m b off s).1 := by
  refine hs.unlessFst fun ht => ?_
  split
  · exact ht
  · split
    next x hx => exact ht.blkLiveRead x hx
    next => exact ht

protected theorem Keeps.plainWrite {b off r v} : Keeps s₀ (plainWrite b off r v s) := by
  unfold plainWrite
  dsimp only
  split
  · exact hs.put
  · exact hs.put
  · exact hs.put
  · exact hs.put
  · exact hs
  · exact hs

protected theorem Keeps.regWrite {m : Master} {b : Blk} {off : Nat} {v : Word} : Keeps s₀ (regWrite m b off v s).1 := by
  unfold regWrite
  split
  · exact hs
  · refine hs.unlessFst fun ht => ?_
    split
    next x hx => exact ht.blkLiveWrite x hx
    next => exact ht.plainWrite

protected theorem Keeps.targetRead {m : Master} {t : BusTarget} {a : Nat} : Keeps s₀ (targetRead m t a s).1 := by
  cases t with
  | low => exact hs.lowRead
  | carafe => exact hs.carafeRead
  | dram => exact hs.dramRead
  | regs =>
    simp only [targetRead]
    split
    · exact hs.regRead
    · exact hs
  | cellMem => exact hs.cellMemRead
  | matrix =>
    simp only [targetRead]
    split <;> exact hs

protected theorem Keeps.targetWrite {m t a v} : Keeps s₀ (targetWrite m t a v s).1 := by
  unfold targetWrite
  split
  · exact hs.lowWrite
  · exact hs.carafeWrite
  · exact hs.dramWrite
  · split
    · exact hs.regWrite
    · exact hs
  · exact hs.cellMemWrite
  · exact hs.matrixWrite

protected theorem Keeps.busRead {m a} : Keeps s₀ (busRead m a s).1 := by
  unfold busRead
  split
  · exact hs
  · split
    · exact hs
    · exact hs.targetRead

protected theorem Keeps.busWrite {m a v} : Keeps s₀ (busWrite m a v s).1 := by
  unfold busWrite
  split
  · exact hs
  · split
    · exact hs
    · exact hs.targetWrite

protected theorem Keeps.busWrites {m : Master} {a : Nat} {l : List Word} : Keeps s₀ (busWrites m a l s).1 := by
  induction l generalizing a s with
  | nil => exact hs
  | cons v l ih => exact ih hs.busWrite

protected theorem Keeps.busReads {m : Master} {a n : Nat} : Keeps s₀ (busReads m a n s).1 := by
  induction n generalizing a s with
  | zero => exact hs
  | succ n ih => exact ih hs.busRead

protected theorem Keeps.endFrame {h c fail arms} : Keeps s₀ (endFrame h c fail arms s) := hs.unless (·.setPort)
protected theorem Keeps.frameErr {h} : Keeps s₀ (frameErr h s) := hs.unless (·.raise.endFrame.put)
protected theorem Keeps.writeFrame {h a ws} : Keeps s₀ (writeFrame h a ws s).1 := hs.busWrites.endFrame
protected theorem Keeps.readFrame {h a n} : Keeps s₀ (readFrame h a n s).1 := hs.busReads.endFrame
protected theorem Keeps.plainFrame {h arms} : Keeps s₀ (plainFrame h arms s) := hs.unless (·.endFrame.put)
protected theorem Keeps.setQuad {h q} : Keeps s₀ (setQuad h q s) := hs.unless (·.plainFrame.setPort)
protected theorem Keeps.portReset {h} : Keeps s₀ (portReset h s) := hs.unless (·.ite (·.plainFrame.setPort) (·.frameErr))
protected theorem Keeps.portResetApply {h} : Keeps s₀ (portResetApply h s) := hs.when (·.setPort.put.put.put.put.put.put.put.semReleaseAll.put)
protected theorem Keeps.badFrame {h} : Keeps s₀ (badFrame h s) := hs.unless (·.raise.endFrame)

protected theorem Keeps.earlyRise {h ph} : Keeps s₀ (earlyRise h ph s) := by
  unfold earlyRise
  dsimp only
  split
  · exact hs.unless (·.raise.setPort)
  · exact hs.ite (·.badFrame) (·.writeFrame)
  · exact hs.ite (·.badFrame) (·.readFrame)

protected theorem Keeps.timeoutAct {m a} : Keeps s₀ (timeoutAct m a s) := by
  unfold timeoutAct
  split
  · exact hs.endFrame
  · exact hs.endFrame
  · split
    · exact hs.dmaBusErr
    · exact hs
  · split
    · exact hs.raise.put.chkIdle
    · exact hs
  · split
    · exact hs.lineErr
    · exact hs
  · exact hs

/-! ### Transfers of the DMA engine and of the check units -/

protected theorem Keeps.wordsRead {m : Master} {a n : Nat} : Keeps s₀ (wordsRead m a n s).1 := by
  induction n generalizing a s with
  | zero => exact hs
  | succ n ih => exact hs.busRead.iteFst (ih ·) id

protected theorem Keeps.wordsWrite {m : Master} {a n : Nat} {l : List Byte} : Keeps s₀ (wordsWrite m a n l s).1 := by
  induction n generalizing a l s with
  | zero => exact hs
  | succ n ih => exact hs.busWrite.iteFst (ih ·) id

protected theorem Keeps.spanRead {m : Master} {a len : Nat} : Keeps s₀ (spanRead m a len s).1 := by
  unfold spanRead
  dsimp only
  split
  · split
    · exact hs
    · exact hs.carafeRead
  · split
    · exact hs
    · exact hs.dramRead
  · exact hs.wordsRead

protected theorem Keeps.spanWrite {m : Master} {a : Nat} {l : List Byte} : Keeps s₀ (spanWrite m a l s).1 := by
  unfold spanWrite
  dsimp only
  split
  · split
    · exact hs
    · exact hs.carafeWrite.iteFst id id
  · split
    · exact hs
    · exact hs.dramWrite.iteFst id id
  · exact hs.wordsWrite

protected theorem Keeps.dmaProgErr {n p} : Keeps s₀ (dmaProgErr n p s) := hs.put.dmaHalt

protected theorem Keeps.descriptorFetch : Keeps s₀ (descriptorFetch s) := by
  unfold descriptorFetch
  dsimp only
  split
  · exact hs
  · split
    · exact hs
    · split
      · exact hs.dmaProgErr
      · split
        · exact hs.spanRead.dmaBusErr
        · exact hs.spanRead.ite (·.dmaProgErr) (·.put)

protected theorem Keeps.gatherRead {d idx : List Nat} : Keeps s₀ (gatherRead d idx s).1 := by
  induction idx generalizing s with
  | nil => exact hs
  | cons i idx ih =>
    refine hs.unlessFst fun ht => ?_
    dsimp only
    split
    · exact ht.spanRead
    · exact ih ht.spanRead

protected theorem Keeps.burstRead {d done} : Keeps s₀ (burstRead d done s).1 := by
  unfold burstRead
  dsimp only
  split
  · split
    · exact hs.spanRead
    · exact hs.spanRead.gatherRead
  · exact hs.spanRead

protected theorem Keeps.burstWrite {n d l k bad} : Keeps s₀ (burstWrite n d l k bad s) := by
  unfold burstWrite
  dsimp only
  split
  · exact hs.spanWrite.put.dmaBusErr
  · exact hs.spanWrite.put.ite (·.dmaProgErr) (·.ite (·.put.dmaLeave) (·.dmaSelect))

protected theorem Keeps.dmaBurst : Keeps s₀ (dmaBurst s) := by
  unfold dmaBurst
  dsimp only
  split
  · exact hs
  · split
    · exact hs
    · split
      · exact hs
      · split
        · exact hs.burstRead.dmaBusErr
        · exact hs.burstRead.burstWrite

protected theorem Keeps.scanReads {alg n a len run : Nat} : Keeps s₀ (scanReads alg n a len run s).1 := by
  induction n generalizing a len run s with
  | zero => exact hs
  | succ n ih =>
    refine hs.unlessFst fun ht => ?_
    dsimp only
    split
    · exact ht.spanRead
    · exact ih ht.spanRead

protected theorem Keeps.scanOf {u len} : Keeps s₀ (scanOf u len s).1 := hs.scanReads
protected theorem Keeps.scanBusErr {u run a e} : Keeps s₀ (scanBusErr u run a e s) := hs.chkLeave.raise.put.chkIdle
protected theorem Keeps.sweepVerdict {u : Nat} {t : State} : Keeps s₀ (sweepVerdict u t s) := hs.when (·.storeCorruptFault)

protected theorem Keeps.scanEnd {u : Nat} : Keeps s₀ (scanEnd u s) := by
  unfold scanEnd
  dsimp only
  split
  · exact hs.scanReads.scanBusErr
  · exact hs.scanReads.chkVerdict.sweepVerdict

protected theorem Keeps.stopEnd {u done} : Keeps s₀ (stopEnd u done s) := by
  unfold stopEnd
  dsimp only
  split
  · exact hs
  · split
    · exact hs.scanOf.scanBusErr
    · exact hs.scanOf.chkLeave.chkIdle

/-! ### The JTAG port -/

protected theorem Keeps.jtagLoad {f} : Keeps s₀ (jtagLoad f s) := hs.put.put

end

/-! ### The commands -/

theorem exec_keeps (c : Instr) (s : State) : ∃ t, exec c s = .next t ∧ Keeps s t := by
  have hs := Keeps.refl s
  cases c with
  | eventTick => exact ⟨_, rfl, hs.eventTick⟩
  | frameBoundary _ => exact ⟨_, rfl, hs.frameBoundary⟩
  | tickLoRead _ => exact ⟨_, rfl, hs.rdCmd (·.put)⟩
  | resetNAssert => exact ⟨_, rfl, hs.put.inReset⟩
  | resetNRelease _ => exact ⟨_, rfl, hs.unless (·.put.inReset.put)⟩
  | pllLock => exact ⟨_, rfl, hs.when (·.put.put)⟩
  | runSet _ => exact ⟨_, rfl, hs.cmd (·.modeReqWrite)⟩
  | runClear _ => exact ⟨_, rfl, hs.cmd (·.modeReqWrite)⟩
  | alarmSet _ => exact ⟨_, rfl, hs.cmd (·.modeReqWrite)⟩
  | alarmClear _ => exact ⟨_, rfl, hs.cmd (·.modeReqWrite)⟩
  | outputRampEnd => exact ⟨_, rfl, hs.outputRampEnd⟩
  | driveEnRise => exact ⟨_, rfl, hs.when (·.put)⟩
  | fusePhaseEnd => exact ⟨_, rfl, hs.when (·.loadTrims.put)⟩
  | sramInitEnd => exact ⟨_, rfl, hs.sramInitEnd⟩
  | flashBootRecordRead _ => exact ⟨_, rfl, hs.flashBootRecordRead⟩
  | initMem _ => exact ⟨_, rfl, hs.cmd (·.imgCtrlWrite)⟩
  | memInitEnd _ _ => exact ⟨_, rfl, hs.memInitEnd⟩
  | flashImageCopyEnd => exact ⟨_, rfl, hs.flashImageCopyEnd⟩
  | loadFull _ _ => exact ⟨_, rfl, hs.cmd (·.imgCtrlWrite)⟩
  | loadPartial _ _ => exact ⟨_, rfl, hs.cmd (·.imgCtrlWrite)⟩
  | verify _ _ => exact ⟨_, rfl, hs.cmd (·.imgCtrlWrite)⟩
  | imgAbort _ => exact ⟨_, rfl, hs.cmd (·.imgCtrlWrite)⟩
  | imgBadCmd _ _ => exact ⟨_, rfl, hs.cmd (·.imgCtrlWrite)⟩
  | latQuery _ _ => exact ⟨_, rfl, hs.cmd (·.put)⟩
  | readingEnd => exact ⟨_, rfl, hs.readingEnd⟩
  | authEnd => exact ⟨_, rfl, hs.authEnd⟩
  | checkingEnd => exact ⟨_, rfl, hs.checkingEnd⟩
  | loadAbortEnd => exact ⟨_, rfl, hs.when (·.loadFail)⟩
  | loadAccept => exact ⟨_, rfl, hs.loadAccept⟩
  | partialCellsHalt => exact ⟨_, rfl, hs.partialCellsHalt⟩
  | partialCellsRestart => exact ⟨_, rfl, hs.partialCellsRestart⟩
  | partialLoadDone => exact ⟨_, rfl, hs.partialLoadDone⟩
  | windowBoundary => exact ⟨_, rfl, hs.windowBoundary⟩
  | ldgRecSel _ _ => exact ⟨_, rfl, hs.cmd (·.put)⟩
  | ldgWinLoRead _ => exact ⟨_, rfl, hs.rdCmd (·.put)⟩
  | boundCheckDone => exact ⟨_, rfl, hs.boundCheckDone⟩
  | cellBlockStart _ => exact ⟨_, rfl, hs.cellBlockStart⟩
  | cellScrub _ _ => exact ⟨_, rfl, hs.cellScrub⟩
  | cellDataRead _ _ _ => exact ⟨_, rfl, hs.rdAt (·.dataRead)⟩
  | cellDataWrite _ _ _ _ => exact ⟨_, rfl, hs.cmdAt (·.dataWrite)⟩
  | cellInstrHiWrite _ _ _ _ => exact ⟨_, rfl, hs.cmdAt (·.instrHiWrite)⟩
  | cellInstrLoWrite _ _ _ _ => exact ⟨_, rfl, hs.cmdAt (·.instrLoWrite)⟩
  | cellInstrLoRead _ _ _ => exact ⟨_, rfl, hs.rdAt (·.instrLoRead)⟩
  | halt _ _ on =>
    cases on with
    | true => exact ⟨_, rfl, hs.cmd (·.unless (·.haltSet))⟩
    | false => exact ⟨_, rfl, hs.cmd (·.haltClear)⟩
  | retire _ _ => exact ⟨_, rfl, hs.cmd (·.retire)⟩
  | fenceClr _ _ => exact ⟨_, rfl, hs.cmd (·.fenceClr)⟩
  | agRegisterWrite _ _ _ _ _ => exact ⟨_, rfl, hs.cmd (·.agWrite)⟩
  | cellStateRegWrite _ _ _ _ => exact ⟨_, rfl, hs.cmdC (·.cellStateWrite)⟩
  | memUe _ => exact ⟨_, rfl, hs.cellUe.settle⟩
  | progUe _ => exact ⟨_, rfl, hs.cellUe.settle⟩
  | migrationLoaded => exact ⟨_, rfl, hs.migrationLoaded⟩
  | migrationCopyStart => exact ⟨_, rfl, hs.migrationCopyStart⟩
  | migrationCopyEnd => exact ⟨_, rfl, hs.migrationCopyEnd⟩
  | migrationShadowStart => exact ⟨_, rfl, hs.migrationShadowStart⟩
  | migrationSwitch => exact ⟨_, rfl, hs.migrationSwitch⟩
  | restoreLoaded _ => exact ⟨_, rfl, hs.when (·.put)⟩
  | restoreCellStart _ => exact ⟨_, rfl, hs.restoreCellStart⟩
  | restoreRampEnd _ => exact ⟨_, rfl, hs.restoreRampEnd⟩
  | set _ => exact ⟨_, rfl, hs.cmd (·.editCmd)⟩
  | remove _ => exact ⟨_, rfl, hs.cmd (·.editCmd)⟩
  | xfade _ => exact ⟨_, rfl, hs.cmd (·.editCmd)⟩
  | swap _ _ => exact ⟨_, rfl, hs.cmd (·.put.swapReq)⟩
  | swapCancel _ => exact ⟨_, rfl, hs.cmd (·.swapCancel)⟩
  | alarmBankSwap => exact ⟨_, rfl, hs.when (·.alarmSwap.unless (·.put))⟩
  | matrixTableWrite _ _ _ _ => exact ⟨_, rfl, hs.cmdAt (·.matrixWrite)⟩
  | playStart _ _ _ => exact ⟨_, rfl, hs.cmd (·.playCtrl)⟩
  | playStop _ _ => exact ⟨_, rfl, hs.cmd (·.playStop)⟩
  | playFinish _ _ => exact ⟨_, rfl, hs.cmd (·.playFinish)⟩
  | playerFirstSample _ => exact ⟨_, rfl, hs.when (·.put)⟩
  | playerDone _ => exact ⟨_, rfl, hs.when (·.put.put)⟩
  | playerStopRampEnd _ => exact ⟨_, rfl, hs.when (·.put)⟩
  | lineDelayWrite _ _ _ => exact ⟨_, rfl, hs.cmd (·.lineDelayWrite)⟩
  | xfadeDone _ => exact ⟨_, rfl, hs.when (·.put.put)⟩
  | linkUp _ => exact ⟨_, rfl, hs.unless (·.put.put)⟩
  | linkDown _ _ _ _ _ => exact ⟨_, rfl, hs.put.when (·.put.when (·.macLinkLost))⟩
  | macLinkTimeout _ => exact ⟨_, rfl, hs.macLinkTimeout⟩
  | macFrameReceive _ _ _ => exact ⟨_, rfl, hs.unless (·.macChecks.when (·.put))⟩
  | pauseFrame _ _ => exact ⟨_, rfl, hs.pauseReceive⟩
  | pauseTimerExpiry _ => exact ⟨_, rfl, hs.unless (·.put.macSelect)⟩
  | pauseWatchdog _ => exact ⟨_, rfl, hs.when (·.pauseBreak)⟩
  | holdoffEnd _ => exact ⟨_, rfl, hs.holdoffEnd⟩
  | txFrameEnqueue _ _ _ => exact ⟨_, rfl, hs.macEnqueue⟩
  | frameTransmitEnd _ => exact ⟨_, rfl, hs.frameTransmitEnd⟩
  | macTxDisable _ _ => exact ⟨_, rfl, hs.cmd (·.macCtrlWrite)⟩
  | macForce _ _ => exact ⟨_, rfl, hs.cmd (·.macCtrlWrite)⟩
  | macRxDisable _ _ _ => exact ⟨_, rfl, hs.cmd (·.macCtrlWrite)⟩
  | macEnable _ _ _ _ => exact ⟨_, rfl, hs.cmd (·.macCtrlWrite)⟩
  | macTxIdle _ => exact ⟨_, rfl, hs.when (·.put.put)⟩
  | macConfigWrite m n off v =>
    change ∃ t, execMacConfigWrite m n off v s = .next t ∧ Keeps s t
    unfold execMacConfigWrite
    split_ifs
    · exact ⟨_, rfl, hs.cmdC (·.macGuardedWrite)⟩
    · exact ⟨_, rfl, hs.cmd (·.put)⟩
    · exact ⟨_, rfl, hs⟩
  | macCounterRead _ _ _ => exact ⟨_, rfl, hs.rdCmd (·.put)⟩
  | stage _ _ => exact ⟨_, rfl, hs.cmd (·.ftCmd)⟩
  | publish _ _ => exact ⟨_, rfl, hs.cmd (·.ftCmd)⟩
  | flowRetire _ _ => exact ⟨_, rfl, hs.cmd (·.ftCmd)⟩
  | discard _ _ => exact ⟨_, rfl, hs.cmd (·.ftCmd)⟩
  | flowRead _ _ => exact ⟨_, rfl, hs.cmd (·.ftCmd)⟩
  | steFrameClassify _ => exact ⟨_, rfl, hs.steClassify⟩
  | flowFreed _ => exact ⟨_, rfl, hs.when (·.put.put)⟩
  | txPacketBuild _ => exact ⟨_, rfl, hs.when (·.foldl (·.put.macEnqueue.unless (·.put.raise)) |>.put)⟩
  | pathDown _ => exact ⟨_, rfl, hs.pathDown⟩
  | hrxPop _ => exact ⟨_, rfl, hs.cmd (·.hrxPop)⟩
  | htxCmd _ _ => exact ⟨_, rfl, hs.cmdC (·.htxCmd)⟩
  | steRxDisable _ => exact ⟨_, rfl, hs.cmd (·.steCtrlWrite)⟩
  | steTxDisable _ => exact ⟨_, rfl, hs.cmd (·.steCtrlWrite)⟩
  | steForce _ => exact ⟨_, rfl, hs.cmd (·.steCtrlWrite)⟩
  | steRxIdle => exact ⟨_, rfl, hs.when (·.put.put)⟩
  | ptuCntRead _ => exact ⟨_, rfl, hs.rdCmd (·.put)⟩
  | cntMismatch => exact ⟨_, rfl, hs.chipFault⟩
  | tcap _ => exact ⟨_, rfl, hs.cmd (·.put)⟩
  | upd _ _ => exact ⟨_, rfl, hs.cmd (·.ptuUpd)⟩
  | ptpPortEnable _ _ => exact ⟨_, rfl, hs.cmd (·.ptuCtrlWrite)⟩
  | ptpPortDisable _ _ => exact ⟨_, rfl, hs.cmd (·.ptuCtrlWrite)⟩
  | syncReceive _ _ => exact ⟨_, rfl, hs.syncReceive⟩
  | followUpReceive _ _ => exact ⟨_, rfl, hs.followUpReceive⟩
  | delayRespReceive _ _ => exact ⟨_, rfl, hs.delayRespReceive⟩
  | announceReceive _ _ => exact ⟨_, rfl, hs.announceReceive⟩
  | delayReqReceive _ _ => exact ⟨_, rfl, hs.withMsg (·.when (·.ptpSend))⟩
  | delayReqSend _ _ => exact ⟨_, rfl, hs.when (·.ptpSend.ite (·.put) (·.put))⟩
  | announceSend _ => exact ⟨_, rfl, hs.when (·.ptpSend.put)⟩
  | syncSend _ _ => exact ⟨_, rfl, hs.when (·.ptpSend.put)⟩
  | domainUpdate _ => exact ⟨_, rfl, hs.domainUpdate⟩
  | syncLoss _ => exact ⟨_, rfl, hs.syncLoss⟩
  | annTimeout _ => exact ⟨_, rfl, hs.when (·.raise.put.chooseMaster)⟩
  | refQualified _ => exact ⟨_, rfl, hs.refQualified (·.realign)⟩
  | wtrEnd _ => exact ⟨_, rfl, hs.when (·.enterRef.rsuSelect (·.realign))⟩
  | disqEnd _ => exact ⟨_, rfl, hs.when (·.enterRef.rsuSelect (·.realign))⟩
  | measurementWindowEnd => exact ⟨_, rfl, hs.windowEnd⟩
  | firstWaitEnd => exact ⟨_, rfl, hs.firstWaitEnd (·.realign)⟩
  | startWaitEnd => exact ⟨_, rfl, hs.startWaitEnd (·.realign)⟩
  | referenceEdge _ _ => exact ⟨_, rfl, hs.referenceEdge⟩
  | rsuEnable _ _ => exact ⟨_, rfl, hs.cmd (·.put)⟩
  | aptStart _ _ _ _ => exact ⟨_, rfl, hs.cmd (·.ite (·.put) (·.aptCtrlWrite))⟩
  | aptStop _ _ _ => exact ⟨_, rfl, hs.cmd (·.aptCtrlWrite)⟩
  | aptForce _ _ _ => exact ⟨_, rfl, hs.cmd (·.ite (·.put) (·.when (·.aptClearEn) |>.put))⟩
  | aptClockStart _ _ => exact ⟨_, rfl, hs.when (·.put)⟩
  | aptDataStart _ _ => exact ⟨_, rfl, hs.aptDataStart⟩
  | asrcAcquired _ _ => exact ⟨_, rfl, hs.asrcAcquired⟩
  | aptStopEnd _ _ => exact ⟨_, rfl, hs.when (·.aptIdle)⟩
  | frameSyncEdge _ _ _ _ _ => exact ⟨_, rfl, hs.frameSyncEdge⟩
  | aptClockLost _ _ => exact ⟨_, rfl, hs.aptClockLost⟩
  | aptRelock _ _ => exact ⟨_, rfl, hs.when (·.aptLock.put)⟩
  | aptMaskWrite _ _ _ _ => exact ⟨_, rfl, hs.cmd (·.put)⟩
  | aptCfgWrite _ _ _ _ => exact ⟨_, rfl, hs.cmdC (·.aptCfg)⟩
  | chStart _ _ => exact ⟨_, rfl, hs.cmd (·.eachCh (·.chStart1))⟩
  | chStop _ _ => exact ⟨_, rfl, hs.cmd (·.eachCh (·.chStop1))⟩
  | chForce _ _ => exact ⟨_, rfl, hs.cmd (·.eachCh (·.chForce1))⟩
  | ocLatchRelease _ _ => exact ⟨_, rfl, hs.cmd (·.eachCh (·.ocRelease1))⟩
  | chStartRampEnd _ => exact ⟨_, rfl, hs.chStartRampEnd⟩
  | chStopRampEnd _ => exact ⟨_, rfl, hs.chStopRampEnd⟩
  | ocInAssert _ => exact ⟨_, rfl, hs.ocInAssert⟩
  | ocLimit _ => exact ⟨_, rfl, hs.ocLimit⟩
  | ocShutdown _ => exact ⟨_, rfl, hs.when (·.shutDown)⟩
  | ocRetry _ => exact ⟨_, rfl, hs.when (·.modStart.put.put)⟩
  | retriesReset _ => exact ⟨_, rfl, hs.when (·.put)⟩
  | drvAllowWrite _ _ => exact ⟨_, rfl, hs.cmd (·.drvAllow)⟩
  | driveMismatch => exact ⟨_, rfl, hs.put.chipFault.driveCheck⟩
  | pwrConfigWrite _ _ _ => exact ⟨_, rfl, hs.cmdC (·.pwrConfigWrite)⟩
  | senseLost _ => exact ⟨_, rfl, hs.when (·.loseSense)⟩
  | calZero _ _ => exact ⟨_, rfl, hs.cmd (·.calWrite)⟩
  | calRef _ _ => exact ⟨_, rfl, hs.cmd (·.calWrite)⟩
  | calCancel _ => exact ⟨_, rfl, hs.cmd (·.calWrite)⟩
  | calZeroDone => exact ⟨_, rfl, hs.when (·.put.put)⟩
  | calRefDone => exact ⟨_, rfl, hs.calRefDone⟩
  | estimationBlockEnd _ => exact ⟨_, rfl, hs.estEnd⟩
  | modelStep => exact ⟨_, rfl, hs.when (·.foldl (·.when (·.put.put.when (·.raise) |>.put |>.put)) |>.put)⟩
  | supervisionBlockEnd _ => exact ⟨_, rfl, hs.supEnd⟩
  | pairLinkUp => exact ⟨_, rfl, hs.unless (·.put.clashEdge.wickSettle)⟩
  | pairLinkDown => exact ⟨_, rfl, hs.pairLinkDown⟩
  | statusFrameSend => exact ⟨_, rfl, hs.unless (·.put)⟩
  | statusFrameReceive _ => exact ⟨_, rfl, hs.statusReceive⟩
  | deltaPeriodEnd => exact ⟨_, rfl, hs.when (·.put.closeDelta.ckptSlice.put)⟩
  | deltaReceive _ => exact ⟨_, rfl, hs.deltaReceive⟩
  | sliceReceive _ => exact ⟨_, rfl, hs.sliceReceive⟩
  | detailFrameReceive _ => exact ⟨_, rfl, hs.detailReceive⟩
  | handoverRequestReceive => exact ⟨_, rfl, hs.when (·.startCold)⟩
  | releasedReceive => exact ⟨_, rfl, hs.when (·.put)⟩
  | takenReceive => exact ⟨_, rfl, hs.when (·.put.hoResult)⟩
  | pilotSend _ => exact ⟨_, rfl, hs.pilotSend⟩
  | pilotRead => exact ⟨_, rfl, hs.pilotRead⟩
  | foreignPulse => exact ⟨_, rfl, hs.foreignPulse⟩
  | pilotGap => exact ⟨_, rfl, hs.pilotGap⟩
  | leaseExpiry => exact ⟨_, rfl, hs.when (·.setWick.startCold)⟩
  | guardExpiry _ => exact ⟨_, rfl, hs.when (·.enterLighting)⟩
  | takeover => exact ⟨_, rfl, hs.takeover⟩
  | coldConfigEnd => exact ⟨_, rfl, hs.coldConfigEnd⟩
  | restoreEnd => exact ⟨_, rfl, hs.restoreEnd⟩
  | arm _ _ => exact ⟨_, rfl, hs.cmd (·.put.when (·.put) |>.wickSettle)⟩
  | handover _ => exact ⟨_, rfl, hs.cmd (·.handoverReq)⟩
  | handoverRampEnd => exact ⟨_, rfl, hs.handoverRampEnd⟩
  | handoverTimeout => exact ⟨_, rfl, hs.handoverTimeout⟩
  | pairCfgWrite _ _ _ => exact ⟨_, rfl, hs.cmdC (·.iteFst (fun ht => ht.getDFst ht.pairRegWrite) id)⟩
  | sweepPassStart => exact ⟨_, rfl, hs.sweepStart⟩
  | sweepPassEnd _ _ => exact ⟨_, rfl, hs.sweepEnd⟩
  | faultDetection _ _ _ => exact ⟨_, rfl, hs.when (·.faultAct.settle.wickSettle)⟩
  | faultClear _ _ _ => exact ⟨_, rfl, hs.cmd (·.when (·.faultClear))⟩
  | intAssert _ => exact ⟨_, rfl, hs.when (·.settlePin)⟩
  | logEntryStore => exact ⟨_, rfl, hs.logStore⟩
  | logClear _ => exact ⟨_, rfl, hs.cmd (·.put)⟩
  | snuff _ => exact ⟨_, rfl, hs.cmd (·.enterSnuff)⟩
  | clkLost _ => exact ⟨_, rfl, hs.put.unless (·.monitorAct.put)⟩
  | clockReturn _ => exact ⟨_, rfl, hs.clockReturn⟩
  | snuffCauseClear _ => exact ⟨_, rfl, hs.cmd (·.snuffCauseWrite)⟩
  | write _ _ _ => exact ⟨_, rfl, hs.ite (·.frameErr) (·.writeFrame.put)⟩
  | read _ _ _ => exact ⟨_, rfl, hs.ite (·.frameErr) (·.readFrame.put)⟩
  | enterQuad _ => exact ⟨_, rfl, hs.setQuad⟩
  | exitQuad _ => exact ⟨_, rfl, hs.setQuad⟩
  | resetEnable _ => exact ⟨_, rfl, hs.plainFrame⟩
  | portReset _ => exact ⟨_, rfl, hs.portReset⟩
  | portResetApply _ => exact ⟨_, rfl, hs.portResetApply⟩
  | csNEarlyRise _ _ => exact ⟨_, rfl, hs.earlyRise⟩
  | semAcquire _ _ => exact ⟨_, rfl, hs.rdCmd (·.semRead)⟩
  | semRelease _ _ => exact ⟨_, rfl, hs.cmdC (·.semWrite)⟩
  | holdExpired _ => exact ⟨_, rfl, hs.when (·.raise.semOwner)⟩
  | busTimeout _ _ => exact ⟨_, rfl, hs.when (·.raise) |>.timeoutAct |>.put⟩
  | dmaChannelStart _ _ _ => exact ⟨_, rfl, hs.cmd (·.dmaCtrl)⟩
  | dmaChannelStop _ _ => exact ⟨_, rfl, hs.cmd (·.dmaCtrl)⟩
  | dmaForce _ _ => exact ⟨_, rfl, hs.cmd (·.dmaCtrl)⟩
  | dmaCompatWrite _ _ => exact ⟨_, rfl, hs.cmdC (·.dmaCompatWrite)⟩
  | dmaConfigWrite _ _ _ _ => exact ⟨_, rfl, hs.cmdC (·.dmaConfig)⟩
  | descriptorFetch => exact ⟨_, rfl, hs.descriptorFetch⟩
  | dmaBurst => exact ⟨_, rfl, hs.dmaBurst⟩
  | descriptorComplete => exact ⟨_, rfl, hs.descriptorComplete⟩
  | waitLong _ => exact ⟨_, rfl, hs.when (·.raise.put.put)⟩
  | lateWriteError _ _ _ => exact ⟨_, rfl, hs.when (·.raise.put.unless (·.put))⟩
  | chkStart _ _ => exact ⟨_, rfl, hs.cmdC (·.chkGuard (·.chkCtrl (v := 1)))⟩
  | chkSuspend _ _ => exact ⟨_, rfl, hs.cmdC (·.chkGuard (·.chkCtrl (v := 0)))⟩
  | chkForce _ _ => exact ⟨_, rfl, hs.cmdC (·.chkGuard (·.chkCtrl (v := 2)))⟩
  | chkStopEnd _ _ => exact ⟨_, rfl, hs.stopEnd⟩
  | chkConfigWrite _ _ _ _ => exact ⟨_, rfl, hs.cmdC (·.chkGuard (·.chkConfig))⟩
  | chkScanEnd _ => exact ⟨_, rfl, hs.when (·.scanEnd)⟩
  | chkRescanEnd _ => exact ⟨_, rfl, hs.when (·.scanEnd)⟩
  | dramAccess _ _ _ _ => exact ⟨_, rfl, hs.memAccess (·.dramRead) (·.dramWrite)⟩
  | dramInitDone => exact ⟨_, rfl, hs.when (·.put.put)⟩
  | dramScrub _ _ => exact ⟨_, rfl, hs.when (·.scrub)⟩
  | mr4Poll _ => exact ⟨_, rfl, hs.put.when (·.raise)⟩
  | dqsRetrain => exact ⟨_, rfl, hs⟩
  | dramTimeout _ _ => exact ⟨_, rfl, hs.when (·.raise.put)⟩
  | carafeAccess _ _ _ _ => exact ⟨_, rfl, hs.memAccess (·.carafeRead) (·.carafeWrite)⟩
  | carafeScrub _ _ => exact ⟨_, rfl, hs.scrub⟩
  | memcConfigWrite _ _ _ => exact ⟨_, rfl, hs.cmdC (·.memcConfigWrite)⟩
  | xfer _ _ _ _ => exact ⟨_, rfl, hs.cmd (·.xferWrite)⟩
  | twcEnable _ _ => exact ⟨_, rfl, hs.cmd (·.twCtrl)⟩
  | twcDisable _ _ => exact ⟨_, rfl, hs.cmd (·.twCtrl)⟩
  | twcForce _ _ => exact ⟨_, rfl, hs.cmd (·.twCtrl)⟩
  | twcFifoWrite _ _ _ => exact ⟨_, rfl, hs.cmd (·.put)⟩
  | twcFifoRead _ _ => exact ⟨_, rfl, hs.rdCmd (·.put)⟩
  | twcTransferEnd _ _ => exact ⟨_, rfl, hs.transferEnd⟩
  | nakRetry _ => exact ⟨_, rfl, hs.when (·.ite (·.put) (·.raise.twEnd))⟩
  | arbLost _ _ _ => exact ⟨_, rfl, hs.arbLost⟩
  | arbRetry _ => exact ⟨_, rfl, hs.arbRetry⟩
  | sclStuck _ => exact ⟨_, rfl, hs.sclStuck⟩
  | fifoStall _ => exact ⟨_, rfl, hs.when (·.twEnd)⟩
  | stuckBusRecovery _ _ => exact ⟨_, rfl, hs.when (·.put.unless (·.raise))⟩
  | twcCfgWrite _ _ _ => exact ⟨_, rfl, hs.cmdC (·.twCfg)⟩
  | flashRead _ => exact ⟨_, rfl, hs.cmd (·.flcCmd)⟩
  | program _ => exact ⟨_, rfl, hs.cmd (·.flcCmd)⟩
  | erase4K _ => exact ⟨_, rfl, hs.cmd (·.flcCmd)⟩
  | erase64K _ => exact ⟨_, rfl, hs.cmd (·.flcCmd)⟩
  | readSfdp _ => exact ⟨_, rfl, hs.cmd (·.flcCmd)⟩
  | readId _ => exact ⟨_, rfl, hs.cmd (·.flcCmd)⟩
  | flcCommandEnd => exact ⟨_, rfl, hs.flcCommandEnd⟩
  | flashTimeout => exact ⟨_, rfl, hs.when (·.raise.flcEnd)⟩
  | flcDisable _ => exact ⟨_, rfl, hs.cmd (·.flcCtrl)⟩
  | flcForce _ => exact ⟨_, rfl, hs.cmd (·.flcCtrl)⟩
  | flcFifoAccess _ _ =>
    refine ⟨_, rfl, ?_⟩
    split
    · exact hs.cmd (·.flcPush)
    · exact hs.rdCmd (·.flcPop)
  | supplyUndervoltage _ => exact ⟨_, rfl, hs.put.inReset⟩
  | idcode => exact ⟨_, rfl, hs.jtagLoad⟩
  | bypass => exact ⟨_, rfl, hs.jtagLoad⟩
  | samplePreload _ _ => exact ⟨_, rfl, hs.jtagLoad⟩
  | extest => exact ⟨_, rfl, hs.jtagLoad⟩
  | registerWrite _ _ _ => exact ⟨_, rfl, hs.busWrite.put⟩
  | supplyRestored => exact ⟨_, rfl, hs.unless (·.put.inReset)⟩
  | senseInputRestored _ => exact ⟨_, rfl, hs.put⟩
  | autoNegotiationComplete _ => exact ⟨_, rfl, hs.when (·.put.put)⟩
  | dmaRequestAssert _ => exact ⟨_, rfl, hs.when (·.ite (·.dmaSelect) (·.put))⟩
  | handoverPilotWaitEnd => exact ⟨_, rfl, hs.when (·.enterLighting)⟩
  | waitMaxRead _ _ => exact ⟨_, rfl, hs.rdCmd (·.waitMaxRead)⟩
  | poolLowRead _ => exact ⟨_, rfl, hs.rdCmd (·.put)⟩
  | twSclRelease _ => exact ⟨_, rfl, hs.when (·.put)⟩

theorem step_keeps {s t : State} (hstep : step s = .next t) : Keeps s t := by
  unfold step at hstep
  split at hstep
  · obtain rfl := Host.Outcome.next.inj hstep
    exact .refl s
  next c q _ =>
    obtain ⟨t', ht', hkeeps⟩ := exec_keeps c { s with pending := q }
    obtain rfl := Host.Outcome.next.inj (ht'.symm.trans hstep)
    exact ⟨hkeeps.memOk, hkeeps.migApart⟩

/-- Settles O56: each command is a composition of operations that keep both invariants. -/
theorem stepKeepsInvariants : Obligations.StepKeepsInvariants := by
  unfold Obligations.StepKeepsInvariants
  exact fun _ _ hstep => ⟨(step_keeps hstep).memOk, (step_keeps hstep).migApart⟩

end Sys2Proof.Machine
end

section
/-! SUPPORT. The steps of a proactive and of a restorative migration (R127, R129, R169 to R173). -/
namespace Sys2Proof.Machine
open Sys2Proof

/-! ### The parts of a fence and of a move -/

section
variable {s : State} {p q : Nat}

@[simp] theorem setMap_cell (l : Nat) (x : Option Nat) : (setMap l x s).cell q = s.cell q := rfl
@[simp] theorem noteSpare_cell : (noteSpare p s).cell q = s.cell q := rfl
@[simp] theorem migEvt_cell (i : Nat) : (migEvt p i s).cell q = s.cell q := rfl

@[simp] theorem migEvt_fabric (i : Nat) : (migEvt p i s).fabric = s.fabric := rfl
@[simp] theorem noteSpare_map : (noteSpare p s).fabric.map = s.fabric.map := rfl

@[simp] theorem updMig_role (f : MigStat → MigStat) : ((updMig p f s).cell q).role = (s.cell q).role := by
  rw [updMig_cell]

theorem updMig_phase {ph : MigPhase} {f : MigStat → MigStat} (hf : ∀ x, (f x).phase = ph) (h : (s.cell q).mig.phase = ph) :
    ((updMig p f s).cell q).mig.phase = ph := by
  rw [updMig_cell]
  dsimp only
  split
  · exact hf _
  · exact h

theorem takeOverAgs_role (c : Cell) : c.takeOverAgs.1.role = c.role :=
  (upto 4).foldlRecOn (motive := fun r : Cell × Nat => r.1.role = c.role) _ rfl fun _ h _ _ => h

theorem stopSched_role : ((stopSched p s).cell q).role = (s.cell q).role := by
  have htake : ((takeOverCell p s).cell q).role = (s.cell q).role := by
    rw [takeOverCell_cell]
    split
    next h => rw [h, takeOverAgs_role]
    next => rfl
  unfold stopSched
  split
  · dsimp only
    rw [cell_updCell]
    split
    next h => rw [← htake, h]
    next => exact htake
  · rfl

theorem stopSched_fabric : (stopSched p s).fabric = s.fabric := by
  unfold stopSched
  split <;> rfl

theorem fenceCell_role : ((fenceCell p s).cell q).role = if q = p then .fenced else (s.cell q).role := by
  rw [fenceCell, cell_fabric, cell_updCell]
  split
  · rfl
  · exact stopSched_role

theorem fenceCell_map : (fenceCell p s).fabric.map = s.fabric.map := by
  change (stopSched p s).fabric.map = _
  rw [stopSched_fabric]

theorem fenceCell_mig : (fenceCell p s).fabric.mig = s.fabric.mig := by
  change (stopSched p s).fabric.mig = _
  rw [stopSched_fabric]

theorem fenceCell_role_self : ((fenceCell p s).cell p).role = .fenced := by rw [fenceCell_role, if_pos rfl]

theorem endMig_mig (r : MigResult) (role : Role) : (endMig r role s).fabric.mig = none := by
  unfold endMig
  split
  next h => exact h
  next => rw [migEvt_fabric, State.updCell_fabric, stopSched_fabric, updMig_fabric, updMig_fabric]

theorem restoreOn_role {l src : Nat} {r : Role} (h : p ≠ q) : ((restoreOn l src q r s).cell p).role = (s.cell p).role := by
  rw [restoreOn, noteSpare_cell, setMap_cell, updMig_role, cell_updCell, if_neg h]

end

/-! ### The requests that wait -/

/-- What stays as it is while requests that wait start or are dropped: the mapping, the ramps, the role of a cell that is no spare, and
every register bit that is 1. -/
structure RequestsLeave (s t : State) : Prop where
  map : t.fabric.map = s.fabric.map
  ramps : t.fabric.ramps = s.fabric.ramps
  role : ∀ q, (s.cell q).role ≠ .spare → (s.cell q).role ≠ .test → (t.cell q).role = (s.cell q).role
  bits : ∀ a i, s.rbit a i = true → t.rbit a i = true

theorem RequestsLeave.refl (s : State) : RequestsLeave s s := ⟨rfl, rfl, fun _ _ _ => rfl, fun _ _ => id⟩

theorem RequestsLeave.trans {s t u : State} (h : RequestsLeave s t) (h' : RequestsLeave t u) : RequestsLeave s u where
  map := h'.map.trans h.map
  ramps := h'.ramps.trans h.ramps
  role q hspare htest := by
    have hrole := h.role q hspare htest
    exact (h'.role q (hrole ▸ hspare) (hrole ▸ htest)).trans hrole
  bits a i hbit := h'.bits a i (h.bits a i hbit)

theorem updMig_leaves (p : Nat) (f : MigStat → MigStat) (s : State) : RequestsLeave s (updMig p f s) :=
  ⟨rfl, rfl, fun _ _ _ => updMig_role f, fun _ _ => id⟩

theorem startProactive_leaves (p : Nat) (ce : Bool) (s : State) : RequestsLeave s (startProactive p ce s) := by
  unfold startProactive
  split
  next => exact ⟨rfl, rfl, fun _ _ _ => by rw [migEvt_cell, updMig_role], fun _ _ h => rbit_orReg (s := updMig p _ s) _ _ h⟩
  next q hq =>
    refine ⟨rfl, rfl, fun r hspare htest => ?_, fun a i h => ?_⟩
    · have hother : r ≠ q := by
        rintro rfl
        exact (takeSpare_role hq).elim hspare htest
      dsimp only
      rw [cell_fabric, updMig_role, updMig_role, cell_updCell, if_neg hother]
    · refine (rbit_congr (s := s) ?_ a i).trans h
      dsimp only
      rw [updMig_regs, updMig_regs, State.updCell_regs]

theorem dequeueList_leaves (l : List (Nat × Bool)) (s : State) : RequestsLeave s (dequeueList l s).2 := by
  induction l generalizing s with
  | nil => exact .refl s
  | cons e l ih =>
    unfold dequeueList
    split_ifs
    · exact .refl s
    · exact (updMig_leaves _ _ s).trans (ih _)
    · exact ih s
    · exact (startProactive_leaves _ _ s).trans (ih _)

theorem dequeueMig_leaves (s : State) : RequestsLeave s (dequeueMig s) := by
  obtain ⟨hmap, hramps, hrole, hbits⟩ := dequeueList_leaves s.fabric.queue s
  exact ⟨hmap, hramps, hrole, hbits⟩

theorem dequeueMig_fenced {s : State} {p : Nat} (h : (s.cell p).role = .fenced) : ((dequeueMig s).cell p).role = .fenced :=
  ((dequeueMig_leaves s).role p (by simp [h]) (by simp [h])).trans h

theorem dequeueMig_active {s : State} {p : Nat} (h : (s.cell p).role = .active) : ((dequeueMig s).cell p).role = .active :=
  ((dequeueMig_leaves s).role p (by simp [h]) (by simp [h])).trans h

theorem dequeueMig_cell_of_empty {s : State} (h : s.fabric.queue = []) (p : Nat) : (dequeueMig s).cell p = s.cell p := by
  rw [dequeueMig, h]
  rfl

theorem settle_mem (s : State) : (settle s).mem = s.mem := by rw [settle_frame]

/-! ### A source that fails while it is copied -/

section
variable {s : State} {p l : Nat} {g : Mig}

/-- Before the shadow runs, a hard fault of the source fences it and ends the migration (R173). -/
theorem failFence_source (hmig : s.fabric.mig = some g) (hsrc : g.src = p) (hphase : g.phase ≠ .shadow) (hapart : p ≠ g.spare) :
    ((failFence p s).cell p).role = .fenced ∧ (failFence p s).fabric.mig = none := by
  have hended : (fenceCell p (endMig .preempted .spare s)).fabric.mig = none := fenceCell_mig.trans (endMig_mig ..)
  simp only [failFence, hmig, if_pos hsrc, if_neg hphase]
  split
  · split_ifs
    · exact ⟨(restoreOn_role hapart).trans fenceCell_role_self, hended⟩
    · exact ⟨fenceCell_role_self, hended⟩
  · exact ⟨fenceCell_role_self, hended⟩

theorem failTaken_role {q : Nat} : ((failTaken p s).cell q).role = (s.cell q).role := by
  unfold failTaken
  dsimp only
  split <;> simp

theorem failTaken_mig : (failTaken p s).fabric.mig = s.fabric.mig := by
  unfold failTaken
  dsimp only
  split <;> rfl

/-- The cell that failed stays FENCED while its logical cell moves. -/
theorem startRestore_fenced {r : Role} (hmig : s.fabric.mig = none) (hrole : (s.cell p).role = .fenced) :
    ((startRestore l p r s).cell p).role = .fenced := by
  unfold startRestore
  split
  · exact hrole
  · split
    next q hq =>
      have hother : p ≠ q := by
        rintro rfl
        simpa [hrole] using takeSpare_role hq
      exact (restoreOn_role hother).trans hrole
    next =>
      simp only [hmig]
      rw [migEvt_cell, updMig_role, setMap_cell]
      exact hrole

theorem hardFail_source (hmig : s.fabric.mig = some g) (hsrc : g.src = p) (hphase : g.phase ≠ .shadow) (hapart : p ≠ g.spare) :
    ((hardFail p s).cell p).role = .fenced := by
  unfold hardFail
  extract_lets c taken t u
  obtain ⟨hfenced, hended⟩ : (t.cell p).role = .fenced ∧ t.fabric.mig = none := failFence_source hmig hsrc hphase hapart
  clear_value t
  refine dequeueMig_fenced ?_
  unfold u
  split
  · exact hfenced
  · split
    · refine startRestore_fenced ?_ ?_
      · split
        · exact failTaken_mig.trans hended
        · exact hended
      · split
        · exact failTaken_role.trans hfenced
        · exact hfenced
    · exact hfenced

theorem cellUe_source {src : Nat} (hmig : s.fabric.mig = some g) (hsrc : g.src = p) (hphase : g.phase ≠ .shadow) (hapart : p ≠ g.spare) :
    ((cellUe src p s).cell p).role = .fenced :=
  hardFail_source ((congrArg Fabric.mig (raise_fabric ..)).trans hmig) hsrc hphase hapart

end

/-! ### The steps of a proactive migration -/

section
variable {s : State} {g : Mig} {ph : MigPhase} {k : Mig → State → State}

theorem withMig_eq (hmig : s.fabric.mig = some g) (hphase : g.phase = ph) : withMig ph k s = k g s := by
  simp only [withMig, hmig, if_pos hphase]

theorem withMig_idle (h : ∀ g, s.fabric.mig = some g → g.phase = ph → k g s = s) : withMig ph k s = s := by
  unfold withMig
  split
  next g hmig =>
    split
    next hphase => exact h g hmig hphase
    next => rfl
  next => rfl

theorem migrationLoaded_idle (h : ∀ g, s.fabric.mig = some g → g.phase ≠ .loading) : migrationLoaded s = s :=
  withMig_idle fun g hmig hphase => absurd hphase (h g hmig)

theorem migrationLoaded_spec (hmig : s.fabric.mig = some g) (hphase : g.phase = .loading) :
    migrationLoaded s = { s with cells := (migrationLoaded s).cells } ∧ ((migrationLoaded s).cell g.spare).configured = true ∧
      ((migrationLoaded s).cell g.spare).prog = (loadProgram s ((s.cell g.spare).logical.getD 0) (s.cell g.spare)).prog ∧
      ∀ q, q ≠ g.spare → (migrationLoaded s).cell q = s.cell q := by
  rw [migrationLoaded, withMig_eq hmig hphase, cell_updCell_same]
  exact ⟨rfl, rfl, rfl, fun q hother => (cell_updCell ..).trans (if_neg hother)⟩

theorem migrationCopyStart_idle
    (h : ∀ g, s.fabric.mig = some g → g.phase ≠ .loading ∨ (s.cell g.spare).configured = false ∨ atBlock s g.src = false) :
    migrationCopyStart s = s := by
  refine withMig_idle fun g hmig hphase => if_neg ?_
  obtain hunready | hbefore := (h g hmig).resolve_left (not_not_intro hphase)
  · simp [hunready]
  · simp [hbefore]

theorem enterMig_phase (bs : Nat) :
    ((enterMig g ph bs s).cell g.src).mig.phase = ph ∧ ((enterMig g ph bs s).cell g.spare).mig.phase = ph := by
  refine ⟨updMig_phase (fun _ => rfl) ?_, ?_⟩
  · rw [updMig_cell, if_pos rfl]
  · rw [enterMig, updMig_cell, if_pos rfl]

theorem enterMig_fabric (bs : Nat) : (enterMig g ph bs s).fabric = { s.fabric with mig := some { g with phase := ph, bs := bs } } := by
  rw [enterMig, updMig_fabric, updMig_fabric]

theorem enterMig_cell (bs q : Nat) : ∃ x, (enterMig g ph bs s).cell q = { s.cell q with mig := x } := by
  rw [enterMig, updMig_cell, updMig_cell, cell_fabric]
  exact ⟨_, rfl⟩

theorem migrationCopyStart_spec (hmig : s.fabric.mig = some g) (hphase : g.phase = .loading) (hready : (s.cell g.spare).configured = true)
    (hblock : atBlock s g.src = true) : migrationCopyStart s = enterMig g .copying 0 s := by
  rw [migrationCopyStart, withMig_eq hmig hphase, hready, hblock]
  rfl

theorem migrationCopyEnd_idle (h : ∀ g, s.fabric.mig = some g → g.phase ≠ .copying ∨ g.bs = 1) : migrationCopyEnd s = s :=
  withMig_idle fun g hmig hphase => if_pos ((h g hmig).resolve_left (not_not_intro hphase))

/-- The number of words of a cell the error correction judges so. -/
def Cell.found (c : Cell) (e : Ecc) : Nat := (c.dataEcc.filter fun x => x.2 == e).length

theorem Cell.found_eq_zero_iff (c : Cell) (e : Ecc) : c.found e = 0 ↔ ∀ x ∈ c.dataEcc, x.2 ≠ e := by
  simp [Cell.found]

/-- The words the copier corrects count (R129). -/
def copyCounted (p : Nat) (s : State) : State := s.updCell p fun c => { c with ceRun := c.ceRun + (s.cell p).found .ce }

theorem migrationCopyEnd_ue (hmig : s.fabric.mig = some g) (hphase : g.phase = .copying) (hdue : g.bs ≠ 1)
    (hue : (s.cell g.src).found .ue ≠ 0) : migrationCopyEnd s = settle (cellUe 3 g.src (copyCounted g.src s)) := by
  rw [migrationCopyEnd, withMig_eq hmig hphase, if_neg hdue]
  exact if_pos hue

/-- The whole of the source's data memory stands in the spare. -/
def copied (g : Mig) (s : State) : State :=
  { s with fabric := { s.fabric with mig := some { g with bs := 1 } } }.updCell g.spare fun c =>
    { c with data := (s.cell g.src).data, dataEcc := [] }

theorem migrationCopyEnd_clean (hmig : s.fabric.mig = some g) (hphase : g.phase = .copying) (hdue : g.bs ≠ 1)
    (hclean : (s.cell g.src).found .ue = 0) : migrationCopyEnd s = copied g (copyCounted g.src s) := by
  rw [migrationCopyEnd, withMig_eq hmig hphase, if_neg hdue]
  exact if_neg (not_not_intro hclean)

end

section
variable {s : State} {g : Mig}

theorem copyCounted_cell {p q : Nat} (h : q ≠ p) : (copyCounted p s).cell q = s.cell q := (cell_updCell ..).trans (if_neg h)

theorem copied_cell_source (hapart : g.src ≠ g.spare) :
    (copied g (copyCounted g.src s)).cell g.src = { s.cell g.src with ceRun := (s.cell g.src).ceRun + (s.cell g.src).found .ce } := by
  rw [copied, cell_updCell, if_neg hapart, cell_fabric, copyCounted, cell_updCell_same]

theorem copied_cell_spare :
    ((copied g (copyCounted g.src s)).cell g.spare).data = (s.cell g.src).data ∧ ((copied g (copyCounted g.src s)).cell g.spare).dataEcc = [] := by
  rw [copied, cell_updCell_same]
  refine ⟨?_, rfl⟩
  dsimp only
  rw [copyCounted, cell_updCell_same]

theorem copied_cell_other {q : Nat} (hspare : q ≠ g.spare) (hsrc : q ≠ g.src) : (copied g (copyCounted g.src s)).cell q = s.cell q := by
  rw [copied, cell_updCell, if_neg hspare, cell_fabric, copyCounted_cell hsrc]

theorem migrationCopyEnd_ue_spec (hmig : s.fabric.mig = some g) (hphase : g.phase = .copying) (hdue : g.bs ≠ 1)
    (hue : (s.cell g.src).found .ue ≠ 0) (hapart : g.src ≠ g.spare) :
    (migrationCopyEnd s).mem = s.mem ∧ (migrationCopyEnd s).faultBit (.cell g.src) 3 = true ∧
      ((migrationCopyEnd s).cell g.src).role = .fenced := by
  rw [migrationCopyEnd_ue hmig hphase hdue hue]
  refine ⟨?_, cellUe_fault _ _ (by decide), ?_⟩
  · rw [settle_mem]
    exact (mem_eq_of_fabricView (fabricView_hardFail g.src _ g.src)).trans (raise_mem ..)
  · rw [settle_cell]
    exact cellUe_source (s := copyCounted g.src s) hmig rfl (by simp [hphase]) hapart

theorem migrationShadowStart_idle (h : ∀ g, s.fabric.mig = some g → g.phase ≠ .copying ∨ g.bs ≠ 1 ∨ atBlock s g.src = false) :
    migrationShadowStart s = s := by
  refine withMig_idle fun g hmig hphase => if_neg ?_
  obtain hcopying | hbefore := (h g hmig).resolve_left (not_not_intro hphase)
  · simp [hcopying]
  · simp [hbefore]

/-- The spare holds the source's state set (Table 6.13). -/
def stateMoved (g : Mig) (s : State) : State :=
  let a := s.cell g.src
  s.updCell g.spare fun c => { c with
    data := a.data, ags := a.ags, accs := a.accs, efb := a.efb, lfsrA := a.lfsrA, lfsrB := a.lfsrB
    retFront := a.retFront, retBack := a.retBack, inFront := a.inFront, inBack := a.inBack }

theorem migrationShadowStart_eq (hmig : s.fabric.mig = some g) (hphase : g.phase = .copying) (hcopied : g.bs = 1)
    (hblock : atBlock s g.src = true) : migrationShadowStart s = enterMig g .shadow s.sys.tick (stateMoved g s) := by
  rw [migrationShadowStart, withMig_eq hmig hphase, hcopied, hblock]
  rfl

theorem migrationShadowStart_spec (hmig : s.fabric.mig = some g) (hphase : g.phase = .copying) (hcopied : g.bs = 1)
    (hblock : atBlock s g.src = true) :
    let a := s.cell g.src
    let b := (migrationShadowStart s).cell g.spare
    (migrationShadowStart s).fabric = { s.fabric with mig := some { g with phase := .shadow, bs := s.sys.tick } } ∧ b.mig.phase = .shadow ∧
      b.data = a.data ∧ b.ags = a.ags ∧ b.accs = a.accs ∧ b.efb = a.efb ∧ b.lfsrA = a.lfsrA ∧ b.lfsrB = a.lfsrB ∧
      b.retFront = a.retFront ∧ b.retBack = a.retBack ∧ b.inFront = a.inFront ∧ b.inBack = a.inBack := by
  rw [migrationShadowStart_eq hmig hphase hcopied hblock]
  have hfabric : (enterMig g .shadow s.sys.tick (stateMoved g s)).fabric =
      { s.fabric with mig := some { g with phase := .shadow, bs := s.sys.tick } } := by
    rw [enterMig_fabric, stateMoved, State.updCell_fabric]
  obtain ⟨x, hcell⟩ := enterMig_cell (g := g) (ph := .shadow) (s := stateMoved g s) s.sys.tick g.spare
  have hshadow := (enterMig_phase (g := g) (ph := .shadow) (s := stateMoved g s) s.sys.tick).2
  rw [hcell] at hshadow ⊢
  rw [stateMoved, cell_updCell_same] at hshadow ⊢
  exact ⟨hfabric, hshadow, rfl, rfl, rfl, rfl, rfl, rfl, rfl, rfl, rfl, rfl⟩

end

section
variable {s : State} {g : Mig} {l : Nat}

theorem migrationSwitch_idle (h : ∀ g, s.fabric.mig = some g → g.phase ≠ .shadow ∨ s.sys.tick ≠ g.bs + 4096 * 64) : migrationSwitch s = s :=
  withMig_idle fun g hmig hphase => if_neg ((h g hmig).resolve_left (not_not_intro hphase))

/-- What a cell shows of a proactive migration that is complete (Table 6.17). -/
def MigStat.completed (x : MigStat) : MigStat := { x with phase := .none, result := .done }

/-- The spare carries the logical cell, and the migration is complete. -/
def sparePlaced (g : Mig) (l : Nat) (s : State) : State :=
  setMap l (some g.spare) <|
    (updMig g.spare MigStat.completed (updMig g.src MigStat.completed { s with fabric := { s.fabric with mig := none } })).updCell g.spare
      fun c => { c with role := .active }

/-- The part at the switch, before the requests that wait (R170, R171). -/
def switched (g : Mig) (l : Nat) (s : State) : State := migEvt g.src 0 (noteSpare g.spare (fenceCell g.src (sparePlaced g l s)))

theorem migrationSwitch_eq (hmig : s.fabric.mig = some g) (hphase : g.phase = .shadow) (hdue : s.sys.tick = g.bs + 4096 * 64)
    (hlogical : (s.cell g.src).logical = some l) : migrationSwitch s = settle (dequeueMig (switched g l s)) := by
  rw [migrationSwitch, withMig_eq hmig hphase, if_pos hdue, hlogical]
  rfl

theorem switched_spare (hapart : g.src ≠ g.spare) : ((switched g l s).cell g.spare).role = .active := by
  rw [switched, migEvt_cell, noteSpare_cell, fenceCell_role, if_neg hapart.symm, sparePlaced, setMap_cell, cell_updCell_same]

theorem switched_source : ((switched g l s).cell g.src).role = .fenced := by
  rw [switched, migEvt_cell, noteSpare_cell, fenceCell_role_self]

theorem switched_map : (switched g l s).fabric.map = (sparePlaced g l s).fabric.map := by
  rw [switched, migEvt_fabric, noteSpare_map, fenceCell_map]

theorem switched_view (p : Nat) : fabricView p (switched g l s) = fabricView p s := by
  rw [switched, fabricView_migEvt, fabricView_noteSpare, fabricView_fenceCell, sparePlaced, fabricView_setMap, fabricView_updCell,
    fabricView_updMig, fabricView_updMig, fabricView_fabric]

theorem switched_event : (switched g l s).rbit ((Blk.cell g.src).base + 0x24) 0 = true := by
  rw [switched, migEvt, State.rbit, reg_orReg, if_pos rfl, bit_or, bit_bm_self (by decide), Bool.or_true]

theorem migrationSwitch_spec (hmig : s.fabric.mig = some g) (hphase : g.phase = .shadow) (hdue : s.sys.tick = g.bs + 4096 * 64)
    (hlogical : (s.cell g.src).logical = some l) (hapart : g.src ≠ g.spare) :
    physOf (migrationSwitch s) l = some g.spare ∧ ((migrationSwitch s).cell g.spare).role = .active ∧
      ((migrationSwitch s).cell g.src).role = .fenced ∧ (migrationSwitch s).rbit ((Blk.cell g.src).base + 0x24) 0 = true ∧
      (migrationSwitch s).mem = s.mem := by
  have hleaves := dequeueMig_leaves (switched g l s)
  rw [migrationSwitch_eq hmig hphase hdue hlogical, settle_cell, settle_cell]
  refine ⟨?_, dequeueMig_active (switched_spare hapart), dequeueMig_fenced switched_source, ?_, ?_⟩
  · rw [physOf, settle_fabric, hleaves.map, switched_map]
    exact tab_get_set_same (fun _ => none) s.fabric.map l (some g.spare)
  · rw [State.rbit, settle_reg (modeChg_ne_cell _ _).symm]
    exact hleaves.bits _ _ switched_event
  · have hview := (fabricView_dequeueMig g.src (switched g l s)).trans (switched_view g.src)
    rw [settle_mem]
    exact mem_eq_of_fabricView hview

end

/-! ### The steps of a restorative migration -/

section
variable {s : State} {p : Nat}

theorem restoreLoaded_idle (h : ((s.cell p).role ≠ .active ∧ (s.cell p).role ≠ .idle) ∨ (s.cell p).mig.phase ≠ .restoring ∨
    (s.cell p).configured = true) : restoreLoaded p s = s := by
  refine if_neg ?_
  rintro ⟨hrole, hphase, hunready⟩
  obtain ⟨hactive, hidle⟩ | hother | hready := h
  · exact hrole.elim hactive hidle
  · exact hother hphase
  · simp [hunready] at hready

/-- The restored cell holds the logical cell's program and its latest state (R172). -/
def Cell.restored (s : State) (c : Cell) : Cell :=
  { loadLatest s (c.logical.getD 0) (loadProgram s (c.logical.getD 0) c) with configured := true }

theorem restoreLoaded_eq (hrole : (s.cell p).role = .active) (hphase : (s.cell p).mig.phase = .restoring)
    (hunready : (s.cell p).configured = false) : restoreLoaded p s = s.setCell p ((s.cell p).restored s) := by
  have hadmitted : ((s.cell p).role = .active ∨ (s.cell p).role = .idle) ∧ (s.cell p).mig.phase = .restoring ∧ (s.cell p).configured = false :=
    ⟨.inl hrole, hphase, hunready⟩
  have hactive : (s.cell p).role ≠ .idle := by simp [hrole]
  rw [restoreLoaded, if_pos hadmitted, if_neg hactive]
  rfl

theorem restoreCellStart_idle (h : ((s.cell p).role ≠ .active ∧ (s.cell p).role ≠ .idle ∧ (s.cell p).role ≠ .shadow) ∨
    (s.cell p).mig.phase ≠ .restoring ∨ (s.cell p).configured = false ∨ atBlock s p = false) : restoreCellStart p s = s := by
  refine if_neg ?_
  rintro ⟨hrole, hphase, hready, hblock⟩
  obtain ⟨hactive, hidle, hshadow⟩ | hother | hunready | hbefore := h
  · exact hrole.elim hactive (Or.rec hidle hshadow)
  · exact hother hphase
  · simp [hready] at hunready
  · simp [hblock] at hbefore

/-- The restored cell ramps in, and a promoted shadow becomes ACTIVE; its partner shows it too. -/
def rampingIn (p : Nat) (s : State) : State :=
  let t := s.updCell p fun c => { c with role := if (s.cell p).role = .shadow then .active else c.role, mig := { c.mig with phase := .rampIn } }
  match (s.cell p).mig.partner with
  | some q => updMig q (fun x => { x with phase := .rampIn }) t
  | none => t

/-- The ramp of the returns that the restored cell starts (R127, R172). -/
def startedRamp (p : Nat) (s : State) : RetRamp := ⟨s.frame + (if (s.cell p).role = .shadow then 0 else (s.cell p).blockN), true⟩

theorem restoreCellStart_eq (hrole : (s.cell p).role = .active ∨ (s.cell p).role = .shadow) (hphase : (s.cell p).mig.phase = .restoring)
    (hready : (s.cell p).configured = true) (hblock : atBlock s p = true) :
    restoreCellStart p s = { rampingIn p s with fabric := { s.fabric with
      ramps := Tab.set (fun _ => none) s.fabric.ramps ((s.cell p).logical.getD 0) (some (startedRamp p s)) } } := by
  have hstarts : (s.cell p).role = .active ∨ (s.cell p).role = .idle ∨ (s.cell p).role = .shadow := hrole.imp_right .inr
  rw [restoreCellStart, if_pos ⟨hstarts, hphase, hready, hblock⟩]
  simp only [beq_iff_eq]
  unfold rampingIn
  cases (s.cell p).mig.partner <;> rfl

theorem rampingIn_frame : rampingIn p s = { s with cells := (rampingIn p s).cells } := by
  unfold rampingIn
  dsimp only
  split <;> rfl

theorem rampingIn_phase : ((rampingIn p s).cell p).mig.phase = .rampIn := by
  unfold rampingIn
  dsimp only
  split
  · refine updMig_phase (fun _ => rfl) ?_
    rw [cell_updCell_same]
  · rw [cell_updCell_same]

theorem rampingIn_role (hrole : (s.cell p).role = .active ∨ (s.cell p).role = .shadow) : ((rampingIn p s).cell p).role = .active := by
  have hactive : (if (s.cell p).role = .shadow then .active else (s.cell p).role) = Role.active := by
    obtain h | h := hrole <;> simp [h]
  unfold rampingIn
  dsimp only
  split
  · rw [updMig_role, cell_updCell_same]
    exact hactive
  · rw [cell_updCell_same]
    exact hactive

theorem restoreCellStart_spec (hrole : (s.cell p).role = .active ∨ (s.cell p).role = .shadow) (hphase : (s.cell p).mig.phase = .restoring)
    (hready : (s.cell p).configured = true) (hblock : atBlock s p = true) :
    let t := restoreCellStart p s
    t = { s with cells := t.cells, fabric := { s.fabric with ramps := t.fabric.ramps } } ∧ (t.cell p).mig.phase = .rampIn ∧
      (t.cell p).role = .active ∧
      ∀ k, Tab.get (fun _ => none) t.fabric.ramps k =
        if k = (s.cell p).logical.getD 0 then some (startedRamp p s) else Tab.get (fun _ => none) s.fabric.ramps k := by
  rw [restoreCellStart_eq hrole hphase hready hblock]
  refine ⟨?_, rampingIn_phase, rampingIn_role hrole, fun k => ?_⟩
  · rw [rampingIn_frame]
  · exact tab_get_set (fun _ => none) s.fabric.ramps ((s.cell p).logical.getD 0) k (some (startedRamp p s))

theorem restoreRampEnd_idle (h : ∀ r, Tab.get (fun _ => none) s.fabric.ramps ((s.cell p).logical.getD 0) = some r →
    ((s.cell p).role ≠ .active ∧ (s.cell p).role ≠ .idle) ∨ (s.cell p).mig.phase ≠ .rampIn ∨ s.sys.tick ≠ 64 * r.start + 4096) :
    restoreRampEnd p s = s := by
  unfold restoreRampEnd
  dsimp only
  split
  next => rfl
  next r hr =>
    refine if_neg ?_
    rintro ⟨hrole, hphase, hdue⟩
    obtain ⟨hactive, hidle⟩ | hother | hbefore := h r hr
    · exact hrole.elim hactive hidle
    · exact hother hphase
    · exact hbefore hdue

/-- What a cell shows of a restorative migration that is complete (Table 6.17). -/
def MigStat.ended (x : MigStat) : MigStat := { x with phase := .none, result := if x.result = .promoted then .promoted else .done }

/-- The ramp of the restored cell's returns is over. -/
def rampOver (p : Nat) (s : State) : State :=
  { updMig p MigStat.ended s with fabric := { s.fabric with ramps := Tab.set (fun _ => none) s.fabric.ramps ((s.cell p).logical.getD 0) none } }

theorem rampOver_ramps : Tab.get (fun _ => none) (rampOver p s).fabric.ramps ((s.cell p).logical.getD 0) = none :=
  tab_get_set_same (fun _ => none) s.fabric.ramps ((s.cell p).logical.getD 0) none

/-- The migration is complete, before the requests that wait: the event is the failed cell's, where the restored one has it as its partner. -/
def restoreOver (p : Nat) (s : State) : State :=
  match (s.cell p).mig.partner with
  | some q => migEvt q 0 (updMig q MigStat.ended (rampOver p s))
  | none => migEvt p 0 (rampOver p s)

section
variable {r : RetRamp}

theorem restoreRampEnd_eq (hramp : Tab.get (fun _ => none) s.fabric.ramps ((s.cell p).logical.getD 0) = some r)
    (hrole : (s.cell p).role = .active) (hphase : (s.cell p).mig.phase = .rampIn) (hdue : s.sys.tick = 64 * r.start + 4096) :
    restoreRampEnd p s = settle (dequeueMig (restoreOver p s)) := by
  unfold restoreRampEnd restoreOver
  simp only [hramp]
  rw [if_pos ⟨.inl hrole, hphase, hdue⟩]
  cases (s.cell p).mig.partner <;> rfl

theorem restoreOver_fabric : (restoreOver p s).fabric = (rampOver p s).fabric := by
  unfold restoreOver
  split <;> rfl

theorem rampOver_mem : (rampOver p s).mem = s.mem := by
  rw [rampOver, updMig_mem]

theorem restoreOver_mem : (restoreOver p s).mem = s.mem := by
  unfold restoreOver
  split <;> simp [migEvt, rampOver_mem]

theorem restoreOver_cell (hpartner : (s.cell p).mig.partner ≠ some p) : ((restoreOver p s).cell p).mig = (s.cell p).mig.ended := by
  have hover : ((rampOver p s).cell p).mig = (s.cell p).mig.ended := by
    rw [rampOver, cell_fabric, updMig_cell, if_pos rfl]
  unfold restoreOver
  split
  next q hq =>
    have hother : p ≠ q := by
      rintro rfl
      exact hpartner hq
    rw [migEvt_cell, updMig_cell, if_neg hother]
    exact hover
  next => exact hover

theorem restoreRampEnd_spec (hramp : Tab.get (fun _ => none) s.fabric.ramps ((s.cell p).logical.getD 0) = some r)
    (hrole : (s.cell p).role = .active) (hphase : (s.cell p).mig.phase = .rampIn) (hdue : s.sys.tick = 64 * r.start + 4096)
    (hpartner : (s.cell p).mig.partner ≠ some p) :
    (s.fabric.queue = [] → ((restoreRampEnd p s).cell p).mig = (s.cell p).mig.ended) ∧
      Tab.get (fun _ => none) (restoreRampEnd p s).fabric.ramps ((s.cell p).logical.getD 0) = none ∧ (restoreRampEnd p s).mem = s.mem := by
  rw [restoreRampEnd_eq hramp hrole hphase hdue, settle_cell, settle_fabric, (dequeueMig_leaves _).ramps, restoreOver_fabric]
  refine ⟨fun hqueue => ?_, rampOver_ramps, ?_⟩
  · have hempty : (restoreOver p s).fabric.queue = [] := (congrArg Fabric.queue restoreOver_fabric).trans hqueue
    rw [dequeueMig_cell_of_empty hempty, restoreOver_cell hpartner]
  · rw [settle_mem, mem_eq_of_fabricView (fabricView_dequeueMig p _)]
    exact restoreOver_mem

end

end

/-! ### The obligation -/

/-- Settles O32, a lemma for each step. -/
theorem cellMigrations : Obligations.CellMigrations := by
  unfold Obligations.CellMigrations
  refine ⟨fun s hapart => ⟨?_, ?_, ?_, ?_, ?_, ?_, ?_, ?_, ?_, ?_, ?_⟩, fun s p => ⟨?_, ?_, ?_, ?_, ?_, ?_⟩⟩
  · exact fun h => congrArg Host.Outcome.next (migrationLoaded_idle h)
  · exact fun g hmig hphase => ⟨_, rfl, migrationLoaded_spec hmig hphase⟩
  · exact fun h => congrArg Host.Outcome.next (migrationCopyStart_idle h)
  · intro g hmig hphase hready hblock
    refine ⟨_, congrArg Host.Outcome.next (migrationCopyStart_spec hmig hphase hready hblock), enterMig_fabric 0, enterMig_phase 0⟩
  · exact fun h => congrArg Host.Outcome.next (migrationCopyEnd_idle h)
  · intro g hmig hphase hdue hclean
    refine ⟨_, congrArg Host.Outcome.next (migrationCopyEnd_clean hmig hphase hdue ((Cell.found_eq_zero_iff ..).mpr hclean)),
      copied_cell_spare.1, copied_cell_spare.2, rfl, copied_cell_source (hapart g hmig), fun q => copied_cell_other⟩
  · intro g hmig hphase hdue hue
    refine ⟨_, rfl, migrationCopyEnd_ue_spec hmig hphase hdue ?_ (hapart g hmig)⟩
    rw [Ne, Cell.found_eq_zero_iff]
    obtain ⟨x, hx, hue⟩ := hue
    exact fun h => h x hx hue
  · exact fun h => congrArg Host.Outcome.next (migrationShadowStart_idle h)
  · exact fun g hmig hphase hcopied hblock => ⟨_, rfl, migrationShadowStart_spec hmig hphase hcopied hblock⟩
  · exact fun h => congrArg Host.Outcome.next (migrationSwitch_idle h)
  · exact fun g l hmig hphase hdue hlogical => ⟨_, rfl, migrationSwitch_spec hmig hphase hdue hlogical (hapart g hmig)⟩
  · exact fun h => congrArg Host.Outcome.next (restoreLoaded_idle h)
  · intro hrole hphase hunready
    refine ⟨_, congrArg Host.Outcome.next (restoreLoaded_eq hrole hphase hunready), rfl, cell_setCell_same .., fun q hother => ?_⟩
    exact cell_setCell_ne _ _ hother
  · exact fun h => congrArg Host.Outcome.next (restoreCellStart_idle h)
  · exact fun hrole hphase hready hblock => ⟨_, rfl, restoreCellStart_spec hrole hphase hready hblock⟩
  · exact fun h => congrArg Host.Outcome.next (restoreRampEnd_idle h)
  · intro r hramp hrole hphase hdue hpartner
    obtain ⟨hended, hover, hmem⟩ := restoreRampEnd_spec hramp hrole hphase hdue hpartner
    exact ⟨_, rfl, fun hqueue => ⟨congrArg MigStat.phase (hended hqueue), congrArg MigStat.result (hended hqueue)⟩, hover, hmem⟩

end Sys2Proof.Machine
end

section
/-! SUPPORT. The commands of the matrix engine: edits, safe-loads, the alarm set's swap, writes of the crosspoint windows (R183 to R195). -/
namespace Sys2Proof.Machine
open Sys2Proof

/-! ### The banks of the matrix -/

section
variable (x : Mxe) (n : Nat)

/-- Nothing but the banks and their parameters tells y from x. -/
def BanksOnly (x y : Mxe) : Prop := y = { x with bank0 := y.bank0, bank1 := y.bank1, par0 := y.par0, par1 := y.par1 }

theorem banksOnly_setBank (t : Tab Xpt) : BanksOnly x (x.setBank n t) := by
  unfold Mxe.setBank
  split <;> rfl

theorem banksOnly_setPar (t : Tab DestPar) : BanksOnly x (x.setPar n t) := by
  unfold Mxe.setPar
  split <;> rfl

theorem setBank_active (t : Tab Xpt) : (x.setBank n t).active = x.active := (congrArg Mxe.active (banksOnly_setBank x n t) :)
theorem setBank_alarmBank (t : Tab Xpt) : (x.setBank n t).alarmBank = x.alarmBank := (congrArg Mxe.alarmBank (banksOnly_setBank x n t) :)
theorem setBank_alarmDue (t : Tab Xpt) : (x.setBank n t).alarmDue = x.alarmDue := (congrArg Mxe.alarmDue (banksOnly_setBank x n t) :)

theorem setBank_dpar (t : Tab Xpt) : (x.setBank n t).dpar = x.dpar := by
  unfold Mxe.setBank
  split <;> rfl

theorem setPar_bank (t : Tab DestPar) : (x.setPar n t).bank = x.bank := by
  unfold Mxe.setPar
  split <;> rfl

variable {n} {k : Nat}

theorem setBank_bank (hn : n < 2) (hk : k < 2) (t : Tab Xpt) : (x.setBank n t).bank k = if k = n then t else x.bank k := by
  interval_cases n <;> interval_cases k <;> rfl

theorem setPar_par (hn : n < 2) (hk : k < 2) (t : Tab DestPar) : (x.setPar n t).par k = if k = n then t else x.par k := by
  interval_cases n <;> interval_cases k <;> rfl

end

/-! ### Edits (R188) -/

section
variable (m : Master) {c : Nat} {s : State}

/-- The edit that command c queues from the master's EDIT0 to EDIT2 (Table 7.7). -/
def editOf (m : Master) (c : Nat) (s : State) : Edit :=
  let r := Tab.get (fun _ => ({} : EditRegs)) s.mxe.edits m.idx
  ⟨c, bits r.e0 0 12, bits r.e0 16 12, sInt 20 (bits r.e1 0 20), bits r.e2 0 12, if bit r.e2 31 then some (bits r.e2 16 12) else none⟩

/-- No index that an edit uses names an entry of kind NONE. -/
def Edit.Named (e : Edit) (x : Mxe) : Prop :=
  mapKind (x.srcEnt e.src) ≠ 0 ∧ mapKind (x.dstEnt e.dst) ≠ 0 ∧ (e.cmd = 3 → mapKind (x.srcEnt e.srcOld) ≠ 0)

/-- The test of the model for a discarded edit. -/
theorem not_named_iff {e : Edit} {x : Mxe} :
    ¬ e.Named x ↔ mapKind (x.srcEnt e.src) = 0 ∨ mapKind (x.dstEnt e.dst) = 0 ∨ (e.cmd = 3 ∧ mapKind (x.srcEnt e.srcOld) = 0) := by
  unfold Edit.Named
  tauto

theorem editCmd_unnamed (hc : c ≠ 0) (h : ¬ (editOf m c s).Named s.mxe) : editCmd m c s = s.updMxe fun x => { x with bad := true } := by
  rw [editCmd, if_neg hc]
  exact if_pos (not_named_iff.mp h)

/-- The state of an edit that finds the queue full, before it is detected. -/
def editLost (s : State) : State := s.updMxe fun x => { x with overflow := true }

theorem editCmd_overflow (hc : c ≠ 0) (h : (editOf m c s).Named s.mxe) (hfull : 256 ≤ s.mxe.queue.length) :
    editCmd m c s = raise .mxe 3 (editLost s) := by
  rw [editCmd, if_neg hc]
  exact (if_neg (not_named_iff.not_right.mp h)).trans (if_pos hfull)

theorem editCmd_queued (hc : c ≠ 0) (h : (editOf m c s).Named s.mxe) (hroom : s.mxe.queue.length < 256) :
    editCmd m c s = s.updMxe fun x => { x with queue := x.queue ++ [editOf m c s] } := by
  rw [editCmd, if_neg hc]
  exact (if_neg (not_named_iff.not_right.mp h)).trans (if_neg (Nat.not_le.mpr hroom))

theorem editCmd_frame : ∃ regs sys queue bad overflow,
    editCmd m c s = { s with regs := regs, sys := sys, mxe := { s.mxe with queue := queue, bad := bad, overflow := overflow } } := by
  unfold editCmd
  split
  · exact ⟨_, _, _, _, _, rfl⟩
  · extract_lets r e
    split
    · exact ⟨_, _, _, _, _, rfl⟩
    · split
      · exact ⟨_, _, _, _, _, raise_frame ..⟩
      · exact ⟨_, _, _, _, _, rfl⟩

theorem exec_edit {e : Instr × Nat} (h : e ∈ [(Instr.set m, 1), (.remove m, 2), (.xfade m, 3)]) (s : State) :
    e.2 ≠ 0 ∧ exec e.1 s = .next (cmd m false (editCmd m e.2) s) := by
  simp only [List.mem_cons, List.not_mem_nil, or_false] at h
  obtain rfl | rfl | rfl := h <;> exact ⟨Nat.succ_ne_zero _, rfl⟩

end

/-! ### Safe-loads (R190, R193) -/

theorem matrixLoading_congr {s t : State} (hmem : t.mem = s.mem) (himg : t.img = s.img) : matrixLoading t = matrixLoading s := by
  simp only [matrixLoading, himg, headerAt_congr hmem]

section
variable (unb : Bool) {s : State}

theorem swapReq_alarm (h : s.sys.alarm = true) : swapReq unb s = swapResult .alarm s := if_pos h

theorem swapReq_busy (halarm : s.sys.alarm = false) (h : s.mxe.swapPending = true) : swapReq unb s = swapResult .busy s := by
  rw [swapReq, halarm, if_neg Bool.false_ne_true, if_pos h]

theorem swapReq_loading (halarm : s.sys.alarm = false) (hidle : s.mxe.swapPending = false) (h : matrixLoading s = true) :
    swapReq unb s = swapResult .loading s := by
  rw [swapReq, halarm, hidle, if_neg Bool.false_ne_true, if_neg Bool.false_ne_true, if_pos h]

theorem swapReq_pending (halarm : s.sys.alarm = false) (hidle : s.mxe.swapPending = false) (h : matrixLoading s = false) :
    swapReq unb s =
      { s with
        mxe := { s.mxe with swapPending := true, checking := s.img.state != .checking, boundWait := s.img.state == .checking, swapUnb := unb, swapDue := false }
        ldg := { s.ldg with busy := true } } := by
  rw [swapReq, halarm, hidle, h]
  rfl

theorem swapReq_frame : ∃ x busy, swapReq unb s = { s with mxe := x, ldg := { s.ldg with busy := busy } } ∧
    x.bank0 = s.mxe.bank0 ∧ x.bank1 = s.mxe.bank1 ∧ x.active = s.mxe.active := by
  unfold swapReq
  split
  · exact ⟨_, _, rfl, rfl, rfl, rfl⟩
  · split
    · exact ⟨_, _, rfl, rfl, rfl, rfl⟩
    · split <;> exact ⟨_, _, rfl, rfl, rfl, rfl⟩

/-- A request leaves both banks, and which of them is active, whatever becomes of it. -/
theorem swapReq_banks : (swapReq unb s).mxe.bank0 = s.mxe.bank0 ∧ (swapReq unb s).mxe.bank1 = s.mxe.bank1 ∧ (swapReq unb s).mxe.active = s.mxe.active := by
  obtain ⟨x, busy, hframe, hbanks⟩ := swapReq_frame unb (s := s)
  rw [hframe]
  exact hbanks

/-- The state in which a request for a swap is judged: CTRL holds its option. -/
def swapAsked (unb : Bool) (s : State) : State := s.setFld 0x40100000 2 1 (b2n unb)

variable {m : Master}

theorem exec_swap (h : MayWrite m s) : exec (.swap m unb) s = .next (respond m .ok [] (swapReq unb (swapAsked unb s))) :=
  congrArg Host.Outcome.next (mayWrite_cmd _ h)

theorem swapCancel_pending (h : s.mxe.swapPending = true) : swapCancel s = endSwap .cancelled s := if_pos h

theorem swapCancel_moot (h : s.mxe.swapPending = false) : swapCancel s = swapResult .moot s := by
  rw [swapCancel, h, if_neg Bool.false_ne_true]

theorem swapCancel_frame : ∃ x g, swapCancel s = { s with mxe := x, ldg := g } ∧ x.swapPending = false ∧ x.resTick = s.sys.tick % 65536 := by
  cases h : s.mxe.swapPending with
  | true =>
    rw [swapCancel_pending h]
    exact ⟨_, _, rfl, rfl, rfl⟩
  | false =>
    rw [swapCancel_moot h]
    exact ⟨_, _, rfl, h, rfl⟩

end

/-! ### The swap of the alarm set (R192, R194) -/

section
variable (x : Mxe) (s : State)

theorem exchange_active : (exchange x).1.active = x.inactive := rfl

theorem exchange_alarmDue : (exchange x).1.alarmDue = x.alarmDue := by
  unfold exchange
  exact (setBank_alarmDue _ _ _).trans (setBank_alarmDue _ _ _)

theorem mxeOpen_eq : ∃ y, mxeOpen s = { s with mxe := y } ∧ y.active = s.mxe.active := by
  unfold mxeOpen
  split
  · exact ⟨s.mxe, rfl, rfl⟩
  · exact ⟨_, rfl, setBank_active ..⟩

/-- What the swap invalidates is detected, in the registers and SYS. -/
theorem alarmExchange_eq (v : Bool) :
    ∃ regs sys, alarmExchange v s = { s with regs := regs, sys := sys, mxe := { (exchange s.mxe).1 with alarmBank := v } } := by
  unfold alarmExchange
  extract_lets r t
  split
  · exact ⟨_, _, raise_frame ..⟩
  · exact ⟨_, _, rfl⟩

/-- What a swap to the alarm set, performed, leaves of the state and shows in MXE. -/
def AlarmSwapped (s t : State) : Prop :=
  t = { s with regs := t.regs, sys := t.sys, mxe := t.mxe } ∧ t.mxe.active = s.mxe.inactive ∧ t.mxe.alarmBank = true ∧ t.mxe.alarmDue = none

variable {s}

/-- The opened boundary in which the alarm set takes over, its swap no longer due. -/
def alarmOpened (s : State) : State := (mxeOpen s).updMxe fun x => { x with alarmDue := none }

theorem alarmSwap_due (hdue : s.mxe.alarmDue = some s.sys.tick) (halarm : s.sys.alarm = true) (hlit : s.sys.snuffed = false) :
    alarmSwap s = alarmExchange true (alarmOpened s) := if_pos ⟨hdue, halarm, hlit⟩

theorem alarmSwapped_exchange : AlarmSwapped s (alarmExchange true (alarmOpened s)) := by
  obtain ⟨y, hopen, hactive⟩ := mxeOpen_eq s
  obtain ⟨regs, sys, hswap⟩ := alarmExchange_eq (alarmOpened s) true
  rw [hswap, alarmOpened, hopen]
  exact ⟨rfl, congrArg (1 - ·) hactive, rfl, exchange_alarmDue _⟩

theorem alarmSwapped_finishRamps {t : State} (h : AlarmSwapped s t) : AlarmSwapped s (finishRamps t) := by
  obtain ⟨hframe, hactive, hbank, hdue⟩ := h
  refine ⟨?_, (setBank_active ..).trans hactive, (setBank_alarmBank ..).trans hbank, (setBank_alarmDue ..).trans hdue⟩
  unfold finishRamps State.updMxe
  rw [hframe]

theorem alarmBankSwap_idle (h : s.mxe.alarmDue ≠ some s.sys.tick ∨ s.sys.alarm = false ∨ s.sys.snuffed = true) : alarmBankSwap s = s := by
  refine if_neg ?_
  rintro ⟨hdue, halarm, hlit⟩
  obtain h | h | h := h
  · exact h hdue
  · exact Bool.false_ne_true (h.symm.trans halarm)
  · exact Bool.false_ne_true (hlit.symm.trans h)

theorem alarmBankSwap_due (hdue : s.mxe.alarmDue = some s.sys.tick) (halarm : s.sys.alarm = true) (hlit : s.sys.snuffed = false) :
    AlarmSwapped s (alarmBankSwap s) := by
  rw [alarmBankSwap, if_pos ⟨hdue, halarm, hlit⟩, alarmSwap_due hdue halarm hlit]
  dsimp only
  split
  · exact alarmSwapped_exchange
  · exact alarmSwapped_finishRamps alarmSwapped_exchange

end

/-! ### Writes of the crosspoint windows (R183 to R185) -/

/-- The entry after a write of its word k (Table 7.4). -/
def Xpt.written (e : Xpt) (k : Nat) (v : Word) : Xpt :=
  match k with
  | 0 => { e with valid := bit v 31, dst := bits v 12 12, src := bits v 0 12 }
  | 1 => { e with tgt := sInt 20 (bits v 0 20) }
  | _ => e

/-- The parameters after a write of their word k (Table 7.5). -/
def DestPar.written (p : DestPar) (k : Nat) (v : Word) : DestPar :=
  match k with
  | 0 => { p with w0 := (v &&& 0x0FFF003F).toNat }
  | 1 => { p with w4 := bits v 0 19 }
  | 2 => { p with w8 := bits v 0 16 }
  | _ => p

/-- Entry k of bank n. -/
def Mxe.entry (x : Mxe) (n k : Nat) : Xpt := Tab.get (fun _ => {}) (x.bank n) k

/-- A bank whose entry at an offset has a word written. -/
def Mxe.entryWritten (x : Mxe) (b off : Nat) (v : Word) : Mxe :=
  x.setBank b (putXpt (x.bank b) (off / 16) ((x.entry b (off / 16)).written (off % 16 / 4) v))

/-- A bank whose parameters at an offset have a word written. -/
def Mxe.parWritten (x : Mxe) (b off : Nat) (v : Word) : Mxe :=
  let d := off % 0x10000 / 16
  x.setPar b (Tab.set (fun _ => ({} : DestPar)) (x.par b) d ((x.dpar b d).written (off % 16 / 4) v))

section
variable {s : State} {b off : Nat} {v : Word}

theorem matrixWrite_past (h : 0x220000 ≤ off) : matrixWrite b off v s = (s, .decodeErr) := if_pos h

theorem matrixWrite_refused (hoff : off < 0x220000) (h : 0x210000 ≤ off ∨ b = s.mxe.active ∨ s.mxe.swapPending = true ∨ s.sys.alarm = true) :
    matrixWrite b off v s = (s, .accessErr) := by
  rw [matrixWrite, if_neg (Nat.not_le.mpr hoff)]
  by_cases hmap : 0x210000 ≤ off
  · exact if_pos hmap
  · rw [if_neg hmap, if_pos (h.resolve_left hmap)]

/-- Neither the active bank, nor one that a pending swap or the alarm set holds, takes a write. -/
theorem matrixWrite_entry (hoff : off < 0x200000) (hbank : b ≠ s.mxe.active) (hidle : s.mxe.swapPending = false) (halarm : s.sys.alarm = false) :
    matrixWrite b off v s = ({ s with mxe := s.mxe.entryWritten b off v }, .ok) := by
  rw [matrixWrite, if_neg (by omega), if_neg (by omega), if_neg (by simp [hbank, hidle, halarm]), if_pos hoff]
  rfl

theorem matrixWrite_par (hoff : off < 0x210000) (hpar : 0x200000 ≤ off) (hbank : b ≠ s.mxe.active) (hidle : s.mxe.swapPending = false)
    (halarm : s.sys.alarm = false) : matrixWrite b off v s = ({ s with mxe := s.mxe.parWritten b off v }, .ok) := by
  rw [matrixWrite, if_neg (by omega), if_neg (by omega), if_neg (by simp [hbank, hidle, halarm]), if_neg (Nat.not_lt.mpr hpar)]
  rfl

variable {x : Mxe} {n k : Nat}

theorem entry_entryWritten (hb : b < 2) (hn : n < 2) :
    (x.entryWritten b off v).entry n k = if n = b ∧ k = off / 16 then (x.entry b (off / 16)).written (off % 16 / 4) v else x.entry n k := by
  rw [Mxe.entryWritten, Mxe.entry, setBank_bank x hb hn]
  by_cases h : n = b
  · subst h
    simp only [if_true, true_and]
    exact tab_get_set ..
  · rw [if_neg h, if_neg fun hk => h hk.1]
    rfl

theorem dpar_parWritten (hb : b < 2) (hn : n < 2) :
    (x.parWritten b off v).dpar n k =
      if n = b ∧ k = off % 0x10000 / 16 then (x.dpar b (off % 0x10000 / 16)).written (off % 16 / 4) v else x.dpar n k := by
  rw [Mxe.parWritten, Mxe.dpar, setPar_par x hb hn]
  by_cases h : n = b
  · subst h
    simp only [if_true, true_and]
    exact tab_get_set ..
  · rw [if_neg h, if_neg fun hk => h hk.1]
    rfl

theorem dpar_entryWritten : (x.entryWritten b off v).dpar = x.dpar := setBank_dpar ..
theorem entry_parWritten : (x.parWritten b off v).entry = x.entry :=
  congrArg (fun (bank : Nat → Tab Xpt) n k => Tab.get (fun _ => ({} : Xpt)) (bank n) k) (setPar_bank ..)

theorem matrixWrite_frame : ∃ y, (matrixWrite b off v s).1 = { s with mxe := y } ∧ BanksOnly s.mxe y := by
  unfold matrixWrite
  split
  · exact ⟨s.mxe, rfl, rfl⟩
  · split
    · exact ⟨s.mxe, rfl, rfl⟩
    · split
      · exact ⟨s.mxe, rfl, rfl⟩
      · split
        · exact ⟨_, rfl, banksOnly_setBank ..⟩
        · exact ⟨_, rfl, banksOnly_setPar ..⟩

end

/-! ### The commands -/

section
variable {m : Master} {s : State}

theorem edit_spec {e : Instr × Nat} (hreach : Reaches m s) (he : e ∈ [(Instr.set m, 1), (.remove m, 2), (.xfade m, 3)]) :
    ∃ t, exec e.1 s = .next t ∧ t.resp m = ⟨.ok, []⟩ ∧
      t = { s with bus := t.bus, regs := t.regs, sys := t.sys, mxe := { s.mxe with queue := t.mxe.queue, bad := t.mxe.bad, overflow := t.mxe.overflow } } ∧
      (¬ (editOf m e.2 s).Named s.mxe → t = { s with bus := t.bus, mxe := { s.mxe with bad := true } }) ∧
      ((editOf m e.2 s).Named s.mxe → 256 ≤ s.mxe.queue.length → t.mxe.queue = s.mxe.queue ∧ t.mxe.overflow = true ∧ t.faultBit .mxe 3 = true) ∧
      ((editOf m e.2 s).Named s.mxe → s.mxe.queue.length < 256 →
        t = { s with bus := t.bus, mxe := { s.mxe with queue := s.mxe.queue ++ [editOf m e.2 s] } }) := by
  obtain ⟨hc, hexec⟩ := exec_edit m he s
  refine ⟨respond m .ok [] (editCmd m e.2 s), ?_, resp_respond_same .., ?_, fun h => ?_, fun h hfull => ?_, fun h hroom => ?_⟩
  · rw [hexec, cmd_ok hreach (.inl rfl)]
  · obtain ⟨regs, sys, queue, bad, overflow, hframe⟩ := editCmd_frame m (c := e.2) (s := s)
    rw [hframe]
    rfl
  · rw [editCmd_unnamed m hc h]
    rfl
  · rw [editCmd_overflow m hc h hfull]
    exact ⟨rfl, rfl, raise_fault .mxe 3 (editLost s) (by decide)⟩
  · rw [editCmd_queued m hc h hroom]
    rfl

theorem swap_spec (hwrite : MayWrite m s) (unb : Bool) :
    ∃ t, exec (.swap m unb) s = .next t ∧ t.resp m = ⟨.ok, []⟩ ∧
      t = { s with bus := t.bus, regs := t.regs, mxe := t.mxe, ldg := { s.ldg with busy := t.ldg.busy } } ∧ (∀ a, a ≠ 0x40100000 → t.reg a = s.reg a) ∧
      t.mxe.bank0 = s.mxe.bank0 ∧ t.mxe.bank1 = s.mxe.bank1 ∧ t.mxe.active = s.mxe.active ∧
      (s.sys.alarm = true → t.mxe.result = .alarm ∧ t.mxe.swapPending = s.mxe.swapPending) ∧
      (s.sys.alarm = false → s.mxe.swapPending = true → t.mxe.result = .busy ∧ t.mxe.swapPending = true ∧ t.mxe.swapUnb = s.mxe.swapUnb) ∧
      (s.sys.alarm = false → s.mxe.swapPending = false → matrixLoading s = true → t.mxe.result = .loading ∧ t.mxe.swapPending = false) ∧
      (s.sys.alarm = false → s.mxe.swapPending = false → matrixLoading s = false →
        t.mxe = { s.mxe with swapPending := true, checking := s.img.state != .checking, boundWait := s.img.state == .checking, swapUnb := unb, swapDue := false } ∧
        t.ldg.busy = true) := by
  obtain ⟨hbank0, hbank1, hactive⟩ := swapReq_banks unb (s := swapAsked unb s)
  obtain ⟨x, busy, hframe, -⟩ := swapReq_frame unb (s := swapAsked unb s)
  have hload : matrixLoading (swapAsked unb s) = matrixLoading s := matrixLoading_congr rfl rfl
  refine ⟨_, exec_swap unb hwrite, resp_respond_same .., ?_, fun a ha => ?_, hbank0, hbank1, hactive,
    fun halarm => ?_, fun halarm hpending => ?_, fun halarm hidle hloading => ?_, fun halarm hidle hloading => ?_⟩
  · rw [hframe]
    rfl
  · rw [hframe]
    exact reg_setReg_ne s _ ha
  · rw [swapReq_alarm unb (s := swapAsked unb s) halarm]
    exact ⟨rfl, rfl⟩
  · rw [swapReq_busy unb (s := swapAsked unb s) halarm hpending]
    exact ⟨rfl, hpending, rfl⟩
  · rw [swapReq_loading unb (s := swapAsked unb s) halarm hidle (hload.trans hloading)]
    exact ⟨rfl, hidle⟩
  · rw [swapReq_pending unb (s := swapAsked unb s) halarm hidle (hload.trans hloading)]
    exact ⟨rfl, rfl⟩

theorem swapCancel_spec (hwrite : MayWrite m s) :
    ∃ t, exec (.swapCancel m) s = .next t ∧ t.resp m = ⟨.ok, []⟩ ∧ t = { s with bus := t.bus, mxe := t.mxe, ldg := t.ldg } ∧
      t.mxe.swapPending = false ∧ t.mxe.resTick = s.sys.tick % 65536 ∧
      (s.mxe.swapPending = true → t.mxe.result = .cancelled ∧ t.mxe.checking = false ∧ t.mxe.boundWait = false ∧ t.mxe.swapDue = false ∧
        t.ldg.busy = (s.img.state == .checking)) ∧
      (s.mxe.swapPending = false → t.mxe = { s.mxe with result := .moot, resTick := s.sys.tick % 65536 } ∧ t.ldg = s.ldg) := by
  obtain ⟨x, g, hframe, hends, htick⟩ := swapCancel_frame (s := s)
  refine ⟨respond m .ok [] (swapCancel s), congrArg Host.Outcome.next (mayWrite_cmd _ hwrite), resp_respond_same .., ?_, ?_, ?_,
    fun hpending => ?_, fun hidle => ?_⟩
  · rw [hframe]
    rfl
  · rw [hframe]
    exact hends
  · rw [hframe]
    exact htick
  · rw [swapCancel_pending hpending]
    exact ⟨rfl, rfl, rfl, rfl, rfl⟩
  · rw [swapCancel_moot hidle]
    exact ⟨rfl, rfl⟩

theorem matrixTableWrite_spec (hpath : pathErr m .matrix s = none) (b : Fin 2) (off : Fin 16777216) (v : Word) :
    ∃ t, exec (.matrixTableWrite m b off v) s = .next t ∧
      t = { s with bus := t.bus, mxe := { s.mxe with bank0 := t.mxe.bank0, bank1 := t.mxe.bank1, par0 := t.mxe.par0, par1 := t.mxe.par1 } } ∧
      (0x220000 ≤ off.val → t.resp m = ⟨.decodeErr, []⟩ ∧ t.mxe = s.mxe) ∧
      (off.val < 0x220000 → (0x210000 ≤ off.val ∨ b.val = s.mxe.active ∨ s.mxe.swapPending = true ∨ s.sys.alarm = true) →
        t.resp m = ⟨.accessErr, []⟩ ∧ t.mxe = s.mxe) ∧
      (off.val < 0x210000 → b.val ≠ s.mxe.active → s.mxe.swapPending = false → s.sys.alarm = false → t.resp m = ⟨.ok, []⟩ ∧
        (∀ n j, n < 2 → (n ≠ b.val ∨ j ≠ off.val / 16 ∨ 0x200000 ≤ off.val) → t.mxe.entry n j = s.mxe.entry n j) ∧
        (∀ n j, n < 2 → (n ≠ b.val ∨ j ≠ off.val % 0x10000 / 16 ∨ off.val < 0x200000) → t.mxe.dpar n j = s.mxe.dpar n j) ∧
        (off.val < 0x200000 → t.mxe.entry b (off.val / 16) = (s.mxe.entry b (off.val / 16)).written (off.val % 16 / 4) v) ∧
        (0x200000 ≤ off.val →
          t.mxe.dpar b (off.val % 0x10000 / 16) = (s.mxe.dpar b (off.val % 0x10000 / 16)).written (off.val % 16 / 4) v)) := by
  have hb : b.val < 2 := b.isLt
  refine ⟨_, congrArg Host.Outcome.next (cmdAt_ok hpath), ?_, fun hpast => ?_, fun hoff hshut => ?_, fun hoff hbank hidle halarm => ?_⟩
  · obtain ⟨y, hwrite, honly⟩ := matrixWrite_frame (s := s) (b := b.val) (off := off.val) (v := v)
    rw [hwrite]
    exact congrArg (fun y => respond m (matrixWrite b.val off.val v s).2 [] { s with mxe := y }) honly
  · rw [matrixWrite_past hpast]
    exact ⟨resp_respond_same .., rfl⟩
  · rw [matrixWrite_refused hoff hshut]
    exact ⟨resp_respond_same .., rfl⟩
  · by_cases hentry : off.val < 0x200000
    · rw [matrixWrite_entry hentry hbank hidle halarm]
      refine ⟨resp_respond_same .., fun n j hn hother => ?_, fun n j _ _ => ?_, fun _ => ?_, fun hpar => absurd hentry (Nat.not_lt.mpr hpar)⟩
      · exact (entry_entryWritten hb hn).trans (if_neg (by omega))
      · exact congrFun (congrFun dpar_entryWritten n) j
      · exact (entry_entryWritten hb hb).trans (if_pos ⟨rfl, rfl⟩)
    · rw [matrixWrite_par hoff (Nat.not_lt.mp hentry) hbank hidle halarm]
      refine ⟨resp_respond_same .., fun n j _ _ => ?_, fun n j hn hother => ?_, fun h => absurd h hentry, fun _ => ?_⟩
      · exact congrFun (congrFun entry_parWritten n) j
      · exact (dpar_parWritten hb hn).trans (if_neg (by omega))
      · exact (dpar_parWritten hb hb).trans (if_pos ⟨rfl, rfl⟩)

end

/-- Settles O34, a lemma for each command. -/
theorem matrixCommands : Obligations.MatrixCommands := by
  unfold Obligations.MatrixCommands
  refine fun s m => ⟨fun hreach e he => edit_spec hreach he, swap_spec, swapCancel_spec, fun h => ?_, fun hdue halarm hlit => ?_, fun hpath b off v => ?_⟩
  · exact congrArg Host.Outcome.next (alarmBankSwap_idle h)
  · exact ⟨_, rfl, alarmBankSwap_due hdue halarm hlit⟩
  · exact matrixTableWrite_spec hpath b off v

end Sys2Proof.Machine
end

section
/-! SUPPORT. The message players and the delays of the lines (R199 to R201, R205). -/
namespace Sys2Proof.Machine
open Sys2Proof

/-! ### A player -/

theorem player_congr {s t : State} (h : t.mxe = s.mxe) (j : Nat) : t.player j = s.player j := by rw [State.player, State.player, h]

@[simp] theorem respond_player (m : Master) (c : Code) (ws : List Word) (s : State) (j : Nat) : (respond m c ws s).player j = s.player j := rfl
@[simp] theorem raise_player (b : Blk) (k : Nat) (s : State) (j : Nat) : (raise b k s).player j = s.player j := player_congr (raise_mxe ..) j

section
variable (i : Nat) (f : Player → Player) (s : State)

theorem player_updPlayer (j : Nat) : (updPlayer i f s).player j = if j = i then f (s.player i) else s.player j :=
  tab_get_set _ s.mxe.players i j _

theorem player_updPlayer_same : (updPlayer i f s).player i = f (s.player i) := (player_updPlayer i f s i).trans (if_pos rfl)

/-- Of MXE, nothing but player i tells t from s. -/
def OnlyPlayer (i : Nat) (s t : State) : Prop := t.mxe = { s.mxe with players := t.mxe.players } ∧ ∀ j, j ≠ i → t.player j = s.player j

theorem onlyPlayer_refl : OnlyPlayer i s s := ⟨rfl, fun _ _ => rfl⟩

theorem onlyPlayer_updPlayer : OnlyPlayer i s (updPlayer i f s) := ⟨rfl, fun j hj => (player_updPlayer i f s j).trans (if_neg hj)⟩

variable {i f s}

theorem onlyPlayer_congr {t u : State} (h : u.mxe = t.mxe) (ht : OnlyPlayer i s t) : OnlyPlayer i s u := by
  obtain ⟨hframe, hothers⟩ := ht
  refine ⟨?_, fun j hj => (player_congr h j).trans (hothers j hj)⟩
  rw [h]
  exact hframe

/-- What an operation on MXE leaves of the state, where it makes player i p and changes no other. -/
def PlayerSet (i : Nat) (p : Player) (s t : State) : Prop := t = { s with mxe := t.mxe } ∧ OnlyPlayer i s t ∧ t.player i = p

theorem playerSet_updPlayer {p : Player} (h : f (s.player i) = p) : PlayerSet i p s (updPlayer i f s) :=
  ⟨rfl, onlyPlayer_updPlayer i f s, (player_updPlayer_same i f s).trans h⟩

end

/-! ### START (R199, R200) -/

/-- A START that a player refuses with a result. -/
def startRefused (r : PlayResult) (i : Nat) (s : State) : State := updPlayer i (fun p => { p with result := r }) s

/-- PLAYi_AT. -/
def playAt (i : Nat) (s : State) : Nat := (s.reg (0x40101004 + 0x20 * i)).toNat + (s.reg (0x40101008 + 0x20 * i)).toNat * 2 ^ 32

/-- The START in w asks for a tick that has passed. -/
def startLate (i : Nat) (w : Word) (s : State) : Bool := bit w 2 && decide (playAt i s < s.sys.tick)

/-- The player that the START in w arms. -/
def armedPlayer (i : Nat) (w : Word) (s : State) : Player :=
  { state := .armed, result := if startLate i w s then .lateArm else .none, pass := 1, pos := 0, msg := bits w 8 10, rep := bits w 24 8
    start := (if bit w 2 && !startLate i w s then 64 * ceilDiv (playAt i s) 64 else nextBoundary s.sys.tick) / 64 }

section
variable {i : Nat} {w : Word} {s : State}

theorem playStart_busy (h : (s.player i).state ≠ .idle) : playStart i w s = startRefused .busy i s := if_pos h

variable (hidle : (s.player i).state = .idle)
include hidle

theorem playStart_notRun (hrun : s.sys.run = false) : playStart i w s = startRefused .notRun i s := by
  rw [playStart, if_neg (not_not.mpr hidle), hrun]
  rfl

variable (hrun : s.sys.run = true)
include hrun

theorem playStart_badMsg (hmsg : msgCount s ≤ bits w 8 10) : playStart i w s = startRefused .badMsg i s := by
  rw [playStart, if_neg (not_not.mpr hidle), if_neg (by simp [hrun])]
  exact if_pos hmsg

variable (hmsg : bits w 8 10 < msgCount s)
include hmsg

theorem playStart_corrupt (hcorrupt : s.mxe.corrupt.contains (bits w 8 10) = true) :
    playStart i w s = raise .mxe 2 (startRefused .corrupt i s) := by
  rw [playStart, if_neg (not_not.mpr hidle), if_neg (by simp [hrun])]
  exact (if_neg (Nat.not_le.mpr hmsg)).trans (if_pos hcorrupt)

theorem playStart_armed (hgood : s.mxe.corrupt.contains (bits w 8 10) = false) :
    playStart i w s = updPlayer i (fun _ => armedPlayer i w s) s := by
  have hsound : ¬ s.mxe.corrupt.contains (bits w 8 10) = true := by rw [hgood]; exact Bool.false_ne_true
  rw [playStart, if_neg (not_not.mpr hidle), if_neg (by simp [hrun])]
  exact (if_neg (Nat.not_le.mpr hmsg)).trans (if_neg hsound)

end

theorem playStart_frame (i : Nat) (w : Word) (s : State) :
    ∃ regs sys x, playStart i w s = { s with regs := regs, sys := sys, mxe := x } ∧ OnlyPlayer i s (playStart i w s) := by
  unfold playStart
  extract_lets p refuse msg at_ late start
  split
  · exact ⟨_, _, _, rfl, onlyPlayer_updPlayer ..⟩
  · split
    · exact ⟨_, _, _, rfl, onlyPlayer_updPlayer ..⟩
    · split
      · exact ⟨_, _, _, rfl, onlyPlayer_updPlayer ..⟩
      · split
        · exact ⟨_, _, _, raise_frame .., onlyPlayer_congr (raise_mxe ..) (onlyPlayer_updPlayer ..)⟩
        · exact ⟨_, _, _, rfl, onlyPlayer_updPlayer ..⟩

/-- The state in which a write w of PLAYi_CTRL acts: the fields are kept, but CMD. -/
def playWritten (i : Nat) (w : Word) (s : State) : State := s.setReg (0x40101000 + 0x20 * i) (w &&& 0xFF03FF04)

section
variable (i : Nat) (v w : Word) (s : State)

theorem playCtrl_start : playCtrl i (setBits v 0 2 1) s = playStart i (setBits v 0 2 1) (playWritten i (setBits v 0 2 1) s) := by
  have hcmd : bits (setBits v 0 2 1) 0 2 = 1 := bits_setBits_same (by decide) (by decide)
  rw [playCtrl, hcmd]
  rfl

theorem msgCount_playWritten : msgCount (playWritten i w s) = msgCount s := by
  have hmem : (playWritten i w s).mem = s.mem := rfl
  have himg : (playWritten i w s).img = s.img := rfl
  simp only [msgCount, msgBase, storeRec_congr hmem himg, State.le_congr hmem]

/-- PLAYi_AT stands beside the written register. -/
theorem playAt_playWritten : playAt i (playWritten i w s) = playAt i s := by
  rw [playAt, playWritten, reg_setReg_ne _ _ (by omega), reg_setReg_ne _ _ (by omega)]
  rfl

theorem armedPlayer_playWritten : armedPlayer i w (playWritten i w s) = armedPlayer i w s := by
  simp only [armedPlayer, startLate, playAt_playWritten]
  rfl

end

/-! ### STOP and FINISH (Table 7.11) -/

/-- A player after a STOP in tick t. -/
def Player.stopped (p : Player) (t : Nat) : Player :=
  match p.state with
  | .armed => { p with state := .idle, result := .stopped }
  | .playing => { p with state := .stopping, stopFrame := nextBoundary t / 64 }
  | _ => { p with result := .moot }

/-- A player after a FINISH. -/
def Player.finishing (p : Player) : Player :=
  match p.state with
  | .playing => { p with finish := true }
  | .armed => p
  | _ => { p with result := .moot }

section
variable (i : Nat) (s : State)

theorem playStop_spec : PlayerSet i ((s.player i).stopped s.sys.tick) s (playStop i s) := by
  cases h : (s.player i).state <;> simp only [playStop, h] <;> exact playerSet_updPlayer (by simp only [Player.stopped, h])

theorem playFinish_spec : PlayerSet i (s.player i).finishing s (playFinish i s) := by
  cases h : (s.player i).state <;> simp only [playFinish, h]
  case armed => exact ⟨rfl, onlyPlayer_refl .., by simp only [Player.finishing, h]⟩
  all_goals exact playerSet_updPlayer (by simp only [Player.finishing, h])

end

/-! ### The events of a player (R199 to R201) -/

section
variable {i : Nat} {s : State}

theorem playerFirst_idle (h : (s.player i).state ≠ .armed ∨ s.atFrame = false ∨ s.frame < (s.player i).start) : playerFirst i s = s := by
  refine if_neg ?_
  rintro ⟨hstate, hframe, hstart⟩
  obtain h | h | h := h
  · exact h hstate
  · exact Bool.false_ne_true (h.symm.trans hframe)
  · exact Nat.not_lt.mpr hstart h

theorem playerFirst_due (hstate : (s.player i).state = .armed) (hframe : s.atFrame = true) (hstart : (s.player i).start ≤ s.frame) :
    PlayerSet i { s.player i with state := .playing } s (playerFirst i s) := by
  rw [playerFirst, if_pos ⟨hstate, hframe, hstart⟩]
  exact playerSet_updPlayer rfl

theorem playerDone_idle (h : (s.player i).state ≠ .playing ∨ (s.player i).ended = false) : playerDone i s = s := by
  refine if_neg ?_
  rintro ⟨hstate, hended⟩
  obtain h | h := h
  · exact h hstate
  · exact Bool.false_ne_true (h.symm.trans hended)

theorem playerDone_due (hstate : (s.player i).state = .playing) (hended : (s.player i).ended = true) :
    let t := playerDone i s
    t = { s with regs := t.regs, mxe := t.mxe } ∧ OnlyPlayer i s t ∧ t.player i = { s.player i with state := .idle, result := .done, ended := false } ∧
      t.rbit (Blk.mxe.base + 0x40) 4 = true := by
  rw [playerDone, if_pos ⟨hstate, hended⟩]
  exact ⟨rfl, onlyPlayer_congr (evt_mxe ..) (onlyPlayer_updPlayer ..), (player_congr (evt_mxe ..) i).trans (player_updPlayer_same ..), evt_rbit .mxe (by decide) _⟩

theorem playerStopEnd_idle (h : (s.player i).state ≠ .stopping ∨ s.sys.tick ≠ 64 * (s.player i).stopFrame + 4096) : playerStopEnd i s = s :=
  if_neg (not_and_or.mpr h)

theorem playerStopEnd_due (hstate : (s.player i).state = .stopping) (htick : s.sys.tick = 64 * (s.player i).stopFrame + 4096) :
    PlayerSet i { s.player i with state := .idle, result := .stopped } s (playerStopEnd i s) := by
  rw [playerStopEnd, if_pos ⟨hstate, htick⟩]
  exact playerSet_updPlayer rfl

end

/-! ### The delay of a line (R205) -/

section
variable {i : Nat} {v : Word} {s : State}

theorem line_congr {t : State} (h : t.dly = s.dly) (j : Nat) : t.line j = s.line j := by rw [State.line, State.line, h]

theorem line_updLine_ne (f : Line → Line) {j : Nat} (h : j ≠ i) : (updLine i f s).line j = s.line j := (line_updLine ..).trans (if_neg h)

theorem lineDelayWrite_kept (h : ((s.line i).valid && delayOk (s.line i) (v.toNat % 2 ^ 28)) = true) :
    lineDelayWrite i v s = updLine i (fun l => { l with reg := v.toNat % 2 ^ 28, held := some (v.toNat % 2 ^ 28) }) s := if_pos h

theorem lineDelayWrite_refused (h : ((s.line i).valid && delayOk (s.line i) (v.toNat % 2 ^ 28)) = false) :
    lineDelayWrite i v s = raise .dly 2 s := by
  rw [lineDelayWrite, h]
  rfl

theorem lineDelayWrite_frame : ∃ regs sys x, lineDelayWrite i v s = { s with regs := regs, sys := sys, dly := x } ∧
    ∀ j, j ≠ i → (lineDelayWrite i v s).line j = s.line j := by
  unfold lineDelayWrite
  extract_lets d l
  split
  · exact ⟨_, _, _, rfl, fun j => line_updLine_ne _⟩
  · exact ⟨_, _, _, raise_frame .., fun j _ => line_congr (raise_dly ..) j⟩

/-- The tick of XFADE_DONE ends the crossfade of l itself, as FRAME_BOUNDARY has not come. -/
def xfadeEnds (l : Line) (s : State) : Bool := l.xfEnd && s.atFrame && s.sys.frameAt != some s.sys.tick

/-- A line whose XFADE_DONE is posted. -/
def Line.posted (l : Line) (ends : Bool) : Line := { (if ends then lineTakeover (lineEnd l) else l) with xfDone := false }

theorem xfadeEnds_eq_false (l : Line) (h : l.xfEnd = false ∨ s.atFrame = false ∨ s.sys.frameAt = some s.sys.tick) : xfadeEnds l s = false := by
  rcases h with h | h | h <;> simp [xfadeEnds, h]

theorem xfadeEnds_eq_true {l : Line} (hend : l.xfEnd = true) (hframe : s.atFrame = true) (hfirst : s.sys.frameAt ≠ some s.sys.tick) :
    xfadeEnds l s = true := by
  simp [xfadeEnds, hend, hframe, hfirst]

theorem xfadeDone_idle (h : (s.line i).valid = false ∨ ((s.line i).xfDone = false ∧ xfadeEnds (s.line i) s = false)) : xfadeDone i s = s := by
  refine if_neg (ne_true_of_eq_false ?_)
  obtain h | ⟨hdone, hends⟩ := h
  · rw [h, Bool.false_and]
  · rw [hdone]
    exact (congrArg _ hends).trans (Bool.and_false _)

theorem xfadeDone_due (hvalid : (s.line i).valid = true) (h : (s.line i).xfDone = true ∨ xfadeEnds (s.line i) s = true) :
    xfadeDone i s = evt .dly 0 (updLine i (·.posted (xfadeEnds (s.line i) s)) s) := by
  refine if_pos ?_
  rw [hvalid, Bool.true_and]
  exact (Bool.or_eq_true ..).mpr h

theorem posted_free {l : Line} (hend : l.xfEnd = true) (hheld : l.held = none) : l.posted true = { l with xfEnd := false, xfDone := false } := by
  simp [Line.posted, lineEnd, lineTakeover, hend, hheld]

theorem posted_held {l : Line} {d : Nat} (hend : l.xfEnd = true) (hheld : l.held = some d) (hleft : l.xfLeft = 0) :
    l.posted true = { l with old := l.delay, delay := d, held := none, xfLeft := l.xf, xfEnd := false, xfDone := false } := by
  simp [Line.posted, lineEnd, lineTakeover, hend, hheld, hleft]

end

/-! ### The commands -/

section
variable {m : Master} {s : State}

theorem playStart_spec (hreach : Reaches m s) (i : Fin 64) (v : Word) :
    let p := s.player i
    let w := setBits v 0 2 1
    ∃ t, exec (.playStart m i v) s = .next t ∧ t.resp m = ⟨.ok, []⟩ ∧ t = { s with bus := t.bus, regs := t.regs, sys := t.sys, mxe := t.mxe } ∧
      OnlyPlayer i s t ∧
      (p.state ≠ .idle → t.player i = { p with result := .busy }) ∧
      (p.state = .idle → s.sys.run = false → t.player i = { p with result := .notRun }) ∧
      (p.state = .idle → s.sys.run = true → msgCount s ≤ bits w 8 10 → t.player i = { p with result := .badMsg }) ∧
      (p.state = .idle → s.sys.run = true → bits w 8 10 < msgCount s → s.mxe.corrupt.contains (bits w 8 10) = true →
        t.player i = { p with result := .corrupt } ∧ t.faultBit .mxe 2 = true) ∧
      (p.state = .idle → s.sys.run = true → bits w 8 10 < msgCount s → s.mxe.corrupt.contains (bits w 8 10) = false →
        t.player i = armedPlayer i w s) := by
  intro p w
  have hrefused (r : PlayResult) : (startRefused r i (playWritten i w s)).player i = { p with result := r } := player_updPlayer_same ..
  have hcount : msgCount (playWritten i w s) = msgCount s := msgCount_playWritten i w s
  obtain ⟨regs, sys, x, hframe, honly⟩ := playStart_frame i w (playWritten i w s)
  refine ⟨respond m .ok [] (playStart i w (playWritten i w s)), ?_, resp_respond_same .., ?_, honly, fun hbusy => ?_, fun hidle hrun => ?_,
    fun hidle hrun hmsg => ?_, fun hidle hrun hmsg hcorrupt => ?_, fun hidle hrun hmsg hgood => ?_⟩
  · exact congrArg Host.Outcome.next ((cmd_ok hreach (.inl rfl)).trans (congrArg (respond m .ok []) (playCtrl_start i v s)))
  · rw [hframe]
    rfl
  · rw [playStart_busy (s := playWritten i w s) hbusy, respond_player]
    exact hrefused .busy
  · rw [playStart_notRun (s := playWritten i w s) hidle hrun, respond_player]
    exact hrefused .notRun
  · rw [playStart_badMsg (s := playWritten i w s) hidle hrun (hcount.trans_le hmsg), respond_player]
    exact hrefused .badMsg
  · rw [playStart_corrupt (s := playWritten i w s) hidle hrun (hmsg.trans_eq hcount.symm) hcorrupt, respond_player, raise_player]
    exact ⟨hrefused .corrupt, raise_fault .mxe 2 (startRefused .corrupt i (playWritten i w s)) (by decide)⟩
  · rw [playStart_armed (s := playWritten i w s) hidle hrun (hmsg.trans_eq hcount.symm) hgood, respond_player, player_updPlayer_same]
    exact armedPlayer_playWritten i w s

/-- A command that is an operation k on MXE alone, and reaches its registers. -/
theorem cmd_player {k : State → State} {i : Nat} {p : Player} (hreach : Reaches m s) (hk : PlayerSet i p s (k s)) :
    let t := cmd m false k s
    t.resp m = ⟨.ok, []⟩ ∧ t = { s with bus := t.bus, mxe := t.mxe } ∧ OnlyPlayer i s t ∧ t.player i = p := by
  obtain ⟨hframe, honly, hplayer⟩ := hk
  rw [cmd_ok hreach (.inl rfl)]
  refine ⟨resp_respond_same .., ?_, onlyPlayer_congr (respond_mxe ..) honly, (player_congr (respond_mxe ..) i).trans hplayer⟩
  generalize hx : (k s).mxe = x at hframe
  rw [hframe]
  rfl

theorem lineDelayWrite_spec (hreach : Reaches m s) (i : Fin 1024) (v : Word) :
    let l := s.line i
    ∃ t, exec (.lineDelayWrite m i v) s = .next t ∧ t.resp m = ⟨.ok, []⟩ ∧ t = { s with bus := t.bus, regs := t.regs, sys := t.sys, dly := t.dly } ∧
      (∀ j, j ≠ i.val → t.line j = s.line j) ∧
      ((l.valid && delayOk l (v.toNat % 2 ^ 28)) = true → t = { s with bus := t.bus, dly := t.dly } ∧
        t.line i = { l with reg := v.toNat % 2 ^ 28, held := some (v.toNat % 2 ^ 28) }) ∧
      ((l.valid && delayOk l (v.toNat % 2 ^ 28)) = false → t.dly = s.dly ∧ t.faultBit .dly 2 = true) := by
  intro l
  obtain ⟨regs, sys, x, hframe, hothers⟩ := lineDelayWrite_frame (i := i) (v := v) (s := s)
  refine ⟨_, congrArg Host.Outcome.next (cmd_ok hreach (.inl rfl)), resp_respond_same .., ?_, hothers, fun hvalid => ?_, fun hrefused => ?_⟩
  · rw [hframe]
    rfl
  · rw [lineDelayWrite_kept hvalid]
    exact ⟨rfl, (line_congr (respond_dly ..) i).trans (line_updLine_same ..)⟩
  · rw [lineDelayWrite_refused hrefused]
    exact ⟨rfl, raise_fault .dly 2 s (by decide)⟩

theorem xfadeDone_spec {i : Nat} (hvalid : (s.line i).valid = true)
    (h : (s.line i).xfDone = true ∨ ((s.line i).xfEnd = true ∧ s.atFrame = true ∧ s.sys.frameAt ≠ some s.sys.tick)) :
    let l := s.line i
    let t := xfadeDone i s
    t = { s with regs := t.regs, dly := t.dly } ∧ (∀ j, j ≠ i → t.line j = s.line j) ∧ t.rbit (Blk.dly.base + 0x40) 0 = true ∧
      ((l.xfEnd = false ∨ s.atFrame = false ∨ s.sys.frameAt = some s.sys.tick) → t.line i = { l with xfDone := false }) ∧
      (l.xfEnd = true → s.atFrame = true → s.sys.frameAt ≠ some s.sys.tick →
        (l.held = none → t.line i = { l with xfEnd := false, xfDone := false }) ∧
        (∀ d, l.held = some d → l.xfLeft = 0 →
          t.line i = { l with old := l.delay, delay := d, held := none, xfLeft := l.xf, xfEnd := false, xfDone := false })) := by
  intro l
  have hdue : l.xfDone = true ∨ xfadeEnds l s = true := h.imp_right fun ⟨hend, hframe, hfirst⟩ => xfadeEnds_eq_true hend hframe hfirst
  rw [xfadeDone_due hvalid hdue]
  have hline : (evt .dly 0 (updLine i (·.posted (xfadeEnds l s)) s)).line i = l.posted (xfadeEnds l s) :=
    (line_congr (evt_dly ..) i).trans (line_updLine_same ..)
  refine ⟨rfl, fun j hj => (line_congr (evt_dly ..) j).trans (line_updLine_ne _ hj), evt_rbit .dly (by decide) _,
    fun hnot => ?_, fun hend hframe hfirst => ⟨fun hheld => ?_, fun d hheld hleft => ?_⟩⟩
  · rw [hline, xfadeEnds_eq_false l hnot]
    rfl
  · rw [hline, xfadeEnds_eq_true hend hframe hfirst, posted_free hend hheld]
  · rw [hline, xfadeEnds_eq_true hend hframe hfirst, posted_held hend hheld hleft]

end

/-- Settles O35, a lemma for each command and event. -/
theorem playersAndLines : Obligations.PlayersAndLines := by
  unfold Obligations.PlayersAndLines
  refine fun s m pl i v => ⟨fun hreach => ⟨playStart_spec hreach pl v, ⟨_, rfl, cmd_player hreach (playStop_spec pl s)⟩,
    ⟨_, rfl, cmd_player hreach (playFinish_spec pl s)⟩, lineDelayWrite_spec hreach i v⟩, fun h => ?_, fun hstate hframe hstart => ?_,
    fun h => ?_, fun hstate hended => ?_, fun h => ?_, fun hstate htick => ?_, fun h => ?_, fun hvalid h => ?_⟩
  · exact congrArg Host.Outcome.next (playerFirst_idle h)
  · exact ⟨_, rfl, playerFirst_due hstate hframe hstart⟩
  · exact congrArg Host.Outcome.next (playerDone_idle h)
  · exact ⟨_, rfl, playerDone_due hstate hended⟩
  · exact congrArg Host.Outcome.next (playerStopEnd_idle h)
  · exact ⟨_, rfl, playerStopEnd_due hstate htick⟩
  · exact congrArg Host.Outcome.next (xfadeDone_idle (h.imp_right fun ⟨hdone, hends⟩ => ⟨hdone, xfadeEnds_eq_false _ hends⟩))
  · exact ⟨_, rfl, xfadeDone_spec hvalid h⟩

end Sys2Proof.Machine
end

section
/-! SUPPORT. The operations of a MAC that its events and commands share (R219 to R230): what each leaves as it is. One relation, `MacStep`,
says what all of them leave; `MacOnly` says it of those that change nothing but the MAC; `Mac.Like` says what the traffic leaves of the MAC
itself. -/
namespace Sys2Proof.Machine
open Sys2Proof

/-! ### One MAC changes -/

theorem mac_congr {s t : State} (h : t.macs = s.macs) (k : Nat) : t.mac k = s.mac k := by rw [State.mac, State.mac, h]

@[simp] theorem mac_raise (b : Blk) (i : Nat) (s : State) (k : Nat) : (raise b i s).mac k = s.mac k := mac_congr (raise_macs ..) k
@[simp] theorem mac_evt (b : Blk) (i : Nat) (s : State) (k : Nat) : (evt b i s).mac k = s.mac k := rfl
@[simp] theorem mac_setReg (s : State) (a : Nat) (v : Word) (k : Nat) : (s.setReg a v).mac k = s.mac k := rfl
@[simp] theorem mac_respond (m : Master) (c : Code) (ws : List Word) (s : State) (k : Nat) : (respond m c ws s).mac k = s.mac k := rfl

@[simp] theorem mac_settle (s : State) (k : Nat) : (settle s).mac k = s.mac k := by
  rw [settle_frame]
  exact mac_congr rfl k

/-- Of the state nothing but the register file, SYS and MAC n tells t from s. -/
structure MacStep (n : Nat) (s t : State) : Prop where
  frame : t = { s with regs := t.regs, sys := t.sys, macs := t.macs }
  others : ∀ k, k ≠ n → t.mac k = s.mac k

/-- Nothing but MAC n tells t from s. -/
structure MacOnly (n : Nat) (s t : State) : Prop where
  frame : t = { s with macs := t.macs }
  others : ∀ k, k ≠ n → t.mac k = s.mac k

section
variable {n : Nat} {s t u : State}

theorem MacStep.refl (n : Nat) (s : State) : MacStep n s s := ⟨rfl, fun _ _ => rfl⟩

theorem MacStep.trans (hst : MacStep n s t) (htu : MacStep n t u) : MacStep n s u where
  frame := by rw [htu.frame, hst.frame]
  others k hk := (htu.others k hk).trans (hst.others k hk)

/-- An operation that leaves SYS too. -/
theorem MacStep.frame_of_sys (h : MacStep n s t) (hsys : t.sys = s.sys) : t = { s with regs := t.regs, macs := t.macs } :=
  h.frame.trans (by rw [hsys])

theorem MacStep.respond (h : MacStep n s t) (m : Master) (c : Code) (ws : List Word) :
    let r := respond m c ws t
    r = { s with bus := r.bus, regs := r.regs, sys := r.sys, macs := r.macs } :=
  congrArg (Machine.respond m c ws) h.frame |>.trans (by rw [h.frame]; rfl)

theorem MacStep.respond_of_sys (h : MacStep n s t) (hsys : t.sys = s.sys) (m : Master) (c : Code) (ws : List Word) :
    let r := Machine.respond m c ws t
    r = { s with bus := r.bus, regs := r.regs, macs := r.macs } :=
  (h.respond m c ws).trans (by rw [respond_sys, hsys])

theorem MacOnly.refl (n : Nat) (s : State) : MacOnly n s s := ⟨rfl, fun _ _ => rfl⟩

theorem MacOnly.trans (hst : MacOnly n s t) (htu : MacOnly n t u) : MacOnly n s u where
  frame := by rw [htu.frame, hst.frame]
  others k hk := (htu.others k hk).trans (hst.others k hk)

theorem MacOnly.regs (h : MacOnly n s t) : t.regs = s.regs := by rw [h.frame]
theorem MacOnly.sys (h : MacOnly n s t) : t.sys = s.sys := by rw [h.frame]
theorem MacOnly.reg (h : MacOnly n s t) (a : Nat) : t.reg a = s.reg a := reg_congr h.regs a

theorem MacOnly.step (h : MacOnly n s t) : MacStep n s t where
  frame := h.frame.trans (by rw [h.regs, h.sys])
  others := h.others

end

section
variable (n : Nat) (s : State)

theorem macOnly_updMac (f : Mac → Mac) : MacOnly n s (updMac n f s) := ⟨rfl, fun k hk => (mac_updMac s n k f).trans (if_neg hk)⟩
theorem macOnly_macCount (c k : Nat) : MacOnly n s (macCount n c k s) := macOnly_updMac n s _
theorem macOnly_setPause (q : Nat) : MacOnly n s (setPause q n s) := by
  unfold setPause
  exact macOnly_updMac ..

theorem macStep_raise (b : Blk) (i : Nat) : MacStep n s (raise b i s) where
  frame := by rw [raise_macs]; exact raise_frame b i s
  others k _ := mac_raise b i s k

theorem macStep_evt (b : Blk) (i : Nat) : MacStep n s (evt b i s) := ⟨rfl, fun _ _ => rfl⟩
theorem macStep_setReg (a : Nat) (v : Word) : MacStep n s (s.setReg a v) := ⟨rfl, fun _ _ => rfl⟩

theorem macStep_settle : MacStep n s (settle s) where
  frame := by
    have hmacs : (settle s).macs = s.macs := by rw [settle_frame]
    rw [hmacs]
    exact settle_frame s
  others k _ := mac_settle s k

end

/-! ### The registers of a MAC (Table 8.7) -/

theorem macReg_inj {n i j : Nat} : macReg n i = macReg n j ↔ i = j := by simp [macReg]

theorem macReg_ne_modeChg (n off : Nat) : macReg n off ≠ modeChg := by
  simp only [macReg, Blk.base, modeChg]
  omega

/-- A detection of a MAC shows in two of its registers. -/
theorem reg_raise_mac {n i a : Nat} (s : State) (hstatus : a ≠ macReg n 0x80) (hcount : a ≠ macReg n (0x90 + 4 * i)) :
    (raise (.mac n) i s).reg a = s.reg a :=
  raise_reg _ _ _ _ hstatus (by rwa [Nat.add_assoc])

/-! ### What the traffic leaves of a MAC -/

/-- Counter c as the MAC holds it. -/
def Mac.count (m : Mac) (c : Nat) : Nat := Tab.get (fun _ => 0) m.cnt c

/-- A MAC but for what its traffic moves: the queues, the frame in progress, the credit, the counters, the time held by pause; and but for
the tick of its enable. -/
def Mac.still (m : Mac) : Mac :=
  { m with txq := [], headSince := [], cur := none, creditAt := 0, cnt := [], heldFrom := none, heldTime := 0, enabledAt := none }

/-- But for what its traffic moves, the MAC m is x. -/
def Mac.Like (m x : Mac) : Prop := m.still = x.still

section
variable {m x y : Mac}

theorem Mac.Like.refl (m : Mac) : m.Like m := rfl
theorem Mac.Like.of_eq (h : m = x) : m.Like x := congrArg Mac.still h
theorem Mac.Like.trans (h : m.Like x) (hx : x.Like y) : m.Like y := Eq.trans h hx
theorem Mac.Like.still (h : m.Like x) : m.still = x.still := h
theorem Mac.Like.link (h : m.Like x) : m.link = x.link := (congrArg Mac.link h.still :)
theorem Mac.Like.lock (h : m.Like x) : m.lock = x.lock := (congrArg Mac.lock h.still :)
theorem Mac.Like.localFault (h : m.Like x) : m.localFault = x.localFault := (congrArg Mac.localFault h.still :)
theorem Mac.Like.remoteFault (h : m.Like x) : m.remoteFault = x.remoteFault := (congrArg Mac.remoteFault h.still :)
theorem Mac.Like.rxOn (h : m.Like x) : m.rxOn = x.rxOn := (congrArg Mac.rxOn h.still :)
theorem Mac.Like.rxTail (h : m.Like x) : m.rxTail = x.rxTail := (congrArg Mac.rxTail h.still :)
theorem Mac.Like.rxIdle (h : m.Like x) : m.rxIdle = x.rxIdle := (congrArg Mac.rxIdle h.still :)
theorem Mac.Like.txOn (h : m.Like x) : m.txOn = x.txOn := (congrArg Mac.txOn h.still :)
theorem Mac.Like.txIdle (h : m.Like x) : m.txIdle = x.txIdle := (congrArg Mac.txIdle h.still :)
theorem Mac.Like.draining (h : m.Like x) : m.draining = x.draining := (congrArg Mac.draining h.still :)
theorem Mac.Like.fenced (h : m.Like x) : m.fenced = x.fenced := (congrArg Mac.fenced h.still :)
theorem Mac.Like.pauseQ (h : m.Like x) : m.pauseQ = x.pauseQ := (congrArg Mac.pauseQ h.still :)
theorem Mac.Like.holdoff (h : m.Like x) : m.holdoff = x.holdoff := (congrArg Mac.holdoff h.still :)
theorem Mac.Like.rx (h : m.Like x) : m.rx = x.rx := (congrArg Mac.rx h.still :)

end

theorem macCounter_eq {c : Nat} (hc : c ≠ 23) (s : State) (n : Nat) : macCounter s n c = (s.mac n).count c := if_neg hc

section
variable (n : Nat) (s : State)

theorem holdTime_like (m : Mac) : (holdTime s m).Like m := by
  unfold holdTime
  split <;> rfl

theorem holdTime_count (m : Mac) (c : Nat) : (holdTime s m).count c = m.count c := by
  unfold holdTime
  split <;> rfl

/-- A MAC whose pause timer takes the value q in tick t. -/
def Mac.paused (q t : Nat) (m : Mac) : Mac := { m with pauseQ := q, pauseSince := if m.pauseQ = 0 then t else m.pauseSince }

theorem mac_setPause (q : Nat) : (setPause q n s).mac n = holdTime s ((s.mac n).paused q s.sys.tick) := mac_updMac_same ..

theorem setPause_like (q : Nat) : ((setPause q n s).mac n).Like ((s.mac n).paused q s.sys.tick) := by
  rw [mac_setPause]
  exact holdTime_like ..

theorem setPause_count (q c : Nat) : ((setPause q n s).mac n).count c = (s.mac n).count c := by
  rw [mac_setPause, holdTime_count]
  rfl

theorem macCount_like (c k : Nat) : ((macCount n c k s).mac n).Like (s.mac n) := by
  rw [macCount, mac_updMac_same]
  exact .refl _

theorem macCount_count (c k j : Nat) :
    ((macCount n c k s).mac n).count j = if j = c then ((s.mac n).count c + k) % 2 ^ 64 else (s.mac n).count j := by
  rw [macCount, mac_updMac_same]
  exact tab_get_set ..

theorem macCount_count_same (c k : Nat) : ((macCount n c k s).mac n).count c = ((s.mac n).count c + k) % 2 ^ 64 :=
  (macCount_count ..).trans (if_pos rfl)

theorem macCount_queue (c k q : Nat) : ((macCount n c k s).mac n).queue q = (s.mac n).queue q := by
  rw [macCount, mac_updMac_same]
  rfl

theorem macCount_cur (c k : Nat) : ((macCount n c k s).mac n).cur = (s.mac n).cur := by
  rw [macCount, mac_updMac_same]

end

/-! ### The queues (R219, R221, R229) -/

theorem queue_setQueue (m : Mac) (q t : Nat) (l : List (List Byte)) (k : Nat) : (m.setQueue q t l).queue k = if k = q then l else m.queue k :=
  tab_get_set ..

/-- The MAC with the queues of a list empty. -/
def Mac.emptied (qs : List Nat) (m : Mac) : Mac := qs.foldl (fun m q => m.setQueue q 0 []) m

theorem emptied_like (qs : List Nat) (m : Mac) : (m.emptied qs).Like m :=
  qs.foldlRecOn (motive := fun x : Mac => x.Like m) _ (.refl m) fun _ h _ _ => h

theorem emptied_queue (qs : List Nat) (k : Nat) : ∀ m : Mac, (m.emptied qs).queue k = if k ∈ qs then [] else m.queue k := by
  induction qs with
  | nil => exact fun m => rfl
  | cons q qs ih =>
    intro m
    refine (ih (m.setQueue q 0 [])).trans ?_
    rw [queue_setQueue]
    by_cases hkq : k = q <;> simp [hkq]

section
variable (n : Nat) (qs : List Nat) (s : State)

theorem flushQueues_eq :
    flushQueues n qs s = updMac n (·.emptied qs) s ∨ ∃ k, flushQueues n qs s = macCount n 20 k (updMac n (·.emptied qs) s) := by
  unfold flushQueues
  extract_lets k t
  split
  · exact .inl rfl
  · exact .inr ⟨k, rfl⟩

theorem macOnly_flushQueues : MacOnly n s (flushQueues n qs s) := by
  obtain h | ⟨k, h⟩ := flushQueues_eq n qs s <;> rw [h]
  · exact macOnly_updMac ..
  · exact (macOnly_updMac ..).trans (macOnly_macCount ..)

theorem flushQueues_like : ((flushQueues n qs s).mac n).Like (s.mac n) := by
  have hemptied : ((updMac n (·.emptied qs) s).mac n).Like (s.mac n) := by
    rw [mac_updMac_same]
    exact emptied_like ..
  obtain h | ⟨k, h⟩ := flushQueues_eq n qs s <;> rw [h]
  · exact hemptied
  · exact (macCount_like ..).trans hemptied

theorem flushQueues_queue (k : Nat) : ((flushQueues n qs s).mac n).queue k = if k ∈ qs then [] else (s.mac n).queue k := by
  obtain h | ⟨c, h⟩ := flushQueues_eq n qs s <;> rw [h]
  · rw [mac_updMac_same, emptied_queue]
  · rw [macCount_queue, mac_updMac_same, emptied_queue]

end

theorem mem_allQueues {q : Nat} : q ∈ allQueues ↔ q < 8 := by
  simp only [allQueues, List.mem_cons, List.not_mem_nil, or_false]
  omega

/-! ### The selection of the next frame (R221) -/

/-- The MAC that sends the head of queue q from tick t on, after which an aged head spends the credit for lim ticks. -/
def Mac.sending (q : Nat) (aged : Bool) (t lim : Nat) (m : Mac) : Mac :=
  match m.queue q with
  | [] => m
  | f :: r => { m.setQueue q t r with cur := some ⟨q, f, false⟩, creditAt := if aged then t + lim else m.creditAt }

section
variable {q t : Nat} {m : Mac} (aged : Bool) (lim : Nat)

theorem sending_like : (m.sending q aged t lim).Like m := by
  unfold Mac.sending
  split <;> exact .refl _

theorem sending_count (c : Nat) : (m.sending q aged t lim).count c = m.count c := by
  unfold Mac.sending
  split <;> rfl

theorem sending_head {f : List Byte} {r : List (List Byte)} (h : m.queue q = f :: r) :
    (m.sending q aged t lim).cur = some ⟨q, f, false⟩ ∧ (m.sending q aged t lim).queue q = r := by
  unfold Mac.sending
  split
  next hnone => exact absurd (h.symm.trans hnone) nofun
  next g l hsome =>
    obtain ⟨rfl, rfl⟩ := List.cons_eq_cons.mp (h.symm.trans hsome)
    exact ⟨rfl, (queue_setQueue m q t r q).trans (if_pos rfl)⟩

end

/-- The frame at the head of queue q is on its way. -/
def macSending (n q : Nat) (aged : Bool) (s : State) : State := updMac n (·.sending q aged s.sys.tick (ageTicks s n)) s

/-- The frame at the head of queue q is sent, and counted where it was selected as aged. -/
def macSent (n q : Nat) (aged : Bool) (s : State) : State := if aged then macCount n 22 1 (macSending n q aged s) else macSending n q aged s

section
variable {n : Nat} {s : State}

theorem macSelect_busy (h : (s.mac n).cur.isSome = true) : macSelect n s = s := if_pos (by simp [h])

theorem macSelect_picked {q : Nat} {aged : Bool} (hcur : (s.mac n).cur = none) (hsnuffed : s.sys.snuffed = false) (hspeed : macSpeed s n ≠ 0)
    (hpick : macPick s n = some (q, aged)) : macSelect n s = macSent n q aged s := by
  rw [macSelect, if_neg (by simp [hcur, hsnuffed, hspeed]), hpick]
  rfl

variable (n s)

theorem macSelect_cases : macSelect n s = s ∨ ∃ q aged, macSelect n s = macSent n q aged s := by
  unfold macSelect
  split
  · exact .inl rfl
  · split
    · exact .inl rfl
    next q aged _ => exact .inr ⟨q, aged, rfl⟩

variable (q : Nat) (aged : Bool)

theorem mac_macSending : (macSending n q aged s).mac n = (s.mac n).sending q aged s.sys.tick (ageTicks s n) := mac_updMac_same ..

theorem macSending_like : ((macSending n q aged s).mac n).Like (s.mac n) := by
  rw [mac_macSending]
  exact sending_like ..

theorem macOnly_macSent : MacOnly n s (macSent n q aged s) := by
  unfold macSent
  split
  · exact (macOnly_updMac ..).trans (macOnly_macCount ..)
  · exact macOnly_updMac ..

theorem macSent_like : ((macSent n q aged s).mac n).Like (s.mac n) := by
  unfold macSent
  split
  · exact (macCount_like ..).trans (macSending_like ..)
  · exact macSending_like ..

theorem macSent_count {c : Nat} (hc : c ≠ 22) : ((macSent n q aged s).mac n).count c = (s.mac n).count c := by
  unfold macSent
  split
  · rw [macCount_count, if_neg hc, mac_macSending, sending_count]
  · rw [mac_macSending, sending_count]

theorem macSent_head {f : List Byte} {r : List (List Byte)} (h : (s.mac n).queue q = f :: r) :
    ((macSent n q aged s).mac n).cur = some ⟨q, f, false⟩ ∧ ((macSent n q aged s).mac n).queue q = r := by
  unfold macSent
  split
  · rw [macCount_cur, macCount_queue, mac_macSending]
    exact sending_head _ _ h
  · rw [mac_macSending]
    exact sending_head _ _ h

theorem macOnly_macSelect : MacOnly n s (macSelect n s) := by
  obtain h | ⟨q, aged, h⟩ := macSelect_cases n s <;> rw [h]
  · exact .refl ..
  · exact macOnly_macSent ..

theorem macSelect_like : ((macSelect n s).mac n).Like (s.mac n) := by
  obtain h | ⟨q, aged, h⟩ := macSelect_cases n s <;> rw [h]
  · exact .refl _
  · exact macSent_like ..

/-- A selection counts nothing but an aged frame. -/
theorem macSelect_count {c : Nat} (hc : c ≠ 22) : ((macSelect n s).mac n).count c = (s.mac n).count c := by
  obtain h | ⟨q, aged, h⟩ := macSelect_cases n s <;> rw [h]
  exact macSent_count _ _ _ _ hc

end

end Sys2Proof.Machine
end

section
/-! SUPPORT. The link of a MAC, its fence, and PAUSE (R213, R214, R223 to R225). -/
namespace Sys2Proof.Machine
open Sys2Proof

/-! ### The fence (R225) -/

/-- A fenced resource makes DEGRADED 1 (R44). -/
theorem settle_degraded {s : State} (h : degFenced s = true) : (settle s).sys.degraded = true := by
  unfold settle
  extract_lets t
  obtain ⟨_, ht⟩ := setFlag_sys s 4 (degFenced s || degSpare s) none
  obtain ⟨_, hsettle⟩ := setFlag_sys t 5 (maintPartial t || maintMigrate t || maintTest t) none
  rw [hsettle, ht, h]
  rfl

theorem degFenced_of_mac {n : Nat} {s : State} (h : (s.mac n).fenced = true) : degFenced s = true := by
  have hany : s.macs.any (fun e => e.2.fenced) = true := tab_any_of_get (f := Mac.fenced) rfl h
  simp [degFenced, hany]

/-- MAC n has lost its link: LINK_LOST is detected, the MAC is fenced and so the part degraded, and its queues are empty. -/
def MacLost (n : Nat) (t : State) : Prop :=
  (t.mac n).fenced = true ∧ t.faultBit (.mac n) 0 = true ∧ t.sys.degraded = true ∧ ∀ q, q < 8 → (t.mac n).queue q = []

/-- What LINK_LOST does to the MAC, before DEGRADED follows. -/
def macFencing (n : Nat) (s : State) : State :=
  flushQueues n allQueues (updMac n (fun m => { m with fenced := true, enabledAt := none }) (raise (.mac n) 0 s))

theorem macLinkLost_eq (n : Nat) (s : State) : macLinkLost n s = settle (macFencing n s) := rfl

section
variable (n : Nat) (s : State)

theorem macStep_macFencing : MacStep n s (macFencing n s) :=
  (macStep_raise ..).trans ((macOnly_updMac ..).trans (macOnly_flushQueues ..)).step

theorem macFencing_like : ((macFencing n s).mac n).Like { s.mac n with fenced := true } := by
  refine (flushQueues_like ..).trans ?_
  rw [mac_updMac_same, mac_raise]
  exact .refl _

theorem macFencing_reg (a : Nat) : (macFencing n s).reg a = (raise (.mac n) 0 s).reg a := by
  rw [macFencing, (macOnly_flushQueues ..).reg, (macOnly_updMac ..).reg]

theorem macFencing_queue {q : Nat} (hq : q < 8) : ((macFencing n s).mac n).queue q = [] := by
  rw [macFencing, flushQueues_queue, if_pos (mem_allQueues.mpr hq)]

theorem macStep_macLinkLost : MacStep n s (macLinkLost n s) := (macStep_macFencing n s).trans (macStep_settle ..)

theorem macLinkLost_like : ((macLinkLost n s).mac n).Like { s.mac n with fenced := true } := by
  rw [macLinkLost_eq, mac_settle]
  exact macFencing_like ..

theorem macLinkLost_lost : MacLost n (macLinkLost n s) := by
  have hfenced : ((macFencing n s).mac n).fenced = true := (macFencing_like n s).fenced
  rw [macLinkLost_eq, MacLost, mac_settle]
  refine ⟨hfenced, ?_, settle_degraded (degFenced_of_mac hfenced), fun q hq => macFencing_queue n s hq⟩
  rw [State.faultBit, State.rbit, show (Blk.mac n).base + 0x80 = macReg n 0x80 from rfl, settle_reg (macReg_ne_modeChg n 0x80), macFencing_reg]
  exact raise_fault (.mac n) 0 s (by decide)

/-- LINK_LOST leaves EVT. -/
theorem macLinkLost_evt : (macLinkLost n s).reg (macReg n 0x40) = s.reg (macReg n 0x40) := by
  rw [macLinkLost_eq, settle_reg (macReg_ne_modeChg n 0x40), macFencing_reg, reg_raise_mac s (by simp [macReg_inj]) (by simp [macReg_inj])]

end

/-! ### LINK_UP, LINK_DOWN, the timeout, auto-negotiation (R213, R214, R225) -/

/-- Auto-negotiation is under way. -/
abbrev Negotiating (n : Nat) (s : State) : Prop := macSpeed s n = 1 ∧ s.rbit (macReg n 8) 2 = true ∧ (s.mac n).anDone = false

/-- LINK_UP does not come: the link is up, the line is off, or auto-negotiation has not completed. -/
abbrev LinkWaits (n : Nat) (s : State) : Prop := (s.mac n).link = true ∨ macSpeed s n = 0 ∨ Negotiating n s

/-- The MAC was enabled 500 ms ago and has had no link since. -/
abbrev LinkOverdue (n : Nat) (s : State) : Prop :=
  ∃ a, (s.mac n).enabledAt = some a ∧ (s.mac n).link = false ∧ macEnabled s n = true ∧ a + s.msTicks 500 ≤ s.sys.tick

/-- A MAC whose link is up. -/
def Mac.linked (m : Mac) : Mac := { m with link := true, lock := true, localFault := false, remoteFault := false, enabledAt := none }

/-- A MAC whose line has failed. -/
def Mac.unlinked (lock lf rf an : Bool) (m : Mac) : Mac :=
  { m with link := false, lock := lock, localFault := lf, remoteFault := rf, anDone := m.anDone && an }

/-- The link goes down, without what a MAC with an enable set does then. -/
def lineFailed (n : Nat) (lock lf rf an : Bool) (s : State) : State := updMac n (·.unlinked lock lf rf an) s

section
variable {n : Nat} {s : State}

/-- A change of a MAC that posts an event. -/
theorem updMac_evt_spec {i : Nat} (f : Mac → Mac) (hi : i < 32) :
    let t := evt (.mac n) i (updMac n f s)
    t = { s with regs := t.regs, macs := t.macs } ∧ (∀ k, k ≠ n → t.mac k = s.mac k) ∧ t.mac n = f (s.mac n) ∧
      t.rbit (macReg n 0x40) i = true := by
  intro t
  have hstep : MacStep n s t := (macOnly_updMac n s f).step.trans (macStep_evt ..)
  have hmac : t.mac n = (updMac n f s).mac n := mac_evt ..
  exact ⟨hstep.frame_of_sys (evt_sys ..), hstep.others, hmac.trans (mac_updMac_same ..), evt_rbit (.mac n) hi _⟩

theorem linkUp_waits (h : LinkWaits n s) : linkUp n s = s := by
  refine if_pos ?_
  obtain h | h | ⟨hspeed, hneg, hopen⟩ := h
  · simp [h]
  · simp [h]
  · simp [hspeed, hneg, hopen]

theorem linkUp_due (h : ¬ LinkWaits n s) : linkUp n s = evt (.mac n) 0 (updMac n Mac.linked s) := by
  refine if_neg fun hwaits => h ?_
  simpa [or_assoc, and_assoc] using hwaits

theorem linkUp_spec (h : ¬ LinkWaits n s) :
    let t := linkUp n s
    t = { s with regs := t.regs, macs := t.macs } ∧ (∀ k, k ≠ n → t.mac k = s.mac k) ∧ t.mac n = (s.mac n).linked ∧
      t.rbit (macReg n 0x40) 0 = true := by
  rw [linkUp_due h]
  exact updMac_evt_spec _ (by decide)

theorem macLinkTimeout_early (h : ¬ LinkOverdue n s) : macLinkTimeout n s = s := by
  unfold macLinkTimeout
  extract_lets m
  split
  next a hsince => exact if_neg fun hdue => h ⟨a, hsince, by simpa [m, and_assoc] using hdue⟩
  next => rfl

theorem macLinkTimeout_due (h : LinkOverdue n s) : macLinkTimeout n s = macLinkLost n s := by
  obtain ⟨a, hsince, hdown, henabled, hdue⟩ := h
  simp [macLinkTimeout, hsince, hdown, henabled, hdue]

theorem autoNegDone_idle (h : ¬ Negotiating n s) : autoNegDone n s = s := if_neg fun hdue => h (by simpa [and_assoc] using hdue)

theorem autoNegDone_spec (h : Negotiating n s) :
    let t := autoNegDone n s
    t = { s with regs := t.regs, macs := t.macs } ∧ (∀ k, k ≠ n → t.mac k = s.mac k) ∧ t.mac n = { s.mac n with anDone := true } ∧
      t.rbit (macReg n 0x40) 3 = true := by
  obtain ⟨hspeed, hneg, hopen⟩ := h
  rw [autoNegDone, if_pos (by simp [hspeed, hneg, hopen])]
  exact updMac_evt_spec _ (by decide)

variable {lock lf rf an : Bool}

theorem linkDown_down (h : (s.mac n).link = false) : linkDown n lock lf rf an s = lineFailed n lock lf rf an s := by
  rw [linkDown, h]
  rfl

/-- The end of the link is an event; it fences a MAC with an enable set. -/
theorem linkDown_up (h : (s.mac n).link = true) :
    linkDown n lock lf rf an s =
      if macEnabled s n = true then macLinkLost n (evt (.mac n) 0 (lineFailed n lock lf rf an s))
      else evt (.mac n) 0 (lineFailed n lock lf rf an s) := by
  have henabled : macEnabled (evt (.mac n) 0 (lineFailed n lock lf rf an s)) n = macEnabled s n := by
    have hctrl : (evt (.mac n) 0 (lineFailed n lock lf rf an s)).reg (macReg n 0) = s.reg (macReg n 0) :=
      (evt_reg ..).trans (if_neg (mt macReg_inj.mp (by decide)))
    simp only [macEnabled, State.rbit, hctrl]
  rw [← henabled]
  exact if_pos h

theorem macOnly_lineFailed : MacOnly n s (lineFailed n lock lf rf an s) := macOnly_updMac ..

theorem mac_lineFailed : (lineFailed n lock lf rf an s).mac n = (s.mac n).unlinked lock lf rf an := mac_updMac_same ..

/-- LINK_DOWN in every case: what it touches, and the MAC it leaves. -/
theorem macStep_linkDown : MacStep n s (linkDown n lock lf rf an s) := by
  cases hlink : (s.mac n).link
  · rw [linkDown_down hlink]
    exact macOnly_lineFailed.step
  · rw [linkDown_up hlink]
    split
    · exact (macOnly_lineFailed.step.trans (macStep_evt ..)).trans (macStep_macLinkLost ..)
    · exact macOnly_lineFailed.step.trans (macStep_evt ..)

theorem linkDown_like :
    ((linkDown n lock lf rf an s).mac n).Like
      { (s.mac n).unlinked lock lf rf an with fenced := (s.mac n).fenced || (s.mac n).link && macEnabled s n } := by
  cases hlink : (s.mac n).link
  · rw [linkDown_down hlink, mac_lineFailed, Bool.false_and, Bool.or_false]
    exact .refl _
  · rw [linkDown_up hlink]
    cases henabled : macEnabled s n
    · rw [if_neg (by decide), mac_evt, mac_lineFailed, Bool.and_false, Bool.or_false]
      exact .refl _
    · rw [if_pos rfl, Bool.and_true, Bool.or_true]
      refine (macLinkLost_like ..).trans ?_
      rw [mac_evt, mac_lineFailed]
      exact .refl _

theorem linkDown_event (h : (s.mac n).link = true) : (linkDown n lock lf rf an s).rbit (macReg n 0x40) 0 = true := by
  have hevt : (evt (.mac n) 0 (lineFailed n lock lf rf an s)).rbit (macReg n 0x40) 0 = true := evt_rbit (.mac n) (by decide) _
  rw [linkDown_up h]
  split
  · rw [State.rbit, macLinkLost_evt]
    exact hevt
  · exact hevt

end

theorem linkDown_spec (n : Nat) (s : State) (lock lf rf an : Bool) :
    let x := s.mac n
    let t := linkDown n lock lf rf an s
    t = { s with regs := t.regs, sys := t.sys, macs := t.macs } ∧ (∀ k, k ≠ n → t.mac k = s.mac k) ∧
      (t.mac n).link = false ∧ (t.mac n).lock = lock ∧ (t.mac n).localFault = lf ∧ (t.mac n).remoteFault = rf ∧
      (x.link = false → t = { s with macs := t.macs }) ∧ (x.link = true → t.rbit (macReg n 0x40) 0 = true) ∧
      (x.link = true → macEnabled s n = true → MacLost n t) ∧
      (x.link = true → macEnabled s n = false → (t.mac n).fenced = x.fenced ∧ t.sys = s.sys) := by
  intro x t
  obtain ⟨hframe, hothers⟩ : MacStep n s t := macStep_linkDown
  have hlike : (t.mac n).Like { x.unlinked lock lf rf an with fenced := x.fenced || x.link && macEnabled s n } := linkDown_like
  refine ⟨hframe, hothers, hlike.link, hlike.lock, hlike.localFault, hlike.remoteFault,
    fun hdown => ?_, linkDown_event, fun hup henabled => ?_, fun hup hoff => ⟨?_, ?_⟩⟩
  · rw [show t = lineFailed n lock lf rf an s from linkDown_down hdown]
    exact macOnly_lineFailed.frame
  · rw [show t = macLinkLost n (evt (.mac n) 0 (lineFailed n lock lf rf an s)) from (linkDown_up hup).trans (if_pos henabled)]
    exact macLinkLost_lost ..
  · refine hlike.fenced.trans ?_
    rw [hoff, Bool.and_false]
    exact Bool.or_false _
  · rw [show t = evt (.mac n) 0 (lineFailed n lock lf rf an s) from (linkDown_up hup).trans (if_neg (Bool.eq_false_iff.mp hoff)), evt_sys]
    exact macOnly_lineFailed.sys

/-! ### PAUSE (R223, R224) -/

/-- The watchdog's time is over. -/
abbrev PauseOverdue (n : Nat) (s : State) : Prop := (s.mac n).pauseQ ≠ 0 ∧ (s.mac n).pauseSince + pauseTicks s n 4 8 ≤ s.sys.tick

section
variable {n quanta : Nat} {s : State}

theorem pauseReceive_down (h : (s.mac n).link = false) : pauseReceive n quanta s = s := if_pos (by simp [h])

theorem pauseReceive_ignored (hup : (s.mac n).link = true) (h : (s.mac n).holdoff.isSome = true ∨ (s.mac n).draining = true) :
    pauseReceive n quanta s = macCount n 9 1 (macCount n 8 1 s) := by
  rw [pauseReceive, if_neg (by simp [hup]), if_pos (by simpa using h)]

theorem pauseReceive_heard (hup : (s.mac n).link = true) (hhold : (s.mac n).holdoff = none) (hdrain : (s.mac n).draining = false) :
    pauseReceive n quanta s = if s.rbit (macReg n 0x1C) 0 = true then macSelect n (setPause quanta n (macCount n 8 1 s)) else macCount n 8 1 s := by
  rw [pauseReceive, if_neg (by simp [hup]), if_neg (by simp [hhold, hdrain])]
  rfl

theorem macOnly_pauseReceive : MacOnly n s (pauseReceive n quanta s) := by
  unfold pauseReceive
  extract_lets m t
  split
  · exact .refl ..
  · have ht : MacOnly n s t := macOnly_macCount ..
    split
    · exact ht.trans (macOnly_macCount ..)
    · split
      · exact (ht.trans (macOnly_setPause ..)).trans (macOnly_macSelect ..)
      · exact ht

theorem macPaused_pauseQ (q : Nat) (s : State) : ((macSelect n (setPause q n s)).mac n).pauseQ = q :=
  ((macSelect_like ..).trans (setPause_like ..)).pauseQ

theorem macPaused_count (q : Nat) {c : Nat} (hc : c ≠ 22) (s : State) :
    ((macSelect n (setPause q n s)).mac n).count c = (s.mac n).count c := by
  rw [macSelect_count _ _ hc, setPause_count]

/-- A PAUSE frame on an up link. -/
theorem pauseReceive_spec (hup : (s.mac n).link = true) :
    let x := s.mac n
    let t := pauseReceive n quanta s
    t = { s with macs := t.macs } ∧ (∀ k, k ≠ n → t.mac k = s.mac k) ∧
      (macCounter t n 8 = (macCounter s n 8 + 1) % 2 ^ 64) ∧
      ((x.holdoff.isSome = true ∨ x.draining = true) → (t.mac n).pauseQ = x.pauseQ ∧ macCounter t n 9 = (macCounter s n 9 + 1) % 2 ^ 64) ∧
      (x.holdoff = none → x.draining = false → macCounter t n 9 = macCounter s n 9 ∧
        (t.mac n).pauseQ = if s.rbit (macReg n 0x1C) 0 then quanta else x.pauseQ) := by
  intro x t
  obtain ⟨hframe, hothers⟩ : MacOnly n s t := macOnly_pauseReceive
  simp only [macCounter_eq (c := 8) (by decide), macCounter_eq (c := 9) (by decide)]
  have hcounted : ((macCount n 8 1 s).mac n).count 8 = (x.count 8 + 1) % 2 ^ 64 := macCount_count_same ..
  have hleft : ((macCount n 8 1 s).mac n).count 9 = x.count 9 := (macCount_count ..).trans (if_neg (by decide))
  have hlike : ((macCount n 8 1 s).mac n).Like x := macCount_like ..
  by_cases hdeaf : x.holdoff.isSome = true ∨ x.draining = true
  · rw [show t = macCount n 9 1 (macCount n 8 1 s) from pauseReceive_ignored hup hdeaf] at hframe hothers ⊢
    refine ⟨hframe, hothers, ?_, fun _ => ⟨?_, ?_⟩, fun hhold hdrain => ?_⟩
    · rw [macCount_count, if_neg (by decide), hcounted]
    · exact ((macCount_like ..).trans hlike).pauseQ
    · rw [macCount_count_same, hleft]
    · simp [hhold, hdrain] at hdeaf
  · obtain ⟨hhold, hdrain⟩ : x.holdoff = none ∧ x.draining = false := by simpa using hdeaf
    rw [show t = _ from pauseReceive_heard hup hhold hdrain] at hframe hothers ⊢
    refine ⟨hframe, hothers, ?_, fun hignored => absurd hignored hdeaf, fun _ _ => ?_⟩
    · split
      · rw [macPaused_count _ (by decide), hcounted]
      · exact hcounted
    · split
      · exact ⟨(macPaused_count _ (by decide) _).trans hleft, macPaused_pauseQ ..⟩
      · exact ⟨hleft, hlike.pauseQ⟩

theorem pauseExpiry_spec (h : (s.mac n).pauseQ ≠ 0) :
    let t := pauseExpiry n s
    t = { s with macs := t.macs } ∧ (∀ k, k ≠ n → t.mac k = s.mac k) ∧ (t.mac n).pauseQ = 0 := by
  rw [pauseExpiry, if_neg h]
  obtain ⟨hframe, hothers⟩ := (macOnly_setPause n s 0).trans (macOnly_macSelect ..)
  exact ⟨hframe, hothers, macPaused_pauseQ ..⟩

theorem raise_fs48 (b : Blk) (i : Nat) (s : State) : (raise b i s).sys.fs48 = s.sys.fs48 := rfl

/-- A time given by PAUSE_CFG depends on that register and the sample rate. -/
theorem pauseTicks_congr {t : State} (hfs : t.sys.fs48 = s.sys.fs48) (hcfg : t.reg (macReg n 0x1C) = s.reg (macReg n 0x1C)) (lo w : Nat) :
    pauseTicks t n lo w = pauseTicks s n lo w := by
  rw [pauseTicks, pauseTicks, State.fld, State.fld, hcfg, State.usTicks, State.usTicks, State.fs, State.fs, hfs]

theorem pauseTicks_raise (lo w : Nat) : pauseTicks (raise (.mac n) 2 s) n lo w = pauseTicks s n lo w :=
  pauseTicks_congr (raise_fs48 ..) (reg_raise_mac s (by simp [macReg_inj]) (by simp [macReg_inj])) lo w

theorem pauseWatchdog_early (h : ¬ PauseOverdue n s) : pauseWatchdog n s = s := if_neg fun hdue => h (by simpa using hdue)

/-- The pause that the watchdog has broken: the timer is 0 and hold-off runs. -/
def pauseBroken (n : Nat) (s : State) : State :=
  updMac n (fun m => { m with holdoff := some (s.sys.tick + pauseTicks s n 16 8) }) (setPause 0 n (raise (.mac n) 2 s))

theorem pauseWatchdog_due (h : PauseOverdue n s) : pauseWatchdog n s = macSelect n (pauseBroken n s) := by
  obtain ⟨hpause, hdue⟩ := h
  rw [pauseWatchdog, if_pos (by simp [hpause, hdue])]
  unfold pauseBreak
  extract_lets t e
  have ht : MacOnly n (raise (.mac n) 2 s) t := macOnly_setPause ..
  have he : e = s.sys.tick + pauseTicks s n 16 8 :=
    calc e = t.sys.tick + pauseTicks t n 16 8 := rfl
      _ = (raise (.mac n) 2 s).sys.tick + pauseTicks (raise (.mac n) 2 s) n 16 8 := by
        rw [pauseTicks_congr (congrArg Sys.fs48 ht.sys) (ht.reg _), ht.sys]
      _ = s.sys.tick + pauseTicks s n 16 8 := by rw [pauseTicks_raise, raise_tick]
  rw [he]
  rfl

theorem pauseBroken_like (n : Nat) (s : State) : ((pauseBroken n s).mac n).Like
    { (s.mac n).paused 0 s.sys.tick with holdoff := some (s.sys.tick + pauseTicks s n 16 8) } := by
  have hpause := setPause_like n (raise (.mac n) 2 s) 0
  rw [mac_raise, raise_tick] at hpause
  rw [pauseBroken, mac_updMac_same]
  exact congrArg (fun m : Mac => { m with holdoff := some (s.sys.tick + pauseTicks s n 16 8) }) hpause

theorem pauseWatchdog_spec (h : PauseOverdue n s) :
    let t := pauseWatchdog n s
    t = { s with regs := t.regs, sys := t.sys, macs := t.macs } ∧ (∀ k, k ≠ n → t.mac k = s.mac k) ∧ (t.mac n).pauseQ = 0 ∧
      (t.mac n).holdoff = some (s.sys.tick + pauseTicks s n 16 8) ∧ t.faultBit (.mac n) 2 = true := by
  have hwork : MacOnly n (raise (.mac n) 2 s) (macSelect n (pauseBroken n s)) :=
    ((macOnly_setPause ..).trans (macOnly_updMac ..)).trans (macOnly_macSelect ..)
  have hlike : ((macSelect n (pauseBroken n s)).mac n).Like
      { (s.mac n).paused 0 s.sys.tick with holdoff := some (s.sys.tick + pauseTicks s n 16 8) } :=
    (macSelect_like ..).trans (pauseBroken_like n s)
  obtain ⟨hframe, hothers⟩ := (macStep_raise n s (.mac n) 2).trans hwork.step
  rw [pauseWatchdog_due h]
  refine ⟨hframe, hothers, hlike.pauseQ, hlike.holdoff, ?_⟩
  rw [State.faultBit, State.rbit, hwork.reg]
  exact raise_fault (.mac n) 2 s (by decide)

theorem holdoffEnd_early (h : ∀ e, (s.mac n).holdoff = some e → s.sys.tick < e) : holdoffEnd n s = s := by
  unfold holdoffEnd
  split
  next e he => exact if_neg (Nat.not_le.mpr (h e he))
  next => rfl

theorem holdoffEnd_due {e : Nat} (he : (s.mac n).holdoff = some e) (hdue : e ≤ s.sys.tick) :
    holdoffEnd n s = updMac n (fun m => { m with holdoff := none }) s := by
  rw [holdoffEnd, he]
  exact if_pos hdue

end

/-- Settles O36, a lemma for each event. -/
theorem macLinkAndPause : Obligations.MacLinkAndPause := by
  unfold Obligations.MacLinkAndPause
  refine fun s n => ⟨fun h => congrArg Host.Outcome.next (linkUp_waits h), fun h => ⟨_, rfl, linkUp_spec h⟩,
    fun lock lf rf an => ⟨_, rfl, linkDown_spec n s lock lf rf an⟩,
    ⟨fun h => congrArg Host.Outcome.next (macLinkTimeout_early h), fun h => ?_⟩,
    fun h quanta => congrArg Host.Outcome.next (pauseReceive_down h), fun h quanta => ⟨_, rfl, pauseReceive_spec h⟩,
    fun h => congrArg Host.Outcome.next (if_pos h), fun h => ⟨_, rfl, pauseExpiry_spec h⟩,
    ⟨fun h => congrArg Host.Outcome.next (pauseWatchdog_early h), fun h => ⟨_, rfl, pauseWatchdog_spec h⟩⟩,
    fun h => congrArg Host.Outcome.next (holdoffEnd_early h), fun e he hdue => ?_,
    ⟨fun h => congrArg Host.Outcome.next (autoNegDone_idle h), fun h => ⟨_, rfl, autoNegDone_spec h⟩⟩⟩
  · obtain ⟨hframe, hothers⟩ := macStep_macLinkLost n s
    exact ⟨_, congrArg Host.Outcome.next (macLinkTimeout_due h), hframe, hothers, macLinkLost_lost ..⟩
  · obtain ⟨hframe, hothers⟩ := macOnly_updMac n s fun m => { m with holdoff := none }
    exact ⟨_, congrArg Host.Outcome.next (holdoffEnd_due he hdue), hframe, hothers, mac_updMac_same ..⟩

end Sys2Proof.Machine
end

section
/-! SUPPORT. A write of CTRL (R228 to R230): its stages in their order, and what each makes of the receiver and of the transmitter. -/
namespace Sys2Proof.Machine
open Sys2Proof

theorem bit_and (a b : Word) (i : Nat) : bit (a &&& b) i = (bit a i && bit b i) := by simp [bit]

/-! ### The stages -/

/-- CTRL is written, and the tick of an enable from both bits 0 is kept (R225). -/
def ctrlTimed (n : Nat) (v : Word) (s : State) : State :=
  let t := s.setReg (macReg n 0) (v &&& 3)
  if bits v 0 2 = 0 then updMac n (fun m => { m with enabledAt := none }) t
  else if !macEnabled s n && !(s.mac n).fenced && !(s.mac n).link then updMac n (fun m => { m with enabledAt := some s.sys.tick }) t else t

/-- RX_EN 0 stops the receiver. -/
def ctrlRx (n : Nat) (v : Word) (busy : Bool) (s : State) : State := if bit v 0 then s else macStopRx n busy s

/-- TX_EN 0 starts the drain. -/
def ctrlTx (n : Nat) (v : Word) (s : State) : State := if bit v 1 then s else macStartDrain n s

/-- The enables act, but in a fence. -/
def ctrlOn (n : Nat) (fenced : Bool) (s : State) : State := if fenced then s else macSelect n (macApplyEnables n s)

/-- FORCE aborts the drain that ran before the write, or is moot. -/
def ctrlForce (n : Nat) (v : Word) (drain : Bool) (s : State) : State :=
  if bit v 2 then if drain && !bit v 1 then flushQueues n allQueues s else evt (.mac n) 2 s else s

theorem macCtrlWrite_eq (n : Nat) (v : Word) (busy : Bool) (s : State) :
    macCtrlWrite n v busy s =
      ctrlForce n v (s.mac n).draining (ctrlOn n (s.mac n).fenced (ctrlTx n v (ctrlRx n v busy (ctrlTimed n v s)))) := rfl

/-- The receiver: on, the tick by which a frame in reception completes, idle. -/
def Mac.rxSide (m : Mac) : Bool × Option Nat × Bool := (m.rxOn, m.rxTail, m.rxIdle)

/-- The transmitter: on, draining, idle. -/
def Mac.txSide (m : Mac) : Bool × Bool × Bool := (m.txOn, m.draining, m.txIdle)

theorem rxSide_eq {m : Mac} {on idle : Bool} {tail : Option Nat} :
    m.rxSide = (on, tail, idle) ↔ m.rxOn = on ∧ m.rxTail = tail ∧ m.rxIdle = idle := by
  simp [Mac.rxSide]

theorem txSide_eq {m : Mac} {on drain idle : Bool} :
    m.txSide = (on, drain, idle) ↔ m.txOn = on ∧ m.draining = drain ∧ m.txIdle = idle := by
  simp [Mac.txSide]

theorem Mac.Like.rxSide {m x : Mac} (h : m.Like x) : m.rxSide = x.rxSide := by rw [Mac.rxSide, h.rxOn, h.rxTail, h.rxIdle, Mac.rxSide]
theorem Mac.Like.txSide {m x : Mac} (h : m.Like x) : m.txSide = x.txSide := by rw [Mac.txSide, h.txOn, h.draining, h.txIdle, Mac.txSide]

section
variable (n : Nat) (v : Word) (busy : Bool) (s : State)

/-! ### What every stage leaves -/

theorem macOnly_ctrlTimed : MacOnly n (s.setReg (macReg n 0) (v &&& 3)) (ctrlTimed n v s) := by
  unfold ctrlTimed
  extract_lets t
  split
  · exact macOnly_updMac ..
  · split
    · exact macOnly_updMac ..
    · exact .refl ..

theorem ctrlTimed_like : ((ctrlTimed n v s).mac n).Like (s.mac n) := by
  unfold ctrlTimed
  extract_lets t
  split
  · rw [mac_updMac_same, mac_setReg]
    exact .refl _
  · split
    · rw [mac_updMac_same, mac_setReg]
      exact .refl _
    · exact .of_eq (mac_setReg ..)

theorem macOnly_ctrlRx : MacOnly n s (ctrlRx n v busy s) := by
  unfold ctrlRx
  split
  · exact .refl ..
  · exact macOnly_updMac ..

theorem macOnly_ctrlTx : MacOnly n s (ctrlTx n v s) := by
  unfold ctrlTx
  split
  · exact .refl ..
  · exact (macOnly_updMac ..).trans (macOnly_macSelect ..)

theorem macOnly_macApplyEnables : MacOnly n s (macApplyEnables n s) := by
  unfold macApplyEnables
  exact macOnly_updMac ..

theorem macOnly_ctrlOn (fenced : Bool) : MacOnly n s (ctrlOn n fenced s) := by
  unfold ctrlOn
  split
  · exact .refl ..
  · exact (macOnly_macApplyEnables ..).trans (macOnly_macSelect ..)

variable (drain : Bool)

theorem macStep_ctrlForce : MacStep n s (ctrlForce n v drain s) := by
  unfold ctrlForce
  split
  · split
    · exact (macOnly_flushQueues ..).step
    · exact macStep_evt ..
  · exact .refl ..

theorem ctrlForce_sys : (ctrlForce n v drain s).sys = s.sys := by
  unfold ctrlForce
  split
  · split
    · exact (macOnly_flushQueues ..).sys
    · exact evt_sys ..
  · rfl

theorem ctrlForce_ctrl : (ctrlForce n v drain s).reg (macReg n 0) = s.reg (macReg n 0) := by
  unfold ctrlForce
  split
  · split
    · exact (macOnly_flushQueues ..).reg _
    · exact (evt_reg ..).trans (if_neg (mt macReg_inj.mp (by decide)))
  · rfl

theorem ctrlForce_like : ((ctrlForce n v drain s).mac n).Like (s.mac n) := by
  unfold ctrlForce
  split
  · split
    · exact flushQueues_like ..
    · exact .of_eq (mac_evt ..)
  · exact .refl _

/-- The write of CTRL before FORCE. -/
def ctrlActed (n : Nat) (v : Word) (busy : Bool) (s : State) : State :=
  ctrlOn n (s.mac n).fenced (ctrlTx n v (ctrlRx n v busy (ctrlTimed n v s)))

theorem macOnly_ctrlActed : MacOnly n (s.setReg (macReg n 0) (v &&& 3)) (ctrlActed n v busy s) :=
  ((((macOnly_ctrlTimed ..).trans (macOnly_ctrlRx ..)).trans (macOnly_ctrlTx ..)).trans (macOnly_ctrlOn ..))

theorem macStep_macCtrlWrite : MacStep n s (macCtrlWrite n v busy s) :=
  ((macStep_setReg ..).trans (macOnly_ctrlActed ..).step).trans (macStep_ctrlForce ..)

theorem macCtrlWrite_sys : (macCtrlWrite n v busy s).sys = s.sys := by
  rw [macCtrlWrite_eq, ctrlForce_sys]
  exact (macOnly_ctrlActed ..).sys.trans (State.setReg_sys ..)

theorem macCtrlWrite_ctrl : (macCtrlWrite n v busy s).reg (macReg n 0) = v &&& 3 := by
  rw [macCtrlWrite_eq, ctrlForce_ctrl]
  exact ((macOnly_ctrlActed ..).reg _).trans (reg_setReg_same ..)

end

/-! ### The enables (R230) -/

/-- A MAC whose receiver is turned on. -/
def Mac.receiving (m : Mac) : Mac := { m with rxOn := true, rxIdle := false, rxTail := none }

/-- A MAC whose transmitter is turned on. -/
def Mac.transmitting (m : Mac) : Mac := { m with creditAt := if m.txOn then m.creditAt else 0, txOn := true, draining := false, txIdle := false }

section
variable {n : Nat} {s : State}

theorem mac_macApplyEnables :
    (macApplyEnables n s).mac n =
      let m := if bit (s.reg (macReg n 0)) 0 then (s.mac n).receiving else s.mac n
      if bit (s.reg (macReg n 0)) 1 then holdTime s m.transmitting else m := mac_updMac_same ..

theorem macApplyEnables_rxSide :
    ((macApplyEnables n s).mac n).rxSide = if bit (s.reg (macReg n 0)) 0 then (true, none, false) else (s.mac n).rxSide := by
  have hrx : (if bit (s.reg (macReg n 0)) 0 then (s.mac n).receiving else s.mac n).rxSide =
      if bit (s.reg (macReg n 0)) 0 then (true, none, false) else (s.mac n).rxSide := apply_ite Mac.rxSide ..
  rw [mac_macApplyEnables, ← hrx]
  dsimp only
  generalize (if bit (s.reg (macReg n 0)) 0 then (s.mac n).receiving else s.mac n) = m
  split
  · exact (holdTime_like ..).rxSide
  · rfl

theorem macApplyEnables_txSide :
    ((macApplyEnables n s).mac n).txSide = if bit (s.reg (macReg n 0)) 1 then (true, false, false) else (s.mac n).txSide := by
  have hrx : (if bit (s.reg (macReg n 0)) 0 then (s.mac n).receiving else s.mac n).txSide = (s.mac n).txSide := by
    split <;> rfl
  rw [mac_macApplyEnables, ← hrx]
  dsimp only
  generalize (if bit (s.reg (macReg n 0)) 0 then (s.mac n).receiving else s.mac n) = m
  split
  · exact (holdTime_like ..).txSide
  · rfl

theorem ctrlOn_rxSide (fenced : Bool) :
    ((ctrlOn n fenced s).mac n).rxSide = if !fenced && bit (s.reg (macReg n 0)) 0 then (true, none, false) else (s.mac n).rxSide := by
  cases fenced
  · exact (macSelect_like ..).rxSide.trans macApplyEnables_rxSide
  · rfl

theorem ctrlOn_txSide (fenced : Bool) :
    ((ctrlOn n fenced s).mac n).txSide = if !fenced && bit (s.reg (macReg n 0)) 1 then (true, false, false) else (s.mac n).txSide := by
  cases fenced
  · exact (macSelect_like ..).txSide.trans macApplyEnables_txSide
  · rfl

/-! ### A side that is turned off (R228, R230) -/

theorem ctrlTx_rxSide (v : Word) : ((ctrlTx n v s).mac n).rxSide = (s.mac n).rxSide := by
  unfold ctrlTx
  split
  · rfl
  · refine (macSelect_like ..).rxSide.trans ?_
    rw [mac_updMac_same]
    split
    · exact (holdTime_like ..).rxSide
    · rfl

theorem ctrlTx_txSide {v : Word} (hv : bit v 1 = false) :
    ((ctrlTx n v s).mac n).txSide = ((s.mac n).txOn, (s.mac n).txOn || (s.mac n).draining, (s.mac n).txIdle) := by
  rw [ctrlTx, if_neg (by simp [hv])]
  refine (macSelect_like ..).txSide.trans ?_
  rw [mac_updMac_same]
  split
  next hruns =>
    obtain ⟨hon, -⟩ := (Bool.and_eq_true ..).mp hruns
    refine (holdTime_like ..).txSide.trans ?_
    simp only [Mac.txSide, hon, Bool.true_or]
  next hstays =>
    have hdraining : ((s.mac n).txOn || (s.mac n).draining) = (s.mac n).draining := by
      revert hstays
      cases (s.mac n).txOn <;> cases (s.mac n).draining <;> decide
    rw [hdraining]
    rfl

theorem ctrlRx_txSide (v : Word) (busy : Bool) : ((ctrlRx n v busy s).mac n).txSide = (s.mac n).txSide := by
  unfold ctrlRx
  split
  · rfl
  · rw [macStopRx, mac_updMac_same]
    split <;> rfl

theorem ctrlRx_rxSide {v : Word} (busy : Bool) (hv : bit v 0 = false) (hon : (s.mac n).rxOn = true) :
    ((ctrlRx n v busy s).mac n).rxSide = (false, if busy then some (s.sys.tick + frameTicks s n) else none, !busy) := by
  rw [ctrlRx, if_neg (by simp [hv]), macStopRx, mac_updMac_same, if_pos hon]
  rfl

end

/-- The longest frame's time depends on CFG and the sample rate. -/
theorem frameTicks_congr {n : Nat} {s t : State} (hfs : t.sys.fs48 = s.sys.fs48) (hcfg : t.reg (macReg n 8) = s.reg (macReg n 8)) :
    frameTicks t n = frameTicks s n := by
  have hspeed : macSpeed t n = macSpeed s n := by rw [macSpeed, macSpeed, State.fld, State.fld, hcfg]
  rw [frameTicks, frameTicks, macMaxLen, macMaxLen, hcfg, hspeed, State.fs, State.fs, hfs]

/-! ### The whole write -/

section
variable {n : Nat} {v : Word} {busy : Bool} {s : State}

theorem macCtrlWrite_like : ((macCtrlWrite n v busy s).mac n).Like ((ctrlActed n v busy s).mac n) := ctrlForce_like ..

/-- The CTRL word that the stages after its write see. -/
theorem ctrlTx_bit {i : Nat} (hi : bit 3 i = true) :
    bit ((ctrlTx n v (ctrlRx n v busy (ctrlTimed n v s))).reg (macReg n 0)) i = bit v i := by
  rw [(macOnly_ctrlTx ..).reg, (macOnly_ctrlRx ..).reg, (macOnly_ctrlTimed ..).reg, reg_setReg_same, bit_and, hi, Bool.and_true]

theorem ctrlActed_rxSide :
    ((ctrlActed n v busy s).mac n).rxSide =
      if !(s.mac n).fenced && bit v 0 then (true, none, false) else ((ctrlRx n v busy (ctrlTimed n v s)).mac n).rxSide := by
  rw [ctrlActed, ctrlOn_rxSide, ctrlTx_bit (by decide), ctrlTx_rxSide]

theorem ctrlActed_txSide :
    ((ctrlActed n v busy s).mac n).txSide =
      if !(s.mac n).fenced && bit v 1 then (true, false, false) else ((ctrlTx n v (ctrlRx n v busy (ctrlTimed n v s))).mac n).txSide := by
  rw [ctrlActed, ctrlOn_txSide, ctrlTx_bit (by decide)]

/-- RX_EN written 1 turns the receiver of a MAC that is not fenced on. -/
theorem macCtrlWrite_rx_on (hfree : (s.mac n).fenced = false) (hv : bit v 0 = true) :
    ((macCtrlWrite n v busy s).mac n).rxSide = (true, none, false) := by
  rw [macCtrlWrite_like.rxSide, ctrlActed_rxSide, hfree, hv]
  rfl

/-- TX_EN written 1 turns the transmitter of a MAC that is not fenced on. -/
theorem macCtrlWrite_tx_on (hfree : (s.mac n).fenced = false) (hv : bit v 1 = true) :
    ((macCtrlWrite n v busy s).mac n).txSide = (true, false, false) := by
  rw [macCtrlWrite_like.txSide, ctrlActed_txSide, hfree, hv]
  rfl

/-- RX_EN written 0 stops a running receiver; a frame in reception may still complete. -/
theorem macCtrlWrite_rx_off (hv : bit v 0 = false) (hon : (s.mac n).rxOn = true) :
    ((macCtrlWrite n v busy s).mac n).rxSide = (false, if busy then some (s.sys.tick + frameTicks s n) else none, !busy) := by
  have hwritten : MacOnly n (s.setReg (macReg n 0) (v &&& 3)) (ctrlTimed n v s) := macOnly_ctrlTimed ..
  have hsys : (ctrlTimed n v s).sys = s.sys := hwritten.sys.trans (State.setReg_sys ..)
  have hcfg : (ctrlTimed n v s).reg (macReg n 8) = s.reg (macReg n 8) :=
    (hwritten.reg _).trans (reg_setReg_ne _ _ (mt macReg_inj.mp (by decide)))
  rw [macCtrlWrite_like.rxSide, ctrlActed_rxSide, hv, Bool.and_false, if_neg (by decide), ctrlRx_rxSide busy hv ((ctrlTimed_like ..).rxOn.trans hon),
    hsys, frameTicks_congr (congrArg Sys.fs48 hsys) hcfg]

/-- TX_EN written 0 starts the drain of a running transmitter. -/
theorem macCtrlWrite_tx_off (hv : bit v 1 = false) :
    ((macCtrlWrite n v busy s).mac n).txSide = ((s.mac n).txOn, (s.mac n).txOn || (s.mac n).draining, (s.mac n).txIdle) := by
  have hside : ((ctrlRx n v busy (ctrlTimed n v s)).mac n).txSide = (s.mac n).txSide :=
    (ctrlRx_txSide ..).trans (ctrlTimed_like ..).txSide
  obtain ⟨hon, hdraining, hidle⟩ := txSide_eq.mp hside
  rw [macCtrlWrite_like.txSide, ctrlActed_txSide, hv, Bool.and_false, if_neg (by decide), ctrlTx_txSide hv, hon, hdraining, hidle]

/-- On a fenced MAC a write that sets both enables waits for the fence to lift. -/
theorem macCtrlWrite_fenced (hfenced : (s.mac n).fenced = true) (hrx : bit v 0 = true) (htx : bit v 1 = true) :
    (macCtrlWrite n v busy s).mac n = s.mac n := by
  have hset : bits v 0 2 ≠ 0 := by
    have hbit : (bits v 0 2).testBit 0 = true := by simpa [bits, bit] using hrx
    intro hzero
    simp [hzero] at hbit
  have htimed : (ctrlTimed n v s).mac n = s.mac n := by
    rw [ctrlTimed, if_neg hset, if_neg (by simp [hfenced])]
    exact mac_setReg ..
  rw [macCtrlWrite_eq, ctrlRx, if_pos hrx, ctrlTx, if_pos htx, hfenced, ctrlOn, if_pos rfl, ctrlForce, htx, Bool.not_true, Bool.and_false,
    if_neg (by decide : ¬ false = true)]
  split
  · exact (mac_evt ..).trans htimed
  · exact htimed

/-- FORCE empties the queues of a draining MAC, and is moot on any other. -/
theorem macCtrlWrite_force (hv : bit v 2 = true) (htx : bit v 1 = false) :
    ((s.mac n).draining = true → ∀ q, q < 8 → ((macCtrlWrite n v busy s).mac n).queue q = []) ∧
      ((s.mac n).draining = false → (macCtrlWrite n v busy s).rbit (macReg n 0x40) 2 = true) := by
  rw [macCtrlWrite_eq, ctrlForce, if_pos hv, htx]
  refine ⟨fun hdrain q hq => ?_, fun hruns => ?_⟩
  · rw [hdrain, if_pos (by decide), flushQueues_queue, if_pos (mem_allQueues.mpr hq)]
  · rw [hruns, if_neg (by decide)]
    exact evt_rbit (.mac n) (by decide) _

end

/-! ### The commands -/

section
variable {m : Master} {s : State}

/-- What every command that writes CTRL shows of itself, the word v being written. -/
theorem ctrlCommand_spec (hmay : MayWrite m s) (n : Nat) (v : State → Word) (busy : Bool) :
    let t := cmd m true (fun s => macCtrlWrite n (v s) busy s) s
    t.resp m = ⟨.ok, []⟩ ∧ t = { s with bus := t.bus, regs := t.regs, macs := t.macs } ∧ (∀ k, k ≠ n → t.mac k = s.mac k) ∧
      t.reg (macReg n 0) = v s &&& 3 ∧ t.mac n = (macCtrlWrite n (v s) busy s).mac n ∧ t.regs = (macCtrlWrite n (v s) busy s).regs := by
  have hstep : MacStep n s (macCtrlWrite n (v s) busy s) := macStep_macCtrlWrite ..
  have hcmd : cmd m true (fun s => macCtrlWrite n (v s) busy s) s = respond m .ok [] (macCtrlWrite n (v s) busy s) :=
    cmd_ok hmay.1 (.inr hmay.2)
  rw [hcmd]
  exact ⟨resp_respond_same .., hstep.respond_of_sys (macCtrlWrite_sys ..) .., hstep.others,
    (reg_congr (respond_regs ..) _).trans (macCtrlWrite_ctrl ..), mac_respond .., respond_regs ..⟩

/-- The bits that MAC_ENABLE names. -/
theorem enabled_bit (rx tx : Bool) : bit (wd (b2n rx + 2 * b2n tx)) 0 = rx ∧ bit (wd (b2n rx + 2 * b2n tx)) 1 = tx := by
  cases rx <;> cases tx <;> decide

variable (hmay : MayWrite m s) (n : Fin 4)
include hmay

theorem macEnable_spec (rx tx : Bool) :
    let x := s.mac n
    ∃ t, exec (.macEnable m n rx tx) s = .next t ∧ t.resp m = ⟨.ok, []⟩ ∧
      t = { s with bus := t.bus, regs := t.regs, macs := t.macs } ∧ (∀ k, k ≠ n.val → t.mac k = s.mac k) ∧
      t.reg (macReg n 0) = (s.reg (macReg n 0) ||| wd (b2n rx + 2 * b2n tx)) &&& 3 ∧
      (x.fenced = false → rx = true → (t.mac n).rxOn = true ∧ (t.mac n).rxIdle = false) ∧
      (x.fenced = false → tx = true → (t.mac n).txOn = true ∧ (t.mac n).draining = false ∧ (t.mac n).txIdle = false) ∧
      (x.fenced = true → rx = true → tx = true → t.mac n = x) := by
  intro x
  obtain ⟨hresp, hframe, hothers, hctrl, hmac, -⟩ :=
    ctrlCommand_spec hmay n.val (fun s => s.reg (macReg n.val 0) ||| wd (b2n rx + 2 * b2n tx)) false
  obtain ⟨hrxbit, htxbit⟩ := enabled_bit rx tx
  have hrx (h : rx = true) : bit (s.reg (macReg n 0) ||| wd (b2n rx + 2 * b2n tx)) 0 = true := by rw [bit_or, hrxbit, h, Bool.or_true]
  have htx (h : tx = true) : bit (s.reg (macReg n 0) ||| wd (b2n rx + 2 * b2n tx)) 1 = true := by rw [bit_or, htxbit, h, Bool.or_true]
  refine ⟨_, rfl, hresp, hframe, hothers, hctrl, fun hfree h => ?_, fun hfree h => ?_, fun hfenced hr ht => ?_⟩
  · obtain ⟨hon, -, hidle⟩ := rxSide_eq.mp (macCtrlWrite_rx_on (busy := false) hfree (hrx h))
    rw [hmac]
    exact ⟨hon, hidle⟩
  · rw [hmac]
    exact txSide_eq.mp (macCtrlWrite_tx_on hfree (htx h))
  · rw [hmac]
    exact macCtrlWrite_fenced hfenced (hrx hr) (htx ht)

theorem macTxDisable_spec :
    let x := s.mac n
    ∃ t, exec (.macTxDisable m n) s = .next t ∧ t.resp m = ⟨.ok, []⟩ ∧ t = { s with bus := t.bus, regs := t.regs, macs := t.macs } ∧
      (∀ k, k ≠ n.val → t.mac k = s.mac k) ∧ t.rbit (macReg n 0) 1 = false ∧ (t.mac n).txOn = x.txOn ∧
      (x.txOn = true → (t.mac n).draining = true) := by
  intro x
  obtain ⟨hresp, hframe, hothers, hctrl, hmac, -⟩ := ctrlCommand_spec hmay n.val (fun s => s.reg (macReg n.val 0) &&& ~~~2) false
  have hclear : bit (s.reg (macReg n 0) &&& ~~~2) 1 = false := (bit_and ..).trans (Bool.and_false _)
  obtain ⟨hon, hdraining, -⟩ := txSide_eq.mp (macCtrlWrite_tx_off (n := n) (busy := false) (s := s) hclear)
  refine ⟨_, rfl, hresp, hframe, hothers, ?_, ?_, fun hruns => ?_⟩
  · rw [State.rbit, hctrl, bit_and, hclear, Bool.false_and]
  · rw [hmac]
    exact hon
  · rw [hmac, hdraining, hruns, Bool.true_or]

theorem macRxDisable_spec (busy : Bool) :
    let x := s.mac n
    ∃ t, exec (.macRxDisable m n busy) s = .next t ∧ t.resp m = ⟨.ok, []⟩ ∧
      t = { s with bus := t.bus, regs := t.regs, macs := t.macs } ∧ (∀ k, k ≠ n.val → t.mac k = s.mac k) ∧ t.rbit (macReg n 0) 0 = false ∧
      (x.rxOn = true → (t.mac n).rxOn = false ∧ (t.mac n).rxTail = (if busy then some (s.sys.tick + frameTicks s n) else none) ∧
        (t.mac n).rxIdle = !busy) := by
  intro x
  obtain ⟨hresp, hframe, hothers, hctrl, hmac, -⟩ := ctrlCommand_spec hmay n.val (fun s => s.reg (macReg n.val 0) &&& ~~~1) busy
  have hclear : bit (s.reg (macReg n 0) &&& ~~~1) 0 = false := (bit_and ..).trans (Bool.and_false _)
  refine ⟨_, rfl, hresp, hframe, hothers, ?_, fun hon => ?_⟩
  · rw [State.rbit, hctrl, bit_and, hclear, Bool.false_and]
  · rw [hmac]
    exact rxSide_eq.mp (macCtrlWrite_rx_off hclear hon)

theorem macForce_spec :
    let x := s.mac n
    ∃ t, exec (.macForce m n) s = .next t ∧ t.resp m = ⟨.ok, []⟩ ∧ t = { s with bus := t.bus, regs := t.regs, macs := t.macs } ∧
      (∀ k, k ≠ n.val → t.mac k = s.mac k) ∧ (x.draining = true → ∀ q, q < 8 → (t.mac n).queue q = []) ∧
      (x.draining = false → t.rbit (macReg n 0x40) 2 = true) := by
  intro x
  obtain ⟨hresp, hframe, hothers, -, hmac, hregs⟩ := ctrlCommand_spec hmay n.val (fun s => (s.reg (macReg n.val 0) &&& ~~~2) ||| 4) false
  have hforce : bit ((s.reg (macReg n 0) &&& ~~~2) ||| 4) 2 = true := (bit_or ..).trans (Bool.or_true _)
  have hclear : bit ((s.reg (macReg n 0) &&& ~~~2) ||| 4) 1 = false := by
    rw [bit_or, bit_and]
    exact (Bool.or_false _).trans (Bool.and_false _)
  obtain ⟨hempty, hmoot⟩ := macCtrlWrite_force (n := n) (busy := false) (s := s) hforce hclear
  refine ⟨_, rfl, hresp, hframe, hothers, fun hdrain => ?_, fun hruns => ?_⟩
  · rw [hmac]
    exact hempty hdrain
  · rw [rbit_congr hregs]
    exact hmoot hruns

end

/-! ### The end of a drain (R228, R229) -/

/-- The drain is over: no frame is queued or in progress. -/
abbrev Drained (m : Mac) : Prop := m.draining = true ∧ m.cur = none ∧ ∀ q, q < 8 → m.queue q = []

section
variable {n : Nat} {s : State}

theorem drained_iff {m : Mac} : (m.draining && m.cur.isNone && allQueues.all (fun q => m.queue q == [])) = true ↔ Drained m := by
  simp [Drained, mem_allQueues, and_assoc]

theorem macTxIdle_early (h : ¬ Drained (s.mac n)) : macTxIdle n s = s := if_neg (mt drained_iff.mp h)

theorem macTxIdle_spec (h : Drained (s.mac n)) :
    let x := s.mac n
    let t := macTxIdle n s
    t = { s with regs := t.regs, macs := t.macs } ∧ (∀ k, k ≠ n → t.mac k = s.mac k) ∧
      t.mac n = { x with draining := false, txOn := false, txIdle := true, heldFrom := none, heldTime := heldTotal s x } ∧
      t.rbit (macReg n 0x40) 1 = true := by
  rw [macTxIdle, if_pos (drained_iff.mpr h)]
  exact updMac_evt_spec _ (by decide)

end

end Sys2Proof.Machine
end

section
/-! SUPPORT. The guarded registers of a MAC, its other registers and its counters (R212, R232 to R234). -/
namespace Sys2Proof.Machine
open Sys2Proof

/-! ### Another line mode (R212, R214) -/

/-- A MAC whose line has lost all that belonged to its mode. -/
def Mac.offLine (m : Mac) : Mac := { m with link := false, lock := false, localFault := false, remoteFault := false, anDone := false }

section
variable {n : Nat} {old : Word} {s : State}

theorem macLine_same (h : lineMode old = lineMode (s.reg (macReg n 8))) : macLine n old s = s := if_pos (beq_iff_eq.mpr h)

theorem macLine_other (h : lineMode old ≠ lineMode (s.reg (macReg n 8))) :
    macLine n old s = if (s.mac n).link = true then evt (.mac n) 0 (updMac n Mac.offLine s) else updMac n Mac.offLine s :=
  if_neg (mt beq_iff_eq.mp h)

theorem macLine_cases (n : Nat) (old : Word) (s : State) :
    macLine n old s = s ∨ macLine n old s = updMac n Mac.offLine s ∨ macLine n old s = evt (.mac n) 0 (updMac n Mac.offLine s) := by
  by_cases h : lineMode old = lineMode (s.reg (macReg n 8))
  · exact .inl (macLine_same h)
  · rw [macLine_other h]
    split
    · exact .inr (.inr rfl)
    · exact .inr (.inl rfl)

theorem macStep_macLine : MacStep n s (macLine n old s) := by
  obtain h | h | h := macLine_cases n old s <;> rw [h]
  · exact .refl ..
  · exact (macOnly_updMac ..).step
  · exact (macOnly_updMac ..).step.trans (macStep_evt ..)

theorem macLine_reg {a : Nat} (ha : a ≠ macReg n 0x40) : (macLine n old s).reg a = s.reg a := by
  obtain h | h | h := macLine_cases n old s <;> rw [h]
  · exact (macOnly_updMac ..).reg a
  · exact (evt_reg ..).trans ((if_neg ha).trans ((macOnly_updMac ..).reg a))

theorem mac_macLine_other (h : lineMode old ≠ lineMode (s.reg (macReg n 8))) : (macLine n old s).mac n = (s.mac n).offLine := by
  rw [macLine_other h]
  split
  · exact (mac_evt ..).trans (mac_updMac_same ..)
  · exact mac_updMac_same ..

end

/-! ### A write of a guarded register (R234) -/

/-- R234 performs the write of the word w to the guarded register at an offset. -/
abbrev GuardFits (n off : Nat) (w : Word) (s : State) : Prop :=
  macEnabled s n = false ∧ (s.mac n).txIdle = true ∧ (off = 0x14 → sizesOk w (s.reg (macReg n 0x18)) (macMaxLen s n) = true) ∧
    (off = 0x18 → sizesOk (s.reg (macReg n 0x14)) w (macMaxLen s n) = true)

/-- The register takes the word, and the line follows CFG. -/
def guardWritten (n off : Nat) (w : Word) (s : State) : State := macLine n (s.reg (macReg n 8)) (s.setReg (macReg n off) w)

section
variable {n off : Nat} {v w : Word} {s : State}

theorem guardFits_iff (n off : Nat) (w : Word) (s : State) :
    GuardFits n off w s ↔
      (macEnabled s n || !(s.mac n).txIdle || ((off == 0x14 || off == 0x18) &&
        !sizesOk (if off = 0x14 then w else s.reg (macReg n 0x14)) (if off = 0x18 then w else s.reg (macReg n 0x18)) (macMaxLen s n))) = false := by
  by_cases h0 : off = 0x14
  · simp [GuardFits, h0, and_assoc]
  · by_cases h1 : off = 0x18
    · simp [GuardFits, h1, and_assoc]
    · simp [GuardFits, h0, h1]

theorem macGuardedWrite_fits (h : GuardFits n off (v &&& macMask n off) s) :
    macGuardedWrite n off v s = (settle (guardWritten n off (v &&& macMask n off) s), .ok) :=
  if_neg (Bool.eq_false_iff.mp ((guardFits_iff ..).mp h))

theorem macGuardedWrite_refused (h : ¬ GuardFits n off (v &&& macMask n off) s) : macGuardedWrite n off v s = (s, .accessErr) :=
  if_pos (Bool.eq_false_iff.not_left.mp (mt (guardFits_iff ..).mpr h))

theorem macStep_guardWritten : MacStep n s (guardWritten n off w s) := (macStep_setReg ..).trans macStep_macLine

theorem guardWritten_reg {a : Nat} (ha : a ≠ macReg n 0x40) : (guardWritten n off w s).reg a = if a = macReg n off then w else s.reg a := by
  rw [guardWritten, macLine_reg ha, reg_setReg]

/-- The line keeps its mode unless CFG takes another one. -/
theorem mac_guardWritten_same (h : off ≠ 8 ∨ lineMode w = lineMode (s.reg (macReg n 8))) : (guardWritten n off w s).mac n = s.mac n := by
  have hmode : lineMode (s.reg (macReg n 8)) = lineMode ((s.setReg (macReg n off) w).reg (macReg n 8)) := by
    rw [reg_setReg]
    split
    next hoff => exact (h.resolve_left (not_not.mpr (macReg_inj.mp hoff).symm)).symm
    next => rfl
  rw [guardWritten, macLine_same hmode]
  exact mac_setReg ..

theorem mac_guardWritten_other (h : lineMode w ≠ lineMode (s.reg (macReg n 8))) : (guardWritten n 8 w s).mac n = (s.mac n).offLine := by
  have hmode : lineMode (s.reg (macReg n 8)) ≠ lineMode ((s.setReg (macReg n 8) w).reg (macReg n 8)) := by
    rw [reg_setReg_same]
    exact h.symm
  rw [guardWritten, mac_macLine_other hmode, mac_setReg]

theorem ne_evt_of_macGuarded (h : macGuarded off = true) : off ≠ 0x40 := by
  rintro rfl
  exact absurd h (by decide)

end

theorem macConfigWrite_guarded_spec {m : Master} {s : State} {n : Fin 4} {off : Fin 65536} (hguard : macGuarded off = true) (hmay : MayWrite m s)
    (v : Word) :
    let x := s.mac n
    let w := v &&& macMask n off
    ∃ t, exec (.macConfigWrite m n off v) s = .next t ∧
      (¬ GuardFits n off w s → t.resp m = ⟨.accessErr, []⟩ ∧ t = { s with bus := t.bus }) ∧
      (GuardFits n off w s → t.resp m = ⟨.ok, []⟩ ∧ t = { s with bus := t.bus, regs := t.regs, sys := t.sys, macs := t.macs } ∧
        (∀ k, k ≠ n.val → t.mac k = s.mac k) ∧ t.reg (macReg n off) = w ∧
        (∀ a, a ≠ macReg n off → a ≠ modeChg → a ≠ macReg n 0x40 → t.reg a = s.reg a) ∧
        (off.val ≠ 8 ∨ lineMode w = lineMode (s.reg (macReg n 8)) → t.mac n = x) ∧
        (off.val = 8 → lineMode w ≠ lineMode (s.reg (macReg n 8)) → t.mac n = x.offLine)) := by
  intro x w
  refine ⟨_, (if_pos hguard).trans (congrArg Host.Outcome.next (cmdC_ok hmay.1 (.inr hmay.2))), fun hbad => ?_, fun hfits => ?_⟩
  · rw [macGuardedWrite_refused hbad]
    exact ⟨resp_respond_same .., rfl⟩
  · rw [macGuardedWrite_fits hfits]
    have hstep : MacStep n s (settle (guardWritten n off w s)) := macStep_guardWritten.trans (macStep_settle ..)
    have hreg {a : Nat} (hmode : a ≠ modeChg) (hevt : a ≠ macReg n 0x40) :
        (respond m .ok [] (settle (guardWritten n off w s))).reg a = if a = macReg n off then w else s.reg a := by
      rw [reg_congr (respond_regs ..), settle_reg hmode, guardWritten_reg hevt]
    have hmac : (respond m .ok [] (settle (guardWritten n off w s))).mac n = (guardWritten n off w s).mac n :=
      (mac_respond ..).trans (mac_settle ..)
    refine ⟨resp_respond_same .., hstep.respond .., hstep.others, ?_, fun a hoff hmode hevt => ?_, fun hsame => ?_, fun h8 hother => ?_⟩
    · exact (hreg (macReg_ne_modeChg n off) (mt macReg_inj.mp (ne_evt_of_macGuarded hguard))).trans (if_pos rfl)
    · exact (hreg hmode hevt).trans (if_neg hoff)
    · exact hmac.trans (mac_guardWritten_same hsame)
    · rw [hmac, h8]
      exact mac_guardWritten_other hother

/-! ### The other registers (Table 8.7) -/

/-- PAUSE_CFG, AGE or a word of HASH. -/
abbrev PlainOff (off : Nat) : Prop := off = 0x1C ∨ off = 0x20 ∨ (0x100 ≤ off ∧ off < 0x140 ∧ off % 4 = 0)

theorem not_macGuarded_of_plain {off : Nat} (h : PlainOff off) : macGuarded off = false := by
  simp only [macGuarded, Bool.or_eq_false_iff, beq_eq_false_iff_ne]
  omega

theorem respond_setReg_frame (m : Master) (c : Code) (ws : List Word) (a : Nat) (v : Word) (s : State) :
    let t := respond m c ws (s.setReg a v)
    t = { s with bus := t.bus, regs := t.regs } := rfl

theorem macConfigWrite_plain_spec {m : Master} {s : State} {off : Fin 65536} (hplain : PlainOff off) (hreach : Reaches m s) (n : Fin 4) (v : Word) :
    ∃ t, exec (.macConfigWrite m n off v) s = .next t ∧ t.resp m = ⟨.ok, []⟩ ∧ t = { s with bus := t.bus, regs := t.regs } ∧
      ∀ a, t.reg a = if a = macReg n off then v &&& macMask n off else s.reg a := by
  refine ⟨_, (if_neg (Bool.eq_false_iff.mp (not_macGuarded_of_plain hplain))).trans ((if_pos hplain).trans
    (congrArg Host.Outcome.next (cmd_ok hreach (.inl rfl)))), resp_respond_same .., respond_setReg_frame .., fun a => ?_⟩
  rw [reg_congr (respond_regs ..), reg_setReg]

/-! ### Counters (R232) -/

theorem macCounterRead_spec {m : Master} {s : State} (hreach : Reaches m s) (n : Fin 4) (c : Fin 24) :
    let x := s.mac n
    ∃ t, exec (.macCounterRead m n c) s = .next t ∧ t.resp m = ⟨.ok, [wd (macCounter s n c)]⟩ ∧
      t = { s with bus := t.bus, macs := t.macs } ∧ (∀ k, k ≠ n.val → t.mac k = s.mac k) ∧ t.mac n = { x with capHi := (t.mac n).capHi } ∧
      Tab.get (fun _ => 0) (t.mac n).capHi m.idx = wd (macCounter s n c / 2 ^ 32) := by
  intro x
  have hread : (macCntRead m n c s).1.mac n = { x with capHi := Tab.set (fun _ => 0) x.capHi m.idx (wd (macCounter s n c / 2 ^ 32)) } :=
    mac_updMac_same ..
  have honly : MacOnly n s (macCntRead m n c s).1 := macOnly_updMac n s fun y =>
    { y with capHi := Tab.set (fun _ => 0) y.capHi m.idx (wd (macCounter s n c / 2 ^ 32)) }
  refine ⟨_, congrArg Host.Outcome.next (rdCmd_ok hreach), resp_respond_same .., ?_, honly.others, ?_, ?_⟩
  · exact (congrArg (respond m .ok _) honly.frame).trans rfl
  · rw [mac_respond, hread]
  · rw [mac_respond, hread]
    exact tab_get_set_same ..

end Sys2Proof.Machine
end

section
/-! SUPPORT. The frames a MAC sends (R219 to R222, R225, R227). -/
namespace Sys2Proof.Machine
open Sys2Proof

/-! ### What the selection picks (R221) -/

section
variable {n : Nat} {s : State}

theorem agedQueue_nonempty {m : Mac} {q : Nat} (h : agedQueue s n m = some q) : q < 8 ∧ m.queue q ≠ [] := by
  refine List.foldlRecOn (motive := fun b : Option Nat => ∀ q, b = some q → q < 8 ∧ m.queue q ≠ []) [5, 4, 3, 2, 1, 0] _ (by simp) ?_ q h
  intro b hb k hk p hp
  split at hp
  next hqueued =>
    have hk' : k < 8 ∧ m.queue k ≠ [] := by
      simp only [List.mem_cons, List.not_mem_nil, or_false] at hk
      exact ⟨by omega, by simpa using ((Bool.and_eq_true ..).mp hqueued).1⟩
    split at hp
    · split at hp
      · exact Option.some.inj hp ▸ hk'
      · exact hb p hp
    · exact Option.some.inj hp ▸ hk'
  next => exact hb p hp

theorem firstQueue_nonempty {m : Mac} {q : Nat} (h : firstQueue m [5, 4, 3, 2, 1, 0] = some q) : q < 8 ∧ m.queue q ≠ [] := by
  have hmem := List.mem_of_find?_eq_some h
  simp only [List.mem_cons, List.not_mem_nil, or_false] at hmem
  exact ⟨by omega, by simpa using List.find?_some h⟩

/-- A queue that is picked has a frame. -/
theorem macPick_nonempty {q : Nat} {aged : Bool} (h : macPick s n = some (q, aged)) : q < 8 ∧ (s.mac n).queue q ≠ [] := by
  unfold macPick at h
  extract_lets m at h
  split at h
  · exact absurd h nofun
  split at h
  next hqueued =>
    obtain ⟨rfl, -⟩ := Prod.mk.inj (Option.some.inj h)
    exact ⟨by decide, by simpa using hqueued⟩
  split at h
  next hqueued =>
    obtain ⟨rfl, -⟩ := Prod.mk.inj (Option.some.inj h)
    exact ⟨by decide, by simpa using hqueued⟩
  split at h
  next p haged =>
    obtain ⟨rfl, -⟩ := Prod.mk.inj (Option.some.inj h)
    split at haged
    · exact agedQueue_nonempty haged
    · exact absurd haged nofun
  next =>
    obtain ⟨p, hfirst, hpq⟩ := Option.map_eq_some_iff.mp h
    obtain ⟨rfl, -⟩ := Prod.mk.inj hpq
    exact firstQueue_nonempty hfirst

/-- Unless pause holds the transmission, a MAC with a frame picks one. -/
theorem macPick_exists {q : Nat} (hheld : (s.mac n).held = false) (hq : q < 8) (hqueued : (s.mac n).queue q ≠ []) :
    ∃ p, macPick s n = some p := by
  unfold macPick
  extract_lets m
  rw [if_neg (Bool.eq_false_iff.mp hheld)]
  split
  · exact ⟨_, rfl⟩
  next hseven =>
    split
    · exact ⟨_, rfl⟩
    next hsix =>
      split
      · exact ⟨_, rfl⟩
      next =>
        have hlow : q ∈ [5, 4, 3, 2, 1, 0] := by
          have h7 : q ≠ 7 := by rintro rfl; exact hseven (by simpa using hqueued)
          have h6 : q ≠ 6 := by rintro rfl; exact hsix (by simpa using hqueued)
          simp only [List.mem_cons, List.not_mem_nil, or_false]
          omega
        have hfirst : (firstQueue m [5, 4, 3, 2, 1, 0]).isSome = true := List.find?_isSome.mpr ⟨q, hlow, by simpa using hqueued⟩
        obtain ⟨p, hp⟩ := Option.isSome_iff_exists.mp hfirst
        exact ⟨(p, false), by rw [hp]; rfl⟩

/-- The only queue with a frame is the one picked. -/
theorem macPick_only {q : Nat} (hheld : (s.mac n).held = false) (hq : q < 8) (hqueued : (s.mac n).queue q ≠ [])
    (hothers : ∀ k, k < 8 → k ≠ q → (s.mac n).queue k = []) : ∃ aged, macPick s n = some (q, aged) := by
  obtain ⟨⟨p, aged⟩, hpick⟩ := macPick_exists hheld hq hqueued
  obtain ⟨hp, hframe⟩ := macPick_nonempty hpick
  have hpq : p = q := by
    by_contra hne
    exact hframe (hothers p hp hne)
  exact ⟨aged, hpq ▸ hpick⟩

end

/-! ### A frame that is handed over (R219, R225, R227) -/

/-- The queue takes no frame: the transmitter is off or draining, or the queue is an audio queue out of service. -/
abbrev TxClosed (n q : Nat) (s : State) : Prop :=
  (s.mac n).txOn = false ∨ (s.mac n).draining = true ∨ ((q = 5 ∨ q = 6) ∧ (s.sys.run = false ∨ s.sys.standby = true))

/-- The frame's length is out of range. -/
abbrev TxLong (n : Nat) (f : List Byte) (s : State) : Prop := f.length < 14 ∨ macMaxLen s n - 4 < f.length

/-- The frame stands at the tail of its queue. -/
def macQueued (n q : Nat) (f : List Byte) (s : State) : State :=
  updMac n (fun m => m.setQueue q (if m.queue q = [] then s.sys.tick else Tab.get (fun _ => 0) m.headSince q) (m.queue q ++ [f])) s

section
variable {n q : Nat} {f : List Byte} {s : State}

theorem txClosed_iff : (!(s.mac n).txOn || (s.mac n).draining || ((q = 5 || q = 6) && audioClosed s)) = true ↔ TxClosed n q s := by
  simp [TxClosed, audioClosed, or_assoc]

theorem macEnqueue_refused (h : (s.mac n).fenced = true ∨ s.sys.snuffed = true ∨ TxClosed n q s) : (macEnqueue n q f s).1 = s := by
  by_cases hshut : ((s.mac n).fenced || s.sys.snuffed) = true
  · rw [macEnqueue, if_pos hshut]
  · have hclosed : TxClosed n q s := by
      obtain ⟨hfree, hserves⟩ : (s.mac n).fenced = false ∧ s.sys.snuffed = false := by simpa using hshut
      simpa [hfree, hserves] using h
    rw [macEnqueue, if_neg hshut, if_pos (txClosed_iff.mpr hclosed)]

section
variable (hfree : (s.mac n).fenced = false) (hserves : s.sys.snuffed = false) (hopen : ¬ TxClosed n q s)
include hfree hserves hopen

/-- What becomes of a frame for an open queue: its length, then its room decide. -/
theorem macEnqueue_open :
    (macEnqueue n q f s).1 =
      if TxLong n f s then raise (.mac n) 3 (macCount n 21 1 s)
      else if queueSize s n q < queueUsed (s.mac n) q + txOctets f then macCount n 21 1 s else macSelect n (macQueued n q f s) := by
  rw [macEnqueue, if_neg (by simp [hfree, hserves]), if_neg (mt txClosed_iff.mp hopen), apply_ite Prod.fst, apply_ite Prod.fst]
  rfl

theorem macStep_macEnqueue : MacStep n s (macEnqueue n q f s).1 := by
  rw [macEnqueue_open hfree hserves hopen]
  split
  · exact (macOnly_macCount ..).step.trans (macStep_raise ..)
  · split
    · exact (macOnly_macCount ..).step
    · exact ((macOnly_updMac ..).trans (macOnly_macSelect ..)).step

end

theorem queue_macQueued (k : Nat) : ((macQueued n q f s).mac n).queue k = if k = q then (s.mac n).queue q ++ [f] else (s.mac n).queue k := by
  rw [macQueued, mac_updMac_same, queue_setQueue]

theorem cur_macQueued : ((macQueued n q f s).mac n).cur = (s.mac n).cur := by
  rw [macQueued, mac_updMac_same]
  rfl

/-- A frame that finds the MAC idle, with empty queues, is sent at once. -/
theorem macSelect_macQueued (hq : q < 8) (hcur : (s.mac n).cur = none) (hpause : (s.mac n).pauseQ = 0) (hserves : s.sys.snuffed = false)
    (hspeed : macSpeed s n ≠ 0) (hempty : ∀ k, k < 8 → (s.mac n).queue k = []) :
    ((macSelect n (macQueued n q f s)).mac n).cur = some ⟨q, f, false⟩ ∧ ((macSelect n (macQueued n q f s)).mac n).queue q = [] := by
  have hhead : ((macQueued n q f s).mac n).queue q = [f] := by rw [queue_macQueued, if_pos rfl, hempty q hq, List.nil_append]
  have hheld : ((macQueued n q f s).mac n).held = false := by
    have hpaused : ((macQueued n q f s).mac n).pauseQ = 0 := by
      rw [macQueued, mac_updMac_same]
      exact hpause
    simp [Mac.held, hpaused]
  obtain ⟨aged, hpick⟩ := macPick_only hheld hq (by simp [hhead]) fun k hk hne => by rw [queue_macQueued, if_neg hne, hempty k hk]
  rw [macSelect_picked (cur_macQueued.trans hcur) hserves hspeed hpick]
  exact macSent_head _ _ _ _ hhead

end

theorem txFrameEnqueue_spec {n : Fin 4} {q : Fin 8} {f : List Byte} {s : State} (hfree : (s.mac n).fenced = false) (hserves : s.sys.snuffed = false)
    (hopen : ¬ TxClosed n q s) :
    let x := s.mac n
    ∃ t, exec (.txFrameEnqueue n q f) s = .next t ∧ MacStep n s t ∧
      (TxLong n f s → macCounter t n 21 = (macCounter s n 21 + 1) % 2 ^ 64 ∧ t.faultBit (.mac n) 3 = true ∧ (t.mac n).queue q = x.queue q) ∧
      (¬ TxLong n f s → queueSize s n q < queueUsed x q + txOctets f →
        macCounter t n 21 = (macCounter s n 21 + 1) % 2 ^ 64 ∧ t.sys = s.sys ∧ (t.mac n).queue q = x.queue q) ∧
      (¬ TxLong n f s → queueUsed x q + txOctets f ≤ queueSize s n q →
        (x.cur.isSome = true → (t.mac n).cur = x.cur ∧ (t.mac n).queue q = x.queue q ++ [f]) ∧
        (x.cur = none → x.pauseQ = 0 → macSpeed s n ≠ 0 → (∀ k, k < 8 → x.queue k = []) →
          (t.mac n).cur = some ⟨q, f, false⟩ ∧ (t.mac n).queue q = [])) := by
  intro x
  refine ⟨_, rfl, macStep_macEnqueue hfree hserves hopen, ?_⟩
  simp only [macCounter_eq (c := 21) (by decide), macEnqueue_open hfree hserves hopen]
  refine ⟨fun hlong => ?_, fun hlen hfull => ?_, fun hlen hroom => ?_⟩
  · rw [if_pos hlong, mac_raise]
    exact ⟨macCount_count_same .., raise_fault _ _ _ (by decide), macCount_queue ..⟩
  · rw [if_neg hlen, if_pos hfull]
    exact ⟨macCount_count_same .., (macOnly_macCount ..).sys, macCount_queue ..⟩
  · rw [if_neg hlen, if_neg (Nat.not_lt.mpr hroom)]
    refine ⟨fun hbusy => ?_, fun hcur hpause hspeed hempty => macSelect_macQueued q.isLt hcur hpause hserves hspeed hempty⟩
    rw [macSelect_busy (by rwa [cur_macQueued])]
    exact ⟨cur_macQueued, (queue_macQueued _).trans (if_pos rfl)⟩

/-! ### The end of a frame (R220) -/

/-- The frame c has been sent, and is counted with its padding and FCS. -/
def frameSent (n : Nat) (c : TxCur) (s : State) : State :=
  macCount n 11 (max 60 c.frame.length + 4) (macCount n (12 + c.q) 1 (updMac n (fun m => { m with cur := none }) s))

section
variable {n : Nat} {s : State}

theorem frameTransmitEnd_idle (h : (s.mac n).cur = none) : frameTransmitEnd n s = s := by rw [frameTransmitEnd, h]

theorem frameTransmitEnd_sent {c : TxCur} (h : (s.mac n).cur = some c) : frameTransmitEnd n s = macSelect n (frameSent n c s) := by
  rw [frameTransmitEnd, h]
  rfl

theorem frameTransmitEnd_spec {c : TxCur} (h : (s.mac n).cur = some c) :
    let t := frameTransmitEnd n s
    t = { s with macs := t.macs } ∧ (∀ k, k ≠ n → t.mac k = s.mac k) ∧
      (c.q < 8 → macCounter t n (12 + c.q) = (macCounter s n (12 + c.q) + 1) % 2 ^ 64 ∧
        macCounter t n 11 = (macCounter s n 11 + (max 60 c.frame.length + 4)) % 2 ^ 64) := by
  have honly : MacOnly n s (frameSent n c s) := ((macOnly_updMac ..).trans (macOnly_macCount ..)).trans (macOnly_macCount ..)
  have hfreed (j : Nat) : ((updMac n (fun m => { m with cur := none }) s).mac n).count j = (s.mac n).count j := by
    rw [mac_updMac_same]
    rfl
  obtain ⟨hframe, hothers⟩ := honly.trans (macOnly_macSelect ..)
  rw [frameTransmitEnd_sent h]
  refine ⟨hframe, hothers, fun hq => ⟨?_, ?_⟩⟩
  · rw [macCounter_eq (by omega), macCounter_eq (by omega), macSelect_count _ _ (by omega), frameSent, macCount_count, if_neg (by omega),
      macCount_count_same, hfreed]
  · rw [macCounter_eq (by decide), macCounter_eq (by decide), macSelect_count _ _ (by decide), frameSent, macCount_count_same, macCount_count,
      if_neg (by omega), hfreed]

end

end Sys2Proof.Machine
end

section
/-! SUPPORT. The frames a MAC receives (R216 to R218, R223, R225, R230). -/
namespace Sys2Proof.Machine
open Sys2Proof

/-! ### What a frame becomes (Table 8.2) -/

theorem MacStep.ite {n : Nat} {s a b : State} {c : Prop} {_ : Decidable c} (ha : MacStep n s a) (hb : MacStep n s b) :
    MacStep n s (if c then a else b) := by
  split
  · exact ha
  · exact hb

section
variable {n c : Nat} {f : List Byte} {s : State}

theorem macStep_macDeliver : MacStep n s (macDeliver n f c s) :=
  .ite (.refl ..) (.ite ((macOnly_macCount ..).step.trans (macStep_raise ..))
    (((macOnly_updMac ..).trans (macOnly_macCount ..)).trans (macOnly_macCount ..)).step)

theorem macStep_macChecks {ce on : Bool} : MacStep n s (macChecks n f ce on c s) := by
  have hcount (k : Nat) : MacStep n s (if on then macCount n k 1 s else s) := .ite (macOnly_macCount ..).step (.refl ..)
  exact .ite (hcount 5) (.ite (hcount 3) (.ite (hcount 4) (.ite (hcount 2) (.ite (.ite (.ite macOnly_pauseReceive.step (hcount 6))
    (.ite (hcount 10) (hcount 6))) (.ite (.refl ..) (.ite (macOnly_macCount ..).step macStep_macDeliver))))))

theorem macChecks_codeErr : macChecks n f true true c s = macCount n 5 1 s := rfl

theorem macChecks_short (hshort : f.length < 64) : macChecks n f false true c s = macCount n 3 1 s := if_pos hshort

section
variable (hmin : 64 ≤ f.length)
include hmin

theorem macChecks_long (hlong : macMaxLen s n < f.length) : macChecks n f false true c s = macCount n 4 1 s :=
  (if_neg (Nat.not_lt.mpr hmin)).trans (if_pos hlong)

variable (hmax : f.length ≤ macMaxLen s n)
include hmax

theorem macChecks_badFcs (hfcs : fcsMatch f = false) : macChecks n f false true c s = macCount n 2 1 s :=
  (if_neg (Nat.not_lt.mpr hmin)).trans ((if_neg (Nat.not_lt.mpr hmax)).trans (if_pos (by simp [hfcs])))

variable (hfcs : fcsMatch f = true) (hdata : isControl f = false)
include hfcs hdata

theorem macChecks_data : macChecks n f false true c s = if !addrOk s n f then macCount n 6 1 s else macDeliver n f c s :=
  (if_neg (Nat.not_lt.mpr hmin)).trans ((if_neg (Nat.not_lt.mpr hmax)).trans ((if_neg (by simp [hfcs])).trans (if_neg (by simp [hdata]))))

theorem macChecks_filtered (haddr : addrOk s n f = false) : macChecks n f false true c s = macCount n 6 1 s := by
  rw [macChecks_data hmin hmax hfcs hdata, haddr]
  rfl

theorem macChecks_accepted (haddr : addrOk s n f = true) : macChecks n f false true c s = macDeliver n f c s := by
  rw [macChecks_data hmin hmax hfcs hdata, haddr]
  rfl

end

/-! ### The receive buffer (R218) -/

/-- The frame stands in the receive buffer with its stamp. -/
def macBuffered (n : Nat) (f : List Byte) (c : Nat) (s : State) : State := updMac n (fun m => { m with rx := m.rx ++ [⟨f, toStamp c⟩] }) s

theorem macDeliver_full (hfree : (s.mac n).fenced = false) (hfull : 65536 < (s.mac n).rxOctets + f.length) :
    macDeliver n f c s = raise (.mac n) 4 (macCount n 7 1 s) :=
  (if_neg (by simp [hfree])).trans (if_pos hfull)

theorem macDeliver_stored (hfree : (s.mac n).fenced = false) (hroom : ¬ 65536 < (s.mac n).rxOctets + f.length) :
    macDeliver n f c s = macCount n 1 f.length (macCount n 0 1 (macBuffered n f c s)) :=
  (if_neg (by simp [hfree])).trans (if_neg hroom)

end

/-! ### The frame in reception when the receiver was stopped (R230) -/

/-- The frame that the stopped receiver still waited for has come. -/
def rxEnded (was : Bool) (n : Nat) (s : State) : State := if was then updMac n (fun m => { m with rxTail := none, rxIdle := true }) s else s

theorem macFrameReceive_down {n c : Nat} {f : List Byte} {ce : Bool} {s : State} (h : (s.mac n).link = false) :
    macFrameReceive n f ce c s = s := if_pos (by simp [h])

theorem macFrameReceive_up {n : Nat} {s : State} (hup : (s.mac n).link = true) (f : List Byte) (ce : Bool) (c : Nat) :
    macFrameReceive n f ce c s = rxEnded (s.mac n).rxTail.isSome n (macChecks n f ce ((s.mac n).rxOn || (s.mac n).rxTail.isSome) c s) :=
  if_neg (by simp [hup])

section
variable (was : Bool) (n : Nat) (s : State)

theorem macOnly_rxEnded : MacOnly n s (rxEnded was n s) := by
  unfold rxEnded
  split
  · exact macOnly_updMac ..
  · exact .refl ..

theorem rxEnded_count (c : Nat) : ((rxEnded was n s).mac n).count c = (s.mac n).count c := by
  unfold rxEnded
  split
  · rw [mac_updMac_same]
    rfl
  · rfl

theorem rxEnded_rx : ((rxEnded was n s).mac n).rx = (s.mac n).rx := by
  unfold rxEnded
  split
  · rw [mac_updMac_same]
  · rfl

/-- A frame that is only counted leaves the receive buffer. -/
theorem rxEnded_macCount {c : Nat} (hc : c ≠ 23) :
    macCounter (rxEnded was n (macCount n c 1 s)) n c = (macCounter s n c + 1) % 2 ^ 64 ∧
      ((rxEnded was n (macCount n c 1 s)).mac n).rx = (s.mac n).rx := by
  rw [macCounter_eq hc, macCounter_eq hc, rxEnded_count, rxEnded_rx]
  exact ⟨macCount_count_same .., (macCount_like ..).rx⟩

/-- A frame that finds no room is lost. -/
theorem rxEnded_overrun :
    let t := rxEnded was n (raise (.mac n) 4 (macCount n 7 1 s))
    macCounter t n 7 = (macCounter s n 7 + 1) % 2 ^ 64 ∧ t.faultBit (.mac n) 4 = true ∧ (t.mac n).rx = (s.mac n).rx := by
  intro t
  rw [macCounter_eq (by decide), macCounter_eq (by decide), rxEnded_count, rxEnded_rx, mac_raise, State.faultBit, State.rbit,
    (macOnly_rxEnded ..).reg]
  exact ⟨macCount_count_same .., raise_fault _ _ _ (by decide), (macCount_like ..).rx⟩

/-- A frame with room in the buffer is stored and counted. -/
theorem rxEnded_stored (f : List Byte) (c : Nat) :
    let t := rxEnded was n (macCount n 1 f.length (macCount n 0 1 (macBuffered n f c s)))
    macCounter t n 0 = (macCounter s n 0 + 1) % 2 ^ 64 ∧ (t.mac n).rx = (s.mac n).rx ++ [⟨f, toStamp c⟩] ∧ t.sys = s.sys := by
  intro t
  have honly : MacOnly n s t := (((macOnly_updMac ..).trans (macOnly_macCount ..)).trans (macOnly_macCount ..)).trans (macOnly_rxEnded ..)
  have hbuffered : (macBuffered n f c s).mac n = { s.mac n with rx := (s.mac n).rx ++ [⟨f, toStamp c⟩] } := mac_updMac_same ..
  refine ⟨?_, ?_, honly.sys⟩
  · rw [macCounter_eq (by decide), macCounter_eq (by decide), rxEnded_count, macCount_count, if_neg (by decide), macCount_count_same, hbuffered]
    rfl
  · rw [rxEnded_rx, ((macCount_like ..).trans (macCount_like ..)).rx, hbuffered]

end

/-- A frame on an up link. -/
theorem macFrameReceive_spec {n : Nat} {s : State} (hup : (s.mac n).link = true) (f : List Byte) (ce : Bool) (c : Nat) :
    let x := s.mac n
    let t := macFrameReceive n f ce c s
    let up (k : Nat) : Prop := macCounter t n k = (macCounter s n k + 1) % 2 ^ 64
    MacStep n s t ∧
      (x.rxOn = true →
        (ce = true → up 5 ∧ (t.mac n).rx = x.rx) ∧
        (ce = false → f.length < 64 → up 3 ∧ (t.mac n).rx = x.rx) ∧
        (ce = false → 64 ≤ f.length → macMaxLen s n < f.length → up 4 ∧ (t.mac n).rx = x.rx) ∧
        (ce = false → 64 ≤ f.length → f.length ≤ macMaxLen s n → fcsMatch f = false → up 2 ∧ (t.mac n).rx = x.rx) ∧
        (ce = false → 64 ≤ f.length → f.length ≤ macMaxLen s n → fcsMatch f = true → isControl f = false → addrOk s n f = false →
          up 6 ∧ (t.mac n).rx = x.rx) ∧
        (ce = false → 64 ≤ f.length → f.length ≤ macMaxLen s n → fcsMatch f = true → isControl f = false → addrOk s n f = true →
          x.fenced = false →
          if 65536 < x.rxOctets + f.length then up 7 ∧ t.faultBit (.mac n) 4 = true ∧ (t.mac n).rx = x.rx
          else up 0 ∧ (t.mac n).rx = x.rx ++ [⟨f, toStamp c⟩] ∧ t.sys = s.sys)) := by
  intro x t up
  have hstep : MacStep n s t := by
    rw [show t = _ from macFrameReceive_up hup f ce c]
    exact macStep_macChecks.trans (macOnly_rxEnded ..).step
  refine ⟨hstep, fun hon => ?_⟩
  have ht : t = rxEnded x.rxTail.isSome n (macChecks n f ce true c s) := by
    rw [show t = _ from macFrameReceive_up hup f ce c, hon, Bool.true_or]
  simp only [up, ht]
  refine ⟨?_, ?_, ?_, ?_, ?_, ?_⟩
  · rintro rfl
    rw [macChecks_codeErr]
    exact rxEnded_macCount _ _ _ (by decide)
  · rintro rfl hshort
    rw [macChecks_short hshort]
    exact rxEnded_macCount _ _ _ (by decide)
  · rintro rfl hmin hlong
    rw [macChecks_long hmin hlong]
    exact rxEnded_macCount _ _ _ (by decide)
  · rintro rfl hmin hmax hfcs
    rw [macChecks_badFcs hmin hmax hfcs]
    exact rxEnded_macCount _ _ _ (by decide)
  · rintro rfl hmin hmax hfcs hdata haddr
    rw [macChecks_filtered hmin hmax hfcs hdata haddr]
    exact rxEnded_macCount _ _ _ (by decide)
  · rintro rfl hmin hmax hfcs hdata haddr hfree
    rw [macChecks_accepted hmin hmax hfcs hdata haddr]
    split
    next hfull =>
      rw [macDeliver_full hfree hfull]
      exact rxEnded_overrun ..
    next hroom =>
      rw [macDeliver_stored hfree hroom]
      exact rxEnded_stored ..

/-- Settles O37: the commands of CTRL, of the other registers and of the counters, then the frames sent and the frames received. -/
theorem macControlAndFrames : Obligations.MacControlAndFrames := by
  unfold Obligations.MacControlAndFrames
  refine fun s m n => ⟨fun hmay => macEnable_spec hmay n, fun hmay => macTxDisable_spec hmay n, fun hmay => macRxDisable_spec hmay n,
    fun hmay => macForce_spec hmay n, ⟨fun h => congrArg Host.Outcome.next (macTxIdle_early h), fun h => ⟨_, rfl, macTxIdle_spec h⟩⟩,
    fun off v hguard hmay => macConfigWrite_guarded_spec hguard hmay v, fun off hplain hreach v => macConfigWrite_plain_spec hplain hreach n v,
    fun hreach c => macCounterRead_spec hreach n c,
    fun q f => ⟨fun h => congrArg Host.Outcome.next (macEnqueue_refused h), fun hfree hserves hopen => ?_⟩,
    fun h => congrArg Host.Outcome.next (frameTransmitEnd_idle h), fun c h => ⟨_, rfl, frameTransmitEnd_spec h⟩,
    fun h f ce c => congrArg Host.Outcome.next (macFrameReceive_down h), fun h f ce c => ?_⟩
  · obtain ⟨t, hexec, ⟨hframe, hothers⟩, hlong, hfull, hroom⟩ := txFrameEnqueue_spec (q := q) (f := f) hfree hserves hopen
    exact ⟨t, hexec, hframe, hothers, fun _ _ _ => hlong, fun _ _ _ => hfull, fun _ _ _ => hroom⟩
  · obtain ⟨⟨hframe, hothers⟩, hframes⟩ := macFrameReceive_spec h f ce c
    exact ⟨_, rfl, hframe, hothers, hframes⟩

end Sys2Proof.Machine
end

section
/-! SUPPORT. The flow table of STE and the granules of its packets (R237, R243, R255): what an operation on one entry leaves. One relation,
`FlowStep`, says it of those that change nothing but the registers and STE. -/
namespace Sys2Proof.Machine
open Sys2Proof

/-! ### The entries of the table -/

/-- Flow entry k, as STE holds it. -/
def Ste.flow (y : Ste) (k : Nat) : Flow := Tab.get (fun _ => {}) y.flows k

theorem flow_congr {s t : State} (h : t.ste = s.ste) (k : Nat) : t.flow k = s.flow k := by rw [State.flow, State.flow, h]

@[simp] theorem flow_updFlow_same (f : Nat) (g : Flow → Flow) (s : State) : (updFlow f g s).flow f = g (s.flow f) := by simp [flow_updFlow]

/-- A key that a table does not list reads the default. -/
theorem tab_get_unlisted {α : Type} (d : Nat → α) {t : List (Nat × α)} {k : Nat} (h : k ∉ t.map Prod.fst) : Tab.get d t k = d k := by
  induction t with
  | nil => rfl
  | cons e t ih =>
    obtain ⟨hne, htail⟩ := List.ne_and_not_mem_of_not_mem_cons h
    exact (if_neg hne).trans (ih htail)

/-- A table filled at the places below n reads there what it was filled with. -/
theorem tab_get_filled {α : Type} [DecidableEq α] (d g : Nat → α) {n i : Nat} (h : i < n) :
    Tab.get d ((upto n).foldl (fun t i => Tab.set d t i (g i)) []) i = g i := by
  induction n with
  | zero => exact absurd h (Nat.not_lt_zero i)
  | succ n ih =>
    rw [upto, List.range_succ, List.foldl_append, List.foldl_cons, List.foldl_nil, tab_get_set]
    split
    next hlast => rw [hlast]
    next hne => exact ih (by omega)

/-! ### One entry changes -/

/-- Of the state nothing but the register file and STE tells t from s, and of the flow table nothing but entry f. -/
structure FlowStep (f : Nat) (s t : State) : Prop where
  frame : t = { s with regs := t.regs, ste := t.ste }
  others : ∀ g, g ≠ f → t.flow g = s.flow g

section
variable {f : Nat} {s t : State}

theorem FlowStep.refl (f : Nat) (s : State) : FlowStep f s s := ⟨rfl, fun _ _ => rfl⟩

theorem FlowStep.evt (h : FlowStep f s t) (b : Blk) (i : Nat) : FlowStep f s (evt b i t) where
  frame := (congrArg (Machine.evt b i) h.frame).trans (by rw [h.frame]; rfl)
  others := h.others

theorem flowStep_updFlow (g : Flow → Flow) : FlowStep f s (updFlow f g s) := ⟨rfl, fun k hk => (flow_updFlow s f k g).trans (if_neg hk)⟩

end

/-! ### Granules that return to their source (R255) -/

section
variable {c n f k : Nat} {src : GSrc} {y : Ste}

theorem flow_giveGranules_same (c n f : Nat) (y : Ste) :
    (giveGranules c n (some f) .guarantee y).flow f = { y.flow f with gh := (y.flow f).gh - n } := tab_get_set_same (fun _ => ({} : Flow)) y.flows f _

theorem flow_giveGranules_ne (hk : k ≠ f) : (giveGranules c n (some f) src y).flow k = y.flow k := by
  cases src with
  | guarantee => exact tab_get_set_ne _ _ _ hk
  | own | shared | lent => rfl

/-- Of an entry nothing but its granules moves. -/
theorem pkts_giveGranules : ((giveGranules c n (some f) src y).flow k).pkts = (y.flow k).pkts := by
  by_cases hk : k = f
  · subst hk
    cases src with
    | guarantee => rw [flow_giveGranules_same]
    | own | shared | lent => rfl
  · rw [flow_giveGranules_ne hk]

theorem flow_givePkts_ne (hk : k ≠ f) (l : List Pkt) : (givePkts f c l y).flow k = y.flow k :=
  l.foldlRecOn (motive := fun z : Ste => z.flow k = y.flow k) _ rfl fun _ hz _ _ => (flow_giveGranules_ne hk).trans hz

theorem pkts_givePkts (l : List Pkt) : ((givePkts f c l y).flow k).pkts = (y.flow k).pkts :=
  l.foldlRecOn (motive := fun z : Ste => (z.flow k).pkts = (y.flow k).pkts) _ rfl fun _ hz _ _ => pkts_giveGranules.trans hz

end

/-! ### An entry becomes FREE (R243) -/

section
variable {f : Nat} {s : State}

theorem flow_freeFlow : (freeFlow f s).flow f = {} :=
  tab_get_set_same (fun _ => ({} : Flow)) (givePkts f (feCls (s.flow f).fe) (s.flow f).pkts s.ste).flows f {}

theorem flowStep_freeFlow : FlowStep f s (freeFlow f s) where
  frame := rfl
  others _ hk := (tab_get_set_ne (fun _ => ({} : Flow)) _ {} hk).trans (flow_givePkts_ne (c := feCls (s.flow f).fe) (y := s.ste) hk (s.flow f).pkts)

end

end Sys2Proof.Machine
end

section
/-! SUPPORT. The flow commands and their results (R240 to R243). -/
namespace Sys2Proof.Machine
open Sys2Proof

/-! ### What every flow command shows -/

/-- Command c of master m on entry f has completed with the result r: FT_RES, FT_RES_IDX and CMD_DONE show it, and no other entry changes. -/
abbrev FtDone (m : Master) (f : Nat) (s t : State) (c r : Nat) : Prop :=
  t.resp m = ⟨.ok, []⟩ ∧ t = { s with bus := t.bus, regs := t.regs, ste := t.ste } ∧ (∀ g, g ≠ f → t.flow g = s.flow g) ∧
    Tab.get (fun _ => ({} : FtRes)) t.ste.fts m.idx = ⟨r, s.sys.tick % 65536, c, f⟩ ∧ t.rbit (Blk.ste.base + 0x40) 0 = true

section
variable {m : Master} {c f : Nat} {s u : State}

/-- The state after a command whose effect is u, with the result r. -/
def ftShown (m : Master) (c f r : Nat) (s u : State) : State :=
  evt .ste 0 (updSte (fun y => { y with fts := Tab.set (fun _ => ({} : FtRes)) y.fts m.idx ⟨r, s.sys.tick % 65536, c, f⟩ }) u)

theorem ftCmd_eq {r : Nat} (hc : 0 < c ∧ c ≤ 5) (heffect : ftEffect m c f s = (u, r)) : ftCmd m c f s = ftShown m c f r s u := by
  rw [ftCmd, if_neg (by omega), heffect]
  rfl

/-- A flow command that reaches the registers completes, whatever its effect on its entry; of STE it leaves the effect, and the result. -/
theorem ftCommand_spec {r : Nat} (hreach : Reaches m s) (hc : 0 < c ∧ c ≤ 5) (heffect : ftEffect m c f s = (u, r)) (hstep : FlowStep f s u) :
    let t := cmd m false (ftCmd m c f) s
    FtDone m f s t c r ∧ t.flow f = u.flow f ∧ t.ste = { u.ste with fts := t.ste.fts } := by
  have hcmd : cmd m false (ftCmd m c f) s = respond m .ok [] (ftShown m c f r s u) := (cmd_ok hreach (.inl rfl)).trans (by rw [ftCmd_eq hc heffect])
  rw [hcmd]
  refine ⟨⟨resp_respond_same .., ?_, hstep.others, tab_get_set_same .., ?_⟩, rfl, rfl⟩
  · exact (congrArg (fun x => respond m .ok [] (ftShown m c f r s x)) hstep.frame).trans (by rw [hstep.frame]; rfl)
  · exact (rbit_congr (respond_regs ..) _ _).trans (evt_rbit .ste (by decide) _)

/-- A command that acts on an entry in the state st, and on another gives a code and changes nothing. -/
theorem ftCommand_on {st : FlowSt} {code : Nat} {x : Flow} (hreach : Reaches m s) (hc : 0 < c ∧ c ≤ 5)
    (heffect : ftEffect m c f s = if (s.flow f).st = st then (u, 1) else (s, code)) (hstep : FlowStep f s u) (hflow : u.flow f = x) :
    let t := cmd m false (ftCmd m c f) s
    ((s.flow f).st = st → FtDone m f s t c 1 ∧ t.flow f = x) ∧ ((s.flow f).st ≠ st → FtDone m f s t c code ∧ t.flow f = s.flow f) := by
  refine ⟨fun hst => ?_, fun hst => ?_⟩
  · obtain ⟨hdone, hentry, -⟩ := ftCommand_spec hreach hc (heffect.trans (if_pos hst)) hstep
    exact ⟨hdone, hentry.trans hflow⟩
  · obtain ⟨hdone, hentry, -⟩ := ftCommand_spec hreach hc (heffect.trans (if_neg hst)) (.refl f s)
    exact ⟨hdone, hentry⟩

end

/-! ### STAGE (R240, R241) -/

/-- The words of an entry that has been staged: the staging words, with STATE clear. -/
def stagedWords (fe : List Word) : List Word := setBits (feWord fe 0) 30 2 0 :: fe.tail

section
variable {m : Master} {f : Nat} {s : State}

theorem flowStep_doStage (fe : List Word) : FlowStep f s (doStage f fe s) := ⟨rfl, (flowStep_updFlow (s := updSte _ s) _).others⟩

theorem flow_doStage (fe : List Word) :
    (doStage f fe s).flow f = { st := .staged, fe := stagedWords fe, seq := bits (feWord (stagedWords fe) 2) 16 16 } := flow_updFlow_same ..

/-- The guarantee of the entry is admitted in its class. -/
theorem clsOf_doStage (fe : List Word) :
    (doStage f fe s).ste.clsOf (feCls (stagedWords fe)) =
      let k := s.ste.clsOf (feCls (stagedWords fe))
      { k with admitted := k.admitted + guarOf (stagedWords fe) } := tab_get_set_same ..

theorem ftEffect_stage_taken (h : (s.flow f).st ≠ .free) : ftEffect m 1 f s = (s, 2) := if_pos h

theorem ftEffect_stage_refused (hfree : (s.flow f).st = .free) (h : stageCheck s (staging s m) ≠ 1) :
    ftEffect m 1 f s = (s, stageCheck s (staging s m)) := (if_neg (not_not.mpr hfree)).trans (if_neg h)

theorem ftEffect_stage_admitted (hfree : (s.flow f).st = .free) (h : stageCheck s (staging s m) = 1) :
    ftEffect m 1 f s = (doStage f (staging s m) s, 1) := (if_neg (not_not.mpr hfree)).trans (if_pos h)

theorem stage_spec (hreach : Reaches m s) :
    let t := cmd m false (ftCmd m 1 f) s
    let x := s.flow f
    let fe := stagedWords (staging s m)
    (x.st ≠ .free → FtDone m f s t 1 2 ∧ t.flow f = x) ∧
      (x.st = .free → stageCheck s (staging s m) ≠ 1 → FtDone m f s t 1 (stageCheck s (staging s m)) ∧ t.flow f = x) ∧
      (x.st = .free → stageCheck s (staging s m) = 1 → FtDone m f s t 1 1 ∧ (t.flow f).st = .staged ∧ (t.flow f).fe = fe ∧ (t.flow f).pkts = [] ∧
        (t.ste.clsOf (feCls fe)).admitted = (s.ste.clsOf (feCls fe)).admitted + guarOf fe) := by
  refine ⟨fun htaken => ?_, fun hfree hbad => ?_, fun hfree hgood => ?_⟩
  · obtain ⟨hdone, hentry, -⟩ := ftCommand_spec hreach (by decide) (ftEffect_stage_taken htaken) (.refl f s)
    exact ⟨hdone, hentry⟩
  · obtain ⟨hdone, hentry, -⟩ := ftCommand_spec hreach (by decide) (ftEffect_stage_refused hfree hbad) (.refl f s)
    exact ⟨hdone, hentry⟩
  · obtain ⟨hdone, hentry, hste⟩ := ftCommand_spec hreach (by decide) (ftEffect_stage_admitted hfree hgood) (flowStep_doStage (staging s m))
    rw [hentry, flow_doStage]
    refine ⟨hdone, rfl, rfl, rfl, ?_⟩
    rw [hste]
    exact congrArg Cls.admitted (clsOf_doStage (f := f) (staging s m))

end

/-! ### PUBLISH, RETIRE and DISCARD (R242, R243) -/

section
variable {m : Master} {f : Nat} {s : State}

theorem publish_spec (hreach : Reaches m s) :
    let t := cmd m false (ftCmd m 2 f) s
    let x := s.flow f
    (x.st = .staged → FtDone m f s t 2 1 ∧ t.flow f = { x with st := .live, since := s.frame }) ∧
      (x.st ≠ .staged → FtDone m f s t 2 3 ∧ t.flow f = x) :=
  ftCommand_on hreach (by decide) rfl (flowStep_updFlow _) (flow_updFlow_same ..)

theorem flowRetire_spec (hreach : Reaches m s) :
    let t := cmd m false (ftCmd m 3 f) s
    let x := s.flow f
    (x.st = .live → FtDone m f s t 3 1 ∧ t.flow f = { x with st := .retiring, since := s.frame }) ∧
      (x.st ≠ .live → FtDone m f s t 3 4 ∧ t.flow f = x) :=
  ftCommand_on hreach (by decide) rfl (flowStep_updFlow _) (flow_updFlow_same ..)

theorem discard_spec (hreach : Reaches m s) :
    let t := cmd m false (ftCmd m 4 f) s
    let x := s.flow f
    (x.st = .staged → FtDone m f s t 4 1 ∧ t.flow f = {}) ∧ (x.st ≠ .staged → FtDone m f s t 4 3 ∧ t.flow f = x) :=
  ftCommand_on hreach (by decide) rfl flowStep_freeFlow flow_freeFlow

end

/-! ### READ (R240, Table 9.13) -/

section
variable {m : Master} {f : Nat} {s : State}

theorem flowStep_doRead : FlowStep f s (doRead m f s) := ⟨rfl, fun _ _ => rfl⟩

/-- The master's staging words hold the entry, with its state in STATE. -/
theorem stg_doRead {i : Nat} (hi : i < 8) :
    Tab.get (fun _ => 0) (Tab.get (fun _ => []) (doRead m f s).ste.stg m.idx) i =
      if i = 0 then setBits (feWord (s.flow f).fe 0) 30 2 (s.flow f).st.code else feWord (s.flow f).fe i :=
  (congrArg (Tab.get _ · i) (tab_get_set_same ..)).trans (tab_get_filled (fun _ => 0) _ hi)

theorem fc_doRead {i : Nat} (hi : i < 8) :
    Tab.get (fun _ => 0) (Tab.get (fun _ => []) (doRead m f s).ste.fc m.idx) i = (flowCounters (s.flow f)).getD i 0 :=
  (congrArg (Tab.get _ · i) (tab_get_set_same ..)).trans (tab_get_filled (fun _ => 0) _ hi)

theorem flowRead_spec (hreach : Reaches m s) :
    let t := cmd m false (ftCmd m 5 f) s
    let x := s.flow f
    FtDone m f s t 5 1 ∧ t.flow f = x ∧ ∀ i, i < 8 →
      Tab.get (fun _ => 0) (Tab.get (fun _ => []) t.ste.stg m.idx) i = (if i = 0 then setBits (feWord x.fe 0) 30 2 x.st.code else feWord x.fe i) ∧
      Tab.get (fun _ => 0) (Tab.get (fun _ => []) t.ste.fc m.idx) i = (flowCounters x).getD i 0 := by
  obtain ⟨hdone, hentry, hste⟩ := ftCommand_spec hreach (by decide) (rfl : ftEffect m 5 f s = (doRead m f s, 1)) flowStep_doRead
  refine ⟨hdone, hentry, fun i hi => ?_⟩
  rw [hste]
  exact ⟨stg_doRead hi, fc_doRead hi⟩

end

end Sys2Proof.Machine
end

section
/-! SUPPORT. The events of a flow: its end at a frame boundary, a path that falls silent, and the packets a transmit flow sends (R243, R253,
R257). -/
namespace Sys2Proof.Machine
open Sys2Proof

/-! ### The end of a receive flow (R243) -/

/-- The flow is a retiring receive flow without packets, at a frame boundary. -/
abbrev FlowEnded (f : Nat) (s : State) : Prop :=
  (s.flow f).st = .retiring ∧ feTx (s.flow f).fe = false ∧ (s.flow f).pkts = [] ∧ s.atFrame = true

section
variable {f : Nat} {s : State}

theorem flowEnded_iff : ((s.flow f).st == .retiring && !feTx (s.flow f).fe && (s.flow f).pkts == [] && s.atFrame) = true ↔ FlowEnded f s := by
  simp [FlowEnded, and_assoc]

theorem flowFreed_early (h : ¬ FlowEnded f s) : flowFreed f s = s := if_neg (mt flowEnded_iff.mp h)

theorem flowFreed_due (h : FlowEnded f s) : flowFreed f s = evt .ste 1 (freeFlow f s) := if_pos (flowEnded_iff.mpr h)

theorem flowFreed_spec (h : FlowEnded f s) :
    let t := flowFreed f s
    t = { s with regs := t.regs, ste := t.ste } ∧ (∀ g, g ≠ f → t.flow g = s.flow g) ∧ t.flow f = {} ∧ t.rbit (Blk.ste.base + 0x40) 1 = true := by
  have hstep : FlowStep f s (evt .ste 1 (freeFlow f s)) := flowStep_freeFlow.evt ..
  rw [flowFreed_due h]
  exact ⟨hstep.frame, hstep.others, flow_freeFlow, evt_rbit .ste (by decide) _⟩

end

/-! ### Paths (R253) -/

/-- A path has delivered nothing for 16 packet times. -/
abbrev PathSilent (x : Flow) (k : Nat) (o : Option Nat) : Prop := o.getD x.since + 16 * feSpp x.fe ≤ k

/-- The flow is a LIVE receive flow of a pair of MACs. -/
abbrev PathPair (x : Flow) : Prop := x.st = .live ∧ feTx x.fe = false ∧ 4 ≤ feLink x.fe

/-- A path of a pair has fallen silent, while the other is heard. -/
abbrev PathLost (x : Flow) (k : Nat) (quiet other : Option Nat) (down : Bool) : Prop :=
  PathPair x ∧ PathSilent x k quiet ∧ (other.isSome = true ∧ ¬ PathSilent x k other) ∧ down = false

section
variable {f : Nat} {s : State}

/-- PATH_DOWN with its conditions written out. -/
theorem pathDown_eq (f : Nat) (s : State) :
    let x := s.flow f
    let silent (o : Option Nat) : Bool := decide (PathSilent x s.frame o)
    pathDown f s =
      if x.st != .live || feTx x.fe || decide (feLink x.fe < 4) then s
      else if silent x.lastP && (x.lastS.isSome && !silent x.lastS) && !x.pDown then evt .ste 2 (updFlow f (fun x => { x with pDown := true }) s)
      else if silent x.lastS && (x.lastP.isSome && !silent x.lastP) && !x.sDown then evt .ste 2 (updFlow f (fun x => { x with sDown := true }) s)
      else s := by
  unfold pathDown
  dsimp only [PathSilent]
  generalize (s.flow f).lastP = p
  generalize (s.flow f).lastS = q
  cases p <;> cases q <;> rfl

theorem pathPair_iff {x : Flow} : ¬ (x.st != .live || feTx x.fe || decide (feLink x.fe < 4)) = true ↔ PathPair x := by
  simp [PathPair, and_assoc]

theorem pathLost_iff {x : Flow} {k : Nat} {quiet other : Option Nat} {down : Bool} (hpair : PathPair x) :
    (decide (PathSilent x k quiet) && (other.isSome && !decide (PathSilent x k other)) && !down) = true ↔ PathLost x k quiet other down := by
  simp [PathLost, hpair, and_assoc]

theorem pathDown_idle (hp : ¬ PathLost (s.flow f) s.frame (s.flow f).lastP (s.flow f).lastS (s.flow f).pDown)
    (hq : ¬ PathLost (s.flow f) s.frame (s.flow f).lastS (s.flow f).lastP (s.flow f).sDown) : pathDown f s = s := by
  rw [pathDown_eq]
  split
  · rfl
  next h =>
    have hpair := pathPair_iff.mp h
    rw [if_neg (mt (pathLost_iff hpair).mp hp), if_neg (mt (pathLost_iff hpair).mp hq)]

theorem pathDown_primary (h : PathLost (s.flow f) s.frame (s.flow f).lastP (s.flow f).lastS (s.flow f).pDown) :
    pathDown f s = evt .ste 2 (updFlow f (fun x => { x with pDown := true }) s) := by
  rw [pathDown_eq, if_neg (pathPair_iff.mpr h.1), if_pos ((pathLost_iff h.1).mpr h)]

/-- Where the secondary path is lost the primary one is heard. -/
theorem pathDown_secondary (h : PathLost (s.flow f) s.frame (s.flow f).lastS (s.flow f).lastP (s.flow f).sDown) :
    pathDown f s = evt .ste 2 (updFlow f (fun x => { x with sDown := true }) s) := by
  obtain ⟨hpair, -, ⟨-, hheard⟩, -⟩ := id h
  have hprimary : ¬ PathLost (s.flow f) s.frame (s.flow f).lastP (s.flow f).lastS (s.flow f).pDown := fun hlost => hheard hlost.2.1
  rw [pathDown_eq, if_neg (pathPair_iff.mpr hpair), if_neg (mt (pathLost_iff hpair).mp hprimary), if_pos ((pathLost_iff hpair).mpr h)]

/-- A path's DOWN bit that is set shows in EVT. -/
theorem pathMarked_spec (g : Flow → Flow) :
    let t := evt .ste 2 (updFlow f g s)
    t = { s with regs := t.regs, ste := t.ste } ∧ (∀ k, k ≠ f → t.flow k = s.flow k) ∧ t.flow f = g (s.flow f) ∧
      t.rbit (Blk.ste.base + 0x40) 2 = true :=
  ⟨rfl, (flowStep_updFlow g).others, flow_updFlow_same .., evt_rbit .ste (by decide) _⟩

end

/-! ### The packets of a transmit flow (R257) -/

/-- What a flow that sends leaves: nothing but the registers, SYS, the MACs, STE and the free values tells t from s; of the flow table
nothing but the counters of entry f, and of these not the count of its packets. -/
structure FlowSends (f : Nat) (s t : State) : Prop where
  frame : t = { s with regs := t.regs, sys := t.sys, macs := t.macs, ste := t.ste, freeCount := t.freeCount }
  others : ∀ g, g ≠ f → t.flow g = s.flow g
  entry : t.flow f = { s.flow f with cnt := (t.flow f).cnt }
  sent : Tab.get (fun _ => 0) (t.flow f).cnt 0 = Tab.get (fun _ => 0) (s.flow f).cnt 0

section
variable {f n q : Nat} {fr : List Byte} {s t u : State}

theorem FlowSends.refl (f : Nat) (s : State) : FlowSends f s s := ⟨rfl, fun _ _ => rfl, rfl, rfl⟩

theorem FlowSends.trans (hst : FlowSends f s t) (htu : FlowSends f t u) : FlowSends f s u where
  frame := by rw [htu.frame, hst.frame]
  others k hk := (htu.others k hk).trans (hst.others k hk)
  entry := htu.entry.trans (by rw [hst.entry])
  sent := htu.sent.trans hst.sent

theorem macEnqueue_macStep : MacStep n s (macEnqueue n q fr s).1 := by
  by_cases hshut : (s.mac n).fenced = true ∨ s.sys.snuffed = true ∨ TxClosed n q s
  · rw [macEnqueue_refused hshut]
    exact .refl ..
  · obtain ⟨hfree, hserves, hopen⟩ : (s.mac n).fenced = false ∧ s.sys.snuffed = false ∧ ¬ TxClosed n q s := by
      simpa only [not_or, Bool.not_eq_true] using hshut
    exact macStep_macEnqueue hfree hserves hopen

/-- What is done at a MAC, STE keeps out of. -/
theorem MacStep.sends (h : MacStep n s t) : FlowSends f s t := by
  have hflow (k : Nat) : t.flow k = s.flow k := flow_congr (by rw [h.frame]) k
  exact ⟨h.frame.trans (by rw [h.frame]), fun k _ => hflow k, by rw [hflow], by rw [hflow]⟩

theorem flowSends_raise (f : Nat) (b : Blk) (i : Nat) (s : State) : FlowSends f s (raise b i s) := (macStep_raise 0 s b i).sends

/-- A packet that is not taken counts, apart from the packets built. -/
theorem flowSends_dropped : FlowSends f s (updFlow f (fun x => x.count (if isPrimary x.fe n then 1 else 2)) s) where
  frame := rfl
  others := (flowStep_updFlow _).others
  entry := by
    rw [flow_updFlow_same]
    rfl
  sent := by
    rw [flow_updFlow_same]
    exact tab_get_set_ne _ _ _ (by split <;> decide)

theorem flowSends_txHand : FlowSends f s (txHand f n fr s) := by
  unfold txHand
  dsimp only
  generalize (if feCls (s.flow f).fe = 3 then 6 else 5) = q
  have htaken : FlowSends f s (macEnqueue n q fr s).1 := macEnqueue_macStep.sends
  split
  · exact htaken
  · exact (htaken.trans flowSends_dropped).trans (flowSends_raise ..)

theorem flowSends_draw : FlowSends f s s.draw.2 := ⟨rfl, fun _ _ => rfl, rfl, rfl⟩

/-- The packet of frame k goes to a list of MACs. -/
def txPackets (f : Nat) (x : Flow) (k : Nat) (macs : List Nat) (s : State) : State :=
  macs.foldl (fun s n => let d := s.draw; txHand f n (txFrame d.2 x.fe x.seq n k d.1) d.2) s

theorem flowSends_txPackets (x : Flow) (k : Nat) (macs : List Nat) : FlowSends f s (txPackets f x k macs s) :=
  macs.foldlRecOn (motive := FlowSends f s) _ (.refl f s) fun _ ht _ _ => ht.trans (flowSends_draw.trans flowSends_txHand)

/-- The entry has built the packet of frame k. -/
def Flow.builtAt (x : Flow) (k : Nat) : Flow := { x.count 0 with built := some k, seq := (x.seq + 1) % 65536 }

/-- A transmit flow in service has a packet to build in this frame. -/
abbrev PacketDue (f : Nat) (s : State) : Prop :=
  let x := s.flow f
  (x.st = .live ∨ x.st = .retiring) ∧ feTx x.fe = true ∧ s.ste.txOn = true ∧ s.sys.run = true ∧ s.sys.standby = false ∧
    s.sys.snuffed = false ∧ feSpp x.fe ≠ 0 ∧ s.frame % feSpp x.fe = 0 ∧ x.built ≠ some s.frame ∧ x.since < s.frame

theorem packetDue_iff :
    ((((s.flow f).st == .live || (s.flow f).st == .retiring) && feTx (s.flow f).fe && s.ste.txOn && !audioClosed s && !s.sys.snuffed
      && feSpp (s.flow f).fe != 0 && s.frame % feSpp (s.flow f).fe == 0 && (s.flow f).built != some s.frame
      && decide ((s.flow f).since < s.frame)) = true) ↔ PacketDue f s := by
  simp [PacketDue, audioClosed, and_assoc]

theorem txPacketBuild_early (h : ¬ PacketDue f s) : txPacketBuild f s = s := if_neg (mt packetDue_iff.mp h)

theorem txPacketBuild_due (h : PacketDue f s) :
    txPacketBuild f s = updFlow f (fun x => x.builtAt s.frame)
      (txPackets f (s.flow f) s.frame (linkMacs (feLink (s.flow f).fe)) s) := if_pos (packetDue_iff.mpr h)

theorem txPacketBuild_spec (h : PacketDue f s) :
    let x := s.flow f
    let t := txPacketBuild f s
    t = { s with regs := t.regs, sys := t.sys, macs := t.macs, ste := t.ste, freeCount := t.freeCount } ∧ (∀ g, g ≠ f → t.flow g = s.flow g) ∧
      t.flow f = { x with built := some s.frame, seq := (x.seq + 1) % 65536, cnt := (t.flow f).cnt } ∧
      Tab.get (fun _ => 0) (t.flow f).cnt 0 = (Tab.get (fun _ => 0) x.cnt 0 + 1) % 2 ^ 32 := by
  intro x t
  obtain ⟨hframe, hothers, hentry, hsent⟩ := flowSends_txPackets (f := f) (s := s) x s.frame (linkMacs (feLink x.fe))
  have hflow : t.flow f = ((txPackets f x s.frame (linkMacs (feLink x.fe)) s).flow f).builtAt s.frame := by
    rw [show t = _ from txPacketBuild_due h, flow_updFlow_same]
  refine ⟨?_, fun k hk => ?_, ?_, ?_⟩
  · rw [show t = _ from txPacketBuild_due h, hframe]
    rfl
  · rw [show t = _ from txPacketBuild_due h, (flowStep_updFlow _).others k hk, hothers k hk]
  · rw [hflow, hentry]
    rfl
  · rw [hflow]
    exact (tab_get_set_same ..).trans (by rw [hsent])

end

/-- Settles O38: the five commands, then the events of a flow. -/
theorem streamFlows : Obligations.StreamFlows := by
  unfold Obligations.StreamFlows
  refine fun s m f => ⟨fun hreach => ⟨⟨_, rfl, stage_spec hreach⟩, ⟨_, rfl, publish_spec hreach⟩, ⟨_, rfl, flowRetire_spec hreach⟩,
    ⟨_, rfl, discard_spec hreach⟩, ⟨_, rfl, flowRead_spec hreach⟩⟩,
    ⟨fun h => congrArg Host.Outcome.next (flowFreed_early h), fun h => ⟨_, rfl, flowFreed_spec h⟩⟩,
    ⟨fun hp hq => congrArg Host.Outcome.next (pathDown_idle hp hq), fun h => ⟨_, congrArg Host.Outcome.next (pathDown_primary h), pathMarked_spec _⟩,
      fun h => ⟨_, congrArg Host.Outcome.next (pathDown_secondary h), pathMarked_spec _⟩⟩,
    fun h => congrArg Host.Outcome.next (txPacketBuild_early h), fun h => ⟨_, rfl, txPacketBuild_spec h⟩⟩

end Sys2Proof.Machine
end

section
/-! SUPPORT. The frames STE takes from a MAC (R244, R258, R259, R275, R277, Table 9.4). -/
namespace Sys2Proof.Machine
open Sys2Proof

/-! ### What the work on a frame leaves -/

/-- The memory bytes and the MACs. -/
def memMacs (s : State) : List Host.Cell × Tab Mac := (s.mem, s.macs)

section
variable (s : State)

theorem memMacs_raise (b : Blk) (i : Nat) : memMacs (raise b i s) = memMacs s := by
  rw [raise_frame]
  rfl

theorem memMacs_pathDelivery (f n : Nat) : memMacs (pathDelivery f n s) = memMacs s := by
  unfold pathDelivery
  dsimp only
  split
  · split <;> rfl
  · split <;> rfl

theorem memMacs_classDrop (c : Nat) : memMacs (classDrop c s) = memMacs s := by
  unfold classDrop
  dsimp only
  split
  · exact (memMacs_raise ..).trans (memMacs_raise ..)
  · exact memMacs_raise ..

theorem memMacs_audioPacket (f n : Nat) (pay : List Byte) : memMacs (audioPacket f n pay s) = memMacs s := by
  unfold audioPacket
  dsimp only
  split
  next => rfl
  next =>
    split
    next => rfl
    next =>
      split
      next => rfl
      next =>
        split
        next => rfl
        next =>
          split
          next => exact memMacs_pathDelivery ..
          next =>
            split
            next => exact memMacs_classDrop ..
            next => exact memMacs_pathDelivery ..

theorem memMacs_storeHost (c : Nat) (f : List Byte) : memMacs (storeHost c f s) = memMacs s := by
  unfold storeHost
  dsimp only
  generalize (if c = 1 then s.ste.ctl else s.ste.be) = q
  split
  next => rfl
  next =>
    split
    next => exact memMacs_classDrop ..
    next => rfl

end

/-! ### Messages no port takes (R277) -/

/-- A message no port takes counts at domain d's port, where that port is enabled on MAC n. -/
def countOther (n : Nat) (d : Dom) (s : State) : State :=
  if (s.ptu.port d).en && !(s.ptu.port d).faulty && domLink s d == n then rxOther d s else s

section
variable {n : Nat} {d e : Dom} {s : State}

theorem ptpOther_eq (n : Nat) (s : State) : ptpOther n s = countOther n .b (countOther n .a s) := rfl

theorem countOther_frame (n : Nat) (d : Dom) (s : State) :
    countOther n d s = { s with ptu := (countOther n d s).ptu } ∧ (countOther n d s).ptu.stamps = s.ptu.stamps := by
  unfold countOther
  split
  · exact ⟨rfl, by cases d <;> rfl⟩
  · exact ⟨rfl, rfl⟩

theorem countOther_regs (n : Nat) (d : Dom) (s : State) : (countOther n d s).regs = s.regs := by rw [(countOther_frame n d s).1]

theorem port_countOther_ne (h : e ≠ d) : (countOther n d s).ptu.port e = s.ptu.port e := by
  unfold countOther
  split
  · cases d with
    | a =>
      cases e with
      | a => exact absurd rfl h
      | b => rfl
    | b =>
      cases e with
      | a => rfl
      | b => exact absurd rfl h
  · rfl

theorem rxOther_countOther :
    ((countOther n d s).ptu.port d).rxOther =
      if (s.ptu.port d).en && !(s.ptu.port d).faulty && domLink s d == n then ((s.ptu.port d).rxOther + 1) % 2 ^ 32 else (s.ptu.port d).rxOther := by
  unfold countOther
  split
  · cases d <;> rfl
  · rfl

theorem domLink_congr {t : State} (h : t.regs = s.regs) (d : Dom) : domLink t d = domLink s d := fld_congr h ..

theorem ptpOther_frame (n : Nat) (s : State) : ptpOther n s = { s with ptu := (ptpOther n s).ptu } ∧ (ptpOther n s).ptu.stamps = s.ptu.stamps := by
  obtain ⟨hframeA, hstampsA⟩ := countOther_frame n .a s
  obtain ⟨hframeB, hstampsB⟩ := countOther_frame n .b (countOther n .a s)
  rw [ptpOther_eq]
  exact ⟨by rw [hframeB, hframeA], hstampsB.trans hstampsA⟩

/-- Each port counts by itself. -/
theorem ptpOther_rxOther (n : Nat) (d : Dom) (s : State) :
    ((ptpOther n s).ptu.port d).rxOther =
      if (s.ptu.port d).en && !(s.ptu.port d).faulty && domLink s d == n then ((s.ptu.port d).rxOther + 1) % 2 ^ 32 else (s.ptu.port d).rxOther := by
  rw [ptpOther_eq]
  cases d with
  | a => rw [port_countOther_ne (by decide), rxOther_countOther]
  | b => rw [rxOther_countOther, port_countOther_ne (by decide), domLink_congr (countOther_regs ..)]

/-! ### A PTP message arrives (R273, R275) -/

variable {msg : List Byte} {c : Nat}

theorem ptpArrive_full (h : 64 ≤ (s.stamps n).length) : ptpArrive n msg c s = raise .ptu 7 s := if_pos h

theorem ptpArrive_known (hroom : (s.stamps n).length < 64) (h : ptpKnown (octs msg 0 1 % 16) = true) :
    ptpArrive n msg c s = updSte (fun y => { y with ptp := (y.ptp + 1) % 2 ^ 32 }) (setStamps n (s.stamps n ++ [c]) s) := by
  rw [ptpArrive, if_neg (Nat.not_le.mpr hroom), if_pos h]

theorem ptpArrive_other (hroom : (s.stamps n).length < 64) (h : ptpKnown (octs msg 0 1 % 16) = false) :
    ptpArrive n msg c s = updSte (fun y => { y with ptp := (y.ptp + 1) % 2 ^ 32 }) (ptpOther n s) := by
  rw [ptpArrive, if_neg (Nat.not_le.mpr hroom), if_neg (Bool.eq_false_iff.mp h)]

theorem ptpArrive_spec (hroom : (s.stamps n).length < 64) :
    let t := ptpArrive n msg c s
    let known := ptpKnown (octs msg 0 1 % 16)
    t.ste = { s.ste with ptp := (s.ste.ptp + 1) % 2 ^ 32 } ∧ t.stamps n = (if known then s.stamps n ++ [c] else s.stamps n) ∧
      ∀ d : Dom, (t.ptu.port d).rxOther = if !known && (s.ptu.port d).en && !(s.ptu.port d).faulty && domLink s d == n
        then ((s.ptu.port d).rxOther + 1) % 2 ^ 32 else (s.ptu.port d).rxOther := by
  intro t known
  cases hknown : known with
  | true =>
    rw [show t = _ from ptpArrive_known hroom hknown]
    refine ⟨rfl, tab_get_set_same .., fun d => ?_⟩
    cases d <;> rfl
  | false =>
    obtain ⟨hframe, hstamps⟩ := ptpOther_frame n s
    rw [show t = _ from ptpArrive_other hroom hknown]
    refine ⟨?_, congrArg (Tab.get _ · n) hstamps, fun d => ptpOther_rxOther n d s⟩
    rw [hframe]
    rfl

theorem memMacs_ptpArrive (n : Nat) (msg : List Byte) (c : Nat) (s : State) : memMacs (ptpArrive n msg c s) = memMacs s := by
  obtain ⟨hframe, -⟩ := ptpOther_frame n s
  unfold ptpArrive
  dsimp only
  split
  next => exact memMacs_raise ..
  next =>
    split
    next => rfl
    next =>
      rw [hframe]
      rfl

end

/-! ### The kinds of a frame (Table 9.4) -/

/-- A PTP message, over Ethernet or UDP. -/
abbrev PtpFrame (p : Parsed) : Prop := p.ety = 0x88F7 ∨ (p.udp = true ∧ (p.dport = 319 ∨ p.dport = 320))

/-- An IPv4 packet whose header or UDP part is bad. -/
abbrev BadPacket (p : Parsed) : Prop := p.ety = 0x0800 ∧ (p.ipOk = false ∨ (p.proto = 17 ∧ p.udpOk = false))

/-- The message of a PTP frame. -/
def ptpMessage (b : List Byte) : List Byte := if (parseFrame b).ety = 0x88F7 then b.drop (parseFrame b).ip else (parseFrame b).pay

/-- A frame that is no PTP message and not bad, by reception, flows and filters. -/
def steData (n : Nat) (b : List Byte) (s : State) : State :=
  let p := parseFrame b
  let host : State :=
    if hostFilter s p then storeHost 1 b s
    else if s.rbit (Blk.ste.base + 8) 0 then storeHost 0 b s
    else updSte (fun y => { y with noFlow := (y.noFlow + 1) % 2 ^ 32 }) s
  if !s.ste.rxOn then s else (matchFlow s n p).elim host fun i => audioPacket i n p.pay s

section
variable {n c : Nat} {b : List Byte} {s : State}

theorem Parsed.udp_iff {p : Parsed} : p.udp = true ↔ p.ety = 0x0800 ∧ p.ipOk = true ∧ p.proto = 17 ∧ p.udpOk = true := by
  simp [Parsed.udp, and_assoc]

theorem steFrame_ptp (h : PtpFrame (parseFrame b)) : steFrame n b c s = ptpArrive n (ptpMessage b) c s := by
  rw [ptpMessage]
  by_cases hety : (parseFrame b).ety = 0x88F7
  · rw [if_pos hety]
    exact if_pos hety
  · have hudp := h.resolve_left hety
    obtain ⟨-, hip, -, hok⟩ := Parsed.udp_iff.mp hudp.1
    rw [if_neg hety]
    exact (if_neg hety).trans ((if_neg (by simp [hip])).trans ((if_neg (by simp [hok])).trans (if_pos hudp)))

theorem steFrame_bad (h : BadPacket (parseFrame b)) :
    steFrame n b c s = updSte (fun y => { y with badIp := (y.badIp + 1) % 2 ^ 32 }) s := by
  obtain ⟨hety, hbad⟩ := h
  have hptp : (parseFrame b).ety ≠ 0x88F7 := by
    rw [hety]
    decide
  cases hip : (parseFrame b).ipOk with
  | false => exact (if_neg hptp).trans (if_pos ⟨hety, hip⟩)
  | true => exact (if_neg hptp).trans ((if_neg (by simp [hip])).trans (if_pos ⟨hety, hbad.resolve_left (by simp [hip])⟩))

theorem steFrame_data (hptp : ¬ PtpFrame (parseFrame b)) (hbad : ¬ BadPacket (parseFrame b)) : steFrame n b c s = steData n b s := by
  obtain ⟨hety, hudp⟩ := not_or.mp hptp
  refine (if_neg hety).trans ((if_neg fun h => hbad ⟨h.1, .inl h.2⟩).trans ((if_neg fun h => hbad ⟨h.1, .inr h.2⟩).trans ((if_neg hudp).trans ?_)))
  unfold steData
  dsimp only
  generalize matchFlow s n (parseFrame b) = o
  cases o <;> rfl

theorem steData_off (h : s.ste.rxOn = false) : steData n b s = s := if_pos (by rw [h]; rfl)

theorem steData_noFlow (hon : s.ste.rxOn = true) (hflow : matchFlow s n (parseFrame b) = none) (hfilter : hostFilter s (parseFrame b) = false)
    (hall : s.rbit (Blk.ste.base + 8) 0 = false) : steData n b s = updSte (fun y => { y with noFlow := (y.noFlow + 1) % 2 ^ 32 }) s := by
  simp [steData, hon, hflow, hfilter, hall]

theorem memMacs_steData (n : Nat) (b : List Byte) (s : State) : memMacs (steData n b s) = memMacs s := by
  unfold steData
  dsimp only
  split
  next => rfl
  next =>
    cases matchFlow s n (parseFrame b) with
    | some i => exact memMacs_audioPacket ..
    | none =>
      rw [Option.elim_none]
      split
      next => exact memMacs_storeHost ..
      next =>
        split
        next => exact memMacs_storeHost ..
        next => rfl

theorem memMacs_steFrame (n : Nat) (b : List Byte) (c : Nat) (s : State) : memMacs (steFrame n b c s) = memMacs s := by
  by_cases hptp : PtpFrame (parseFrame b)
  · rw [steFrame_ptp hptp, memMacs_ptpArrive]
  · by_cases hbad : BadPacket (parseFrame b)
    · rw [steFrame_bad hbad]
      rfl
    · rw [steFrame_data hptp hbad, memMacs_steData]

end

/-! ### STE_FRAME_CLASSIFY -/

/-- The oldest frame has left the receive buffer. -/
def frameTaken (n : Nat) (r : List RxFrame) (s : State) : State := updMac n (fun m => { m with rx := r }) s

/-- The octets of a received frame but for its FCS. -/
abbrev frameOctets (g : RxFrame) : List Byte := g.bytes.take (g.bytes.length - 4)

section
variable {n : Nat} {g : RxFrame} {r : List RxFrame} {s : State}

theorem steClassify_empty (h : (s.mac n).rx = []) : steClassify n s = s := by rw [steClassify, h]

theorem steClassify_frame (h : (s.mac n).rx = g :: r) : steClassify n s = steFrame n (frameOctets g) g.stamp (frameTaken n r s) := by
  rw [steClassify, h]
  rfl

theorem steClassify_macs (h : (s.mac n).rx = g :: r) :
    let t := steClassify n s
    t.mem = s.mem ∧ t.mac n = { s.mac n with rx := r } ∧ ∀ k, k ≠ n → t.mac k = s.mac k := by
  obtain ⟨hmem, hmacs⟩ := Prod.mk.inj (memMacs_steFrame n (frameOctets g) g.stamp (frameTaken n r s))
  rw [steClassify_frame h]
  exact ⟨hmem, (mac_congr hmacs n).trans (mac_updMac_same ..), fun k hk => (mac_congr hmacs k).trans ((macOnly_updMac ..).others k hk)⟩

theorem steClassify_ptp (h : (s.mac n).rx = g :: r) (hptp : PtpFrame (parseFrame (frameOctets g))) :
    steClassify n s = ptpArrive n (ptpMessage (frameOctets g)) g.stamp (frameTaken n r s) := (steClassify_frame h).trans (steFrame_ptp hptp)

theorem steClassify_overrun (h : (s.mac n).rx = g :: r) (hptp : PtpFrame (parseFrame (frameOctets g))) (hfull : 64 ≤ (s.stamps n).length) :
    let t := steClassify n s
    t.faultBit .ptu 7 = true ∧ t.ste = s.ste ∧ t.ptu = s.ptu := by
  rw [steClassify_ptp h hptp, ptpArrive_full (s := frameTaken n r s) hfull]
  exact ⟨raise_fault _ _ _ (by decide), raise_ste .., raise_ptu ..⟩

theorem steClassify_bad (h : (s.mac n).rx = g :: r) (hbad : BadPacket (parseFrame (frameOctets g))) :
    let t := steClassify n s
    t = { s with macs := t.macs, ste := { s.ste with badIp := (s.ste.badIp + 1) % 2 ^ 32 } } := by
  rw [steClassify_frame h, steFrame_bad hbad]
  rfl

section
variable (h : (s.mac n).rx = g :: r) (hptp : ¬ PtpFrame (parseFrame (frameOctets g))) (hbad : ¬ BadPacket (parseFrame (frameOctets g)))
include h hptp hbad

theorem steClassify_dropped (hoff : s.ste.rxOn = false) :
    let t := steClassify n s
    t = { s with macs := t.macs } := by
  rw [steClassify_frame h, steFrame_data hptp hbad, steData_off (s := frameTaken n r s) hoff]
  rfl

theorem steClassify_noFlow (hon : s.ste.rxOn = true) (hflow : matchFlow s n (parseFrame (frameOctets g)) = none)
    (hfilter : hostFilter s (parseFrame (frameOctets g)) = false) (hall : s.rbit (Blk.ste.base + 8) 0 = false) :
    let t := steClassify n s
    t = { s with macs := t.macs, ste := { s.ste with noFlow := (s.ste.noFlow + 1) % 2 ^ 32 } } := by
  rw [steClassify_frame h, steFrame_data hptp hbad, steData_noFlow (s := frameTaken n r s) hon hflow hfilter hall]
  rfl

end

end

end Sys2Proof.Machine
end

section
/-! SUPPORT. The host frames that leave and enter (R256, R258, R260). -/
namespace Sys2Proof.Machine
open Sys2Proof

/-! ### HRX_POP (R258) -/

/-- STE after the head frame h of class c has been released at tick t. -/
def Ste.popped (c t : Nat) (h : HostFrame) (y : Ste) : Ste :=
  let y := giveGranules c h.n none h.src y
  { (if c = 1 then { y with ctl := y.ctl.tail } else { y with be := y.be.tail }) with poppedAt := some t }

section
variable {c t : Nat} {h : HostFrame} {y : Ste} {s : State}

theorem giveGranules_hosts (c n : Nat) (src : GSrc) (y : Ste) :
    (giveGranules c n none src y).ctl = y.ctl ∧ (giveGranules c n none src y).be = y.be := by cases src <;> exact ⟨rfl, rfl⟩

theorem popped_hosts (c t : Nat) (h : HostFrame) (y : Ste) :
    (y.popped c t h).ctl = (if c = 1 then y.ctl.tail else y.ctl) ∧ (y.popped c t h).be = (if c = 1 then y.be else y.be.tail) := by
  obtain ⟨hctl, hbe⟩ := giveGranules_hosts c h.n h.src y
  unfold Ste.popped
  split
  · exact ⟨congrArg List.tail hctl, hbe⟩
  · exact ⟨hctl, congrArg List.tail hbe⟩

theorem popped_granules (c t : Nat) (h : HostFrame) (y : Ste) :
    (y.popped c t h).shFree = (giveGranules c h.n none h.src y).shFree ∧ (y.popped c t h).clsOf c = (giveGranules c h.n none h.src y).clsOf c := by
  unfold Ste.popped
  split <;> exact ⟨rfl, rfl⟩

theorem popped_shared (hsrc : h.src = .shared) : (y.popped c t h).shFree = y.shFree + h.n := by
  rw [(popped_granules c t h y).1, hsrc]
  rfl

theorem popped_own (hsrc : h.src = .own) : ((y.popped c t h).clsOf c).xr = (y.clsOf c).xr - h.n := by
  rw [(popped_granules c t h y).2, hsrc]
  exact congrArg Cls.xr (tab_get_set_same ..)

theorem hrxPop_empty (hhead : hrxHead s = none) : hrxPop s = s := by rw [hrxPop, hhead]

theorem hrxPop_head (hhead : hrxHead s = some (h, c)) : hrxPop s = updSte (Ste.popped c s.sys.tick h) s := by
  rw [hrxPop, hhead]
  rfl

theorem hrxPop_frame (s : State) : hrxPop s = { s with ste := (hrxPop s).ste } := by
  cases hhead : hrxHead s with
  | none => rw [hrxPop_empty hhead]
  | some p =>
    rw [hrxPop_head hhead]
    rfl

/-- The next head frame appears in the following tick. -/
theorem hrxHead_popped {u : State} (hpopped : u.ste.poppedAt = some u.sys.tick) : hrxHead u = none := if_pos hpopped

theorem hrxPop_spec {m : Master} (hreach : Reaches m s) :
    ∃ t, exec (.hrxPop m) s = .next t ∧ t.resp m = ⟨.ok, []⟩ ∧ t = { s with bus := t.bus, ste := t.ste } ∧
      (hrxHead s = none → t = { s with bus := t.bus }) ∧
      (∀ h c, hrxHead s = some (h, c) → t.ste.poppedAt = some s.sys.tick ∧ hrxHead t = none ∧
        t.ste.ctl = (if c = 1 then s.ste.ctl.tail else s.ste.ctl) ∧ t.ste.be = (if c = 1 then s.ste.be else s.ste.be.tail) ∧
        (h.src = .shared → t.ste.shFree = s.ste.shFree + h.n) ∧ (h.src = .own → (t.ste.clsOf c).xr = (s.ste.clsOf c).xr - h.n)) := by
  refine ⟨_, congrArg Host.Outcome.next (cmd_ok hreach (.inl rfl)), resp_respond_same .., ?_, fun hhead => ?_, fun h c hhead => ?_⟩
  · rw [hrxPop_frame]
    rfl
  · rw [hrxPop_empty hhead]
    rfl
  · obtain ⟨hctl, hbe⟩ := popped_hosts c s.sys.tick h s.ste
    rw [hrxPop_head hhead]
    exact ⟨rfl, hrxHead_popped rfl, hctl, hbe, popped_shared, popped_own⟩

end

/-! ### HTX_CMD (R260) -/

/-- HTX_RES for what the MAC answered. -/
def TxAnswer.shown : TxAnswer → Nat
  | .ok => 1 | .qfull => 2 | .fenced => 3

/-- The octets of a master's TXWIN that a command names go to the MAC. -/
def htxHanded (m : Master) (v : Word) (s : State) : State × TxAnswer :=
  macEnqueue (bits v 16 2) (bits v 20 3) ((upto (bits v 0 14)).map (txwinOctet s m)) s

section
variable {m : Master} {v : Word} {s : State}

theorem htxCmd_noWindow (h : hasTxwin m = false) : htxCmd m v s = (s, .accessErr) := if_pos (by rw [h]; rfl)

theorem htxCmd_handed (h : hasTxwin m = true) (hq : bits v 20 3 ≤ 4) :
    htxCmd m v s =
      (updSte (fun y => { y with htx := Tab.set (fun _ => 0) y.htx m.idx (htxHanded m v s).2.shown }) (htxHanded m v s).1, .ok) :=
  (if_neg (by simp [h])).trans (if_neg (Nat.not_lt.mpr hq))

theorem htxCmd_open (h : hasTxwin m = true) (hq : 4 < bits v 20 3) :
    htxCmd m v s =
      (updSte (fun y => { y with htx := Tab.set (fun _ => 0) y.htx m.idx (bits s.draw.1 0 2) }) s.draw.2, .ok) :=
  (if_neg (by simp [h])).trans (if_pos hq)

theorem htxHanded_ste (m : Master) (v : Word) (s : State) : (htxHanded m v s).1.ste = s.ste := by
  rw [htxHanded, (macEnqueue_macStep (n := bits v 16 2) (s := s)).frame]

theorem htxCmd_spec (hreach : Reaches m s) (v : Word) :
    ∃ t, exec (.htxCmd m v) s = .next t ∧
      (hasTxwin m = false → t.resp m = ⟨.accessErr, []⟩ ∧ t = { s with bus := t.bus }) ∧
      (hasTxwin m = true → bits v 20 3 ≤ 4 → t.resp m = ⟨.ok, []⟩ ∧
        let r := htxHanded m v s
        t = { r.1 with bus := t.bus, ste := { r.1.ste with htx := t.ste.htx } } ∧ Tab.get (fun _ => 0) t.ste.htx m.idx = r.2.shown ∧
        ∀ k, k ≠ m.idx → Tab.get (fun _ => 0) t.ste.htx k = Tab.get (fun _ => 0) s.ste.htx k) ∧
      (hasTxwin m = true → 4 < bits v 20 3 → t.resp m = ⟨.ok, []⟩ ∧
        t = { s with bus := t.bus, freeCount := s.freeCount + 1, ste := { s.ste with htx := t.ste.htx } }) := by
  refine ⟨_, congrArg Host.Outcome.next (cmdC_ok hreach (.inl rfl)), fun hwin => ?_, fun hwin hq => ?_, fun hwin hq => ?_⟩
  · rw [htxCmd_noWindow hwin]
    exact ⟨resp_respond_same .., rfl⟩
  · rw [htxCmd_handed hwin hq]
    exact ⟨resp_respond_same .., rfl, tab_get_set_same .., fun k hk =>
      (tab_get_set_ne _ _ _ hk).trans (congrArg (fun y : Ste => Tab.get (fun _ => 0) y.htx k) (htxHanded_ste m v s))⟩
  · rw [htxCmd_open hwin hq]
    exact ⟨resp_respond_same .., rfl⟩

end

end Sys2Proof.Machine
end

section
/-! SUPPORT. STE's CTRL: reception and transmission stop, stored packets are released (R243, R261). -/
namespace Sys2Proof.Machine
open Sys2Proof

/-! ### The stages of a write -/

/-- Reception follows RX_EN. -/
def ctrlSteRx (v : Word) (s : State) : State :=
  if bit v 0 then updSte (fun y => { y with rxOn := true, rxIdle := false }) s else updSte (fun y => { y with rxOn := false }) s

/-- Transmission follows TX_EN: it starts, or its flows end. -/
def ctrlSteTx (v : Word) (s : State) : State :=
  if bit v 1 then updSte (fun y => { y with txOn := true, txIdle := false, txStop := false }) s
  else if s.ste.txOn && !s.ste.txStop then stopFlows s else s

/-- CTRL is written, and both sides follow it. -/
def ctrlSteSides (v : Word) (s : State) : State := ctrlSteTx v (ctrlSteRx v (s.setReg Blk.ste.base (v &&& 3)))

/-- FORCE where it is written: the stored packets are released, or it is moot. -/
def ctrlSteForce (v : Word) (idle : Bool) (s : State) : State :=
  if bit v 2 then (if !idle && stored s then dropPackets s else evt .ste 4 s) else s

section
variable {v : Word} {s : State}

theorem steCtrlWrite_eq (v : Word) (s : State) : steCtrlWrite v s = ctrlSteForce v s.ste.rxIdle (ctrlSteSides v s) := by
  unfold steCtrlWrite ctrlSteForce ctrlSteSides ctrlSteTx ctrlSteRx
  cases bit v 0 <;> rfl

theorem ctrlSteRx_frame (v : Word) (s : State) :
    let t := ctrlSteRx v s
    t = { s with ste := { s.ste with rxOn := bit v 0, rxIdle := !bit v 0 && s.ste.rxIdle } } := by
  unfold ctrlSteRx
  cases bit v 0 <;> rfl

theorem ctrlSteTx_frame (v : Word) (s : State) :
    let t := ctrlSteTx v s
    t = { s with ste := t.ste } ∧ t.ste.rxOn = s.ste.rxOn ∧ t.ste.rxIdle = s.ste.rxIdle := by
  unfold ctrlSteTx
  split
  · exact ⟨rfl, rfl, rfl⟩
  · split <;> exact ⟨rfl, rfl, rfl⟩

/-- The end of the transmit flows leaves every packet. -/
theorem stored_stopFlows (s : State) : stored (stopFlows s) = stored s := by
  have hpkts : ((fun e : Nat × Flow => e.2.pkts != []) ∘ fun e : Nat × Flow =>
      if e.2.st = .live ∧ feTx e.2.fe = true then (e.1, { e.2 with st := .retiring, since := s.frame }) else e) = fun e => e.2.pkts != [] := by
    funext e
    rw [Function.comp_apply]
    split <;> rfl
  exact List.any_map.trans (congrArg s.ste.flows.any hpkts)

theorem stored_ctrlSteTx (v : Word) (s : State) : stored (ctrlSteTx v s) = stored s := by
  unfold ctrlSteTx
  split
  · rfl
  · split
    · exact stored_stopFlows s
    · rfl

theorem stored_ctrlSteSides (v : Word) (s : State) : stored (ctrlSteSides v s) = stored s := by
  rw [ctrlSteSides, stored_ctrlSteTx, ctrlSteRx_frame]
  rfl

theorem ctrlSteSides_frame (v : Word) (s : State) :
    let t := ctrlSteSides v s
    t = { s.setReg Blk.ste.base (v &&& 3) with ste := t.ste } ∧ t.ste.rxOn = bit v 0 ∧ t.ste.rxIdle = (!bit v 0 && s.ste.rxIdle) := by
  obtain ⟨hframe, hon, hidle⟩ := ctrlSteTx_frame v (ctrlSteRx v (s.setReg Blk.ste.base (v &&& 3)))
  rw [ctrlSteRx_frame] at hframe hon hidle
  rw [ctrlSteSides, ctrlSteRx_frame]
  exact ⟨hframe, hon, hidle⟩

/-- A transmitter that runs stops: every LIVE transmit flow retires. -/
theorem ctrlSteSides_stops (hv : bit v 1 = false) (hon : s.ste.txOn = true) (hruns : s.ste.txStop = false) :
    (ctrlSteSides v s).ste.txStop = true ∧
      (ctrlSteSides v s).ste.flows =
        s.ste.flows.map fun e => if e.2.st = .live ∧ feTx e.2.fe = true then (e.1, { e.2 with st := .retiring, since := s.frame }) else e := by
  have hstop : ctrlSteSides v s = stopFlows (ctrlSteRx v (s.setReg Blk.ste.base (v &&& 3))) := by
    rw [ctrlSteSides, ctrlSteTx, hv, ctrlSteRx_frame]
    exact (if_neg Bool.false_ne_true).trans (if_pos (by simp [hon, hruns]))
  rw [hstop, ctrlSteRx_frame]
  exact ⟨rfl, rfl⟩

/-! ### FORCE (R261) -/

/-- The packets of a listed entry are released. -/
def Ste.dropEntry (y : Ste) (e : Nat × Flow) : Ste :=
  let y := givePkts e.1 (feCls e.2.fe) e.2.pkts y
  { y with flows := Tab.set (fun _ => ({} : Flow)) y.flows e.1 { (y.flow e.1) with pkts := [] } }

theorem dropPackets_eq (s : State) : dropPackets s = updSte (fun y => y.flows.foldl Ste.dropEntry y) s := rfl

theorem pkts_dropEntry (y : Ste) (e : Nat × Flow) (f : Nat) : ((y.dropEntry e).flow f).pkts = if f = e.1 then [] else (y.flow f).pkts := by
  refine (congrArg Flow.pkts (tab_get_set ..)).trans ?_
  rw [apply_ite Flow.pkts]
  exact congrArg (ite _ _) (pkts_givePkts _)

theorem pkts_dropEntries (l : List (Nat × Flow)) (y : Ste) (f : Nat) :
    ((l.foldl Ste.dropEntry y).flow f).pkts = if f ∈ l.map Prod.fst then [] else (y.flow f).pkts := by
  induction l generalizing y with
  | nil => rfl
  | cons e l ih =>
    rw [List.foldl_cons, ih, pkts_dropEntry]
    by_cases hl : f ∈ l.map Prod.fst <;> by_cases he : f = e.1 <;> simp [hl, he]

/-- An entry that the table does not list holds no packet either. -/
theorem pkts_dropPackets (s : State) (f : Nat) : ((dropPackets s).flow f).pkts = [] := by
  rw [dropPackets_eq]
  refine (pkts_dropEntries s.ste.flows s.ste f).trans ?_
  split
  · rfl
  next hunlisted => exact congrArg Flow.pkts (tab_get_unlisted _ hunlisted)

theorem ctrlSteForce_frame (v : Word) (idle : Bool) (s : State) :
    let t := ctrlSteForce v idle s
    t = { s with regs := t.regs, ste := t.ste } ∧ t.reg Blk.ste.base = s.reg Blk.ste.base := by
  unfold ctrlSteForce
  split
  · split
    · exact ⟨rfl, rfl⟩
    · exact ⟨rfl, (evt_reg ..).trans (if_neg (by decide))⟩
  · exact ⟨rfl, rfl⟩

/-! ### The commands -/

theorem steCtrlWrite_frame (v : Word) (s : State) :
    let t := steCtrlWrite v s
    t = { s with regs := t.regs, ste := t.ste } ∧ t.reg Blk.ste.base = v &&& 3 := by
  obtain ⟨hforce, hreg⟩ := ctrlSteForce_frame v s.ste.rxIdle (ctrlSteSides v s)
  obtain ⟨hsides, -, -⟩ := ctrlSteSides_frame v s
  rw [steCtrlWrite_eq]
  refine ⟨?_, ?_⟩
  · rw [hforce, hsides]
    rfl
  · rw [hreg, hsides]
    exact reg_setReg_same ..

theorem steCtrlWrite_unforced (hv : bit v 2 = false) : steCtrlWrite v s = ctrlSteSides v s :=
  (steCtrlWrite_eq v s).trans (if_neg (Bool.eq_false_iff.mp hv))

theorem steCtrlWrite_drops (hv : bit v 2 = true) (hidle : s.ste.rxIdle = false) (hstored : stored s = true) :
    steCtrlWrite v s = dropPackets (ctrlSteSides v s) := by
  rw [steCtrlWrite_eq]
  exact (if_pos hv).trans (if_pos (by rw [hidle, stored_ctrlSteSides, hstored]; rfl))

theorem steCtrlWrite_moot (hv : bit v 2 = true) (h : s.ste.rxIdle = true ∨ stored s = false) :
    steCtrlWrite v s = evt .ste 4 (ctrlSteSides v s) := by
  rw [steCtrlWrite_eq]
  refine (if_pos hv).trans (if_neg ?_)
  rw [stored_ctrlSteSides]
  obtain hidle | hnone := h
  · simp [hidle]
  · simp [hnone]

variable {m : Master}

/-- What every command that writes CTRL shows of itself, the word v being written. -/
theorem steCtrl_spec (hmay : MayWrite m s) (v : State → Word) :
    let t := cmd m true (fun s => steCtrlWrite (v s) s) s
    t.resp m = ⟨.ok, []⟩ ∧ t = { s with bus := t.bus, regs := t.regs, ste := t.ste } ∧ t.reg Blk.ste.base = v s &&& 3 ∧
      t.ste = (steCtrlWrite (v s) s).ste ∧ t.regs = (steCtrlWrite (v s) s).regs := by
  obtain ⟨hframe, hreg⟩ := steCtrlWrite_frame (v s) s
  have hcmd : cmd m true (fun s => steCtrlWrite (v s) s) s = respond m .ok [] (steCtrlWrite (v s) s) := cmd_ok hmay.1 (.inr hmay.2)
  rw [hcmd]
  refine ⟨resp_respond_same .., ?_, hreg, rfl, rfl⟩
  rw [hframe]
  rfl

/-- Reserved bits that are clear write no FORCE. -/
theorem force_clear {r : Word} (hr : r &&& ~~~3 = 0) (w : Word) : bit (r &&& w) 2 = false := by
  have hbit : bit (r &&& ~~~3) 2 = false := by
    rw [hr]
    decide
  rw [bit_and] at hbit ⊢
  rw [show bit r 2 = false from (Bool.and_true _).symm.trans hbit, Bool.false_and]

variable (hmay : MayWrite m s)
include hmay

theorem steRxDisable_spec (hclear : s.reg Blk.ste.base &&& ~~~3 = 0) :
    ∃ t, exec (.steRxDisable m) s = .next t ∧ t.resp m = ⟨.ok, []⟩ ∧ t = { s with bus := t.bus, regs := t.regs, ste := t.ste } ∧
      t.rbit Blk.ste.base 0 = false ∧ t.ste.rxOn = false ∧ t.ste.rxIdle = s.ste.rxIdle := by
  obtain ⟨hresp, hframe, hreg, hste, -⟩ := steCtrl_spec hmay (fun s => s.reg Blk.ste.base &&& ~~~1)
  have hoff : bit (s.reg Blk.ste.base &&& ~~~1) 0 = false := (bit_and ..).trans (Bool.and_false _)
  obtain ⟨-, hon, hidle⟩ := ctrlSteSides_frame (s.reg Blk.ste.base &&& ~~~1) s
  rw [steCtrlWrite_unforced (force_clear hclear _)] at hste
  refine ⟨_, rfl, hresp, hframe, ?_, ?_, ?_⟩
  · rw [State.rbit, hreg, bit_and, hoff, Bool.false_and]
  · rw [hste, hon, hoff]
  · rw [hste, hidle, hoff]
    rfl

theorem steTxDisable_spec (hclear : s.reg Blk.ste.base &&& ~~~3 = 0) :
    ∃ t, exec (.steTxDisable m) s = .next t ∧ t.resp m = ⟨.ok, []⟩ ∧ t = { s with bus := t.bus, regs := t.regs, ste := t.ste } ∧
      t.rbit Blk.ste.base 1 = false ∧ (s.ste.txOn = true → s.ste.txStop = false → t.ste.txStop = true ∧
        t.ste.flows = s.ste.flows.map fun e =>
          if e.2.st = .live ∧ feTx e.2.fe = true then (e.1, { e.2 with st := .retiring, since := s.frame }) else e) := by
  obtain ⟨hresp, hframe, hreg, hste, -⟩ := steCtrl_spec hmay (fun s => s.reg Blk.ste.base &&& ~~~2)
  have hoff : bit (s.reg Blk.ste.base &&& ~~~2) 1 = false := (bit_and ..).trans (Bool.and_false _)
  rw [steCtrlWrite_unforced (force_clear hclear _)] at hste
  refine ⟨_, rfl, hresp, hframe, ?_, fun hon hruns => ?_⟩
  · rw [State.rbit, hreg, bit_and, hoff, Bool.false_and]
  · rw [hste]
    exact ctrlSteSides_stops hoff hon hruns

theorem steForce_spec :
    ∃ t, exec (.steForce m) s = .next t ∧ t.resp m = ⟨.ok, []⟩ ∧ t = { s with bus := t.bus, regs := t.regs, ste := t.ste } ∧
      (s.ste.rxIdle = false → stored s = true → ∀ f, (t.flow f).pkts = []) ∧
      (s.ste.rxIdle = true ∨ stored s = false → t.rbit (Blk.ste.base + 0x40) 4 = true) := by
  obtain ⟨hresp, hframe, -, hste, hregs⟩ := steCtrl_spec hmay (fun s => s.reg Blk.ste.base ||| 4)
  have hforce : bit (s.reg Blk.ste.base ||| 4) 2 = true := (bit_or ..).trans (Bool.or_true _)
  refine ⟨_, rfl, hresp, hframe, fun hidle hstored f => ?_, fun hmoot => ?_⟩
  · rw [flow_congr hste, steCtrlWrite_drops hforce hidle hstored, pkts_dropPackets]
  · rw [rbit_congr hregs, steCtrlWrite_moot hforce hmoot]
    exact evt_rbit .ste (by decide) _

end

/-! ### STE_RX_IDLE (R261) -/

/-- Reception has stopped, and its last stored packet has been released. -/
abbrev SteDrained (s : State) : Prop := s.ste.rxOn = false ∧ s.ste.rxIdle = false ∧ stored s = false

section
variable {s : State}

theorem steDrained_iff : (!s.ste.rxOn && !s.ste.rxIdle && !stored s) = true ↔ SteDrained s := by simp [SteDrained, and_assoc]

theorem steRxIdle_early (h : ¬ SteDrained s) : steRxIdle s = s := if_neg (mt steDrained_iff.mp h)

theorem steRxIdle_due (h : SteDrained s) : steRxIdle s = evt .ste 3 (updSte (fun y => { y with rxIdle := true }) s) := if_pos (steDrained_iff.mpr h)

end

/-- Settles O39: a frame that is classified, by its kind; the host frames; the commands of CTRL; and the end of reception. -/
theorem streamFramesAndHosts : Obligations.StreamFramesAndHosts := by
  unfold Obligations.StreamFramesAndHosts
  refine fun s m n v => ⟨fun h => congrArg Host.Outcome.next (steClassify_empty h), fun g r h => ?_, hrxPop_spec, fun hreach => htxCmd_spec hreach v,
    fun hmay hclear => ⟨steRxDisable_spec hmay hclear, steTxDisable_spec hmay hclear, ?_⟩, fun h => congrArg Host.Outcome.next (steRxIdle_early h),
    fun h => ⟨_, congrArg Host.Outcome.next (steRxIdle_due h), rfl, evt_rbit .ste (by decide) _⟩⟩
  · obtain ⟨hmem, hmac, hothers⟩ := steClassify_macs h
    refine ⟨_, rfl, hmem, hmac, hothers, fun hptp hroom => ?_, steClassify_overrun h, steClassify_bad h, steClassify_dropped h,
      steClassify_noFlow h⟩
    rw [steClassify_ptp h hptp]
    exact ptpArrive_spec (s := frameTaken n r s) hroom
  · obtain ⟨t, hexec, hresp, hframe, hdrops, hmoot⟩ := steForce_spec hmay
    exact ⟨t, hexec, hresp, hframe, fun _ _ => hdrops, hmoot⟩

end Sys2Proof.Machine
end

section
/-! SUPPORT. The captures of the time counter, and the ports of PTU: what an operation on one port leaves (R272, R275 to R281). -/
namespace Sys2Proof.Machine
open Sys2Proof

/-! ### TCAP (R272) -/

/-- A time modulo 2^96 reads back from its bits. -/
theorem timeBits_cast (t : Int) : ((t % 2 ^ 96).toNat : Int) = t % 2 ^ 96 := Int.toNat_of_nonneg (Int.emod_nonneg _ (by decide))

/-- Settles O60: a capture is one write of the master's entry, from one state. -/
theorem timeCapture : Obligations.TimeCapture := by
  intro s m hreach
  have hcaptured : Tab.get (fun _ => ({} : TCap)) (tcap m s).ptu.caps m.idx =
      ⟨s.ptu.counter, (timeNow s.ptu.a s.ptu.counter % 2 ^ 96).toNat, (timeNow s.ptu.b s.ptu.counter % 2 ^ 96).toNat,
        (timeNow s.ptu.sel s.ptu.counter % 2 ^ 96).toNat⟩ := tab_get_set_same ..
  refine ⟨respond m .ok [] (tcap m s), congrArg Host.Outcome.next (cmd_ok hreach (.inl rfl)), resp_respond_same .., rfl,
    fun k hk => tab_get_set_ne _ _ _ hk, ?_⟩
  rw [respond_ptu, hcaptured]
  exact ⟨rfl, timeBits_cast _, timeBits_cast _, timeBits_cast _⟩

/-! ### The ports and the domains -/

section
variable {p : Ptu} {d e : Dom}

@[simp] theorem port_setPort (p : Ptu) (d : Dom) (x : PtpPort) : (p.setPort d x).port d = x := by cases d <;> rfl
@[simp] theorem dom_setDom (p : Ptu) (d : Dom) (x : TimePar) : (p.setDom d x).dom d = x := by cases d <;> rfl
@[simp] theorem dom_setPort (p : Ptu) (d e : Dom) (x : PtpPort) : (p.setPort d x).dom e = p.dom e := by cases d <;> cases e <;> rfl
@[simp] theorem port_setDom (p : Ptu) (d e : Dom) (x : TimePar) : (p.setDom d x).port e = p.port e := by cases d <;> cases e <;> rfl
@[simp] theorem setPort_setPort (p : Ptu) (d : Dom) (x y : PtpPort) : (p.setPort d x).setPort d y = p.setPort d y := by cases d <;> rfl
@[simp] theorem setPort_port (p : Ptu) (d : Dom) : p.setPort d (p.port d) = p := by cases d <;> rfl
@[simp] theorem setPort_sel (p : Ptu) (d : Dom) (x : PtpPort) : (p.setPort d x).sel = p.sel := by cases d <;> rfl
@[simp] theorem setPort_counter (p : Ptu) (d : Dom) (x : PtpPort) : (p.setPort d x).counter = p.counter := by cases d <;> rfl
@[simp] theorem setPort_stamps (p : Ptu) (d : Dom) (x : PtpPort) : (p.setPort d x).stamps = p.stamps := by cases d <;> rfl

theorem port_setPort_ne (h : e ≠ d) (x : PtpPort) : (p.setPort d x).port e = p.port e := by
  cases d <;> cases e
  case a.a | b.b => exact absurd rfl h
  all_goals rfl

theorem dom_setDom_ne (h : e ≠ d) (x : TimePar) : (p.setDom d x).dom e = p.dom e := by
  cases d <;> cases e
  case a.a | b.b => exact absurd rfl h
  all_goals rfl

end

@[simp] theorem port_updPort (d : Dom) (f : PtpPort → PtpPort) (s : State) : (updPort d f s).ptu.port d = f (s.ptu.port d) := port_setPort ..
@[simp] theorem port_setStamps (n : Nat) (l : List Nat) (s : State) (d : Dom) : (setStamps n l s).ptu.port d = s.ptu.port d := by cases d <;> rfl
@[simp] theorem dom_setStamps (n : Nat) (l : List Nat) (s : State) (d : Dom) : (setStamps n l s).ptu.dom d = s.ptu.dom d := by cases d <;> rfl

theorem stamps_setStamps (n k : Nat) (l : List Nat) (s : State) : (setStamps n l s).stamps k = if k = n then l else s.stamps k :=
  tab_get_set _ s.ptu.stamps n k l

/-- Of the state nothing but the register file, SYS and the port of domain d tells t from s, and the tick is the same. -/
structure PtpStep (d : Dom) (s t : State) : Prop where
  frame : t = { s with regs := t.regs, sys := t.sys, ptu := s.ptu.setPort d (t.ptu.port d) }
  tick : t.sys.tick = s.sys.tick

section
variable {d : Dom} {s t u : State}

theorem PtpStep.refl (d : Dom) (s : State) : PtpStep d s s := ⟨by rw [setPort_port], rfl⟩

theorem PtpStep.trans (hst : PtpStep d s t) (htu : PtpStep d t u) : PtpStep d s u where
  frame := by
    have hptu : t.ptu = s.ptu.setPort d (t.ptu.port d) := congrArg State.ptu hst.frame
    rw [htu.frame, hptu, setPort_setPort, hst.frame]
    simp
  tick := htu.tick.trans hst.tick

theorem PtpStep.updPort (h : PtpStep d s t) (f : PtpPort → PtpPort) : PtpStep d s (updPort d f t) :=
  h.trans ⟨by rw [port_updPort]; rfl, rfl⟩

theorem PtpStep.evt (h : PtpStep d s t) (b : Blk) (i : Nat) : PtpStep d s (evt b i t) := h.trans ⟨by rw [evt_ptu, setPort_port]; rfl, rfl⟩

theorem PtpStep.raise (h : PtpStep d s t) (b : Blk) (i : Nat) : PtpStep d s (raise b i t) :=
  h.trans ⟨by rw [raise_ptu, setPort_port]; exact raise_frame b i t, raise_tick ..⟩

theorem PtpStep.setLocked (h : PtpStep d s t) (v : Bool) : PtpStep d s (setLocked d v t) := by
  unfold Machine.setLocked
  split
  · exact h
  · exact (h.updPort _).evt _ _

theorem PtpStep.chooseMaster (h : PtpStep d s t) : PtpStep d s (chooseMaster d t) := by
  unfold Machine.chooseMaster
  dsimp only
  split
  · exact h
  · exact ((h.setLocked false).updPort _).evt _ _

end
end Sys2Proof.Machine
end

section
/-! SUPPORT. A PTP port as a slave: the messages it takes, its best master, its servo, its losses, its updates (R270, R275 to R281). -/
namespace Sys2Proof.Machine
open Sys2Proof

/-! ### LOCKED and the best master (R279) -/

section
variable (d : Dom) (s : State)

@[simp] theorem port_evt (b : Blk) (i : Nat) : (evt b i s).ptu.port d = s.ptu.port d := rfl
@[simp] theorem port_raise (b : Blk) (i : Nat) : (raise b i s).ptu.port d = s.ptu.port d := congrArg (Ptu.port · d) (raise_ptu ..)

@[simp] theorem port_setLocked (v : Bool) : (setLocked d v s).ptu.port d = { s.ptu.port d with locked := v } := by
  unfold setLocked
  split
  next h => rw [← h]
  next => exact port_updPort d (fun p => { p with locked := v }) s

theorem faultBit_updPort (f : PtpPort → PtpPort) (b : Blk) (i : Nat) : (updPort d f s).faultBit b i = s.faultBit b i := rfl

/-- LOCK_CHG is the one trace a change of LOCKED leaves in the registers: a fault noted stays noted. -/
theorem setLocked_faultBit (v : Bool) (b : Blk) {i : Nat} (h : s.faultBit b i = true) : (setLocked d v s).faultBit b i = true := by
  unfold setLocked
  split
  · exact h
  · exact rbit_orReg _ _ (s := updPort d _ s) h

theorem chooseMaster_faultBit (b : Blk) {i : Nat} (h : s.faultBit b i = true) : (chooseMaster d s).faultBit b i = true := by
  unfold chooseMaster
  extract_lets best t
  split
  · exact h
  · exact rbit_orReg _ _ (s := updPort d _ t) (setLocked_faultBit d s false b h)

/-- The best master the port's table gives. -/
abbrev PtpPort.bestSource (p : PtpPort) : Option (Nat × Nat) := (bestOf p.masters).map fun y => (y.src, y.srcPort)

/-- The port's table gives its best master; where that is another one, LOCKED and the delay estimate are cleared and GM_CHG is posted. -/
def MasterChosen (p : PtpPort) (d : Dom) (t : State) : Prop :=
  let q := t.ptu.port d
  q.best = q.bestSource ∧ q.fi = p.fi ∧ (q.best = p.best → q.locked = p.locked ∧ q.mpd = p.mpd) ∧
    (q.best ≠ p.best → q.locked = false ∧ q.mpd = none ∧ t.rbit (Blk.ptu.base + 0x40) 1 = true)

theorem chooseMaster_chosen : MasterChosen (s.ptu.port d) d (chooseMaster d s) := by
  unfold chooseMaster
  extract_lets best t
  split
  next hsame => exact ⟨hsame, rfl, fun _ => ⟨rfl, rfl⟩, fun hother => absurd rfl hother⟩
  next hother =>
    have ht : t.ptu.port d = { s.ptu.port d with locked := false } := port_setLocked d s false
    rw [MasterChosen, port_evt, port_updPort, ht]
    exact ⟨rfl, rfl, fun hsame => absurd hsame.symm hother, fun _ => ⟨rfl, rfl, evt_rbit .ptu (by decide) _⟩⟩

/-- The choice leaves the table, the counters and the update that waits. -/
theorem chooseMaster_port :
    let q := (chooseMaster d s).ptu.port d
    q.masters = (s.ptu.port d).masters ∧ q.rxAnn = (s.ptu.port d).rxAnn ∧ q.upd = (s.ptu.port d).upd := by
  unfold chooseMaster
  extract_lets best t q
  unfold q
  split
  · exact ⟨rfl, rfl, rfl⟩
  · have ht : t.ptu.port d = { s.ptu.port d with locked := false } := port_setLocked d s false
    rw [port_evt, port_updPort, ht]
    exact ⟨rfl, rfl, rfl⟩

end

/-! ### A received message (R273, R275, R277) -/

/-- A port that takes part: enabled and not FAULTY. -/
abbrev PortUp (s : State) (d : Dom) : Prop := (s.ptu.port d).en = true ∧ (s.ptu.port d).faulty = false

/-- The oldest stamp of the message's MAC is taken. -/
def stampTaken (w : PtpMsg) (s : State) : State := setStamps w.mac (s.stamps w.mac).tail s

/-- The message with the stamp it takes. -/
abbrev stamped (w : PtpMsg) (s : State) : PtpMsg := { w with stamp := (s.stamps w.mac).headD 0 }

section
variable {d : Dom} {w : PtpMsg} {slave : Bool} {k : PtpMsg → State → State} {s : State}

theorem withMsg_unheld (h : s.stamps w.mac = []) : withMsg d w slave k s = s := by rw [withMsg, h]

/-- What becomes of a held message: the port, then the message's fit decide. -/
theorem withMsg_held (h : s.stamps w.mac ≠ []) :
    withMsg d w slave k s =
      if PortUp s d then
        if msgFits s d (stamped w s) = true ∧ roleMaster s d = !slave then k (stamped w s) (stampTaken w s) else rxOther d (stampTaken w s)
      else stampTaken w s := by
  obtain ⟨c, r, hcr⟩ := List.exists_cons_of_ne_nil h
  have hport : (setStamps w.mac r s).ptu.port d = s.ptu.port d := port_setStamps ..
  have hfits : msgFits (setStamps w.mac r s) d w = msgFits s d { w with stamp := c } := rfl
  have hrole : roleMaster (setStamps w.mac r s) d = roleMaster s d := rfl
  simp only [withMsg, hcr, stampTaken, stamped, List.tail_cons, List.headD_cons, hport, hfits, hrole]
  by_cases hup : PortUp s d
  · rw [if_pos hup, if_neg (by simp [hup.1, hup.2])]
    exact if_congr (by simp) rfl rfl
  · rw [if_neg hup, if_pos (by simpa [PortUp, imp_iff_not_or] using hup)]

section
variable (h : s.stamps w.mac ≠ [])
include h

theorem withMsg_down (hup : ¬ PortUp s d) : withMsg d w slave k s = stampTaken w s := (withMsg_held h).trans (if_neg hup)

theorem withMsg_other (hup : PortUp s d) (hfits : ¬ (msgFits s d (stamped w s) = true ∧ roleMaster s d = !slave)) :
    withMsg d w slave k s = rxOther d (stampTaken w s) :=
  (withMsg_held h).trans ((if_pos hup).trans (if_neg hfits))

theorem withMsg_fits (hup : PortUp s d) (hfits : msgFits s d (stamped w s) = true ∧ roleMaster s d = !slave) :
    withMsg d w slave k s = k (stamped w s) (stampTaken w s) :=
  (withMsg_held h).trans ((if_pos hup).trans (if_pos hfits))

end

theorem stamps_stampTaken (w : PtpMsg) (s : State) (n : Nat) :
    (stampTaken w s).stamps n = if n = w.mac then (s.stamps n).tail else s.stamps n := by
  refine (stamps_setStamps ..).trans ?_
  split
  next h => rw [h]
  next => rfl

theorem PtpStep.stamps {t : State} (h : PtpStep d s t) (n : Nat) : t.stamps n = s.stamps n := by
  rw [h.frame]
  exact congrArg (Tab.get _ · n) (setPort_stamps ..)

/-- A state that differs from one with a stamp taken in the port of d. -/
structure MsgTaken (d : Dom) (w : PtpMsg) (s t : State) : Prop where
  frame : t = { s with regs := t.regs, sys := t.sys, ptu := { s.ptu.setPort d (t.ptu.port d) with stamps := t.ptu.stamps } }
  tick : t.sys.tick = s.sys.tick
  stamps : ∀ n, t.stamps n = if n = w.mac then (s.stamps n).tail else s.stamps n

theorem PtpStep.msgTaken {t : State} (h : PtpStep d (stampTaken w s) t) : MsgTaken d w s t where
  frame := by
    rw [h.frame]
    cases d <;> rfl
  tick := h.tick
  stamps n := (h.stamps n).trans (stamps_stampTaken ..)

/-- Whatever becomes of a held message at a slave's port: the stamp is taken, and only that port moves. -/
theorem withMsg_taken (h : s.stamps w.mac ≠ []) (hk : ∀ y u, PtpStep d u (k y u)) : MsgTaken d w s (withMsg d w slave k s) := by
  apply PtpStep.msgTaken
  rw [withMsg_held h]
  split
  · split
    · exact hk _ _
    · exact (PtpStep.refl d _).updPort _
  · exact .refl ..

theorem withMsg_port_down (h : s.stamps w.mac ≠ []) (hup : ¬ PortUp s d) : (withMsg d w slave k s).ptu.port d = s.ptu.port d := by
  rw [withMsg_down h hup]
  exact port_setStamps ..

theorem withMsg_port_other (h : s.stamps w.mac ≠ []) (hup : PortUp s d)
    (hfits : ¬ (msgFits s d (stamped w s) = true ∧ roleMaster s d = !slave)) :
    (withMsg d w slave k s).ptu.port d = { s.ptu.port d with rxOther := ((s.ptu.port d).rxOther + 1) % 2 ^ 32 } := by
  rw [withMsg_other h hup hfits, rxOther, port_updPort, stampTaken, port_setStamps]

end

/-! ### Announce (R278, R279) -/

/-- Two Announce messages of one master's port. -/
abbrev Foreign.From (f : Foreign) (x : PtpMsg) : Prop := f.msg.src = x.src ∧ f.msg.srcPort = x.srcPort

/-- The entry that makes room: it stands in the table. -/
def oldestUnqualified (l : List Foreign) : Option Foreign :=
  (l.filter fun f => !f.qualified).foldl
    (fun (o : Option Foreign) f => match o with | none => some f | some g => if f.heard < g.heard then some f else o) none

section
variable {l : List Foreign} {x : PtpMsg} {t w : Nat}

theorem mem_of_oldestUnqualified {g : Foreign} (h : oldestUnqualified l = some g) : g ∈ l := by
  have hmem : ∀ g ∈ oldestUnqualified l, g ∈ l := by
    refine List.foldlRecOn (motive := fun o : Option Foreign => ∀ g ∈ o, g ∈ l) _ _ nofun fun o ho f hf => ?_
    have hfl : f ∈ l := List.mem_of_mem_filter hf
    cases o with
    | none => simpa using hfl
    | some g =>
      dsimp only
      split
      · simpa using hfl
      · exact ho
  exact hmem g h

/-- An Announce with its master and the ticks between two of them: what becomes of the entry f. -/
def Foreign.heardAgain (x : PtpMsg) (t w : Nat) (f : Foreign) : Foreign :=
  if f.From x then ⟨x, t, f.qualified || decide (t ≤ f.heard + w)⟩ else f

theorem hearAnnounce_known (h : ∃ f ∈ l, f.From x) : hearAnnounce l x t w = l.map (Foreign.heardAgain x t w) := by
  have hany : (l.any fun f => f.msg.src == x.src && f.msg.srcPort == x.srcPort) = true := by simpa using h
  rw [hearAnnounce]
  refine (if_pos hany).trans (List.map_congr_left fun f _ => ?_)
  simp [Foreign.heardAgain]

theorem hearAnnounce_new (h : ∀ f ∈ l, ¬ f.From x) :
    hearAnnounce l x t w =
      if l.length < 8 then l ++ [⟨x, t, false⟩]
      else match oldestUnqualified l with
        | none => l
        | some g => l.filter (fun f => f != g) ++ [⟨x, t, false⟩] := by
  have hany : ¬ (l.any fun f => f.msg.src == x.src && f.msg.srcPort == x.srcPort) = true := by simpa using h
  rw [hearAnnounce]
  exact (if_neg hany).trans rfl

theorem length_hearAnnounce (hl : l.length ≤ 8) : (hearAnnounce l x t w).length ≤ 8 := by
  by_cases h : ∃ f ∈ l, f.From x
  · rw [hearAnnounce_known h, List.length_map]
    exact hl
  · rw [hearAnnounce_new (by simpa using h)]
    split
    · rw [List.length_append, List.length_singleton]
      omega
    · split
      · exact hl
      next g hg =>
        have hless : (l.filter fun f => f != g).length < l.length :=
          List.length_filter_lt_length_iff_exists.mpr ⟨g, mem_of_oldestUnqualified hg, by simp⟩
        rw [List.length_append, List.length_singleton]
        omega

end

/-- The port's table with an Announce heard now (R279). -/
def announceHeard (d : Dom) (x : PtpMsg) (s : State) : State :=
  updPort d (fun p => { p with masters := hearAnnounce p.masters x s.sys.tick (4 * logTicks s (logAnn s d)), rxAnn := (p.rxAnn + 1) % 2 ^ 32 }) s

/-- What a slave's port does with an Announce: its own and those of 255 steps or more are discarded. -/
def announceTake (d : Dom) (x : PtpMsg) (s : State) : State :=
  if x.src = clockId s d ∨ 255 ≤ x.steps then s else chooseMaster d (announceHeard d x s)

section
variable {d : Dom} {x : PtpMsg} {s : State}

theorem announceReceive_eq (d : Dom) (w : PtpMsg) (s : State) : announceReceive d w s = withMsg d w true (announceTake d) s := rfl

theorem ptpStep_announceTake (d : Dom) (x : PtpMsg) (s : State) : PtpStep d s (announceTake d x s) := by
  unfold announceTake
  split
  · exact .refl ..
  · exact ((PtpStep.refl d s).updPort _).chooseMaster

theorem announceTake_discarded (h : x.src = clockId s d ∨ 255 ≤ x.steps) : announceTake d x s = s := if_pos h

theorem announceTake_heard (hsrc : x.src ≠ clockId s d) (hsteps : x.steps < 255) :
    let p := s.ptu.port d
    let t := announceTake d x s
    MasterChosen p d t ∧ (t.ptu.port d).rxAnn = (p.rxAnn + 1) % 2 ^ 32 ∧
      (t.ptu.port d).masters = hearAnnounce p.masters x s.sys.tick (4 * logTicks s (logAnn s d)) := by
  intro p t
  have ht : t = chooseMaster d (announceHeard d x s) := if_neg (not_or.mpr ⟨hsrc, by omega⟩)
  obtain ⟨hmasters, hrxAnn, -⟩ := chooseMaster_port d (announceHeard d x s)
  have hchosen := chooseMaster_chosen d (announceHeard d x s)
  rw [announceHeard, port_updPort, ← announceHeard] at hmasters hrxAnn hchosen
  rw [ht]
  exact ⟨hchosen, hrxAnn, hmasters⟩

end

/-! ### The servo (R280) -/

/-- LOCK of Table 10.4 as the servo compares it. -/
abbrev lockBound (s : State) (d : Dom) : Int := ((s.fld (domReg d 0x10) 0 16 : Nat) : Int) * 2 ^ 16

/-- STEP of Table 10.4 as the servo compares it. -/
abbrev stepBound (s : State) (d : Dom) : Int := ((s.fld (domReg d 0x10) 16 16 : Nat) : Int) * 1000 * 2 ^ 16

/-- The integral of a port after an error, before it is clamped. -/
abbrev integralRaw (p : PtpPort) (s : State) (d : Dom) (e : Int) : Int := p.fi - floorDivI (e * ((s.reg (domReg d 0xC)).toNat : Int)) (2 ^ 24)

/-- The integral of a port after an error. -/
abbrev integral (p : PtpPort) (s : State) (d : Dom) (e : Int) : Int := clampI (-(2 ^ 36)) (2 ^ 36) (integralRaw p s d e)

/-- The adjustment of the rate after an error, before it is clamped. -/
abbrev adjustRaw (p : PtpPort) (s : State) (d : Dom) (e : Int) : Int :=
  integral p s d e - floorDivI (e * ((s.reg (domReg d 0x8)).toNat : Int)) (2 ^ 24)

/-- The adjustment of the rate after an error. -/
abbrev adjust (p : PtpPort) (s : State) (d : Dom) (e : Int) : Int := clampI (-(2 ^ 36)) (2 ^ 36) (adjustRaw p s d e)

/-- The errors in a row below LOCK, to 16. -/
abbrev goodCount (p : PtpPort) (s : State) (d : Dom) (e : Int) : Nat := if (e.natAbs : Int) < lockBound s d then min (p.good + 1) 16 else 0

/-- LOCKED after an error that takes no step. -/
abbrev lockAfter (p : PtpPort) (s : State) (d : Dom) (e : Int) : Bool :=
  if 4 * lockBound s d ≤ (e.natAbs : Int) then false else if goodCount p s d e = 16 then true else p.locked

/-- The state once the integral and the rate are computed: a clamp shows as RATE_CLAMP. -/
def clampNoted (p : PtpPort) (d : Dom) (e : Int) (s : State) : State :=
  if integralRaw p s d e ≠ integral p s d e ∨ adjustRaw p s d e ≠ adjust p s d e then raise .ptu 6 (updPort d (fun p => { p with ofs := e }) s)
  else updPort d (fun p => { p with ofs := e }) s

/-- What an error e makes of the port p: its offset; with SERVO_EN the step, or the integral, the rate, the count and LOCKED. -/
def ServoResult (p : PtpPort) (d : Dom) (e : Int) (s t : State) : Prop :=
  let q := t.ptu.port d
  q.ofs = e ∧
    (servoEn s d = false → q.fi = p.fi ∧ q.good = p.good ∧ q.locked = p.locked ∧ q.upd = p.upd) ∧
    (servoEn s d = true → stepBound s d ≤ (e.natAbs : Int) → q.fi = p.fi ∧ q.good = 0 ∧ q.locked = false ∧
      q.upd = some ⟨-e * 2 ^ 16, none, p.best.getD (0, 0), s.sys.tick + 1⟩) ∧
    (servoEn s d = true → (e.natAbs : Int) < stepBound s d → q.fi = integral p s d e ∧ q.good = goodCount p s d e ∧ q.locked = lockAfter p s d e ∧
      q.upd = some ⟨0, some ((nominalRate : Int) + adjust p s d e).toNat, p.best.getD (0, 0), s.sys.tick + 1⟩ ∧
      (integralRaw p s d e ≠ integral p s d e ∨ adjustRaw p s d e ≠ adjust p s d e → t.faultBit .ptu 6 = true))

section
variable {d : Dom} {ms v : Int} {s : State}

theorem servo_off (h : servoEn s d = false) : servo d ms v s = updPort d (fun p => { p with ofs := ms - v }) s := by
  have hoff : (!servoEn (updPort d (fun p => { p with ofs := ms - v }) s) d) = true := by
    rw [Bool.not_eq_true']
    exact h
  exact if_pos hoff

theorem servo_on (h : servoEn s d = true) : ¬ (!servoEn (updPort d (fun p => { p with ofs := ms - v }) s) d) = true := by
  rw [Bool.not_eq_true', Bool.not_eq_false]
  exact h

/-- An error of STEP or more: the time steps, and the servo starts anew. -/
theorem servo_steps (h : servoEn s d = true) (hstep : stepBound s d ≤ ((ms - v).natAbs : Int)) :
    servo d ms v s = setLocked d false
      (updPort d (fun p => { p with good := 0, upd := some ⟨-(ms - v) * 2 ^ 16, none, (s.ptu.port d).best.getD (0, 0), s.sys.tick + 1⟩ })
        (updPort d (fun p => { p with ofs := ms - v }) s)) :=
  (if_neg (servo_on h)).trans (if_pos hstep)

/-- A smaller error: the integral and the rate follow it. -/
theorem servo_tracks (h : servoEn s d = true) (hsmall : ((ms - v).natAbs : Int) < stepBound s d) :
    servo d ms v s = setLocked d (lockAfter (s.ptu.port d) s d (ms - v))
      (updPort d (fun p => { p with
          fi := integral (s.ptu.port d) s d (ms - v), good := goodCount (s.ptu.port d) s d (ms - v)
          upd := some ⟨0, some ((nominalRate : Int) + adjust (s.ptu.port d) s d (ms - v)).toNat, (s.ptu.port d).best.getD (0, 0), s.sys.tick + 1⟩ })
        (clampNoted (s.ptu.port d) d (ms - v) s)) :=
  (if_neg (servo_on h)).trans (if_neg (not_le.mpr hsmall))

theorem port_clampNoted (p : PtpPort) (d : Dom) (e : Int) (s : State) : (clampNoted p d e s).ptu.port d = { s.ptu.port d with ofs := e } := by
  unfold clampNoted
  split
  · rw [port_raise, port_updPort]
  · rw [port_updPort]

theorem ptpStep_clampNoted (p : PtpPort) (d : Dom) (e : Int) (s : State) : PtpStep d s (clampNoted p d e s) := by
  have hofs : PtpStep d s (updPort d (fun p => { p with ofs := e }) s) := (PtpStep.refl d s).updPort _
  unfold clampNoted
  split
  · exact hofs.raise _ _
  · exact hofs

theorem ptpStep_servo (d : Dom) (ms v : Int) (s : State) : PtpStep d s (servo d ms v s) := by
  have hofs : PtpStep d s (updPort d (fun p => { p with ofs := ms - v }) s) := (PtpStep.refl d s).updPort _
  cases hen : servoEn s d with
  | false =>
    rw [servo_off hen]
    exact hofs
  | true =>
    rcases le_or_gt (stepBound s d) ((ms - v).natAbs : Int) with hstep | hsmall
    · rw [servo_steps hen hstep]
      exact (hofs.updPort _).setLocked _
    · rw [servo_tracks hen hsmall]
      exact ((ptpStep_clampNoted ..).updPort _).setLocked _

/-- The servo leaves the delay estimate, the best master and what an accepted Sync noted. -/
theorem servo_keeps (d : Dom) (ms v : Int) (s : State) :
    let p := s.ptu.port d
    let q := (servo d ms v s).ptu.port d
    q.ms = p.ms ∧ q.twoStep = p.twoStep ∧ q.mpd = p.mpd ∧ q.best = p.best ∧ q.rxSync = p.rxSync ∧ q.syncSince = p.syncSince := by
  intro p q
  cases hen : servoEn s d with
  | false => simp [q, p, servo_off hen]
  | true =>
    rcases le_or_gt (stepBound s d) ((ms - v).natAbs : Int) with hstep | hsmall
    · simp [q, p, servo_steps hen hstep]
    · simp [q, p, servo_tracks hen hsmall, port_clampNoted]

theorem servo_result (d : Dom) (ms v : Int) (s : State) : ServoResult (s.ptu.port d) d (ms - v) s (servo d ms v s) := by
  cases hen : servoEn s d with
  | false => simp [ServoResult, hen, servo_off hen]
  | true =>
    rcases le_or_gt (stepBound s d) ((ms - v).natAbs : Int) with hstep | hsmall
    · rw [servo_steps hen hstep]
      refine ⟨?_, fun hoff => ?_, fun _ _ => ⟨?_, ?_, ?_, ?_⟩, fun _ hsmall => absurd hsmall (not_lt.mpr hstep)⟩
      case refine_2 => exact absurd hen (by rw [hoff]; decide)
      all_goals rw [port_setLocked, port_updPort, port_updPort]
    · have hclamp (h : integralRaw (s.ptu.port d) s d (ms - v) ≠ integral (s.ptu.port d) s d (ms - v) ∨
          adjustRaw (s.ptu.port d) s d (ms - v) ≠ adjust (s.ptu.port d) s d (ms - v)) :
          (clampNoted (s.ptu.port d) d (ms - v) s).faultBit .ptu 6 = true := by
        rw [clampNoted, if_pos h]
        exact raise_fault _ _ _ (by decide)
      have hport := port_clampNoted (s.ptu.port d) d (ms - v) s
      rw [servo_tracks hen hsmall]
      refine ⟨?_, fun hoff => ?_, fun _ hstep => absurd hsmall (not_lt.mpr hstep), fun _ _ => ⟨?_, ?_, ?_, ?_, fun h => ?_⟩⟩
      · rw [port_setLocked, port_updPort, hport]
      · exact absurd hen (by rw [hoff]; decide)
      · rw [port_setLocked, port_updPort]
      · rw [port_setLocked, port_updPort]
      · rw [port_setLocked]
      · rw [port_setLocked, port_updPort]
      · exact setLocked_faultBit _ (updPort d _ _) _ _ (hclamp h)

end

/-! ### Sync and Follow_Up (R279, R280) -/

/-- What a Sync accepted with t2 - t1 = ms makes of the port p: it is noted, and moves the servo once the path delay is known. -/
def SyncOutcome (p : PtpPort) (d : Dom) (ms : Int) (s t : State) : Prop :=
  let q := t.ptu.port d
  q.ms = some ms ∧ q.twoStep = none ∧ q.mpd = p.mpd ∧ q.best = p.best ∧
    (p.mpd = none → q.ofs = p.ofs ∧ q.fi = p.fi ∧ q.good = p.good ∧ q.locked = p.locked ∧ q.upd = p.upd) ∧
    ∀ v, p.mpd = some v → ServoResult p d (ms - v) s t

/-- The accepted Sync is noted. -/
def syncNoted (d : Dom) (ms : Int) (s : State) : State := updPort d (fun p => { p with ms := some ms, twoStep := none }) s

section
variable {d : Dom} {s : State}

theorem syncAccepted_eq (d : Dom) (t1 t2 : Int) (s : State) :
    syncAccepted d t1 t2 s = (s.ptu.port d).mpd.elim (syncNoted d (t2 - t1) s) fun v => servo d (t2 - t1) v (syncNoted d (t2 - t1) s) := by
  have hmpd : ((syncNoted d (t2 - t1) s).ptu.port d).mpd = (s.ptu.port d).mpd := by rw [syncNoted, port_updPort]
  rw [← hmpd]
  unfold syncAccepted
  cases h : ((syncNoted d (t2 - t1) s).ptu.port d).mpd <;> simp only [syncNoted] at h ⊢ <;> rw [h] <;> rfl

theorem ptpStep_syncAccepted (d : Dom) (t1 t2 : Int) (s : State) : PtpStep d s (syncAccepted d t1 t2 s) := by
  have hnoted : PtpStep d s (syncNoted d (t2 - t1) s) := (PtpStep.refl d s).updPort _
  rw [syncAccepted_eq]
  cases (s.ptu.port d).mpd with
  | none => exact hnoted
  | some v => exact hnoted.trans (ptpStep_servo ..)

theorem syncAccepted_counts (d : Dom) (t1 t2 : Int) (s : State) :
    let q := (syncAccepted d t1 t2 s).ptu.port d
    q.rxSync = (s.ptu.port d).rxSync ∧ q.syncSince = (s.ptu.port d).syncSince := by
  have hnoted : (syncNoted d (t2 - t1) s).ptu.port d = { s.ptu.port d with ms := some (t2 - t1), twoStep := none } := port_updPort ..
  rw [syncAccepted_eq]
  cases (s.ptu.port d).mpd with
  | none => simp [hnoted]
  | some v =>
    obtain ⟨-, -, -, -, hrx, hsince⟩ := servo_keeps d (t2 - t1) v (syncNoted d (t2 - t1) s)
    rw [hnoted] at hrx hsince
    exact ⟨hrx, hsince⟩

theorem syncAccepted_outcome (d : Dom) (t1 t2 : Int) (s : State) {p : PtpPort} (hp : s.ptu.port d = p) :
    SyncOutcome p d (t2 - t1) s (syncAccepted d t1 t2 s) := by
  have hnoted : (syncNoted d (t2 - t1) s).ptu.port d = { p with ms := some (t2 - t1), twoStep := none } := by rw [syncNoted, port_updPort, hp]
  rw [syncAccepted_eq, hp]
  cases hmpd : p.mpd with
  | none =>
    rw [Option.elim_none]
    simp [SyncOutcome, hnoted, hmpd]
  | some v =>
    obtain ⟨hms, htwo, hdelay, hbest, -, -⟩ := servo_keeps d (t2 - t1) v (syncNoted d (t2 - t1) s)
    have hresult := servo_result d (t2 - t1) v (syncNoted d (t2 - t1) s)
    rw [hnoted] at hms htwo hdelay hbest hresult
    refine ⟨hms, htwo, hdelay, hbest, fun hnone => ?_, fun u hu => ?_⟩
    · exact absurd hmpd (by rw [hnone]; nofun)
    · obtain rfl : v = u := Option.some.inj (hmpd.symm.trans hu)
      exact hresult

end

end Sys2Proof.Machine
end

section
/-! SUPPORT. What a slave's port does with each message, its losses and its updates (R270, R275 to R281). -/
namespace Sys2Proof.Machine
open Sys2Proof

/-- What a received message does at a slave's port whatever its kind: the stamp is taken, a port that is off ignores it, and one it does
not fit counts it. -/
def PortTook (d : Dom) (w : PtpMsg) (s t : State) : Prop :=
  (t = { s with regs := t.regs, sys := t.sys, ptu := { s.ptu.setPort d (t.ptu.port d) with stamps := t.ptu.stamps } } ∧ t.sys.tick = s.sys.tick) ∧
    (∀ n, t.stamps n = if n = w.mac then (s.stamps n).tail else s.stamps n) ∧
    (¬ PortUp s d → t.ptu.port d = s.ptu.port d) ∧
    (PortUp s d → ¬ (msgFits s d (stamped w s) = true ∧ roleMaster s d = false) →
      t.ptu.port d = { s.ptu.port d with rxOther := ((s.ptu.port d).rxOther + 1) % 2 ^ 32 })

section
variable {d : Dom} {w : PtpMsg} {s : State} {k : PtpMsg → State → State}

theorem withMsg_took (h : s.stamps w.mac ≠ []) (hk : ∀ y u, PtpStep d u (k y u)) : PortTook d w s (withMsg d w true k s) := by
  obtain ⟨hframe, htick, hstamps⟩ := withMsg_taken (slave := true) h hk
  exact ⟨⟨hframe, htick⟩, hstamps, withMsg_port_down h, fun hup => withMsg_port_other (slave := true) h hup⟩

/-- A message that fits a slave's port is that port's to take. -/
theorem withMsg_slave (k : PtpMsg → State → State) (h : s.stamps w.mac ≠ []) (hup : PortUp s d)
    (hfits : msgFits s d (stamped w s) = true ∧ roleMaster s d = false) :
    withMsg d w true k s = k (stamped w s) (stampTaken w s) :=
  withMsg_fits h hup hfits

@[simp] theorem port_stampTaken (w : PtpMsg) (s : State) (d : Dom) : (stampTaken w s).ptu.port d = s.ptu.port d := port_setStamps ..

theorem fromBest_congr {t : State} (h : t.ptu.port d = s.ptu.port d) (x : PtpMsg) : fromBest t d x = fromBest s d x := by
  rw [fromBest, fromBest, h]

theorem fromBest_stampTaken (x : PtpMsg) : fromBest (stampTaken w s) d x = fromBest s d x := fromBest_congr (port_stampTaken ..) x

theorem syncT2_congr {t : State} (hregs : t.regs = s.regs) (hdom : t.ptu.dom d = s.ptu.dom d) (x : PtpMsg) : syncT2 t d x = syncT2 s d x := by
  rw [syncT2, syncT2, rxTime, rxTime, hdom, reg_congr hregs]

theorem syncT2_stampTaken (x : PtpMsg) : syncT2 (stampTaken w s) d x = syncT2 s d x := syncT2_congr (s := s) (t := stampTaken w s) rfl (dom_setStamps ..) x

/-- Of the state only the port of d moves, and no stamp. -/
theorem PtpStep.frame_stamps {t : State} (h : PtpStep d s t) :
    t = { s with regs := t.regs, sys := t.sys, ptu := { s.ptu.setPort d (t.ptu.port d) with stamps := t.ptu.stamps } } := by
  have hstamps : t.ptu.stamps = (s.ptu.setPort d (t.ptu.port d)).stamps := congrArg (·.ptu.stamps) h.frame
  rw [hstamps]
  exact h.frame

/-! ### Announce -/

theorem announceReceive_spec (h : s.stamps w.mac ≠ []) :
    let p := s.ptu.port d
    let x := stamped w s
    let t := announceReceive d w s
    let fits : Prop := msgFits s d x = true ∧ roleMaster s d = false
    PortTook d w s t ∧
      (PortUp s d → fits → (x.src = clockId s d ∨ 255 ≤ x.steps) → t.ptu.port d = p) ∧
      (PortUp s d → fits → x.src ≠ clockId s d → x.steps < 255 → MasterChosen p d t ∧ (t.ptu.port d).rxAnn = (p.rxAnn + 1) % 2 ^ 32 ∧
        (t.ptu.port d).masters = hearAnnounce p.masters x s.sys.tick (4 * logTicks s (logAnn s d))) := by
  intro p x t fits
  refine ⟨withMsg_took h fun y u => ptpStep_announceTake d y u, fun hup hfits hown => ?_, fun hup hfits hsrc hsteps => ?_⟩
  · rw [show t = _ from withMsg_slave (announceTake d) h hup hfits]
    exact (congrArg (·.ptu.port d) (announceTake_discarded (s := stampTaken w s) hown)).trans (port_stampTaken ..)
  · have hheard := announceTake_heard (s := stampTaken w s) hsrc hsteps
    rw [port_stampTaken] at hheard
    rw [show t = _ from withMsg_slave (announceTake d) h hup hfits]
    exact hheard

/-! ### Sync -/

/-- A Sync of the best master counts. -/
def syncCounted (d : Dom) (s : State) : State :=
  updPort d (fun p => { p with rxSync := (p.rxSync + 1) % 2 ^ 32, syncSince := some s.sys.tick }) s

/-- A two-step Sync of the best master waits for its Follow_Up; a one-step one is accepted. -/
def syncTake (d : Dom) (x : PtpMsg) (s : State) : State :=
  if !fromBest s d x then s
  else if x.twoStep then updPort d (fun p => { p with twoStep := some x, twoStepAt := s.sys.tick }) (syncCounted d s)
  else syncAccepted d (stampVal x x.corr) (syncT2 (syncCounted d s) d x) (syncCounted d s)

theorem syncReceive_eq (d : Dom) (w : PtpMsg) (s : State) : syncReceive d w s = withMsg d w true (syncTake d) s := rfl

theorem port_syncCounted (d : Dom) (s : State) :
    (syncCounted d s).ptu.port d = { s.ptu.port d with rxSync := ((s.ptu.port d).rxSync + 1) % 2 ^ 32, syncSince := some s.sys.tick } :=
  port_updPort ..

theorem ptpStep_syncTake (d : Dom) (x : PtpMsg) (s : State) : PtpStep d s (syncTake d x s) := by
  have hcounted : PtpStep d s (syncCounted d s) := (PtpStep.refl d s).updPort _
  unfold syncTake
  split
  · exact .refl ..
  · split
    · exact hcounted.updPort _
    · exact hcounted.trans (ptpStep_syncAccepted ..)

theorem syncTake_foreign {x : PtpMsg} (h : fromBest s d x = false) : syncTake d x s = s := if_pos (by rw [h]; rfl)

theorem syncTake_twoStep {x : PtpMsg} (h : fromBest s d x = true) (htwo : x.twoStep = true) :
    syncTake d x s = updPort d (fun p => { p with twoStep := some x, twoStepAt := s.sys.tick }) (syncCounted d s) := by
  simp [syncTake, h, htwo]

theorem syncTake_oneStep {x : PtpMsg} (h : fromBest s d x = true) (hone : x.twoStep = false) :
    syncTake d x s = syncAccepted d (stampVal x x.corr) (syncT2 s d x) (syncCounted d s) := by
  have hT2 : syncT2 (syncCounted d s) d x = syncT2 s d x := syncT2_congr (s := s) (t := syncCounted d s) rfl (dom_setPort ..) x
  simp [syncTake, h, hone, hT2]

theorem syncReceive_spec (h : s.stamps w.mac ≠ []) :
    let p := s.ptu.port d
    let x := stamped w s
    let t := syncReceive d w s
    let fits : Prop := msgFits s d x = true ∧ roleMaster s d = false
    PortTook d w s t ∧
      (PortUp s d → fits → fromBest s d x = false → t.ptu.port d = p) ∧
      (PortUp s d → fits → fromBest s d x = true → x.twoStep = true →
        t.ptu.port d = { p with rxSync := (p.rxSync + 1) % 2 ^ 32, syncSince := some s.sys.tick, twoStep := some x, twoStepAt := s.sys.tick }) ∧
      (PortUp s d → fits → fromBest s d x = true → x.twoStep = false →
        (t.ptu.port d).rxSync = (p.rxSync + 1) % 2 ^ 32 ∧ (t.ptu.port d).syncSince = some s.sys.tick ∧
          SyncOutcome p d (syncT2 s d x - stampVal x x.corr) s t) := by
  intro p x t fits
  refine ⟨withMsg_took h fun y u => ptpStep_syncTake d y u, fun hup hfits hbest => ?_, fun hup hfits hbest htwo => ?_,
    fun hup hfits hbest hone => ?_⟩ <;> rw [← fromBest_stampTaken (w := w)] at hbest
  · rw [show t = _ from withMsg_slave (syncTake d) h hup hfits, syncTake_foreign hbest, port_stampTaken]
  · rw [show t = _ from withMsg_slave (syncTake d) h hup hfits, syncTake_twoStep hbest htwo, port_updPort, port_syncCounted, port_stampTaken]
    rfl
  · have hcounted := port_syncCounted d (stampTaken w s)
    rw [port_stampTaken] at hcounted
    obtain ⟨hrx, hsince⟩ := syncAccepted_counts d (stampVal x x.corr) (syncT2 s d x) (syncCounted d (stampTaken w s))
    rw [hcounted] at hrx hsince
    rw [show t = _ from withMsg_slave (syncTake d) h hup hfits, syncTake_oneStep hbest hone, syncT2_stampTaken]
    have houtcome := syncAccepted_outcome d (stampVal x x.corr) (syncT2 s d x) _ hcounted
    exact ⟨hrx, hsince, houtcome⟩

/-! ### Follow_Up -/

/-- The Follow_Up x of the two-step Sync y, in time. -/
abbrev FollowsUp (s : State) (d : Dom) (x y : PtpMsg) : Prop :=
  (s.ptu.port d).twoStep = some y ∧ fromBest s d x = true ∧ y.seq = x.seq ∧ y.src = x.src ∧
    s.sys.tick ≤ (s.ptu.port d).twoStepAt + logTicks s (logSync s d)

/-- What a slave's port does with a Follow_Up. -/
def followUpTake (d : Dom) (x : PtpMsg) (s : State) : State :=
  match (s.ptu.port d).twoStep with
  | some y =>
    if fromBest s d x && y.seq == x.seq && y.src == x.src && decide (s.sys.tick ≤ (s.ptu.port d).twoStepAt + logTicks s (logSync s d)) then
      syncAccepted d (stampVal x (x.corr + y.corr)) (syncT2 s d y) s
    else s
  | none => s

theorem followUpReceive_eq (d : Dom) (w : PtpMsg) (s : State) : followUpReceive d w s = withMsg d w true (followUpTake d) s := rfl

theorem followUpTake_matched {x y : PtpMsg} (h : FollowsUp s d x y) :
    followUpTake d x s = syncAccepted d (stampVal x (x.corr + y.corr)) (syncT2 s d y) s := by
  obtain ⟨htwo, hbest, hseq, hsrc, htime⟩ := h
  simp [followUpTake, htwo, hbest, hseq, hsrc, htime]

theorem followUpTake_unmatched {x : PtpMsg} (h : ∀ y, ¬ FollowsUp s d x y) : followUpTake d x s = s := by
  unfold followUpTake
  split
  next y htwo =>
    refine if_neg fun hmatch => h y ?_
    simpa [FollowsUp, htwo, and_assoc] using hmatch
  next => rfl

theorem ptpStep_followUpTake (d : Dom) (x : PtpMsg) (s : State) : PtpStep d s (followUpTake d x s) := by
  by_cases h : ∃ y, FollowsUp s d x y
  · obtain ⟨y, hy⟩ := h
    rw [followUpTake_matched hy]
    exact ptpStep_syncAccepted ..
  · rw [followUpTake_unmatched (not_exists.mp h)]
    exact .refl ..

theorem followsUp_stampTaken {x y : PtpMsg} : FollowsUp (stampTaken w s) d x y ↔ FollowsUp s d x y := by
  rw [FollowsUp, port_stampTaken, fromBest_stampTaken]
  rfl

theorem followUpReceive_spec (h : s.stamps w.mac ≠ []) :
    let x := stamped w s
    let t := followUpReceive d w s
    let fits : Prop := msgFits s d x = true ∧ roleMaster s d = false
    PortTook d w s t ∧
      (PortUp s d → fits → (∀ y, ¬ FollowsUp s d x y) → t.ptu.port d = s.ptu.port d) ∧
      (PortUp s d → fits → ∀ y, FollowsUp s d x y →
        SyncOutcome (s.ptu.port d) d (syncT2 s d y - stampVal x (x.corr + y.corr)) s t) := by
  intro x t fits
  refine ⟨withMsg_took h fun y u => ptpStep_followUpTake d y u, fun hup hfits hnone => ?_, fun hup hfits y hy => ?_⟩
  · rw [show t = _ from withMsg_slave (followUpTake d) h hup hfits, followUpTake_unmatched fun y hy => hnone y (followsUp_stampTaken.mp hy), port_stampTaken]
  · rw [show t = _ from withMsg_slave (followUpTake d) h hup hfits, followUpTake_matched (followsUp_stampTaken.mpr hy), syncT2_stampTaken]
    exact syncAccepted_outcome d _ _ _ (port_stampTaken ..)

/-! ### Delay_Resp (R280) -/

/-- The Delay_Resp x to the port's last request, which left at t3 after a Sync with t2 - t1 = ms. -/
abbrev AnswersRequest (s : State) (d : Dom) (x : PtpMsg) (t3 ms : Int) : Prop :=
  (s.ptu.port d).t3 = some t3 ∧ (s.ptu.port d).msT3 = some ms ∧ fromBest s d x = true ∧ x.reqId = clockId s d ∧ x.reqPort = 1 ∧
    x.seq = (s.ptu.port d).reqSeq

/-- The path delay a port takes from a Delay_Resp: the first sample as it is, later ones by the filter of Table 10.4. -/
def delayFiltered (d : Dom) (x : PtpMsg) (t3 ms : Int) (s : State) (old : Option Int) : Int :=
  let dly := floorDivI (ms + (stampVal x (-x.corr) - t3)) 2
  match old with
  | none => dly
  | some v => v + floorDivI (dly - v) (2 ^ s.fld (domReg d 0x14) 0 4)

/-- What a slave's port does with a Delay_Resp. -/
def delayRespTake (d : Dom) (x : PtpMsg) (s : State) : State :=
  match (s.ptu.port d).t3, (s.ptu.port d).msT3 with
  | some t3, some ms =>
    if fromBest s d x && x.reqId == clockId s d && x.reqPort == 1 && x.seq == (s.ptu.port d).reqSeq then
      updPort d (fun p => { p with mpd := some (delayFiltered d x t3 ms s p.mpd) }) s
    else s
  | _, _ => s

theorem delayRespReceive_eq (d : Dom) (w : PtpMsg) (s : State) : delayRespReceive d w s = withMsg d w true (delayRespTake d) s := rfl

theorem delayRespTake_matched {x : PtpMsg} {t3 ms : Int} (h : AnswersRequest s d x t3 ms) :
    delayRespTake d x s = updPort d (fun p => { p with mpd := some (delayFiltered d x t3 ms s p.mpd) }) s := by
  obtain ⟨ht3, hms, hbest, hid, hport, hseq⟩ := h
  simp [delayRespTake, ht3, hms, hbest, hid, hport, hseq]

theorem delayRespTake_unmatched {x : PtpMsg} (h : ∀ t3 ms, ¬ AnswersRequest s d x t3 ms) : delayRespTake d x s = s := by
  unfold delayRespTake
  split
  next t3 ms ht3 hms =>
    refine if_neg fun hmatch => h t3 ms ?_
    simpa [AnswersRequest, ht3, hms, and_assoc] using hmatch
  next => rfl

theorem ptpStep_delayRespTake (d : Dom) (x : PtpMsg) (s : State) : PtpStep d s (delayRespTake d x s) := by
  by_cases h : ∃ t3 ms, AnswersRequest s d x t3 ms
  · obtain ⟨t3, ms, hmatch⟩ := h
    rw [delayRespTake_matched hmatch]
    exact (PtpStep.refl d s).updPort _
  · rw [delayRespTake_unmatched fun t3 ms hmatch => h ⟨t3, ms, hmatch⟩]
    exact .refl ..

theorem answersRequest_stampTaken {x : PtpMsg} {t3 ms : Int} : AnswersRequest (stampTaken w s) d x t3 ms ↔ AnswersRequest s d x t3 ms := by
  rw [AnswersRequest, port_stampTaken, fromBest_stampTaken]
  rfl

theorem delayRespReceive_spec (h : s.stamps w.mac ≠ []) :
    let p := s.ptu.port d
    let x := stamped w s
    let t := delayRespReceive d w s
    let fits : Prop := msgFits s d x = true ∧ roleMaster s d = false
    PortTook d w s t ∧
      (PortUp s d → fits → (∀ t3 ms, ¬ AnswersRequest s d x t3 ms) → t.ptu.port d = p) ∧
      (PortUp s d → fits → ∀ t3 ms, AnswersRequest s d x t3 ms → t.ptu.port d = { p with mpd := some (delayFiltered d x t3 ms s p.mpd) }) := by
  intro p x t fits
  refine ⟨withMsg_took h fun y u => ptpStep_delayRespTake d y u, fun hup hfits hnone => ?_, fun hup hfits t3 ms hmatch => ?_⟩
  · rw [show t = _ from withMsg_slave (delayRespTake d) h hup hfits,
      delayRespTake_unmatched fun t3 ms hmatch => hnone t3 ms (answersRequest_stampTaken.mp hmatch), port_stampTaken]
  · rw [show t = _ from withMsg_slave (delayRespTake d) h hup hfits, delayRespTake_matched (answersRequest_stampTaken.mpr hmatch), port_updPort, port_stampTaken]
    rfl

/-! ### ANN_TIMEOUT and SYNC_LOSS (R281) -/

/-- The best master has sent no Announce for ANN_TO intervals. -/
abbrev BestSilent (s : State) (d : Dom) : Prop :=
  PortUp s d ∧ roleMaster s d = false ∧ ∃ f ∈ (s.ptu.port d).masters, (s.ptu.port d).best = some (f.msg.src, f.msg.srcPort) ∧
    f.heard + annTo s d * logTicks s (logAnn s d) ≤ s.sys.tick

/-- The best master leaves the table, with the update of its own that waits. -/
def masterDropped (d : Dom) (s : State) : State :=
  updPort d (fun p => { p with
    masters := p.masters.filter fun f => p.best != some (f.msg.src, f.msg.srcPort)
    upd := p.upd.filter fun u => p.best != some u.master }) (raise .ptu (4 + d.idx) s)

theorem annTimeout_eq (d : Dom) (s : State) : annTimeout d s = if BestSilent s d then chooseMaster d (masterDropped d s) else s := by
  refine if_congr ?_ rfl rfl
  simp [and_assoc]

theorem annTimeout_spec (h : BestSilent s d) :
    let p := s.ptu.port d
    let t := annTimeout d s
    PtpStep d s t ∧ MasterChosen p d t ∧ t.faultBit .ptu (4 + d.idx) = true ∧
      (∀ f, f ∈ (t.ptu.port d).masters ↔ f ∈ p.masters ∧ p.best ≠ some (f.msg.src, f.msg.srcPort)) ∧
      (∀ u, (t.ptu.port d).upd = some u ↔ p.upd = some u ∧ p.best ≠ some u.master) := by
  intro p t
  have hidx : 4 + d.idx < 32 := by cases d <;> decide
  have ht : t = chooseMaster d (masterDropped d s) := (annTimeout_eq d s).trans (if_pos h)
  have hdropped := port_updPort d (fun p => { p with
    masters := p.masters.filter fun f => p.best != some (f.msg.src, f.msg.srcPort)
    upd := p.upd.filter fun u => p.best != some u.master }) (raise .ptu (4 + d.idx) s)
  rw [← masterDropped, port_raise] at hdropped
  have hchosen := chooseMaster_chosen d (masterDropped d s)
  obtain ⟨hmasters, -, hupd⟩ := chooseMaster_port d (masterDropped d s)
  rw [hdropped] at hchosen hmasters hupd
  rw [ht]
  refine ⟨(((PtpStep.refl d s).raise _ _).updPort _).chooseMaster, hchosen, chooseMaster_faultBit _ _ _ ?_, fun f => ?_, fun u => ?_⟩
  · exact (faultBit_updPort ..).trans (raise_fault .ptu _ s hidx)
  · rw [hmasters, List.mem_filter, bne_iff_ne]
  · rw [hupd, Option.filter_eq_some_iff, bne_iff_ne]

/-- No Sync has been accepted for 3 intervals. -/
abbrev SyncOverdue (s : State) (d : Dom) : Prop :=
  PortUp s d ∧ roleMaster s d = false ∧ ∃ a, (s.ptu.port d).syncSince = some a ∧ a + 3 * logTicks s (logSync s d) ≤ s.sys.tick

/-- The wait for a Sync ends, and LOCKED with it. -/
def syncLost (d : Dom) (s : State) : State := setLocked d false (updPort d (fun p => { p with syncSince := none }) (raise .ptu (2 + d.idx) s))

theorem syncLoss_eq (d : Dom) (s : State) : syncLoss d s = if SyncOverdue s d then syncLost d s else s := by
  unfold syncLoss
  dsimp only
  split
  next a ha =>
    refine if_congr ?_ rfl rfl
    simp [ha, and_assoc]
  next hnone => exact (if_neg (by simp [hnone])).symm

theorem syncLost_spec (d : Dom) (s : State) :
    let t := syncLost d s
    PtpStep d s t ∧ t.ptu.port d = { s.ptu.port d with locked := false, syncSince := none } ∧ t.faultBit .ptu (2 + d.idx) = true := by
  have hidx : 2 + d.idx < 32 := by cases d <;> decide
  refine ⟨(((PtpStep.refl d s).raise _ _).updPort _).setLocked _, ?_, setLocked_faultBit _ _ _ _ ((faultBit_updPort ..).trans (raise_fault .ptu _ s hidx))⟩
  rw [syncLost, port_setLocked, port_updPort, port_raise]

/-! ### A due update (R270, R280) -/

/-- The domain takes an update, and the port's own is done. -/
def updateApplied (d : Dom) (u : ServoUpd) (s : State) : State :=
  updPort d (fun p => { p with upd := none })
    (updPtu (fun p => p.setDom d ((p.dom d).update p.counter (u.rate.getD (p.dom d).rate) u.step)) s)

theorem domainUpdate_early (h : ∀ u, (s.ptu.port d).upd = some u → s.sys.tick < u.due) : domainUpdate d s = s := by
  unfold domainUpdate
  split
  next u hu => exact if_neg (not_le.mpr (h u hu))
  next => rfl

theorem domainUpdate_due {u : ServoUpd} (hu : (s.ptu.port d).upd = some u) (hdue : u.due ≤ s.sys.tick) :
    domainUpdate d s = if u.rate.isNone then evt .ptu 3 (updateApplied d u s) else updateApplied d u s := by
  rw [domainUpdate, hu]
  exact if_pos hdue

theorem domainUpdate_spec {u : ServoUpd} (hu : (s.ptu.port d).upd = some u) (hdue : u.due ≤ s.sys.tick) :
    let t := domainUpdate d s
    t = { s with regs := t.regs, ptu := (s.ptu.setDom d (t.ptu.dom d)).setPort d { s.ptu.port d with upd := none } } ∧
      t.ptu.dom d = (s.ptu.dom d).update s.ptu.counter (u.rate.getD (s.ptu.dom d).rate) u.step ∧
      (u.rate = none → t.rbit (Blk.ptu.base + 0x40) 3 = true) := by
  have happlied : (updateApplied d u s).ptu.dom d = (s.ptu.dom d).update s.ptu.counter (u.rate.getD (s.ptu.dom d).rate) u.step :=
    (dom_setPort ..).trans (dom_setDom ..)
  have hframe : updateApplied d u s =
      { s with ptu := (s.ptu.setDom d ((updateApplied d u s).ptu.dom d)).setPort d { s.ptu.port d with upd := none } } := by
    rw [happlied, ← port_setDom s.ptu d d]
    rfl
  rw [domainUpdate_due hu hdue]
  split
  next =>
    refine ⟨?_, happlied, fun _ => evt_rbit .ptu (by decide) _⟩
    exact congrArg (evt .ptu 3) hframe
  next hrate => exact ⟨hframe, happlied, fun hnone => absurd (congrArg Option.isNone hnone) hrate⟩

end

/-! ### The obligation -/

theorem receive_unheld {d : Dom} {w : PtpMsg} {s : State} (h : s.stamps w.mac = []) :
    ∀ c ∈ [Instr.announceReceive d w, .syncReceive d w, .followUpReceive d w, .delayRespReceive d w], exec c s = .next s := by
  intro c hc
  fin_cases hc <;> exact congrArg Host.Outcome.next (withMsg_unheld h)

/-- Settles O40: each message by what its port takes from it, each event by what its condition says. -/
theorem ptpSlave : Obligations.PtpSlave := by
  intro s d w
  refine ⟨fun h => receive_unheld (not_not.mp h), fun h => ?_, fun h => ⟨_, rfl, syncReceive_spec h⟩, fun h => ⟨_, rfl, followUpReceive_spec h⟩,
    fun h => ⟨_, rfl, delayRespReceive_spec h⟩,
    ⟨fun h => congrArg Host.Outcome.next ((annTimeout_eq d s).trans (if_neg h)), fun h => ?_⟩,
    ⟨fun h => congrArg Host.Outcome.next ((syncLoss_eq d s).trans (if_neg h)), fun h => ?_⟩,
    fun h => congrArg Host.Outcome.next (domainUpdate_early h), fun u hu hdue => ⟨_, rfl, domainUpdate_spec hu hdue⟩⟩
  · obtain ⟨htook, hdiscarded, hheard⟩ := announceReceive_spec (d := d) h
    refine ⟨_, rfl, htook, hdiscarded, fun hup hfits hsrc hsteps => ?_⟩
    obtain ⟨hchosen, hrxAnn, hmasters⟩ := hheard hup hfits hsrc hsteps
    refine ⟨hchosen, hrxAnn, fun hl => ?_, fun f hf hsame => ?_, fun hnew hroom => ?_⟩
    · rw [hmasters]
      exact length_hearAnnounce hl
    · rw [hmasters, hearAnnounce_known ⟨f, hf, hsame⟩]
      exact List.mem_map.mpr ⟨f, hf, if_pos hsame⟩
    · rw [hmasters, hearAnnounce_new hnew]
      exact if_pos hroom
  · obtain ⟨hstep, hspec⟩ := annTimeout_spec h
    exact ⟨_, rfl, ⟨hstep.frame_stamps, hstep.tick⟩, hspec⟩
  · obtain ⟨hstep, hspec⟩ := syncLost_spec d s
    exact ⟨_, congrArg Host.Outcome.next ((syncLoss_eq d s).trans (if_pos h)), ⟨hstep.frame_stamps, hstep.tick⟩, hspec⟩

end Sys2Proof.Machine
end

section
/-! SUPPORT. A PTP port as a master, the messages PTU sends, UPD and CTRL (R269, R270, R276, R279, R282, R284). -/
namespace Sys2Proof.Machine
open Sys2Proof

/-! ### Octets of a message -/

@[simp] theorem length_leBytes (n x : Nat) : (leBytes n x).length = n := by
  induction n generalizing x with
  | zero => rfl
  | succ n ih => rw [leBytes, List.length_cons, ih]

@[simp] theorem length_beBytes (n x : Nat) : (beBytes n x).length = n := by rw [beBytes, List.length_reverse, length_leBytes]

theorem beNat_append_singleton (l : List Byte) (b : Byte) : beNat (l ++ [b]) = beNat l * 256 + b.toNat := by simp [beNat]

/-- A number of n octets reads back from them. -/
theorem beNat_beBytes (n x : Nat) : beNat (beBytes n x) = x % 256 ^ n := by
  induction n generalizing x with
  | zero => rw [Nat.pow_zero, Nat.mod_one]; rfl
  | succ n ih =>
    have hlow : (BitVec.ofNat 8 x).toNat = x % 256 := BitVec.toNat_ofNat ..
    rw [beBytes, leBytes, List.reverse_cons, beNat_append_singleton, ← beBytes, ih, hlow, Nat.pow_succ', Nat.mod_mul]
    omega

/-- A field at the front of the octets. -/
theorem octs_front (n x : Nat) (l : List Byte) : octs (beBytes n x ++ l) 0 n = x % 256 ^ n := by
  rw [octs, List.drop_zero, List.take_left' (length_beBytes n x), beNat_beBytes]

/-- A field behind the octets a. -/
theorem octs_behind {a : List Byte} {i : Nat} (h : a.length ≤ i) (l : List Byte) (n : Nat) : octs (a ++ l) i n = octs l (i - a.length) n := by
  rw [octs, octs, List.drop_append, List.drop_eq_nil_of_le h, List.nil_append]

@[simp] theorem length_ptpStamp (t : Int) : (ptpStamp t).length = 10 := by rw [ptpStamp, List.length_append, length_beBytes, length_beBytes]

/-! ### A message is sent (R276, R277) -/

/-- A frame handed to a MAC, whatever becomes of it: it changes that MAC alone, with what it raises. -/
theorem macStep_macEnqueue_any (n q : Nat) (f : List Byte) (s : State) : MacStep n s (macEnqueue n q f s).1 := by
  by_cases h : (s.mac n).fenced = true ∨ s.sys.snuffed = true ∨ TxClosed n q s
  · rw [macEnqueue_refused h]
    exact .refl n s
  · obtain ⟨hfree, hserves, hopen⟩ : (s.mac n).fenced = false ∧ s.sys.snuffed = false ∧ ¬ TxClosed n q s := by simpa using h
    exact macStep_macEnqueue hfree hserves hopen

section
variable {d : Dom} {event : Bool} {o : PtpOut} {s : State}

theorem ptpSend_frame (d : Dom) (event : Bool) (o : PtpOut) (s : State) :
    let t := (ptpSend d event o s).1
    t = { s with macs := t.macs, regs := t.regs, sys := t.sys, freeCount := s.freeCount + 1 } :=
  (macStep_macEnqueue_any ..).frame

theorem ptpSend_ptu (d : Dom) (event : Bool) (o : PtpOut) (s : State) : (ptpSend d event o s).1.ptu = s.ptu := by rw [ptpSend_frame]

/-- A port sends a message, and is q from then on. -/
def PortSent (d : Dom) (r : State × TxAnswer) (q : PtpPort) (s t : State) : Prop :=
  t = { r.1 with ptu := s.ptu.setPort d q } ∧ r.1 = { s with macs := r.1.macs, regs := r.1.regs, sys := r.1.sys, freeCount := s.freeCount + 1 }

theorem updPort_ptpSend (f : PtpPort → PtpPort) :
    PortSent d (ptpSend d event o s) (f (s.ptu.port d)) s (updPort d f (ptpSend d event o s).1) := by
  have hptu : (updPort d f (ptpSend d event o s).1).ptu = s.ptu.setPort d (f (s.ptu.port d)) :=
    congrArg (fun p : Ptu => p.setPort d (f (p.port d))) (ptpSend_ptu d event o s)
  refine ⟨?_, ptpSend_frame ..⟩
  rw [← hptu]
  rfl

end

/-! ### A port that serves as MASTER (R276, R282) -/

/-- The port of d serves as MASTER and sends. -/
abbrev ServesAsMaster (s : State) (d : Dom) : Prop :=
  (s.ptu.port d).en = true ∧ (s.ptu.port d).faulty = false ∧ s.sys.snuffed = false ∧ roleMaster s d = true ∧ s.sys.standby = false

/-- The state of a port with ROLE MASTER_ONLY is MASTER just where STANDBY is 0. -/
theorem portState_master {d : Dom} {s : State} (hen : (s.ptu.port d).en = true) (hfaulty : (s.ptu.port d).faulty = false) :
    portState s d = 6 ↔ roleMaster s d = true ∧ s.sys.standby = false := by
  unfold portState
  simp only [hen, hfaulty]
  cases roleMaster s d with
  | true => cases s.sys.standby <;> simp
  | false =>
    have hslave : (if (s.ptu.port d).best.isNone then 4 else if (s.ptu.port d).locked then 9 else 8) ≠ 6 := by
      cases (s.ptu.port d).best.isNone <;> cases (s.ptu.port d).locked <;> decide
    simpa using hslave

theorem isMaster_iff {d : Dom} {s : State} : isMaster s d = true ↔ ServesAsMaster s d := by
  by_cases hup : PortUp s d
  · simp [isMaster, portSends, ServesAsMaster, hup.1, hup.2, portState_master hup.1 hup.2]
  · refine ⟨fun h => absurd ?_ hup, fun h => absurd ⟨h.1, h.2.1⟩ hup⟩
    simp only [isMaster, portSends, Bool.and_eq_true, Bool.not_eq_true'] at h
    exact ⟨h.1.1.1, h.1.1.2⟩

section
variable {d : Dom} {c : Nat} {s : State}

theorem serves_and_iff {b : Bool} : (isMaster s d && b) = true ↔ ServesAsMaster s d ∧ b = true := by rw [Bool.and_eq_true, isMaster_iff]

theorem not_serves_and {b : Bool} (h : ¬ ServesAsMaster s d ∨ b = false) : ¬ (isMaster s d && b) = true := fun hboth => by
  obtain ⟨hserves, rfl⟩ := serves_and_iff.mp hboth
  exact h.elim (absurd hserves) nofun

theorem announceSend_idle (h : ¬ ServesAsMaster s d ∨ annDue s d = false) : announceSend d s = s := if_neg (not_serves_and h)

theorem syncSend_idle (h : ¬ ServesAsMaster s d ∨ syncDue s d = false) : syncSend d c s = s := if_neg (not_serves_and h)

/-- The body of an Announce (R282, Table 10.7). -/
def announceBody (s : State) (d : Dom) : List Byte :=
  let q := s.reg (domReg d 0x60)
  let v := s.reg (domReg d 0x64)
  ptpStamp 0 ++ beBytes 2 (bits (s.reg (domReg d 0x68)) 0 16) ++ beBytes 1 0 ++ beBytes 1 (bits v 16 8)
    ++ beBytes 1 (if s.sys.holdover then bits q 8 8 else bits q 0 8) ++ beBytes 1 (bits q 16 8) ++ beBytes 2 (bits v 0 16)
    ++ beBytes 1 (bits v 24 8) ++ beBytes 8 (clockId s d) ++ beBytes 2 0 ++ beBytes 1 (bits q 24 8)

theorem clockId_lt (s : State) (d : Dom) : clockId s d < 256 ^ 8 := by
  have hhi := (s.reg (domReg d 0x70)).isLt
  have hlo := (s.reg (domReg d 0x6C)).isLt
  unfold clockId
  omega

/-- The class, the identity and stepsRemoved stand at their places of an Announce. -/
theorem announceBody_fields (s : State) (d : Dom) :
    octs (announceBody s d) 14 1 = s.fld (domReg d 0x60) (if s.sys.holdover = true then 8 else 0) 8 ∧
      octs (announceBody s d) 19 8 = clockId s d ∧ octs (announceBody s d) 27 2 = 0 := by
  have hclass : (if s.sys.holdover then bits (s.reg (domReg d 0x60)) 8 8 else bits (s.reg (domReg d 0x60)) 0 8) =
      s.fld (domReg d 0x60) (if s.sys.holdover = true then 8 else 0) 8 := by
    rw [State.fld]
    split <;> rfl
  have hsmall : s.fld (domReg d 0x60) (if s.sys.holdover = true then 8 else 0) 8 < 256 ^ 1 := Nat.mod_lt _ (by decide)
  simp only [announceBody, List.append_assoc, hclass]
  refine ⟨?_, ?_, ?_⟩
  · simp only [octs_behind, length_ptpStamp, length_beBytes, Nat.reduceLeDiff, Nat.reduceSub, octs_front]
    exact Nat.mod_eq_of_lt hsmall
  · simp only [octs_behind, length_ptpStamp, length_beBytes, Nat.reduceLeDiff, Nat.reduceSub, octs_front]
    exact Nat.mod_eq_of_lt (clockId_lt s d)
  · simp only [octs_behind, length_ptpStamp, length_beBytes, Nat.reduceLeDiff, Nat.reduceSub, octs_front]
    rfl

/-- The flags of an Announce: timePropertiesDS by MASTER_UTC. -/
def announceFlags (s : State) (d : Dom) : Nat :=
  let u := s.reg (domReg d 0x68)
  8 + bits u 17 1 + 2 * bits u 18 1 + 4 * bits u 16 1

theorem announceSend_due (hserves : ServesAsMaster s d) (hdue : annDue s d = true) :
    PortSent d (ptpSend d false { typ := 11, seq := (s.ptu.port d).annSeq, flags := announceFlags s d, control := 5, logInt := logAnn s d
                                  body := announceBody s d } s)
      { s.ptu.port d with annSeq := ((s.ptu.port d).annSeq + 1) % 65536, annAt := some s.sys.tick } s (announceSend d s) := by
  rw [show announceSend d s = _ from if_pos (serves_and_iff.mpr ⟨hserves, hdue⟩)]
  exact updPort_ptpSend _

theorem syncSend_due (hserves : ServesAsMaster s d) (hdue : syncDue s d = true) :
    let o := originOf s d (toStamp c)
    let r := ptpSend d true { typ := 0, seq := (s.ptu.port d).syncSeq, corr := o.2, control := 0, logInt := logSync s d, body := o.1 } s
    PortSent d r { s.ptu.port d with syncSeq := ((s.ptu.port d).syncSeq + 1) % 65536, syncAt := some s.sys.tick
                                     txEvt := if r.2 = .ok then ((s.ptu.port d).txEvt + 1) % 2 ^ 32 else (s.ptu.port d).txEvt }
      s (syncSend d c s) := by
  rw [show syncSend d c s = _ from if_pos (serves_and_iff.mpr ⟨hserves, hdue⟩)]
  exact updPort_ptpSend _

end

/-! ### Delay_Req (R279, R280, R282) -/

/-- What a MASTER port answers to a Delay_Req: the receive time, its sub-nanosecond part less the request's correction. -/
def delayAnswer (s : State) (d : Dom) (x : PtpMsg) : PtpOut :=
  let y := rxTime s d x.mac x.stamp
  { typ := 9, seq := x.seq, control := 3, logInt := logDreq s d, corr := floorDivI (y % (2 ^ 32 : Int)) (2 ^ 16) - x.corr
    body := ptpStamp (floorDivI y (2 ^ 32)) ++ beBytes 8 x.src ++ beBytes 2 x.srcPort }

/-- What a port with ROLE MASTER_ONLY does with a Delay_Req. -/
def delayReqTake (d : Dom) (x : PtpMsg) (s : State) : State := if isMaster s d then (ptpSend d false (delayAnswer s d x) s).1 else s

/-- A slave's port sends its next Delay_Req. -/
abbrev RequestDue (s : State) (d : Dom) : Prop :=
  (s.ptu.port d).en = true ∧ (s.ptu.port d).faulty = false ∧ s.sys.snuffed = false ∧ roleMaster s d = false ∧ (s.ptu.port d).best ≠ none ∧
    ∀ a, (s.ptu.port d).reqAt = some a → a + logTicks s (logDreq s d) ≤ s.sys.tick

section
variable {d : Dom} {w : PtpMsg} {c : Nat} {s : State}

theorem delayReqReceive_eq (d : Dom) (w : PtpMsg) (s : State) : delayReqReceive d w s = withMsg d w false (delayReqTake d) s := rfl

theorem servesAsMaster_stampTaken : ServesAsMaster (stampTaken w s) d ↔ ServesAsMaster s d := by
  rw [ServesAsMaster, port_stampTaken]
  rfl

theorem delayAnswer_stampTaken (x : PtpMsg) : delayAnswer (stampTaken w s) d x = delayAnswer s d x := by
  have htime : rxTime (stampTaken w s) d x.mac x.stamp = rxTime s d x.mac x.stamp := by
    rw [rxTime, stampTaken, dom_setStamps]
    rfl
  rw [delayAnswer, htime]
  rfl

theorem delayReqReceive_stamps (h : s.stamps w.mac ≠ []) (n : Nat) :
    (delayReqReceive d w s).stamps n = if n = w.mac then (s.stamps n).tail else s.stamps n := by
  have hptu : ∀ t : State, t.ptu.stamps = (stampTaken w s).ptu.stamps → t.stamps n = if n = w.mac then (s.stamps n).tail else s.stamps n :=
    fun t ht => (congrArg (Tab.get _ · n) ht).trans (stamps_stampTaken w s n)
  rw [delayReqReceive_eq, withMsg_held h]
  apply hptu
  split
  · split
    · unfold delayReqTake
      split
      · rw [ptpSend_ptu]
      · rfl
    · exact setPort_stamps ..
  · rfl

theorem stampTaken_frame (w : PtpMsg) (s : State) : stampTaken w s = { s with ptu := { s.ptu with stamps := (stampTaken w s).ptu.stamps } } := rfl

theorem rxOther_stampTaken_frame (d : Dom) (w : PtpMsg) (s : State) :
    let t := rxOther d (stampTaken w s)
    t = { s with ptu := { s.ptu.setPort d { s.ptu.port d with rxOther := ((s.ptu.port d).rxOther + 1) % 2 ^ 32 } with stamps := t.ptu.stamps } } := by
  cases d <;> rfl

theorem delayReqReceive_spec (h : s.stamps w.mac ≠ []) :
    let p := s.ptu.port d
    let x := stamped w s
    let t := delayReqReceive d w s
    let fits : Prop := msgFits s d x = true ∧ roleMaster s d = true
    (∀ n, t.stamps n = if n = w.mac then (s.stamps n).tail else s.stamps n) ∧
      (¬ PortUp s d → t = { s with ptu := { s.ptu with stamps := t.ptu.stamps } }) ∧
      (PortUp s d → ¬ fits →
        t = { s with ptu := { s.ptu.setPort d { p with rxOther := (p.rxOther + 1) % 2 ^ 32 } with stamps := t.ptu.stamps } }) ∧
      (PortUp s d → fits → ¬ ServesAsMaster s d → t = { s with ptu := { s.ptu with stamps := t.ptu.stamps } }) ∧
      (PortUp s d → fits → ServesAsMaster s d → t = (ptpSend d false (delayAnswer s d x) (stampTaken w s)).1) := by
  intro p x t fits
  have hfits (hup : PortUp s d) (hf : fits) : t = delayReqTake d x (stampTaken w s) := withMsg_fits h hup hf
  refine ⟨delayReqReceive_stamps h, fun hup => ?_, fun hup hf => ?_, fun hup hf hidle => ?_, fun hup hf hserves => ?_⟩
  · rw [show t = _ from withMsg_down h hup]
    exact stampTaken_frame w s
  · rw [show t = _ from withMsg_other h hup hf]
    exact rxOther_stampTaken_frame d w s
  · rw [hfits hup hf, delayReqTake, if_neg (mt isMaster_iff.mp (mt servesAsMaster_stampTaken.mp hidle))]
    exact stampTaken_frame w s
  · rw [hfits hup hf, delayReqTake, if_pos (isMaster_iff.mpr (servesAsMaster_stampTaken.mpr hserves)), delayAnswer_stampTaken]

/-- A Delay_Req is sent, or refused by the MAC. -/
def delayReqSent (d : Dom) (c : Nat) (s : State) : State :=
  let o := originOf s d (toStamp c)
  let seq := ((s.ptu.port d).reqSeq + 1) % 65536
  let r := ptpSend d true { typ := 1, seq := seq, corr := o.2, control := 1, logInt := 127, body := o.1 } s
  if r.2 = .ok then
    updPort d (fun p => { p with reqSeq := seq, t3 := some (floorDivI (txTime s d (domLink s d) (toStamp c)) (2 ^ 16)), msT3 := p.ms
                                 reqAt := some s.sys.tick, txEvt := (p.txEvt + 1) % 2 ^ 32 }) r.1
  else updPort d (fun p => { p with reqAt := some s.sys.tick }) r.1

theorem delayReqSend_eq (d : Dom) (c : Nat) (s : State) : delayReqSend d c s = if RequestDue s d then delayReqSent d c s else s := by
  unfold delayReqSend
  extract_lets p due seq o t3 t r
  have hdue : due = true ↔ ∀ a, p.reqAt = some a → a + logTicks s (logDreq s d) ≤ s.sys.tick := by
    unfold due
    cases p.reqAt <;> simp
  refine if_congr ?_ rfl rfl
  simp [portSends, hdue, Option.isSome_iff_ne_none, and_assoc, RequestDue, p]

theorem delayReqSent_spec (d : Dom) (c : Nat) (s : State) :
    let p := s.ptu.port d
    let seq := (p.reqSeq + 1) % 65536
    let o := originOf s d (toStamp c)
    let r := ptpSend d true { typ := 1, seq := seq, corr := o.2, control := 1, logInt := 127, body := o.1 } s
    PortSent d r
      (if r.2 = .ok then { p with reqSeq := seq, t3 := some (floorDivI (txTime s d (domLink s d) (toStamp c)) (2 ^ 16)), msT3 := p.ms
                                  reqAt := some s.sys.tick, txEvt := (p.txEvt + 1) % 2 ^ 32 }
       else { p with reqAt := some s.sys.tick }) s (delayReqSent d c s) := by
  intro p seq o r
  unfold delayReqSent
  dsimp only
  split
  · exact updPort_ptpSend _
  · exact updPort_ptpSend _

end

/-! ### UPD (R269, R270, R284) -/

section
variable {m : Master} {d : Dom} {s : State}

/-- RATE of a domain as the host has written it. -/
abbrev hostRate (s : State) (d : Dom) : Nat := s.fld (domReg d 0x2C) 0 16 * 2 ^ 32 + (s.reg (domReg d 0x28)).toNat

/-- STEP of a domain as the host has written it. -/
abbrev hostStep (s : State) (d : Dom) : Int := sInt 64 ((s.reg (domReg d 0x34)).toNat * 2 ^ 32 + (s.reg (domReg d 0x30)).toNat) * 2 ^ 32

/-- The host may set the domain to its rate. -/
abbrev HostMayUpdate (s : State) (d : Dom) : Prop :=
  servoEn s d = false ∧ nominalRate ≤ hostRate s d + 2 ^ 36 ∧ hostRate s d ≤ nominalRate + 2 ^ 36

/-- The domain with the host's rate and step. -/
def hostUpdated (d : Dom) (s : State) : State :=
  updPtu (fun p => p.setDom d ((p.dom d).update p.counter (hostRate s d) (hostStep s d))) s

theorem ptuUpd_eq (d : Dom) (s : State) : ptuUpd d s = if HostMayUpdate s d then evt .ptu 2 (hostUpdated d s) else evt .ptu 4 s := by
  have hrefused : (servoEn s d || !rateValid (hostRate s d)) = true ↔ ¬ HostMayUpdate s d := by
    simp only [HostMayUpdate, rateValid, Bool.or_eq_true, Bool.not_eq_true', decide_eq_false_iff_not]
    cases servoEn s d <;> simp
  by_cases h : HostMayUpdate s d
  · exact (if_neg (mt hrefused.mp (not_not.mpr h))).trans (if_pos h).symm
  · exact (if_pos (hrefused.mpr h)).trans (if_neg h).symm

theorem upd_spec (hreach : Reaches m s) :
    ∃ t, exec (.upd m d) s = .next t ∧ t.resp m = ⟨.ok, []⟩ ∧
      (¬ HostMayUpdate s d → t = { s with bus := t.bus, regs := t.regs } ∧ t.rbit (Blk.ptu.base + 0x40) 4 = true) ∧
      (HostMayUpdate s d → t = { s with bus := t.bus, regs := t.regs, ptu := s.ptu.setDom d (t.ptu.dom d) } ∧
        t.rbit (Blk.ptu.base + 0x40) 2 = true ∧ t.ptu.dom d = (s.ptu.dom d).update s.ptu.counter (hostRate s d) (hostStep s d)) := by
  refine ⟨_, congrArg Host.Outcome.next (cmd_ok hreach (.inl rfl)), resp_respond_same .., fun hno => ?_, fun hmay => ?_⟩
  · rw [ptuUpd_eq, if_neg hno]
    exact ⟨rfl, evt_rbit .ptu (by decide) s⟩
  · have hdom : (hostUpdated d s).ptu.dom d = (s.ptu.dom d).update s.ptu.counter (hostRate s d) (hostStep s d) := dom_setDom ..
    rw [ptuUpd_eq, if_pos hmay]
    refine ⟨?_, evt_rbit .ptu (by decide) (hostUpdated d s), hdom⟩
    rw [respond_ptu, evt_ptu, hdom]
    rfl

end
end Sys2Proof.Machine
end

section
/-! SUPPORT. PTU's CTRL: the ports that are enabled and disabled, and the obligation on the master (Table 10.5, R284). -/
namespace Sys2Proof.Machine
open Sys2Proof

/-! ### One port follows its bit -/

/-- A port once its bit of CTRL is v, in tick t: enabled it listens; disabled it loses its masters and its lock, and keeps its integral. -/
def PtpPort.followed (v : Bool) (t : Nat) (p : PtpPort) : PtpPort :=
  if v = p.en then p
  else if v then { p with en := true, faulty := false, syncSince := some t }
  else { p with locked := false, en := false, masters := [], best := none, mpd := none, ms := none, msT3 := none, t3 := none, twoStep := none, good := 0, syncSince := none, annAt := none }

/-- A domain once the bit of its port p is v: one that an uncorrectable error hit restarts from SEL. -/
def Ptu.restarted (u : Ptu) (v : Bool) (p : PtpPort) (x : TimePar) : TimePar :=
  if v = true ∧ p.en = false ∧ p.faulty = true then ⟨u.counter, (timeNow u.sel u.counter % (2 ^ 96 : Int)).toNat, u.sel.rate⟩ else x

/-- The port of d follows its bit of CTRL. -/
def portFollows (d : Dom) (v : Bool) (s : State) : State := if v then portEnable d s else portDisable d s

theorem ptuCtrlWrite_eq (v : Word) (s : State) :
    ptuCtrlWrite v s = portFollows .b (bit v 1) (portFollows .a (bit v 0) (s.setReg Blk.ptu.base (v &&& 3))) := rfl

/-- From s to t the port of d has followed its bit v, and nothing else but an event has changed. -/
structure Followed (d : Dom) (v : Bool) (s t : State) : Prop where
  frame : t = { s with regs := t.regs, ptu := t.ptu }
  ctrl : t.reg Blk.ptu.base = s.reg Blk.ptu.base
  sel : t.ptu.sel = s.ptu.sel
  counter : t.ptu.counter = s.ptu.counter
  port : t.ptu.port d = (s.ptu.port d).followed v s.sys.tick
  dom : t.ptu.dom d = s.ptu.restarted v (s.ptu.port d) (s.ptu.dom d)
  others : ∀ e, e ≠ d → t.ptu.port e = s.ptu.port e ∧ t.ptu.dom e = s.ptu.dom e

theorem setDom_sel (p : Ptu) (d : Dom) (x : TimePar) : (p.setDom d x).sel = p.sel := by cases d <;> rfl
@[simp] theorem setDom_dom (p : Ptu) (d : Dom) : p.setDom d (p.dom d) = p := by cases d <;> rfl
theorem setDom_counter (p : Ptu) (d : Dom) (x : TimePar) : (p.setDom d x).counter = p.counter := by cases d <;> rfl

section
variable {d : Dom} {s : State}

theorem followed_same {v : Bool} (h : v = (s.ptu.port d).en) : Followed d v s s where
  frame := rfl
  ctrl := rfl
  sel := rfl
  counter := rfl
  port := (if_pos h).symm
  dom := (if_neg fun hhit => absurd (h.symm.trans hhit.1) (by rw [hhit.2.1]; decide)).symm
  others _ _ := ⟨rfl, rfl⟩

/-- A domain that an uncorrectable error hit starts again from SEL. -/
def restartDomain (d : Dom) (s : State) : State := updPtu (fun u => u.setDom d (u.restarted true (u.port d) (u.dom d))) s

/-- A port that listens from now on. -/
def listen (t : Nat) (p : PtpPort) : PtpPort := { p with en := true, faulty := false, syncSince := some t }

/-- A port without its masters and its lock. -/
def shut (p : PtpPort) : PtpPort :=
  { p with en := false, masters := [], best := none, mpd := none, ms := none, msT3 := none, t3 := none, twoStep := none, good := 0, syncSince := none
           annAt := none }

theorem portEnable_listens (h : (s.ptu.port d).en = false) : portEnable d s = updPort d (listen s.sys.tick) (restartDomain d s) := by
  rw [portEnable]
  dsimp only
  rw [if_neg (by rw [h]; decide)]
  cases hfaulty : (s.ptu.port d).faulty with
  | true =>
    have hrestart : restartDomain d s =
        { s with ptu := s.ptu.setDom d ⟨s.ptu.counter, (timeNow s.ptu.sel s.ptu.counter % (2 ^ 96 : Int)).toNat, s.ptu.sel.rate⟩ } :=
      congrArg (fun x => { s with ptu := s.ptu.setDom d x }) (if_pos ⟨rfl, h, hfaulty⟩)
    rw [hrestart]
    rfl
  | false =>
    have hkept : restartDomain d s = { s with ptu := s.ptu.setDom d (s.ptu.dom d) } :=
      congrArg (fun x => { s with ptu := s.ptu.setDom d x }) (if_neg (by simp [hfaulty]))
    rw [hkept, setDom_dom]
    rfl

theorem followed_enable (h : (s.ptu.port d).en = false) : Followed d true s (portEnable d s) := by
  have hport : (s.ptu.port d).followed true s.sys.tick = listen s.sys.tick (s.ptu.port d) :=
    (if_neg (by rw [h]; decide)).trans (if_pos rfl)
  rw [portEnable_listens h]
  exact
    { frame := rfl
      ctrl := rfl
      sel := (setPort_sel ..).trans (setDom_sel ..)
      counter := (setPort_counter ..).trans (setDom_counter ..)
      port := by rw [port_updPort, hport, restartDomain, updPtu, port_setDom]
      dom := (dom_setPort ..).trans (dom_setDom ..)
      others := fun e he => ⟨(port_setPort_ne he _).trans (port_setDom ..), (dom_setPort ..).trans (dom_setDom_ne he _)⟩ }

theorem setLocked_ptu (d : Dom) (v : Bool) (s : State) : (setLocked d v s).ptu = s.ptu.setPort d { s.ptu.port d with locked := v } := by
  unfold setLocked
  split
  next h =>
    rw [← h]
    exact (setPort_port ..).symm
  next => rfl

theorem setLocked_ctrl (d : Dom) (v : Bool) (s : State) : (setLocked d v s).reg Blk.ptu.base = s.reg Blk.ptu.base := by
  unfold setLocked
  split
  · rfl
  · exact (evt_reg ..).trans (if_neg (by decide))

theorem followed_disable (h : (s.ptu.port d).en = true) : Followed d false s (portDisable d s) := by
  have hshut : portDisable d s = updPort d shut (setLocked d false s) := if_neg (by rw [h]; decide)
  have hport : (s.ptu.port d).followed false s.sys.tick = shut { s.ptu.port d with locked := false } :=
    (if_neg (by rw [h]; decide)).trans (if_neg (by decide))
  have hptu : (updPort d shut (setLocked d false s)).ptu = s.ptu.setPort d (shut { s.ptu.port d with locked := false }) := by
    rw [updPort, updPtu, setLocked_ptu, port_setPort, setPort_setPort]
  rw [hshut]
  exact
    { frame := by
        unfold setLocked
        split <;> rfl
      ctrl := setLocked_ctrl d false s
      sel := by rw [hptu, setPort_sel]
      counter := by rw [hptu, setPort_counter]
      port := by rw [hptu, port_setPort, hport]
      dom := by
        rw [hptu, dom_setPort, Ptu.restarted, if_neg (by simp)]
      others := fun e he => by
        rw [hptu, port_setPort_ne he, dom_setPort]
        exact ⟨rfl, rfl⟩ }

/-- A port whose bit says what it is stays as it is; another follows its bit. -/
theorem portFollows_followed (d : Dom) (v : Bool) (s : State) : Followed d v s (portFollows d v s) := by
  cases v with
  | true =>
    cases hen : (s.ptu.port d).en with
    | true =>
      rw [show portFollows d true s = s from if_pos hen]
      exact followed_same hen.symm
    | false => exact followed_enable hen
  | false =>
    cases hen : (s.ptu.port d).en with
    | true => exact followed_disable hen
    | false =>
      have hsame : portDisable d s = s := if_pos (by rw [hen]; rfl)
      rw [show portFollows d false s = s from hsame]
      exact followed_same hen.symm

/-! ### Both ports -/

/-- A write of CTRL: both ports follow their bits. -/
theorem ptuCtrlWrite_spec (v : Word) (s : State) :
    let t := ptuCtrlWrite v s
    t = { s with regs := t.regs, ptu := t.ptu } ∧ t.reg Blk.ptu.base = v &&& 3 ∧ t.ptu.sel = s.ptu.sel ∧ t.ptu.counter = s.ptu.counter ∧
      ∀ d : Dom, t.ptu.port d = (s.ptu.port d).followed (bit v d.idx) s.sys.tick ∧
        t.ptu.dom d = s.ptu.restarted (bit v d.idx) (s.ptu.port d) (s.ptu.dom d) := by
  have hA := portFollows_followed .a (bit v 0) (s.setReg Blk.ptu.base (v &&& 3))
  have hB := portFollows_followed .b (bit v 1) (portFollows .a (bit v 0) (s.setReg Blk.ptu.base (v &&& 3)))
  rw [ptuCtrlWrite_eq]
  generalize portFollows .a (bit v 0) (s.setReg Blk.ptu.base (v &&& 3)) = u at hA hB ⊢
  generalize portFollows .b (bit v 1) u = t at hB ⊢
  obtain ⟨hportA, hdomA⟩ := hB.others .a (by decide)
  obtain ⟨hportB, hdomB⟩ := hA.others .b (by decide)
  have htick : u.sys = s.sys := by rw [hA.frame]; rfl
  refine ⟨?_, ?_, hB.sel.trans hA.sel, hB.counter.trans hA.counter, fun d => ?_⟩
  · rw [hB.frame, hA.frame]
    rfl
  · rw [hB.ctrl, hA.ctrl, reg_setReg_same]
  · cases d with
    | a => exact ⟨hportA.trans hA.port, hdomA.trans hA.dom⟩
    | b =>
      have hdom := hB.dom
      rw [Ptu.restarted, hA.sel, hA.counter, hportB, hdomB] at hdom
      exact ⟨by rw [hB.port, hportB, htick]; rfl, hdom⟩

end

/-! ### The commands -/

section
variable {m : Master} {d e : Dom} {s : State}

theorem bit_enabling (d e : Dom) (v : Word) : bit (v ||| bm d.idx) e.idx = (bit v e.idx || decide (e = d)) := by
  rw [bit_or]
  cases d <;> cases e <;> rfl

theorem bit_disabling (d e : Dom) (v : Word) : bit (v &&& ~~~bm d.idx) e.idx = (bit v e.idx && decide (e ≠ d)) := by
  rw [bit_and]
  cases d <;> cases e <;> rfl

/-- CTRL holds the bits of the two domains. -/
theorem bit_ctrl (d : Dom) (v : Word) : bit (v &&& 3) d.idx = bit v d.idx := by
  have hmask : bit 3 d.idx = true := by cases d <;> rfl
  rw [bit_and, hmask, Bool.and_true]

theorem followed_self (p : PtpPort) (t : Nat) : p.followed p.en t = p := if_pos rfl

theorem restarted_self (u : Ptu) (p : PtpPort) (x : TimePar) : u.restarted p.en p x = x :=
  if_neg fun hhit => absurd (hhit.1.symm.trans hhit.2.1) (by decide)

/-- What a write of CTRL by a command shows: the answer, the frame, the bit of d, and every other port whose bit says what it is. -/
theorem ptuCtrlCmd_spec (hmay : MayWrite m s) (f : Word → Word) (hf : ∀ e ≠ d, ∀ v, bit (f v) e.idx = bit v e.idx) :
    let t := cmd m true (fun s => ptuCtrlWrite (f (s.reg Blk.ptu.base)) s) s
    let v := bit (f (s.reg Blk.ptu.base)) d.idx
    t.resp m = ⟨.ok, []⟩ ∧ t = { s with bus := t.bus, regs := t.regs, ptu := t.ptu } ∧
      (∀ e, e ≠ d → s.rbit Blk.ptu.base e.idx = (s.ptu.port e).en → t.ptu.port e = s.ptu.port e ∧ t.ptu.dom e = s.ptu.dom e) ∧
      t.rbit Blk.ptu.base d.idx = v ∧ t.ptu.sel = s.ptu.sel ∧ t.ptu.counter = s.ptu.counter ∧
      t.ptu.port d = (s.ptu.port d).followed v s.sys.tick ∧ t.ptu.dom d = s.ptu.restarted v (s.ptu.port d) (s.ptu.dom d) := by
  intro t v
  have ht : t = respond m .ok [] (ptuCtrlWrite (f (s.reg Blk.ptu.base)) s) := cmd_ok hmay.1 (.inr hmay.2)
  obtain ⟨hframe, hctrl, hsel, hcounter, hports⟩ := ptuCtrlWrite_spec (f (s.reg Blk.ptu.base)) s
  rw [ht]
  refine ⟨resp_respond_same .., ?_, fun e he hbit => ?_, ?_, hsel, hcounter, hports d⟩
  · exact congrArg (respond m .ok []) hframe |>.trans (by rw [hframe]; rfl)
  · obtain ⟨hport, hdom⟩ := hports e
    rw [hf e he, ← State.rbit, hbit] at hport hdom
    exact ⟨hport.trans (followed_self ..), hdom.trans (restarted_self ..)⟩
  · exact (congrArg (bit · d.idx) hctrl).trans (bit_ctrl ..)

theorem ptpPortEnable_spec (hmay : MayWrite m s) :
    let p := s.ptu.port d
    ∃ t, exec (.ptpPortEnable m d) s = .next t ∧ t.resp m = ⟨.ok, []⟩ ∧ t = { s with bus := t.bus, regs := t.regs, ptu := t.ptu } ∧
      (∀ e, e ≠ d → s.rbit Blk.ptu.base e.idx = (s.ptu.port e).en → t.ptu.port e = s.ptu.port e ∧ t.ptu.dom e = s.ptu.dom e) ∧
      t.rbit Blk.ptu.base d.idx = true ∧ t.ptu.sel = s.ptu.sel ∧ t.ptu.counter = s.ptu.counter ∧
      t.ptu.port d = (if p.en = true then p else { p with en := true, faulty := false, syncSince := some s.sys.tick }) ∧
      t.ptu.dom d = (if p.en = false ∧ p.faulty = true then
        ⟨s.ptu.counter, (timeNow s.ptu.sel s.ptu.counter % (2 ^ 96 : Int)).toNat, s.ptu.sel.rate⟩ else s.ptu.dom d) := by
  have hbit : bit (s.reg Blk.ptu.base ||| bm d.idx) d.idx = true := by simp [bit_enabling]
  have hspec := ptuCtrlCmd_spec (d := d) hmay (· ||| bm d.idx) fun e he v => by simp [bit_enabling, he]
  simp only [hbit] at hspec
  obtain ⟨hresp, hframe, hothers, hset, hsel, hcounter, hport, hdom⟩ := hspec
  refine ⟨_, rfl, hresp, hframe, hothers, hset, hsel, hcounter, hport.trans ?_, hdom.trans ?_⟩
  · exact if_congr eq_comm rfl (if_pos rfl)
  · exact if_congr (by simp) rfl rfl

theorem ptpPortDisable_spec (hmay : MayWrite m s) :
    let p := s.ptu.port d
    ∃ t, exec (.ptpPortDisable m d) s = .next t ∧ t.resp m = ⟨.ok, []⟩ ∧ t = { s with bus := t.bus, regs := t.regs, ptu := t.ptu } ∧
      (∀ e, e ≠ d → s.rbit Blk.ptu.base e.idx = (s.ptu.port e).en → t.ptu.port e = s.ptu.port e ∧ t.ptu.dom e = s.ptu.dom e) ∧
      t.rbit Blk.ptu.base d.idx = false ∧ t.ptu.dom d = s.ptu.dom d ∧ t.ptu.sel = s.ptu.sel ∧ t.ptu.counter = s.ptu.counter ∧
      (p.en = false → t.ptu.port d = p) ∧
      (p.en = true → (t.ptu.port d).en = false ∧ (t.ptu.port d).locked = false ∧ (t.ptu.port d).masters = [] ∧ (t.ptu.port d).best = none ∧
        (t.ptu.port d).mpd = none ∧ (t.ptu.port d).fi = p.fi) := by
  intro p
  have hbit : bit (s.reg Blk.ptu.base &&& ~~~bm d.idx) d.idx = false := by simp [bit_disabling]
  have hspec := ptuCtrlCmd_spec (d := d) hmay (· &&& ~~~bm d.idx) fun e he v => by simp [bit_disabling, he]
  simp only [hbit] at hspec
  obtain ⟨hresp, hframe, hothers, hclear, hsel, hcounter, hport, hdom⟩ := hspec
  refine ⟨_, rfl, hresp, hframe, hothers, hclear, hdom.trans (if_neg (by simp)), hsel, hcounter, fun hoff => ?_, fun hon => ?_⟩
  · exact hport.trans (if_pos hoff.symm)
  · have hshut : p.followed false s.sys.tick = shut { p with locked := false } := (if_neg (by rw [hon]; decide)).trans (if_neg (by decide))
    rw [show _ = _ from hport, hshut]
    exact ⟨rfl, rfl, rfl, rfl, rfl, rfl⟩

end

/-! ### The obligation -/

/-- Settles O41: a message is sent by one hand-over to the MAC; a Delay_Req is taken as its port stands; CTRL by its two bits. -/
theorem ptpMasterAndControl : Obligations.PtpMasterAndControl := by
  intro s m d w c
  refine ⟨fun h => congrArg Host.Outcome.next (announceSend_idle h), fun hserves hdue => ⟨_, rfl, announceFlags s d, announceBody s d, ?_⟩,
    fun h => congrArg Host.Outcome.next (syncSend_idle h), fun hserves hdue => ⟨_, rfl, syncSend_due hserves hdue⟩,
    fun h => congrArg Host.Outcome.next (withMsg_unheld h), fun h => ⟨_, rfl, delayReqReceive_spec h⟩,
    ⟨fun h => congrArg Host.Outcome.next ((delayReqSend_eq d c s).trans (if_neg h)),
      fun h => ⟨_, congrArg Host.Outcome.next ((delayReqSend_eq d c s).trans (if_pos h)), delayReqSent_spec d c s⟩⟩,
    upd_spec, fun hmay => ⟨ptpPortEnable_spec hmay, ptpPortDisable_spec hmay⟩⟩
  exact ⟨announceSend_due hserves hdue, announceBody_fields s d⟩

end Sys2Proof.Machine
end

section
/-! SUPPORT. What the work of a snuff and of a tick leaves as it is: the snuffed state and its cause, a RUN that is 0, a STANDBY that is 1, a
DRIVE_EN that is low, and the faults noted in a FAULT_STATUS (R22, R410, R411). One lemma for each operation of the model, and its proof is
the order of the operation's parts: `hs.put.settle` reads from s, a record update, then settle. -/
namespace Sys2Proof.Machine
open Sys2Proof

-- Many short lemmas elaborated at once would start more threads than the check's memory limit admits.
set_option Elab.async false

/-- What SYS keeps of a snuff and of the detections still due. -/
def sysCore (y : Sys) : Bool × Bool × Word × Bool × List (Blk × Nat) := (y.snuffed, y.alarm, y.snuffCause, y.monitorDue, y.redetect)

/-- SYS keeps its core, a RUN that is 0 and a STANDBY that is 1. -/
structure SysStays (y z : Sys) : Prop where
  core : sysCore z = sysCore y
  run : y.run = false → z.run = false
  standby : y.standby = true → z.standby = true

theorem SysStays.trans {x y z : Sys} (h : SysStays x y) (h' : SysStays y z) : SysStays x z :=
  ⟨h'.core.trans h.core, h'.run ∘ h.run, h'.standby ∘ h.standby⟩

/-- From s to t nothing of a snuff is undone, and no bit of the register a that is 1 becomes 0. -/
structure Steady (a : Nat) (s t : State) : Prop where
  sys : SysStays s.sys t.sys
  drive : s.pwr.driveEn = false → t.pwr.driveEn = false
  noted : ∀ i, s.rbit a i = true → t.rbit a i = true

theorem Steady.refl (a : Nat) (s : State) : Steady a s s := ⟨⟨rfl, id, id⟩, id, fun _ => id⟩

theorem Steady.snuffed {a : Nat} {s t : State} (h : Steady a s t) : t.sys.snuffed = s.sys.snuffed := congrArg (·.1) h.sys.core
theorem Steady.alarm {a : Nat} {s t : State} (h : Steady a s t) : t.sys.alarm = s.sys.alarm := congrArg (·.2.1) h.sys.core
theorem Steady.snuffCause {a : Nat} {s t : State} (h : Steady a s t) : t.sys.snuffCause = s.sys.snuffCause := congrArg (·.2.2.1) h.sys.core
theorem Steady.monitorDue {a : Nat} {s t : State} (h : Steady a s t) : t.sys.monitorDue = s.sys.monitorDue := congrArg (·.2.2.2.1) h.sys.core
theorem Steady.redetect {a : Nat} {s t : State} (h : Steady a s t) : t.sys.redetect = s.sys.redetect := congrArg (·.2.2.2.2) h.sys.core

/-! ### The work of a snuff -/

section
variable {a : Nat} {s₀ s : State} (hs : Steady a s₀ s)
include hs

/-- A record update that leaves the registers. -/
protected theorem Steady.put {q mem n bus sys hpa hpb sems bmx img ldg rails cells fabric ckpt mxe dly netRx portIn memUe poisoned macs ste ptu rsu
    apt aptRnd pwr lsp dma chk memc twc flc jtag pair} (hsys : SysStays s.sys sys := by exact ⟨rfl, id, id⟩)
    (hpwr : s.pwr.driveEn = false → pwr.driveEn = false := by exact id) :
    Steady a s₀ ⟨q, s.regs, mem, n, bus, sys, hpa, hpb, sems, bmx, img, ldg, rails, cells, fabric, ckpt, mxe, dly, netRx, portIn, memUe, poisoned,
      macs, ste, ptu, rsu, apt, aptRnd, pwr, lsp, dma, chk, memc, twc, flc, jtag, pair⟩ :=
  ⟨hs.sys.trans hsys, hpwr ∘ hs.drive, hs.noted⟩

protected theorem Steady.orReg {b m} : Steady a s₀ (s.orReg b m) := ⟨hs.sys, hs.drive, fun i h => rbit_orReg b m (hs.noted i h)⟩
protected theorem Steady.evt {b i} : Steady a s₀ (evt b i s) := hs.orReg

/-- A register above a is written. -/
protected theorem Steady.setReg {b v} (h : a < b) : Steady a s₀ (s.setReg b v) :=
  ⟨hs.sys, hs.drive, fun i hi => by rw [State.rbit, reg_setReg_ne _ _ h.ne]; exact hs.noted i hi⟩

protected theorem Steady.setFld {b lo n v} (h : a < b) : Steady a s₀ (s.setFld b lo n v) := hs.setReg h

protected theorem Steady.ite {c : Prop} {_ : Decidable c} {x y : State} (hx : Steady a s₀ s → Steady a s₀ x) (hy : Steady a s₀ s → Steady a s₀ y) :
    Steady a s₀ (if c then x else y) := by
  split
  · exact hx hs
  · exact hy hs

protected theorem Steady.when {c : Prop} {_ : Decidable c} {x : State} (hx : Steady a s₀ s → Steady a s₀ x) : Steady a s₀ (if c then x else s) :=
  hs.ite hx id

protected theorem Steady.unless {c : Prop} {_ : Decidable c} {x : State} (hx : Steady a s₀ s → Steady a s₀ x) : Steady a s₀ (if c then s else x) :=
  hs.ite id hx

protected theorem Steady.foldl {α : Type} {f : State → α → State} {l : List α} (hf : ∀ {t x}, Steady a s₀ t → Steady a s₀ (f t x)) :
    Steady a s₀ (l.foldl f s) :=
  l.foldlRecOn (motive := Steady a s₀) f hs fun _ ht _ _ => hf ht

/-- Any flag but a RUN that is set, ALARM, and a STANDBY that is cleared. -/
protected theorem Steady.setFlag {i v by_} (h : SysStays s.sys (s.sys.putFlag i v) := by exact ⟨rfl, id, id⟩) : Steady a s₀ (setFlag i v by_ s) :=
  hs.unless fun hs => .put (.orReg (hs.put h))

protected theorem Steady.settle : Steady a s₀ (settle s) := hs.setFlag.setFlag
protected theorem Steady.takeOverCell {p} : Steady a s₀ (takeOverCell p s) := hs.put.orReg
protected theorem Steady.stopSched {p} : Steady a s₀ (stopSched p s) := hs.when (·.takeOverCell.put)

protected theorem Steady.startProactive {p ce} : Steady a s₀ (startProactive p ce s) := by
  unfold startProactive
  split
  · exact hs.put.orReg
  · exact hs.put.put.put.put

protected theorem Steady.dequeueList {l : List (Nat × Bool)} : Steady a s₀ (dequeueList l s).2 := by
  induction l generalizing s with
  | nil => exact hs
  | cons e l ih =>
    unfold dequeueList
    split_ifs
    · exact hs
    · exact ih hs.put
    · exact ih hs
    · exact ih hs.startProactive

protected theorem Steady.dequeueMig : Steady a s₀ (dequeueMig s) := hs.dequeueList.put

protected theorem Steady.endMig {r spareRole} : Steady a s₀ (endMig r spareRole s) := by
  unfold endMig
  dsimp only
  split
  · exact hs
  · exact hs.put.put.put.stopSched.put.orReg

protected theorem Steady.abortMigs {r inShadow} : Steady a s₀ (abortMigs r inShadow s) := by
  unfold abortMigs
  dsimp only
  split
  · exact hs.foldl (·.put.orReg) |>.put
  · exact hs.foldl (·.put.orReg) |>.put |>.unless (·.endMig)

protected theorem Steady.abortRestores : Steady a s₀ (abortRestores s) := hs.foldl (·.when (·.put.when (·.put) |>.when (·.orReg)))
protected theorem Steady.boundNext : Steady a s₀ (boundNext s) := hs.put.put
protected theorem Steady.flushQueues {n qs} : Steady a s₀ (flushQueues n qs s) := hs.put.unless (·.put)
protected theorem Steady.flushAudio : Steady a s₀ (flushAudio s) := hs.foldl (·.flushQueues)

protected theorem Steady.lspBlocksOff {n} : Steady a s₀ (lspBlocksOff n s) := hs.put

protected theorem Steady.calEnd {r} : Steady a s₀ (calEnd r s) := hs.put

protected theorem Steady.blocksOff :
    Steady a s₀ ((upto 32).foldl (fun s n => if (s.spk n).estOk || (s.spk n).supOk then lspBlocksOff n s else s) s) :=
  hs.foldl (·.when (·.lspBlocksOff))

protected theorem Steady.lspSnuff : Steady a s₀ (lspSnuff s) := by
  unfold lspSnuff
  extract_lets t
  have ht : Steady a s₀ t := hs.blocksOff
  clear_value t
  exact ht.when (·.calEnd)

protected theorem Steady.modOff {n} : Steady a s₀ (modOff n s) := hs.put.put.when (·.evt) |>.when (·.evt)
protected theorem Steady.driveFall : Steady a s₀ (driveFall s) := hs.put (hpwr := fun _ => rfl) |>.foldl (·.when (·.modOff))
protected theorem Steady.driveCheck : Steady a s₀ (driveCheck s) := hs.when (·.driveFall)
protected theorem Steady.pwrRunRamp {up} : Steady a s₀ (pwrRunRamp up s) := hs.foldl (·.when (·.put.when (·.put)))
protected theorem Steady.unconfigure : Steady a s₀ (unconfigure s) := hs.when (·.put)
protected theorem Steady.coldCheck : Steady a s₀ (coldCheck s) := hs.when (·.unconfigure)
protected theorem Steady.loadFail {f} : Steady a s₀ (loadFail f s) := hs.put.put.boundNext.dequeueMig.evt.settle
protected theorem Steady.loadCut {e} : Steady a s₀ (loadCut e s) := hs.when (·.loadFail)

protected theorem Steady.endTests : Steady a s₀ (endTests s) := hs.put
protected theorem Steady.beginRamp {p} : Steady a s₀ (beginRamp p s) := hs.put
protected theorem Steady.updPair {f} : Steady a s₀ (s.updPair f) := hs.put

protected theorem Steady.runCleared {by_} : Steady a s₀ (runCleared by_ s) := by
  unfold runCleared
  refine hs.unless fun hs => ?_
  extract_lets t₁ t₂ t₃ t₄ t₅ c t₆
  have h₁ : Steady a s₀ t₁ := hs.setFlag ⟨rfl, fun _ => rfl, id⟩
  have h₄ : Steady a s₀ t₄ := h₁.blocksOff.abortMigs.endTests.flushAudio
  clear_value t₄
  split
  · exact h₄
  · exact h₄.put.unless (·.unconfigure) |>.driveCheck
  · exact h₄.beginRamp.pwrRunRamp.driveCheck

protected theorem Steady.setStandby {by_} : Steady a s₀ (setFlag 2 true by_ s) := hs.setFlag ⟨rfl, id, fun _ => rfl⟩
protected theorem Steady.log {c} : Steady a s₀ (SnuffBy.log c s) := by
  unfold SnuffBy.log
  split <;> exact hs.put

protected theorem Steady.ckptRestart : Steady a s₀ (ckptRestart s) := hs.put
protected theorem Steady.wickSnuff : Steady a s₀ (wickSnuff s) := hs.unless (·.evt) |>.ckptRestart |>.put

end

/-- A snuff's work once DRIVE_EN has fallen. -/
def snuffRest (s : State) : State :=
  settle (coldCheck (wickSnuff (abortRestores (loadCut .snuffed (lspSnuff ([0, 1, 2, 3].foldl (fun s n => flushQueues n allQueues s) s))))))

protected theorem Steady.snuffRest {a : Nat} {s₀ s : State} (hs : Steady a s₀ s) : Steady a s₀ (snuffRest s) :=
  hs.foldl (·.flushQueues) |>.lspSnuff.loadCut.abortRestores.wickSnuff.coldCheck.settle

/-- The state in which a snuff's work begins: the cause is logged and recorded, and SNUFFED is 1 (R411, R413). -/
def snuffEntered (c : SnuffBy) (s : State) : State := (c.log (snuffRecord c s)).updSys fun y => { y with snuffed := true }

theorem snuffLog_snuffed (c : SnuffBy) (s : State) : (c.log (snuffRecord c s)).sys.snuffed = s.sys.snuffed := by
  unfold SnuffBy.log
  split <;> simp [logPush, State.updSys, snuffRecord_sys]

theorem enterSnuff_eq (c : SnuffBy) {s : State} (h : s.sys.snuffed = false) :
    enterSnuff c s = snuffRest (driveFall (setFlag 2 true none (runCleared none (snuffEntered c s)))) := by
  unfold enterSnuff
  rw [if_neg (by simp [snuffLog_snuffed, h])]
  rfl

/-- A snuff in the snuffed state is logged and recorded, and nothing else (R411). -/
theorem enterSnuff_again (c : SnuffBy) {s : State} (h : s.sys.snuffed = true) : enterSnuff c s = c.log (snuffRecord c s) :=
  if_pos ((snuffLog_snuffed c s).trans h)

/-- What follows the entry undoes nothing of it. -/
theorem enterSnuff_steady (a : Nat) (c : SnuffBy) (s : State) : Steady a (snuffEntered c s) (enterSnuff c s) := by
  cases h : s.sys.snuffed with
  | true =>
    have hsnuffed := (snuffLog_snuffed c s).trans h
    rw [enterSnuff_again c h]
    exact ⟨⟨by simp [sysCore, snuffEntered, State.updSys, hsnuffed], id, id⟩, id, fun _ => id⟩
  | false =>
    rw [enterSnuff_eq c h]
    exact (Steady.refl a _).runCleared.setStandby.driveFall.snuffRest

theorem driveFall_driveEn (s : State) : (driveFall s).pwr.driveEn = false := by
  unfold driveFall
  extract_lets pwr t
  have ht : t.pwr.driveEn = false := rfl
  clear_value t
  exact Steady.drive ((Steady.refl 0 t).foldl (·.when (·.modOff))) ht

theorem coldCheck_pair (s : State) : (coldCheck s).pair = s.pair := by
  unfold coldCheck unconfigure
  split_ifs <;> rfl

theorem settle_pair (s : State) : (settle s).pair = s.pair := by rw [settle_frame]

theorem snuffRest_wick (s : State) : (snuffRest s).pair.wick = .disarmed := by
  rw [snuffRest, settle_pair, coldCheck_pair]
  rfl

theorem runCleared_run (o : Option HostId) (s : State) : (runCleared o s).sys.run = false := by
  cases hrun : s.sys.run with
  | false => simp [runCleared, hrun]
  | true => exact (runCleared_modes hrun).1.1

theorem setStandby_standby (o : Option HostId) (s : State) : (setFlag 2 true o s).sys.standby = true := by
  obtain ⟨_, h⟩ := setFlag_sys s 2 true o
  rw [h]
  rfl

theorem snuffEntered_core (c : SnuffBy) (s : State) : sysCore (snuffEntered c s).sys =
    (true, s.sys.alarm, if bit s.sys.snuffCause 31 then s.sys.snuffCause else c.cause, s.sys.monitorDue, s.sys.redetect) := by
  have hlog : sysCore (snuffEntered c s).sys = sysCore { (snuffRecord c s).sys with snuffed := true } := by
    unfold snuffEntered SnuffBy.log
    split <;> rfl
  rw [hlog, snuffRecord_sys]
  rfl

theorem snuffEntered_rbit (c : SnuffBy) (s : State) (a i : Nat) : (snuffEntered c s).rbit a i = s.rbit a i := by
  unfold snuffEntered SnuffBy.log
  split <;> rfl

theorem enterSnuff_snuffed (c : SnuffBy) (s : State) : (enterSnuff c s).sys.snuffed = true :=
  (enterSnuff_steady 0 c s).snuffed.trans (congrArg (·.1) (snuffEntered_core c s))

theorem enterSnuff_noted (c : SnuffBy) {s : State} {a i : Nat} (h : s.rbit a i = true) : (enterSnuff c s).rbit a i = true :=
  (enterSnuff_steady a c s).noted i ((snuffEntered_rbit c s a i).trans h)

/-- The chip s is in the snuffed state by c in t. -/
structure SnuffedBy (c : SnuffBy) (s t : State) : Prop where
  snuffed : t.sys.snuffed = true
  run : t.sys.run = false
  standby : t.sys.standby = true
  drive : t.pwr.driveEn = false
  wick : t.pair.wick = .disarmed
  alarm : t.sys.alarm = s.sys.alarm
  cause : bit s.sys.snuffCause 31 = false → t.sys.snuffCause = c.cause

theorem enterSnuff_spec (c : SnuffBy) {s : State} (h : s.sys.snuffed = false) : SnuffedBy c s (enterSnuff c s) := by
  have hcore := snuffEntered_core c s
  have hstart := enterSnuff_steady 0 c s
  rw [enterSnuff_eq c h] at hstart ⊢
  generalize snuffEntered c s = e at hcore hstart
  have hrun := (Steady.refl 0 (runCleared none e)).setStandby (by_ := none) |>.driveFall.snuffRest
  have hstandby := (Steady.refl 0 (setFlag 2 true none (runCleared none e))).driveFall.snuffRest
  have hdrive := (Steady.refl 0 (driveFall (setFlag 2 true none (runCleared none e)))).snuffRest
  exact {
    snuffed := hstart.snuffed.trans (congrArg (·.1) hcore)
    run := hrun.sys.run (runCleared_run none e)
    standby := hstandby.sys.standby (setStandby_standby none _)
    drive := hdrive.drive (driveFall_driveEn _)
    wick := snuffRest_wick _
    alarm := hstart.alarm.trans (congrArg (·.2.1) hcore)
    cause := fun hvalid => (hstart.snuffCause.trans (congrArg (·.2.2.1) hcore)).trans (if_neg (by simp [hvalid])) }

end Sys2Proof.Machine
end

section
/-! SUPPORT. The work of a tick leaves the snuffed state and the faults noted in SYS's FAULT_STATUS (R22, R399, R411). -/
namespace Sys2Proof.Machine
open Sys2Proof

-- As above, for the check's memory limit.
set_option Elab.async false

/-! ### The wick logic and the pins -/

section
variable {a : Nat} {s₀ s : State} (hs : Steady a s₀ s)
include hs

protected theorem Steady.setWick {w} : Steady a s₀ (setWick w s) := hs.unless (·.updPair.evt)
protected theorem Steady.dropCold : Steady a s₀ (dropCold s) := hs.unless (·.updPair.when (·.put) |>.unconfigure)
protected theorem Steady.withdraw {w} : Steady a s₀ (withdraw w s) := hs.dropCold.setWick

protected theorem Steady.wickSettle : Steady a s₀ (wickSettle s) := by
  unfold wickSettle
  dsimp only
  split
  · exact hs
  · split
    · exact hs.updPair.when (·.setWick)
    · exact hs.updPair.unless (·.withdraw)
    · exact hs.updPair.unless (·.withdraw)
    · exact hs.updPair.unless (·.withdraw)
    · exact hs.updPair

protected theorem Steady.rampUp : Steady a s₀ (rampUp s) := hs.beginRamp.pwrRunRamp
protected theorem Steady.startRamp : Steady a s₀ (startRamp s) := .rampUp (s := s.updSys fun y => { y with runStart := true }) hs.put

protected theorem Steady.wickLoss : Steady a s₀ (wickLoss s) :=
  hs.setStandby.flushAudio.driveCheck.when (·.runCleared) |>.coldCheck.settle

protected theorem Steady.cutRestore : Steady a s₀ (cutRestore s) :=
  hs.put.when (·.updPair.ite (·.ite (·.startRamp) (·.put.coldCheck)) (·.coldCheck))

protected theorem Steady.setPin {h : HostId} {p : IntPin} : Steady a s₀ (s.setPin h p) := by
  cases h <;> exact hs.put

protected theorem Steady.settlePin {h : HostId} : Steady a s₀ (settlePin h s) := by
  unfold settlePin
  exact hs.ite (·.setPin) (·.unless (·.ite (·.setPin) (·.unless (·.setPin))))

protected theorem Steady.settlePins : Steady a s₀ (settlePins s) := hs.settlePin.settlePin
protected theorem Steady.tickCount : Steady a s₀ (tickCount s) := hs.put
protected theorem Steady.updPtu {f} : Steady a s₀ (updPtu f s) := hs.put
protected theorem Steady.updRsu {f} : Steady a s₀ (updRsu f s) := hs.put
protected theorem Steady.updRef {c f} : Steady a s₀ (updRef c f s) := hs.put
protected theorem Steady.masterCopy : Steady a s₀ (masterCopy s) := hs.when (·.updPtu) |>.when (·.updPtu)
protected theorem Steady.retime {f} : Steady a s₀ (retime f s) := hs.put
protected theorem Steady.realign {f} : Steady a s₀ (realign f s) := hs.retime.put
protected theorem Steady.stepOuts : Steady a s₀ (stepOuts s) := hs.put
protected theorem Steady.macRxTick : Steady a s₀ (macRxTick s) := hs.foldl (·.when (·.put))
protected theorem Steady.pwrTick : Steady a s₀ (pwrTick s) := hs.when (·.foldl (·.when (·.modOff)) |>.driveCheck)

protected theorem Steady.startBoundary : Steady a s₀ (startBoundary s) := by
  unfold startBoundary
  refine hs.when fun hs => ?_
  extract_lets restored t
  have ht : Steady a s₀ t := hs.unless (·.put)
  clear_value t
  exact ht.put

end

/-! ### Registers beyond SYS -/

/-- FAULT_STATUS of SYS. -/
def sysFault : Nat := Blk.sys.base + 0x80

theorem base_ge (b : Blk) : 0x40000000 ≤ b.base := by
  cases b <;> simp only [Blk.base] <;> omega

theorem sysFault_lt_counter (b : Blk) (i : Nat) : sysFault < b.base + 0x90 + 4 * i := by
  have hbase := base_ge b
  have hsys : sysFault = 0x40000080 := rfl
  omega

theorem sysFault_lt_apt (n off : Nat) : sysFault < aptReg n off := by
  have hsys : sysFault = 0x40000080 := rfl
  simp only [aptReg, Blk.base]
  omega

theorem sysFault_lt_pwr (off : Nat) : sysFault < Blk.pwr.base + off := Nat.lt_add_right _ (by decide)
theorem sysFault_lt_lsp (off : Nat) : sysFault < Blk.lsp.base + off := Nat.lt_add_right _ (by decide)
theorem sysFault_lt_spk (n off : Nat) : sysFault < spkReg n off := by
  rw [spkReg, Nat.add_assoc, Nat.add_assoc]
  exact sysFault_lt_lsp _

section
variable {s₀ s : State} (hs : Steady sysFault s₀ s)
include hs

protected theorem Steady.raise {b i} : Steady sysFault s₀ (raise b i s) := (hs.orReg.setReg (sysFault_lt_counter b i)).put.put

/-! ### The detections of a tick -/

protected theorem Steady.cellFrameFaults : Steady sysFault s₀ (cellFrameFaults s) :=
  hs.foldl (·.when (·.raise) |>.when (·.raise) |>.when (·.put))
protected theorem Steady.ldgFrameFault : Steady sysFault s₀ (ldgFrameFault s) := hs.when (·.raise.put)
protected theorem Steady.frameFaults : Steady sysFault s₀ (frameFaults s) := hs.when (·.cellFrameFaults.ldgFrameFault)
protected theorem Steady.macLinkLost {n} : Steady sysFault s₀ (macLinkLost n s) := hs.raise.put.flushQueues.settle
protected theorem Steady.storeCorruptFault : Steady sysFault s₀ (storeCorruptFault s) := hs.raise.put.settle.wickSettle
protected theorem Steady.finishRelease : Steady sysFault s₀ (finishRelease s) := hs.when (·.updPair.raise.wickLoss.cutRestore.ckptRestart)

/-! ### The references -/

protected theorem Steady.setHoldover {v by_} : Steady sysFault s₀ (setFlag 3 v by_ s) := hs.setFlag

protected theorem Steady.setSelRate {rate} : Steady sysFault s₀ (setSelRate rate s) := hs.updPtu.masterCopy
protected theorem Steady.setPulling {v} : Steady sysFault s₀ (setPulling v s) := hs.when (·.evt) |>.put

protected theorem Steady.selUpdate : Steady sysFault s₀ (selUpdate s) := by
  unfold selUpdate
  dsimp only
  split
  · exact hs
  · split
    · exact hs
    · exact hs.setSelRate.updRsu.setPulling

protected theorem Steady.farSwitch {c} : Steady sysFault s₀ (farSwitch c s) := by
  unfold farSwitch
  extract_lets e lim
  exact hs.ite (·.updRsu.raise) (·.updRsu)
protected theorem Steady.selectNone : Steady sysFault s₀ (selectNone s) :=
  hs.when (·.evt.raise) |>.updRsu.setPulling.setSelRate.setHoldover
protected theorem Steady.selectRef {c} : Steady sysFault s₀ (selectRef c s) := hs.farSwitch.updRsu.evt.setHoldover.selUpdate

/-- The tick takes its number from the time, and the chip its time from SRC (R17). -/
protected theorem Steady.aligned {n : Nat} :
    Steady sysFault s₀ (s.updSys fun y => { y with tick := n, aligned := !y.tickLoss, src := true }) := hs.put

protected theorem Steady.endStartup {c} : Steady sysFault s₀ (endStartup realign c s) := by
  unfold endStartup
  extract_lets t u old new v w
  have ht : Steady sysFault s₀ t := hs.updRsu
  have hu : Steady sysFault s₀ u := by
    unfold u
    split
    · exact ht.updPtu.masterCopy
    · exact ht
  have hv : Steady sysFault s₀ v := hu.realign
  have hw : Steady sysFault s₀ w := hv.aligned
  clear_value t w
  split_ifs
  · split
    · exact ht.selectRef
    · exact ht
  · split
    · exact hw.selectRef
    · exact hw

protected theorem Steady.noteBackup : Steady sysFault s₀ (noteBackup s) := hs.unless (·.updRsu.settle)

protected theorem Steady.rsuSelect : Steady sysFault s₀ (rsuSelect realign s) := by
  unfold rsuSelect
  extract_lets tick t
  have ht : Steady sysFault s₀ t := by
    unfold t
    split
    · exact hs.when (·.updRsu)
    · exact hs
  clear_value t
  refine hs.unless fun _ => .noteBackup (ht.ite (·.when (·.selectNone)) (·.ite (·.when (·.endStartup)) fun ht => ?_))
  split
  · exact ht.unless (·.selectRef)
  · exact ht.when (·.selectNone)

protected theorem Steady.enterRef {c st} : Steady sysFault s₀ (enterRef c st s) := hs.unless (·.updRef.when (·.raise) |>.evt)
protected theorem Steady.evalRef {q c} : Steady sysFault s₀ (evalRef q c s) :=
  hs.unless (·.ite (·.enterRef) (·.ite (·.enterRef) (·.ite (·.enterRef) (·.when (·.enterRef)))))
protected theorem Steady.rsuEvaluate {q} : Steady sysFault s₀ (rsuEvaluate realign q s) := hs.foldl (·.evalRef) |>.rsuSelect

/-! ### The boundary of a frame -/

protected theorem Steady.pwrAlarm : Steady sysFault s₀ (pwrAlarm s) := hs.foldl fun ht => by
  split
  · exact ht.when (·.put)
  · exact ht.put.setFld (sysFault_lt_pwr _)
  · exact ht

protected theorem Steady.silClear : Steady sysFault s₀ (silClear s) := hs.put.when (·.evt)
protected theorem Steady.lspAlarm : Steady sysFault s₀ (lspAlarm s) := hs.foldl (·.put)
protected theorem Steady.alarmBoundary : Steady sysFault s₀ (alarmBoundary s) := hs.unless (·.put.when (·.silClear.lspAlarm.pwrAlarm))
protected theorem Steady.boundaryOpen : Steady sysFault s₀ (boundaryOpen s) := hs.when (·.selUpdate.alarmBoundary.startBoundary)

/-! ### The configurations that wait for their block -/

protected theorem Steady.updDir {n d f} : Steady sysFault s₀ (updDir n d f s) := hs.put
protected theorem Steady.updImg {f} : Steady sysFault s₀ (s.updImg f) := hs.put
protected theorem Steady.updSpk {n f} : Steady sysFault s₀ (updSpk n f s) := hs.put
protected theorem Steady.setEn {n d v} : Steady sysFault s₀ (setEn n d v s) := hs.setFld (sysFault_lt_apt _ _)
protected theorem Steady.aptIdle {n d} : Steady sysFault s₀ (aptIdle n d s) := hs.unless (·.updDir.evt) |>.updDir.evt

protected theorem Steady.aptAbort {n d} : Steady sysFault s₀ (aptAbort n d s) := hs.put
protected theorem Steady.admitStart {n d arm} : Steady sysFault s₀ (admitStart n d arm s) := hs.put

protected theorem Steady.aptSetEn {n d arm} : Steady sysFault s₀ (aptSetEn n d arm s) := by
  unfold aptSetEn
  split
  · exact hs.updDir.setEn
  · exact hs.setEn.admitStart

protected theorem Steady.aptClearEn {n d} : Steady sysFault s₀ (aptClearEn n d s) := by
  unfold aptClearEn
  dsimp only
  split
  · exact hs.setEn
  · exact hs.setEn
  · exact hs.setEn.updDir
  · exact hs.setEn.ite (·.updDir) (·.aptIdle)
  · exact hs.setEn.updDir

protected theorem Steady.aptCtrlWrite {n v} : Steady sysFault s₀ (aptCtrlWrite n v s) :=
  hs.setFld (sysFault_lt_apt _ _) |>.ite (·.aptSetEn) (·.when (·.aptClearEn)) |>.ite (·.aptSetEn) (·.when (·.aptClearEn))
    |>.when (·.ite (·.when (·.aptAbort) |>.when (·.aptAbort)) (·.evt))

protected theorem Steady.applyPortSetup {n d ps} : Steady sysFault s₀ (applyPortSetup n d ps s) :=
  hs.foldl (·.ite (·.aptCtrlWrite) (·.setReg (sysFault_lt_apt _ _)))

protected theorem Steady.forgetAptRnd {n d} : Steady sysFault s₀ (forgetAptRnd n d s) := by
  cases d
  · exact hs.put
  · exact hs

protected theorem Steady.portApply {i ps} : Steady sysFault s₀ (portApply i ps s) :=
  hs.aptClearEn.ite (·.updDir) (·.updImg.forgetAptRnd.applyPortSetup.updImg)
protected theorem Steady.portSetups : Steady sysFault s₀ (portSetups s) := hs.foldl (·.when (·.updDir.foldl (·.portApply)))

protected theorem Steady.gainFull {n} : Steady sysFault s₀ (gainFull n s) := hs.updSpk.when (·.evt)
protected theorem Steady.spkCfgWrite {n v} : Steady sysFault s₀ (spkCfgWrite n v s) :=
  hs.setReg (sysFault_lt_spk _ _) |>.ite (·.unless (·.updSpk.updSpk) |>.unless (·.updSpk)) (·.gainFull.lspBlocksOff)
protected theorem Steady.snsCfgWrite {v} : Steady sysFault s₀ (snsCfgWrite v s) := hs.setReg (sysFault_lt_lsp _) |>.put
protected theorem Steady.lspPut {off v} : Steady sysFault s₀ (lspPut off v s) :=
  hs.ite (·.snsCfgWrite) (·.ite (·.spkCfgWrite) (·.setReg (sysFault_lt_lsp _)))
protected theorem Steady.lspGroupReset {g} : Steady sysFault s₀ (lspGroupReset g s) := hs.foldl (·.gainFull.updSpk.updSpk)
protected theorem Steady.applyLspSetup {g ps} : Steady sysFault s₀ (applyLspSetup g ps s) := hs.foldl (·.lspPut) |>.lspGroupReset

protected theorem Steady.updMod {n f} : Steady sysFault s₀ (updMod n f s) := hs.put
protected theorem Steady.chStart1 {n} : Steady sysFault s₀ (chStart1 n s) := by
  unfold chStart1
  split
  · exact hs
  · exact hs
  · exact hs
  · exact hs.updMod.updMod
  · exact hs.updMod

protected theorem Steady.modPut {off v} : Steady sysFault s₀ (modPut off v s) :=
  hs.ite (·.foldl (·.when (·.chStart1))) (·.setReg (sysFault_lt_pwr _))
protected theorem Steady.applyModSetup {ps} : Steady sysFault s₀ (applyModSetup ps s) := hs.foldl (·.modPut)

protected theorem Steady.applyS1Rec {base full r} : Steady sysFault s₀ (applyS1Rec base full s r) := by
  unfold applyS1Rec
  split
  · exact hs.put
  · exact hs.portApply
  · exact hs.applyModSetup
  · exact hs.applyLspSetup
  · exact hs

protected theorem Steady.partialStep : Steady sysFault s₀ (partialStep s) := by
  unfold partialStep
  dsimp only
  split
  · exact hs.ite (·.when (·.foldl (·.portApply) |>.updImg))
      (·.when (·.when (·.foldl (·.applyS1Rec) |>.foldl (·.when (·.chStart1)) |>.updImg)))
  · exact hs

protected theorem Steady.tickRest : Steady sysFault s₀ (tickRest s) :=
  hs.boundaryOpen.macRxTick.stepOuts.pwrTick.portSetups.partialStep.settle.wickSettle

end

end Sys2Proof.Machine
end

section
/-! SUPPORT. The ways into the snuffed state (R408, R410, R411, R413). -/
namespace Sys2Proof.Machine
open Sys2Proof

/-! ### A CHIP fault -/

theorem chipFault_snuffed (b : Blk) (i : Nat) (s : State) : (chipFault b i s).sys.snuffed = true := enterSnuff_snuffed ..

theorem chipFault_fault (b : Blk) {i : Nat} (hi : i < 32) (s : State) : (chipFault b i s).faultBit b i = true :=
  enterSnuff_noted _ (raise_fault b i s hi)

theorem chipFault_spec (b : Blk) (i : Nat) {s : State} (h : s.sys.snuffed = false) : SnuffedBy (.fault b i) s (chipFault b i s) := by
  obtain ⟨hsnuffed, hrun, hstandby, hdrive, hwick, halarm, hcause⟩ := enterSnuff_spec (.fault b i) (s := raise b i s) h
  exact ⟨hsnuffed, hrun, hstandby, hdrive, hwick, halarm, hcause⟩

/-- What follows the entry leaves the chip snuffed by the same cause. -/
theorem SnuffedBy.steady {c : SnuffBy} {s t u : State} {a : Nat} (h : SnuffedBy c s t) (hs : Steady a t u) (hwick : u.pair.wick = .disarmed) :
    SnuffedBy c s u where
  snuffed := hs.snuffed.trans h.snuffed
  run := hs.sys.run h.run
  standby := hs.sys.standby h.standby
  drive := hs.drive h.drive
  wick := hwick
  alarm := hs.alarm.trans h.alarm
  cause hvalid := hs.snuffCause.trans (h.cause hvalid)

/-- DRIVE_EN that is low stays as it is. -/
theorem driveCheck_low {s : State} (h : s.pwr.driveEn = false) : driveCheck s = s := by
  simp [driveCheck, h]

/-- A snuffed chip is not eligible, so its wick logic stays DISARMED (R373). -/
theorem wickSettle_disarmed {s : State} (hsnuffed : s.sys.snuffed = true) (hwick : s.pair.wick = .disarmed) :
    (wickSettle s).pair.wick = .disarmed := by
  have heligible : eligibleNow s = false := by simp [eligibleNow, hsnuffed]
  unfold wickSettle
  split
  · exact hwick
  · simp [State.updPair, heligible, hwick]

/-- The detection of a clock loss (R410). -/
theorem faultDetect_clockLoss_spec (d : Nat) {s : State} (h : s.sys.snuffed = false) :
    SnuffedBy (.fault .sys 2) s (faultDetect .sys 2 d s) ∧ (faultDetect .sys 2 d s).faultBit .sys 2 = true := by
  have hvalid : faultValid .sys 2 = true := by decide
  have hdetect : faultDetect .sys 2 d s = wickSettle (settle (chipFault .sys 2 s)) := if_pos hvalid
  have hfault := chipFault_spec .sys 2 h
  have hsettle := (Steady.refl sysFault (chipFault .sys 2 s)).settle
  have hwick := wickSettle_disarmed (hsettle.snuffed.trans hfault.snuffed) (by rw [settle_pair, hfault.wick])
  rw [hdetect]
  exact ⟨hfault.steady hsettle.wickSettle hwick, hsettle.wickSettle.noted 2 (chipFault_fault .sys (by decide) s)⟩

/-! ### The clock monitor (R410) -/

theorem monitorAct_snuffCause {s : State} (h : bit s.sys.snuffCause 31 = false) :
    (monitorAct s).sys.snuffCause = (SnuffBy.fault .sys 2).cause := by
  rw [monitorAct_eq]
  have hsteady := (Steady.refl 0 (snuffRecord (.fault .sys 2) (s.orReg (Blk.sys.base + 0x80) (bm 2)))).driveFall.setWick (w := .disarmed)
  rw [hsteady.snuffCause, snuffRecord_sys]
  exact if_neg (by simp [State.orReg, State.setReg, h])

/-- The detection of a clock loss is due: the monitor has noted it, and the next tick that runs applies it. -/
structure LossDue (s : State) : Prop where
  due : s.sys.monitorDue = true
  listed : (.sys, 2) ∈ s.sys.redetect
  noted : s.rbit sysFault 2 = true

theorem clkLost_eq (c : ClkSrc) {s : State} (hreset : s.sys.resetN = true) (hsupply : s.sys.suppliesGood = true) :
    clkLost c s = (monitorAct (s.updSys (noteLost c))).updSys fun y =>
      { y with monitorDue := true, redetect := if y.redetect.contains (.sys, 2) then y.redetect else y.redetect ++ [(.sys, 2)] } := by
  unfold clkLost
  extract_lets t
  rw [show (!t.sys.resetN || !t.sys.suppliesGood) = false by simp [t, State.updSys, hreset, hsupply]]
  rfl

theorem clkLost_due (c : ClkSrc) {s : State} (hreset : s.sys.resetN = true) (hsupply : s.sys.suppliesGood = true) : LossDue (clkLost c s) := by
  obtain ⟨hfault, -⟩ := monitorAct_spec (s.updSys (noteLost c))
  rw [clkLost_eq c hreset hsupply]
  generalize monitorAct (s.updSys (noteLost c)) = u at hfault
  refine ⟨rfl, ?_, hfault⟩
  dsimp only [State.updSys]
  split
  next h => exact List.contains_iff_mem.mp h
  next => simp

/-! ### The tick that applies it (R22, R410) -/

/-- A detection leaves a snuffed chip snuffed, and every fault of SYS noted: it either undoes nothing, or snuffs the chip itself. -/
theorem detectAgain_steady_or_snuffed (s : State) (e : Blk × Nat) :
    Steady sysFault s (detectAgain s e) ∨
      (detectAgain s e).sys.snuffed = true ∧ ∀ i, s.rbit sysFault i = true → (detectAgain s e).rbit sysFault i = true := by
  have hchip (b : Blk) (i : Nat) (t : State) (ht : t.regs = s.regs) :
      (chipFault b i t).sys.snuffed = true ∧ ∀ j, s.rbit sysFault j = true → (chipFault b i t).rbit sysFault j = true :=
    ⟨chipFault_snuffed b i t, fun j hj =>
      enterSnuff_noted _ ((Steady.refl sysFault t).raise.noted j ((rbit_congr ht _ _).trans hj))⟩
  unfold detectAgain
  split
  · exact .inl (.refl _ _)
  · split
    · exact .inr (hchip _ _ _ rfl)
    · exact .inl (Steady.refl _ _).storeCorruptFault
    · exact .inr (hchip _ _ _ rfl)
    · exact .inl (Steady.refl _ _).macLinkLost
    · exact .inl (Steady.refl _ _).raise

/-- The chip is snuffed, or its clock monitor has a detection due; and the loss is noted. -/
structure SnuffDue (s : State) : Prop where
  due : s.sys.snuffed = true ∨ s.sys.monitorDue = true
  noted : s.rbit sysFault 2 = true

/-- The chip is snuffed, and the loss is noted. -/
structure LossSnuffed (s : State) : Prop where
  snuffed : s.sys.snuffed = true
  noted : s.rbit sysFault 2 = true

theorem LossSnuffed.steady {s t : State} (h : LossSnuffed s) (hs : Steady sysFault s t) : LossSnuffed t :=
  ⟨hs.snuffed.trans h.snuffed, hs.noted 2 h.noted⟩

theorem SnuffDue.detectAgain {s : State} (h : SnuffDue s) (e : Blk × Nat) : SnuffDue (detectAgain s e) := by
  rcases detectAgain_steady_or_snuffed s e with hs | ⟨hsnuffed, hnoted⟩
  · exact ⟨h.due.imp hs.snuffed.trans hs.monitorDue.trans, hs.noted 2 h.noted⟩
  · exact ⟨.inl hsnuffed, hnoted 2 h.noted⟩

theorem LossSnuffed.detectAgain {s : State} (h : LossSnuffed s) (e : Blk × Nat) : LossSnuffed (detectAgain s e) := by
  rcases detectAgain_steady_or_snuffed s e with hs | ⟨hsnuffed, hnoted⟩
  · exact h.steady hs
  · exact ⟨hsnuffed, hnoted 2 h.noted⟩

/-- The detection of the clock loss, where it is due, snuffs the chip. -/
theorem SnuffDue.detectLoss {s : State} (h : SnuffDue s) : LossSnuffed (Machine.detectAgain s (.sys, 2)) := by
  rcases h.due with hsnuffed | hdue
  · exact LossSnuffed.detectAgain ⟨hsnuffed, h.noted⟩ _
  · have hdetect : Machine.detectAgain s (.sys, 2) = chipFault .sys 2 (s.updSys fun y => { y with monitorDue := false }) := by
      simp [Machine.detectAgain, detectSure, hdue]
    rw [hdetect]
    exact ⟨chipFault_snuffed .., chipFault_fault .sys (by decide) _⟩

/-- Whatever stands before it and after it in the list, the detection of the loss snuffs the chip. -/
theorem LossDue.detectDue {s : State} (h : LossDue s) : LossSnuffed (detectDue s) := by
  obtain ⟨before, after, hlist⟩ := List.append_of_mem h.listed
  have hstart : SnuffDue (s.updSys fun y => { y with redetect := [] }) := ⟨.inr h.due, h.noted⟩
  have hbefore := before.foldlRecOn (motive := SnuffDue) Machine.detectAgain hstart fun _ ht e _ => ht.detectAgain e
  unfold Machine.detectDue
  rw [hlist, List.foldl_append, List.foldl_cons]
  exact after.foldlRecOn (motive := LossSnuffed) Machine.detectAgain hbefore.detectLoss fun _ ht e _ => ht.detectAgain e

theorem LossDue.steady {s t : State} (h : LossDue s) (hs : Steady sysFault s t) : LossDue t :=
  ⟨hs.monitorDue.trans h.due, hs.redetect ▸ h.listed, hs.noted 2 h.noted⟩

/-- A clock loss that is due takes the chip to the snuffed state in the next tick that runs. -/
theorem LossDue.eventTick {s : State} (h : LossDue s) (hrun : ticksRun s = true) : LossSnuffed (eventTick s) := by
  have hdetected := (h.steady (Steady.refl _ s).settlePins.tickCount.frameFaults).detectDue
  rw [eventTick_of_ticksRun hrun, tickDetections]
  generalize Machine.detectDue (frameFaults (tickCount (settlePins s))) = t at hdetected ⊢
  exact hdetected.steady (Steady.refl _ t).finishRelease.masterCopy.rsuEvaluate.tickRest

/-! ### The obligation -/

theorem hostCause (h : HostId) : (SnuffBy.host h.master).cause = pack [(31, 1), (30, 1), (26, h.idx + 1)] := by
  cases h <;> decide

/-- Settles O4: `enterSnuff_spec` is the entry, which every way shares; what follows it in a command is steady. A clock loss is noted by the
monitor's act, and `LossDue.eventTick` follows it through the detections of the next tick. -/
theorem entryToTheSnuffedState : Obligations.EntryToTheSnuffedState := by
  intro s hsnuffed
  refine ⟨fun h hmay => ?_, ?_, ?_, fun d => ?_, fun c hreset hsupply => ?_⟩
  · obtain ⟨hin, hrun, hstandby, hdrive, hwick, halarm, hcause⟩ := enterSnuff_spec (.host h.master) hsnuffed
    exact ⟨respond h.master .ok [] (enterSnuff (.host h.master) s), congrArg Host.Outcome.next (cmd_ok hmay.1 (.inr hmay.2)),
      resp_respond_same .., hin, hrun, hstandby, hdrive, hwick, halarm, fun hvalid => (hcause hvalid).trans (hostCause h)⟩
  · obtain ⟨hin, hrun, hstandby, hdrive, hwick, -, hcause⟩ := chipFault_spec .ptu 0 hsnuffed
    exact ⟨_, rfl, hin, hrun, hstandby, hdrive, hwick, chipFault_fault .ptu (by decide) s, fun hvalid => (hcause hvalid).trans (by decide)⟩
  · obtain ⟨hin, hrun, hstandby, hdrive, hwick, -, hcause⟩ := chipFault_spec .pwr 7 (s := padStuck s) hsnuffed
    exact ⟨_, congrArg Host.Outcome.next (driveCheck_low hdrive), hin, hrun, hstandby, hdrive, hwick,
      chipFault_fault .pwr (by decide) (padStuck s), fun hvalid => (hcause hvalid).trans (by decide)⟩
  · obtain ⟨⟨hin, hrun, hstandby, hdrive, hwick, -, hcause⟩, hfault⟩ := faultDetect_clockLoss_spec d hsnuffed
    exact ⟨_, rfl, hin, hrun, hstandby, hdrive, hwick, hfault, fun hvalid => (hcause hvalid).trans (by decide)⟩
  · have hdue := clkLost_due c hreset hsupply
    refine ⟨clkLost c s, rfl, ?_⟩
    obtain ⟨hfault, -, hdrive, hwick, w, hsys⟩ := monitorAct_spec (s.updSys (noteLost c))
    have hcause := monitorAct_snuffCause (s := s.updSys (noteLost c))
    have htick (hrun : ticksRun (clkLost c s) = true) :
        ∃ u, exec .eventTick (clkLost c s) = .next u ∧ u.sys.snuffed = true ∧ u.faultBit .sys 2 = true :=
      ⟨_, rfl, (hdue.eventTick hrun).snuffed, (hdue.eventTick hrun).noted⟩
    rw [clkLost_eq c hreset hsupply] at htick ⊢
    generalize monitorAct (s.updSys (noteLost c)) = u at *
    have hlost : c ∈ u.sys.clockLost := hsys ▸ mem_noteLost c s.sys
    have hin : u.sys.snuffed = false := by rw [hsys]; exact hsnuffed
    have hrun : u.sys.run = s.sys.run := by rw [hsys]; rfl
    exact ⟨hdrive, hwick, hfault, hlost, hin, hrun, fun hvalid => (hcause hvalid).trans (by decide), htick⟩

end Sys2Proof.Machine
end
